-- ==== Sys2Proof/Word.lean ====
section
/-! DEFINITION. The word types of the Halaris U9 model and nothing else. -/

namespace Sys2Proof

/-- One byte of memory (R11: fields are little-endian sequences of bytes). -/
abbrev Byte := BitVec 8

/-- One 32-bit register or sequencer word (R341, R51). -/
abbrev Word := BitVec 32

/-- One 64-bit register, address or time-base value (R341, R440). -/
abbrev Word64 := BitVec 64

/-- A tile ID: partition [8:6], cluster [5:3], tile [2:0] (R17). -/
abbrev TileId := BitVec 9

/-- A cluster of the die: partition [5:3], cluster [2:0] (R18). -/
abbrev ClusterId := BitVec 6

/-- A partition PT0 to PT7 (R18). -/
abbrev PartId := BitVec 3

/-- A mailbox 0 to 15 (R343). -/
abbrev MbxId := BitVec 4

/-- A Frieze port 0 to 5 (R459). -/
abbrev FriezePort := Fin 6

/-- A requester of the tile-move arbiter, 0 to 10 (R161). -/
abbrev Requester := Fin 11

end Sys2Proof
end

