-- ==== Sys2Proof/Syntax.lean ====
section
/-! DEFINITION. The commands of the block: one constructor of `Instr` per row of spec/opcode_table.json, with the operands the spec's chapters give the row. -/

namespace Sys2Proof

/-- The path an access to the host window comes from (R341, R344). -/
inductive Path where
  | pcie
  | frieze (node : BitVec 10)
deriving DecidableEq, Repr

/-- The fields a command header carries beside its opcode (R354). -/
structure CmdHdr where
  tag : BitVec 16
  length : Nat
  timeout : Nat
deriving DecidableEq, Repr

/-- A buffer reference (R356). -/
structure Bref where
  addr : Nat
  len : Nat
deriving DecidableEq, Repr

/-- One entry of a binding list: slot and object ID (R359). -/
structure BindEntry where
  slot : Nat
  object : Nat
deriving DecidableEq, Repr

/-- The per-port fields of a `TIME_CONFIG` payload (R356). -/
structure PtpPortCfg where
  mode : Nat
  step : Nat
  delay : Nat
  transport : Nat
  domain : Nat
  logSync : Int
  logDelayReq : Int
deriving DecidableEq, Repr

/-- The twenty-four sequencer words of R51, fields as encoded ("−1" fields hold the value minus one). -/
inductive SeqWord where
  | nop
  | setp (p : BitVec 4) (addr : BitVec 16)
  | addp (p : BitVec 4) (inc : BitVec 16)
  | setmode (a b out : BitVec 4) (bp : BitVec 5) (sr : Bool)
  | loop (k : BitVec 3) (countM1 : BitVec 12) (endAddr : BitVec 12)
  | accz (set : BitVec 1)
  | mma (pa pb : BitVec 4) (kM1 : BitVec 6) (set : BitVec 1) (post : Bool)
  | accrd (dst : BitVec 4) (set : BitVec 1) (scale : BitVec 4) (scaleEn : Bool)
  | vop (sub : BitVec 6) (dst s1 s2 : BitVec 4) (rowsM1 : BitVec 9)
  | vpoly (table dst src : BitVec 4) (rowsM1 : BitVec 9)
  | vred (sub : BitVec 3) (axis : BitVec 1) (dst src : BitVec 4) (rowsM1 : BitVec 9)
  | xpose (size : BitVec 2) (dst src : BitVec 4)
  | shuf (table dst src : BitVec 4) (rowsM1 : BitVec 9)
  | spop (sub : BitVec 4) (fmt : BitVec 1) (d s1 s2 s3 : BitVec 5)
  | sls (dir : BitVec 1) (s : BitVec 5) (base : BitVec 4) (word : BitVec 2)
  | tmove (slot : BitVec 6) (sem loc : BitVec 4) (k : BitVec 3) (indexed : Bool)
  | send (port : BitVec 2) (vt : BitVec 9) (src : BitVec 4) (flitsM1 : BitVec 12)
  | recv (port : BitVec 2) (dst : BitVec 4) (vt : BitVec 9) (flitsM1 : BitVec 12)
  | wait (sem : BitVec 4) (count : BitVec 16)
  | signal (sem : BitVec 4) (vt : BitVec 9) (inc : BitVec 8)
  | fence (stream moves loc : Bool)
  | mark (index : BitVec 8)
  | commit (group : BitVec 4)
  | endWord
deriving DecidableEq, Repr

/-- A detector event as it is presented to the event machinery (R367, R408, R410). -/
structure DetEvent where
  detector : Nat
  partition : Nat
  job : Nat
  cause : Nat
  unit : Nat
  value : Nat
  /-- The T1 error met a clean line (R410: severity of 0x04), or another two-way severity of R410. -/
  mild : Bool
deriving DecidableEq, Repr

/-- The units of a tile that complete words (R40, R43). -/
inductive UnitId where
  | cellArray | drain | vector | transpose | scalar
  | sendDir (port : BitVec 2)
deriving DecidableEq, Repr

/-- One symbol error of a codeword read: codeword of the burst, symbol 0 to 35, pattern (R154, R157). -/
structure SymErr where
  codeword : Nat
  symbol : Nat
  pattern : BitVec 4
deriving DecidableEq, Repr

/-- The data set of a received Announce message that the default best master clock algorithm compares (R449). -/
structure AnnounceData where
  priority1 : Nat
  clockClass : Nat
  clockAccuracy : Nat
  variance : Nat
  priority2 : Nat
  grandmaster : Nat
  stepsRemoved : Nat
  sender : Nat
  utcOffset : Nat
  utcValid : Bool
deriving DecidableEq, Repr

/-- A Frieze frame's header fields that the node acts on (R460). -/
structure FrameHdr where
  dest : BitVec 10
  src : BitVec 10
  vc : BitVec 2
  linkSeq : BitVec 12
  linkAck : BitVec 12
  creditVc : BitVec 2
  credits : BitVec 6
  address : Nat
  tag : BitVec 28
  attempt : BitVec 4
  /-- The frame passed its CRC and overlaps no uncorrectable codeword (R465). -/
  crcOk : Bool
  fecOk : Bool
deriving DecidableEq, Repr

/-- One port entry of a node's report (R461, kind 0x0011). -/
structure ReportPort where
  state : Nat
  partnerPort : Nat
  partnerNode : Nat
deriving DecidableEq, Repr

/-- A node's report to its registrar (R461, R474). -/
structure Report where
  identity : Nat
  bootCount : Nat
  nodeId : Nat
  preferred : Nat
  assigned : Nat
  ports : List ReportPort
deriving DecidableEq, Repr

/-- One changed route entry (R461, kind 0x0013). -/
structure RouteEntry where
  dest : Nat
  port : Nat
  valid : Bool
  hops : Nat
deriving DecidableEq, Repr

/-- What the voltage loop of a cluster reads: the replica path's margin, and the cluster's temperature in 0.1 °C; the spec gives the rules and not the readings (R380, R527, R528). -/
structure LoopReading where
  cluster : ClusterId
  margin : Int
  temp : Int
deriving DecidableEq, Repr

/-- The commands of the block. Every constructor is one row of spec/opcode_table.json. -/
inductive Instr where
  -- sequencer words (R51 to R71)
  | nop (t : TileId)
  | setp (t : TileId) (p : BitVec 4) (addr : BitVec 16)
  | addp (t : TileId) (p : BitVec 4) (inc : BitVec 16)
  | setmode (t : TileId) (a b out : BitVec 4) (bp : BitVec 5) (sr : Bool)
  | loop (t : TileId) (k : BitVec 3) (countM1 : BitVec 12) (endAddr : BitVec 12)
  | accz (t : TileId) (set : BitVec 1)
  | mma (t : TileId) (pa pb : BitVec 4) (kM1 : BitVec 6) (set : BitVec 1) (post : Bool)
  | accrd (t : TileId) (dst : BitVec 4) (set : BitVec 1) (scale : BitVec 4) (scaleEn : Bool)
  | vop (t : TileId) (sub : BitVec 6) (dst s1 s2 : BitVec 4) (rowsM1 : BitVec 9)
  | vpoly (t : TileId) (table dst src : BitVec 4) (rowsM1 : BitVec 9)
  | vred (t : TileId) (sub : BitVec 3) (axis : BitVec 1) (dst src : BitVec 4) (rowsM1 : BitVec 9)
  | xpose (t : TileId) (size : BitVec 2) (dst src : BitVec 4)
  | shuf (t : TileId) (table dst src : BitVec 4) (rowsM1 : BitVec 9)
  | spop (t : TileId) (sub : BitVec 4) (fmt : BitVec 1) (d s1 s2 s3 : BitVec 5)
  | sls (t : TileId) (dir : BitVec 1) (sreg : BitVec 5) (base : BitVec 4) (word : BitVec 2)
  | tmove (t : TileId) (slot : BitVec 6) (sem loc : BitVec 4) (k : BitVec 3) (indexed : Bool)
  | send (t : TileId) (port : BitVec 2) (vt : BitVec 9) (src : BitVec 4) (flitsM1 : BitVec 12)
  | recv (t : TileId) (port : BitVec 2) (dst : BitVec 4) (vt : BitVec 9) (flitsM1 : BitVec 12)
  | recvFilled (t : TileId) (port : BitVec 2)
  | wait (t : TileId) (sem : BitVec 4) (count : BitVec 16)
  | waitSatisfied (t : TileId)
  | signal (t : TileId) (sem : BitVec 4) (vt : BitVec 9) (inc : BitVec 8)
  | fence (t : TileId) (stream moves loc : Bool)
  | mark (t : TileId) (index : BitVec 8)
  | commitWord (t : TileId) (group : BitVec 4)
  | endWord (t : TileId)
  | illegalWord (t : TileId) (word : Word)
  | flitParityError (router dest : TileId)
  | unitWordComplete (t : TileId) (u : UnitId)
  -- moves, arbiter, memory (R117 to R169)
  | arbiterRequest (p : PartId) (r : Requester) (cls : Nat) (bytes : Nat) (job : Nat)
  | arbiterGrant (p : PartId) (errs : List SymErr)
  | turnEstimateUpdate (p : PartId)
  | arbiterProtocolBreach (p : PartId) (engine : BitVec 3) (r : Requester) (job : Nat)
  | transferWritten (p : PartId) (engine : BitVec 3)
  | lateThresholdExpiry (c : ClusterId) (runId : Nat)
  | scrubBurst (p : PartId) (errs reread : List SymErr)
  | scrubWindowBoundary (p : PartId)
  | dramRefresh (p : PartId) (bank : BitVec 4)
  | bar2Read (offset : BitVec 28) (size : Nat)
  | bar2Write (offset : BitVec 28) (data : List Byte)
  -- hang detector, jobs, invocations
  | hangCheck
  | invocationStart (job : Nat)
  | periodicStartInstant (job : Nat)
  | spillWritten (entry : Nat)
  | attnPassStart (job : Nat)
  | pageRecallWritten (entry : Nat)
  | gatePassPrepare (job : Nat)
  | epochCutoff (job : Nat)
  | ingressWrite (object : Nat) (entry : List Byte)
  | swapOutWritten (p : PartId) (stream : Nat)
  | swapInWritten (p : PartId) (stream : Nat)
  | invocationCommit (job : Nat)
  | milestoneDue (job : Nat)
  | leaseLoadComplete (job : Nat)
  | switchSaveWritten (job : Nat)
  | switchReloadComplete (job : Nat)
  | shadowEstablish (job : Nat)
  -- faults and recovery
  | detectorEvent (e : DetEvent)
  | castReadTimeout (p : PartId) (kind : Nat) (unit : Nat)
  | castComplete (p : PartId)
  | sliceWriteBackComplete (p : PartId)
  | partitionResetRelease (p : PartId)
  | dramTrainingComplete (p : PartId) (ok : Bool)
  | partitionInService (p : PartId)
  | atelierWatchdogExpiry
  | atelierMemoryUncorrected
  | injectionDisarm
  -- mailbox commands (R354 to R361)
  | commandFetch (m : MbxId)
  | commandTimeout (m : MbxId)
  | undefinedOpcode (m : MbxId) (h : CmdHdr) (opcode : BitVec 16)
  | identify (m : MbxId) (h : CmdHdr)
  | getLimits (m : MbxId) (h : CmdHdr)
  | plinthRead (m : MbxId) (h : CmdHdr) (offset : Nat) (b : Bref)
  | reliefList (m : MbxId) (h : CmdHdr) (b : Bref)
  | reliefApply (m : MbxId) (h : CmdHdr) (relief : Nat)
  | objCreate (m : MbxId) (h : CmdHdr) (length : Nat) (flags : BitVec 16)
  | objPlace (m : MbxId) (h : CmdHdr) (object tier partition node : Nat) (offset : Word64)
  | objWrite (m : MbxId) (h : CmdHdr) (object offset : Nat) (b : Bref)
  | objRead (m : MbxId) (h : CmdHdr) (object offset : Nat) (b : Bref)
  | objFree (m : MbxId) (h : CmdHdr) (object : Nat)
  | objDelta (m : MbxId) (h : CmdHdr) (object : Nat) (b : Bref)
  | imageLoad (m : MbxId) (h : CmdHdr) (object : Nat)
  | imageUnload (m : MbxId) (h : CmdHdr) (image : Nat)
  | jobSubmit (m : MbxId) (h : CmdHdr) (image cls : Nat) (flags : BitVec 8) (periodNs count : Nat) (bindings : List BindEntry) (b : Bref)
  | jobCancel (m : MbxId) (h : CmdHdr) (job mode : Nat)
  | jobQuery (m : MbxId) (h : CmdHdr) (job : Nat) (b : Bref)
  | jobFeed (m : MbxId) (h : CmdHdr) (job kind rowCount rowSize : Nat) (b : Bref)
  | jobSetFallback (m : MbxId) (h : CmdHdr) (job image : Nat)
  | streamOpen (m : MbxId) (h : CmdHdr) (job count : Nat) (b : Bref)
  | streamResetRows (m : MbxId) (h : CmdHdr) (job count : Nat) (b : Bref)
  | streamPark (m : MbxId) (h : CmdHdr) (job count : Nat) (b : Bref)
  | streamClose (m : MbxId) (h : CmdHdr) (job count : Nat) (b : Bref)
  | kvPrefixPin (m : MbxId) (h : CmdHdr) (sequence count key : Nat)
  | kvRelease (m : MbxId) (h : CmdHdr) (kind key : Nat)
  | timeConfig (m : MbxId) (h : CmdHdr) (mask : Nat) (jumpLimit increment : Nat) (port0 port1 : PtpPortCfg) (holdover : Nat)
  | timeForce (m : MbxId) (h : CmdHdr) (newTime : Word64)
  | fabricStatus (m : MbxId) (h : CmdHdr) (b : Bref)
  | fabricJoinPolicy (m : MbxId) (h : CmdHdr) (policy count : Nat) (b : Bref)
  | faultInjectArm (m : MbxId) (h : CmdHdr) (windowMs : Nat)
  | faultStatus (m : MbxId) (h : CmdHdr) (b : Bref)
  | castFetch (m : MbxId) (h : CmdHdr) (partition which : Nat) (b : Bref)
  | partitionReset (m : MbxId) (h : CmdHdr) (partition path : Nat)
  | patinaRead (m : MbxId) (h : CmdHdr) (sect offset : Nat) (b : Bref)
  | calendarSet (m : MbxId) (h : CmdHdr) (seconds nanoseconds : Nat)
  | fwStage (m : MbxId) (h : CmdHdr) (target : Nat) (b : Bref)
  | fwCommit (m : MbxId) (h : CmdHdr) (target : Nat)
  | attest (m : MbxId) (h : CmdHdr) (nonce : List Byte) (b : Bref)
  | powerMode (m : MbxId) (h : CmdHdr) (state cap : Nat)
  -- host-window accesses
  | dblCmd (path : Path) (m : MbxId) (value : Word)
  | dblCpl (path : Path) (m : MbxId) (value : Word)
  | mailboxEnable (path : Path) (m : MbxId) (value : Word)
  | mailboxDisable (path : Path) (m : MbxId) (value : Word)
  | mbxLostRead (path : Path) (m : MbxId)
  | evtStatusClear (path : Path) (value : Word)
  | fltStatusClear (path : Path) (value : Word)
  | injectionRequest (path : Path) (value : Word)
  | fltInjDoneRead (path : Path)
  | timIncrWrite (path : Path) (value : Word64)
  | timAdjWrite (path : Path) (value : Word64)
  | timLowWordRead (path : Path) (offset : BitVec 16)
  | timStatusClear (path : Path) (value : Word)
  | tsqPop (path : Path) (port : BitVec 1)
  | tsqDroppedRead (path : Path) (port : BitVec 1)
  | tsqDisable (path : Path) (port : BitVec 1)
  | tsqStatusClear (path : Path) (port : BitVec 1) (value : Word)
  | windowLowWordWrite (path : Path) (offset : BitVec 16) (value : Word)
  | windowHighWordWrite (path : Path) (offset : BitVec 16) (value : Word)
  | badSizeAccess (path : Path) (offset : BitVec 16) (size : Nat) (isWrite : Bool)
  | registerWrite (path : Path) (offset : BitVec 16) (size : Nat) (value : Word64)
  -- time base and PTP
  | timeBaseTick
  | sync (port : BitVec 1) (sender : Nat) (domain : Nat) (rxStamp origin correction : Int) (twoStep : Bool)
  | followUp (port : BitVec 1) (sender : Nat) (domain : Nat) (origin correction : Int)
  | delayReq (port : BitVec 1) (sender : Nat) (domain : Nat) (rxStamp : Int)
  | delayResp (port : BitVec 1) (sender : Nat) (domain : Nat) (masterRx correction : Int)
  | pdelayReq (port : BitVec 1) (sender : Nat) (domain : Nat) (rxStamp : Int)
  | pdelayResp (port : BitVec 1) (sender : Nat) (domain : Nat) (rxStamp peerRx correction : Int) (twoStep : Bool)
  | pdelayRespFollowUp (port : BitVec 1) (sender : Nat) (domain : Nat) (peerTx correction : Int)
  | announce (port : BitVec 1) (domain : Nat) (d : AnnounceData)
  | ptpMessageDiscard (port : BitVec 1)
  | ptpMessageSend (port : BitVec 1) (kind : Nat)
  | followUpAbandon (port : BitVec 1)
  | announceReceiptTimeout (port : BitVec 1)
  | holdoverExceeded
  | calendarUpdate
  -- external ports
  | serviceFrameReceived (port : BitVec 1) (frame : List Byte) (fcsOk isPtp : Bool)
  | serviceFrameTransmit (port : BitVec 1)
  | transmitRingPoll (object : Nat)
  | boundaryFrameReceived (frame : List Byte) (fcsOk : Bool)
  | perstNAssert
  | downstreamInboundAccess (addr : Nat) (isWrite : Bool) (size : Nat) (data : List Byte)
  | frameStart (camera : BitVec 3) (vc dataType frameNumber : Nat)
  | cameraLine (camera : BitVec 3) (vc dataType : Nat) (samples : List Nat) (eccCorrected crcError : Bool)
  | frameEnd (camera : BitVec 3) (vc : Nat)
  | frameSyncPulse (camera : BitVec 3)
  | cameraGroupPowerOn (group : BitVec 1)
  | canFrameReceived (channel : BitVec 2) (ident : Word) (data : List Byte)
  | canFrameTransmit (channel : BitVec 2) (wonArbitration : Bool)
  | canFrameAbandon (channel : BitVec 2)
  | canBusOff (channel : BitVec 2)
  | dataReadyEdge (spi : BitVec 2)
  | spiTransactionComplete (spi : BitVec 2) (response : List Byte)
  | encoderEdge (encoder : BitVec 3) (a b index : Bool)
  | encoderSample
  | haltReqAccept
  | jtagBypass (tdi : Bool)
  | jtagIdcode
  | jtagSamplePreload (boundary : List Bool)
  | jtagExtest (boundary : List Bool)
  | jtagDebugAccess (target : Nat) (addr : Nat) (isWrite : Bool) (data : List Byte)
  | jtagNorProgram (flash : BitVec 1) (offset : Nat) (data : List Byte)
  -- Frieze
  | writeRequest (port : FriezePort) (h : FrameHdr) (data : List Byte)
  | readRequest (port : FriezePort) (h : FrameHdr) (blocks : BitVec 6)
  | readData (port : FriezePort) (h : FrameHdr) (data : List Byte)
  | writeAcknowledgement (port : FriezePort) (h : FrameHdr)
  | linkControl (port : FriezePort) (h : FrameHdr)
  | failureResponse (port : FriezePort) (h : FrameHdr) (status : Nat)
  | windowRead (port : FriezePort) (node : BitVec 10) (seq : Word) (offset : Nat) (size : Nat) (bodyLen : Nat)
  | windowWrite (port : FriezePort) (node : BitVec 10) (seq : Word) (offset : Nat) (size : Nat) (value : Word64) (bodyLen : Nat)
  | lowestIdentity (port : FriezePort) (identity bootCount : Nat)
  | report (port : FriezePort) (seq : Word) (r : Report)
  | idAssignment (port : FriezePort) (seq : Word) (identity nodeId assigned : Nat)
  | routeEntries (port : FriezePort) (seq : Word) (generation : Nat) (entries : List RouteEntry) (last : Bool)
  | routePhaseReissue
  | phaseDone (port : FriezePort) (seq : Word) (node generation : Nat)
  | release (port : FriezePort) (seq : Word) (generation : Nat)
  | reservationRequest (port : FriezePort) (node : BitVec 10) (seq : Word) (length : Nat) (partition : Byte) (bootCount : Nat) (offset : Word64)
  | reservationResponse (port : FriezePort) (node : BitVec 10) (seq : Word) (status : Nat) (rid : Nat) (base : Nat)
  | reservationRelease (port : FriezePort) (node : BitVec 10) (seq : Word) (rid : Nat)
  | reservationFailureNotice (port : FriezePort) (node : BitVec 10) (rid : Nat) (cause : Nat)
  | helloNonce (port : FriezePort) (identity : Nat) (nonce : List Byte)
  | helloProof (port : FriezePort) (sigR sigS : Nat) (devCert caCert : List Byte)
  | helloVerdict (port : FriezePort) (verdict : Nat) (mergedNodes : Nat)
  | managementRequestTimeout (seq : Word)
  | t3RequestTimeout (tag : BitVec 28)
  | creditTimeout (port : FriezePort) (vc : BitVec 2)
  | linkIdleTimeout (port : FriezePort)
  | linkSignalLoss (port : FriezePort)
  | linkIdleFrameSend (port : FriezePort)
  | identityBroadcast
  | signalDetect (port : FriezePort)
  | trainingBoundMiss (port : FriezePort)
  | trainingComplete (port : FriezePort) (usable : BitVec 4)
  | linkFullPathEnd (port : FriezePort)
  | equalisationUpdate (port : FriezePort)
  | widthChange (port : FriezePort) (usable : BitVec 4)
  | undefinedKindRequest (port : FriezePort) (node : BitVec 10) (seq : Word) (kind : Nat)
  | reservedFrameType (port : FriezePort) (ty : BitVec 4)
  | windowAccessResponse (port : FriezePort) (seq : Word) (status : Nat) (value : Word64)
  | retrainComplete (port : FriezePort)
  -- start-up, power, Patina
  | powerOn (root cellOk pufOk : Bool)
  | firmwareStart (dieTemp : Int)
  | mailboxReady
  | powerFailDetect
  | inputUndervoltage (mV : Nat)
  | inputRecovered
  | overvoltage (cause : Nat) (mV : Nat)
  | partitionRailOvervoltage (p : PartId) (mV : Nat)
  | partitionRailUndervoltage (p : PartId) (mV : Nat)
  | temperatureWarning (cause : Nat) (celsius : Int)
  | temperatureCritical (cause : Nat) (celsius : Int)
  | temperatureWarningClear
  | clockLoss (cause : Nat) (ppm : Int)
  | protectiveStopEnd (root cellOk pufOk : Bool)
  | wakeN (root cellOk pufOk : Bool)
  | wakeComplete
  | powerAverageWindow (averageTenthsW inputMv : Nat) (case0 case1 : Int)
  | voltageLoopPeriod (r : LoopReading)
  | voltageLoopLimit (c : ClusterId)
  | droopStretch (c : ClusterId)
  | excessDroopStretch (c : ClusterId)
  | partitionRailLoop (p : PartId) (pmbusOk : Bool) (sliceTemp : Int)
  | patinaFold
  | patinaCommit (cause : Nat)
  | eventLogDrain
  | canBusOffRecovery (channel : BitVec 2)
  | powerFailSequenceEnd
  | backupCellLow
deriving DecidableEq, Repr

end Sys2Proof
end

