-- ==== Sys2Proof/Decode.lean ====
section
/-! DEFINITION. Decoding. No row of the command table gives bits, so no word spells a command; the sequencer words of R51, which the firmware checks at `IMAGE_LOAD` and the sequencer reads from its program store, do have an encoding, read and written here. -/

namespace Sys2Proof

/-- The command that a word spells by the table's bits: none, since no row of the table gives any. -/
def decodeTableWord (_nbits _w : Nat) : Option Instr := none

/-- The `n` bits of a sequencer word from bit `lo` up (R11). -/
def field (w : Word) (lo n : Nat) : BitVec n := w.extractLsb' lo n

/-- Whether a flag bit is set. -/
def bit (w : Word) (i : Nat) : Bool := w.getLsbD i

/-- The formats a `SETMODE` word may name as A: every format but TRIB (R88). -/
def aFormatOk (a : BitVec 4) : Bool := a.toNat ≤ 10 && a.toNat != 8

/-- The A and B pairs of the cell-array modes table (R25, R26). -/
def pairOk (a b : BitVec 4) : Bool :=
  match a.toNat, b.toNat with
  | 6, 6 | 7, 7 | 5, 5 | 6, 8 | 9, 9 | 0, 0 | 10, 10 => true
  | 3, 3 | 3, 4 | 4, 3 | 4, 4 => true
  | 1, 1 | 1, 2 | 2, 1 | 2, 2 => true
  | _, _ => false

/-- R55, R88: a `SETMODE` word is legal. -/
def setmodeOk (a b out : BitVec 4) (bp : BitVec 5) : Bool :=
  pairOk a b && aFormatOk out && (out.toNat != 9 || bp.toNat ≤ 15)

/-- Every field of the word lies in its stated range, in the widest range of any mode (R51, R53). -/
def SeqWord.fieldsOk : SeqWord → Bool
  | .setmode a b out bp _ => setmodeOk a b out bp
  | .vop sub _ _ _ _ => sub.toNat ≤ 0x0D
  | .vred sub _ _ _ _ => sub.toNat ≤ 3
  | .spop sub _ _ _ _ _ => sub.toNat ≤ 9
  | .wait _ count => count.toNat != 0
  | .signal _ _ inc => inc.toNat != 0
  | .fence st mv loc => st || mv || loc
  | .nop | .setp .. | .addp .. | .loop .. | .accz .. | .mma .. | .accrd .. | .vpoly .. | .xpose ..
  | .shuf .. | .sls .. | .tmove .. | .send .. | .recv .. | .mark .. | .commit .. | .endWord => true

/-- The word an encoding stands for when its reserved fields are 0, before the range checks (R51, R52). -/
def readSeq (w : Word) : Option SeqWord :=
  match (field w 27 5).toNat with
  | 0x00 => if field w 0 27 = 0 then some .nop else none
  | 0x01 => if field w 16 7 = 0 then some (.setp (field w 23 4) (field w 0 16)) else none
  | 0x02 => if field w 16 7 = 0 then some (.addp (field w 23 4) (field w 0 16)) else none
  | 0x03 =>
    if field w 0 9 = 0 then
      some (.setmode (field w 23 4) (field w 19 4) (field w 15 4) (field w 10 5) (bit w 9))
    else none
  | 0x04 => some (.loop (field w 24 3) (field w 12 12) (field w 0 12))
  | 0x05 => if field w 0 26 = 0 then some (.accz (field w 26 1)) else none
  | 0x06 =>
    if field w 0 11 = 0 then
      some (.mma (field w 23 4) (field w 19 4) (field w 13 6) (field w 12 1) (bit w 11))
    else none
  | 0x07 =>
    if field w 0 17 = 0 then
      some (.accrd (field w 23 4) (field w 22 1) (field w 18 4) (bit w 17))
    else none
  | 0x08 => some (.vop (field w 21 6) (field w 17 4) (field w 13 4) (field w 9 4) (field w 0 9))
  | 0x09 =>
    if field w 21 2 = 0 ∧ field w 9 4 = 0 then
      some (.vpoly (field w 23 4) (field w 17 4) (field w 13 4) (field w 0 9))
    else none
  | 0x0A =>
    if field w 21 2 = 0 ∧ field w 9 4 = 0 then
      some (.vred (field w 24 3) (field w 23 1) (field w 17 4) (field w 13 4) (field w 0 9))
    else none
  | 0x0B =>
    if field w 21 4 = 0 ∧ field w 0 13 = 0 then
      some (.xpose (field w 25 2) (field w 17 4) (field w 13 4))
    else none
  | 0x0C =>
    if field w 21 2 = 0 ∧ field w 9 4 = 0 then
      some (.shuf (field w 23 4) (field w 17 4) (field w 13 4) (field w 0 9))
    else none
  | 0x0D =>
    if field w 0 2 = 0 then
      some (.spop (field w 23 4) (field w 22 1) (field w 17 5) (field w 12 5) (field w 7 5) (field w 2 5))
    else none
  | 0x0E =>
    if field w 0 15 = 0 then some (.sls (field w 26 1) (field w 21 5) (field w 17 4) (field w 15 2)) else none
  | 0x0F =>
    if field w 0 9 = 0 then
      some (.tmove (field w 21 6) (field w 17 4) (field w 13 4) (field w 10 3) (bit w 9))
    else none
  | 0x10 => some (.send (field w 25 2) (field w 16 9) (field w 12 4) (field w 0 12))
  | 0x11 => some (.recv (field w 25 2) (field w 21 4) (field w 12 9) (field w 0 12))
  | 0x12 => if field w 0 7 = 0 then some (.wait (field w 23 4) (field w 7 16)) else none
  | 0x13 => if field w 0 6 = 0 then some (.signal (field w 23 4) (field w 14 9) (field w 6 8)) else none
  | 0x14 => if field w 0 24 = 0 then some (.fence (bit w 26) (bit w 25) (bit w 24)) else none
  | 0x15 => if field w 0 19 = 0 then some (.mark (field w 19 8)) else none
  | 0x16 => if field w 0 23 = 0 then some (.commit (field w 23 4)) else none
  | 0x17 => if field w 0 27 = 0 then some .endWord else none
  | _ => none

/-- R53: decode a word, `none` for an undefined opcode, a non-zero reserved field or a field out of its range. -/
def decodeSeq (w : Word) : Option SeqWord :=
  match readSeq w with
  | some i => if i.fieldsOk then some i else none
  | none => none

/-- One bit as a bit vector. -/
def bit1 (b : Bool) : BitVec 1 := BitVec.ofBool b

/-- The encoding of a word: opcode in [31:27], reserved fields 0 (R51, R52). -/
def encodeSeq : SeqWord → Word
  | .nop => 0x00#5 ++ 0#27
  | .setp p a => 0x01#5 ++ p ++ 0#7 ++ a
  | .addp p a => 0x02#5 ++ p ++ 0#7 ++ a
  | .setmode a b o bp sr => 0x03#5 ++ a ++ b ++ o ++ bp ++ bit1 sr ++ 0#9
  | .loop k c e => 0x04#5 ++ k ++ c ++ e
  | .accz set => 0x05#5 ++ set ++ 0#26
  | .mma pa pb k set post => 0x06#5 ++ pa ++ pb ++ k ++ set ++ bit1 post ++ 0#11
  | .accrd d set sc en => 0x07#5 ++ d ++ set ++ sc ++ bit1 en ++ 0#17
  | .vop sub d s1 s2 r => 0x08#5 ++ sub ++ d ++ s1 ++ s2 ++ r
  | .vpoly t d s r => 0x09#5 ++ t ++ 0#2 ++ d ++ s ++ 0#4 ++ r
  | .vred sub ax d s r => 0x0A#5 ++ sub ++ ax ++ 0#2 ++ d ++ s ++ 0#4 ++ r
  | .xpose sz d s => 0x0B#5 ++ sz ++ 0#4 ++ d ++ s ++ 0#13
  | .shuf t d s r => 0x0C#5 ++ t ++ 0#2 ++ d ++ s ++ 0#4 ++ r
  | .spop sub f d a b c => 0x0D#5 ++ sub ++ f ++ d ++ a ++ b ++ c ++ 0#2
  | .sls dir r b w => 0x0E#5 ++ dir ++ r ++ b ++ w ++ 0#15
  | .tmove sl sem l k ix => 0x0F#5 ++ sl ++ sem ++ l ++ k ++ bit1 ix ++ 0#9
  | .send p vt s f => 0x10#5 ++ p ++ vt ++ s ++ f
  | .recv p d vt f => 0x11#5 ++ p ++ d ++ vt ++ f
  | .wait sem c => 0x12#5 ++ sem ++ c ++ 0#7
  | .signal sem vt inc => 0x13#5 ++ sem ++ vt ++ inc ++ 0#6
  | .fence st mv loc => 0x14#5 ++ bit1 st ++ bit1 mv ++ bit1 loc ++ 0#24
  | .mark ix => 0x15#5 ++ ix ++ 0#19
  | .commit g => 0x16#5 ++ g ++ 0#23
  | .endWord => 0x17#5 ++ 0#27

/-- R56 in a program: for each open loop its end address and counter, outermost last. -/
def checkLoops (n : Nat) : Nat → List Word → List (Nat × BitVec 3) → Bool
  | _, [], _ => true
  | a, w :: ws, opened =>
    let inLoops := opened.filter (fun f => a ≤ f.1)
    match decodeSeq w with
    | some (.loop k _ e) =>
      decide (a < e.toNat) && decide (e.toNat < n) && decide (inLoops.length < 8) &&
        inLoops.all (fun f => decide (e.toNat ≤ f.1) && f.2 != k) &&
        checkLoops n (a + 1) ws ((e.toNat, k) :: inLoops)
    | some _ => checkLoops n (a + 1) ws inLoops
    | none => false

/-- R53: the program of a tile is free of illegal words, the loop rules of R56 included. -/
def programOk (ws : List Word) : Bool := checkLoops ws.length 0 ws []

end Sys2Proof
end

