-- ==== Sys2Proof/Config.lean ====
section
/-! DEFINITION. What an implementation fixes and the free values the spec leaves open: opaque constants without a body, so that nothing can be proved of them but what holds of every value. -/

namespace Sys2Proof.Config

/-- Free value number `n` of a run: the step reads and advances `State.freeCount` (assumption 3). -/
opaque freeNat : Nat → Nat

/-- Free byte number `n` of a run (destination bytes of a failed transfer or buffer read, R141, R356; layouts the spec leaves open, R422). -/
opaque freeByte : Nat → BitVec 8

/-- R567: whether an overlapping byte of a word is read as it stood before the word (false) or as the word has written it (true); arguments: a fresh count and the byte address. -/
opaque overlapReadsNew : Nat → Nat → Bool

/-- ID_VERSION, per module (R342). -/
opaque idVersion : BitVec 32

/-- The 256-bit seed formed from the corrected PUF response (R505). -/
opaque pufSeed : Nat

/-- The identity named in the stored device certificate, used when the PUF fails (R506). -/
opaque certIdentity : Nat

/-- The ROM measurement, a constant held in the ROM (R509). -/
opaque romMeasurement : Nat

/-- SHA-256 of the Slorek root public key, held in the ROM (R491). -/
opaque rootKeyHash : Nat

/-- fw_version of the firmware shipped in slot A (R494). -/
opaque shippedFwVersion : Nat

/-- plinth_version of the Plinth shipped in slot A (R368). -/
opaque shippedPlinthVersion : Nat

/-- Signature blocks of the shipped Plinth: 0 its Relief's, 1 its own, each 80 bytes as a number (R84). -/
opaque shippedSignature : Nat → Nat

/-- MACs of the two copies of the counter block as manufactured (R503). -/
opaque shippedCounterMac : Nat → Nat

/-- Measurement of the shipped firmware and Plinth images and of the shipped Relief (R509). -/
opaque shippedHash : Nat → Nat

/-- The public key (X, Y) that an X.509 v3 DER certificate certifies, `none` where it does not parse or its signature fails under the given issuer key (R492 names the standard). -/
opaque certKey : List (BitVec 8) → (Nat × Nat) → Option (Nat × Nat)

/-- The Slorek root public key itself, carried in the certificate chain (R491, R507). -/
opaque rootKey : Nat × Nat

/-- The Slorek configuration keys of the running firmware's key table: key_id to (X, Y) (R493). -/
opaque configKeys : List (Nat × (Nat × Nat))

/-- The device certificate chain area of R507, as bytes. -/
opaque certChain : List (BitVec 8)

/-- The kind of a descriptor slot the toolchain marked (R209, R238, R290): 0 unmarked, 1 KV page slot, 2 stream chunk data, 3 field window; arguments image ID, virtual tile, slot. The spec does not say where the mark is recorded. -/
opaque markedSlot : Nat → Nat → Nat → Nat

/-- The entry, among the image's instances, that a marked field descriptor of a virtual tile serves in the plan pass; slot 256 stands for the tile's pass header. The spec does not say where the toolchain records it (R284, R290). -/
opaque planInstance : Nat → Nat → Nat → Nat

/-- The row offset the toolchain recorded for a marked slot (R238). -/
opaque markedRowOffset : Nat → Nat → Nat → Nat

/-- The row of a call, an invocation or a field window that a marked slot serves (R209, R238, R290): the place of the mark is not stated; arguments image ID, virtual tile, slot. -/
opaque markedRow : Nat → Nat → Nat → Nat

/-- The binding slots of the field header and of the field buffers of a field writer's image (R288 names such jobs and does not say how an image is known as one). -/
opaque fieldWriter : Nat → Option (Nat × List Nat)

/-- A byte of a planner's pass header (R284, R290, R310: it carries the acquired buffer's geometry, the window origin, an empty window and the halt latch; its layout is not stated). Arguments: what the header carries, and the byte index. -/
opaque planHeader : List Nat → Nat → BitVec 8

/-- The scratchpad address on a virtual tile at which the firmware lays an assembled row of a `FUSE` image, none on a tile that does not take the row (R331 gives the row and no place for it); arguments: image ID, virtual tile, row. -/
opaque rowPlace : Nat → Nat → Nat → Option Nat

/-- Whether the contradiction factor of the higher-numbered sensor of a pair is the one tested (R329 does not say whose); arguments: the two sensors. -/
opaque pairFactorSecond : Nat → Nat → Bool

/-- Buffer stride of a stream chunk object (R238 names it and gives no place for it). -/
opaque chunkStride : Nat → Nat

/-- The firmware's choice of an object ID (R356 leaves it open); used only when it is unused and below 0xFFFF_0000. -/
opaque objectIdChoice : Nat → Nat

/-- The firmware's choice of a placement offset (R356); used only when that range is free. -/
opaque placementChoice : Nat → Nat

/-- The increment the PTP servo sets after a correction (R451 leaves the servo's law open); limited to the range of R441. -/
opaque servoIncrement : Nat → Nat

/-- The offsetScaledLogVariance of the module's own PTP data set (R449 gives the other attributes). -/
opaque ptpVariance : Nat

/-- The module's own IEEE 1588 clock identity (R449 gives the other attributes of its data set). -/
opaque ptpIdentity : Nat

/-- The fixed transfer latency from the keeper to the time base (R456), in ns. -/
opaque keeperLatency : Nat

/-- Field `i` of a port setting whose byte layout the spec does not state (R541, R545, R550, R553, R554, R556, R558): the fields are numbered in the order in which the spec names them. Arguments: the key, the setting's bytes, the field. -/
opaque portField : Nat → List (BitVec 8) → Nat → Nat

/-- The JTAG IDCODE value (R561 names the instruction and gives no value). -/
opaque jtagIdcode : BitVec 32

/-- The training format version of a firmware version (R489). -/
opaque trainingFormat : Nat → Nat

/-- The version that the Patina header shows (R538 gives its place and size and no value). -/
opaque patinaVersion : Nat

/-- The CRC-32 of a counter image, over bytes that the spec does not name (R534, R536); argument: the image's bytes with the field 0. -/
opaque patinaCrc : List (BitVec 8) → Nat

/-- The Atelier's stored time of manufacture in the Patina header (R538). -/
opaque manufactureTime : Nat

/-- The per-module default of an adaptive-loop setting (R530 gives typical values only); argument: the key. -/
opaque loopDefault : Nat → Nat

/-- The address ranges a unit of the side path delivers before its timeout (R420): bytes delivered; argument: a fresh count. -/
opaque castDelivered : Nat → Nat

/-- The random nonce a port sends in Hello (R461), argument: a fresh count. -/
opaque helloNonce : Nat → Nat

/-- What a 32-bit count shows after one more than 0xFFFF_FFFF, where the spec states neither wrapping nor saturation (MBX_LOST, FLT_INJ_DONE; assumption 10). -/
opaque countWrap : BitVec 32

end Sys2Proof.Config
end

