-- ==== Sys2Proof/Machine/State.lean ====
section
/-! DEFINITION. The state of the block, as plain data: every register, queue, table, mode and pin the spec names, the queue of waiting commands, and State.reset. -/

namespace Sys2Proof.Machine

/-- A sparse byte memory: strictly rising addresses, no entry equal to `Memory.unlisted` (R117). -/
abbrev Memory := List Host.Cell

/-- A sparse table keyed by a number. -/
abbrev Tab (α : Type) := List (Nat × α)

/-! ### Tiles (01) -/

/-- What a tile's sequencer is doing (R71, R75, R53, R77). -/
inductive TilePhase where
  | idle | running | ended | stopped
deriving DecidableEq, Repr

/-- Why a running sequencer issues nothing (R40, R45, R48, R68). -/
inductive Stall where
  | free
  | queueFull (w : SeqWord)
  | waitSem (sem : BitVec 4) (count : BitVec 16)
  | barrier (w : SeqWord)
deriving DecidableEq, Repr

/-- One entry of the loop stack (R44, R56). -/
structure LoopFrame where
  k : BitVec 3
  first : BitVec 12
  last : BitVec 12
deriving DecidableEq, Repr

/-- A `SEND` accepted by a stream port: destination virtual tile, source byte address, flits (R66). -/
structure SendOp where
  vt : BitVec 9
  src : Nat
  flits : Nat
  /-- The destination has posted the matching `RECV` and the flits flow (R49). -/
  flowing : Bool
deriving DecidableEq, Repr

/-- A `RECV` accepted by a stream port (R66). -/
structure RecvOp where
  vt : BitVec 9
  dst : Nat
  flits : Nat
  /-- Program word address of the `RECV` (R49, R408). -/
  pc : BitVec 12
deriving DecidableEq, Repr

/-- A `SIGNAL` to another tile that waits for earlier `SEND`s to that tile (R46). -/
structure SignalOp where
  sem : BitVec 4
  vt : BitVec 9
  inc : BitVec 8
  /-- Per port, the `SEND`s still queued up to the last one that the signal waits for. -/
  ahead : List Nat
deriving DecidableEq, Repr

/-- A tile descriptor (R124). -/
structure Descriptor where
  format : Nat
  layout : Nat
  rowsM1 : Nat
  colsM1 : Nat
  runM1 : Nat
  flags : Nat
  prefetchLead : Nat
  slot : Nat
  offset : Nat
  rowStride : Nat
  runStride : Nat
  scaleOffset : Nat
  scaleStride : Nat
  lateThreshold : Nat
  /-- The object in which the page lies that the firmware aimed a page slot at, where it is not the slot's own (the model's own, assumption 148). -/
  via : Option Nat
  /-- The descriptor carries chunk data of a row that is idle in the invocation (the model's own, assumption 158). -/
  idle : Bool
deriving DecidableEq, Repr

/-- The registers of one tile's sequencer and units. -/
structure TileState where
  phase : TilePhase
  stall : Stall
  pc : BitVec 12
  loops : List LoopFrame
  counters : Vector (BitVec 13) 8
  ptrs : Vector (BitVec 16) 16
  sregs : Vector (BitVec 32) 32
  sems : Vector (BitVec 16) 16
  mode : Word
  acc0 : List (BitVec 48)
  acc1 : List (BitVec 48)
  cleared0 : Bool
  cleared1 : Bool
  /-- The 64 stochastic-rounding lane generators (R106). -/
  gens : List Word
  satCount : BitVec 16
  anomCount : BitVec 16
  /-- The 4,096 words of the program store (R74), and how many of them are the program's own. -/
  program : List Word
  progLen : Nat
  descs : List Descriptor
  /-- Words accepted by each unit and not yet complete, oldest first (R40). -/
  cellQ : List SeqWord
  drainQ : List SeqWord
  vectorQ : List SeqWord
  transQ : List SeqWord
  scalarQ : List SeqWord
  sendQ : Vector (List SendOp) 4
  recvQ : Vector (List RecvOp) 4
  signals : List SignalOp
  /-- Runs of this tile not yet signalled (R132). -/
  openRuns : Nat
  /-- Words issued since the invocation started (R415). -/
  issued : Nat
  /-- Clock gating of the arrays while a move is awaited (R168). -/
  gated : Bool
  /-- The tile has reached the commit point of these groups (R70). -/
  groups : List Nat
  /-- Frozen by an injection of detector 0x14 (R410). -/
  frozen : Bool
deriving DecidableEq, Repr

/-! ### Clusters, movers, arbiter, slice (03) -/

/-- Progress of one tile transfer of a run (R131, R138). -/
inductive XferState where
  | unpresented | waiting | granted | restart | written
deriving DecidableEq, Repr

/-- One tile transfer of a run (R129). -/
structure Xfer where
  state : XferState
  revocations : Nat
deriving DecidableEq, Repr

/-- One run held by a cluster mover (R129). -/
structure Run where
  id : Nat
  tile : TileId
  job : Nat
  shadow : Bool
  sem : BitVec 4
  desc : Descriptor
  object : Nat
  /-- Start of the run's elements and of its scale areas, byte offsets in the object (R126, R127). -/
  offset : Nat
  scaleOff : Nat
  /-- Scratchpad byte address of the local end (R65). -/
  localAddr : Nat
  tier : Nat
  partition : Nat
  issueTick : Nat
  /-- Late threshold in cycles, 0 for none (R139). -/
  threshold : Nat
  lateRaised : Bool
  xfers : List Xfer
  missed : Bool
  /-- The late threshold was set by an injection of detector 0x20 (R410). -/
  injected : Bool
  queuedCycles : Nat
  transferCycles : Nat
  restartCycles : Nat
deriving DecidableEq, Repr

/-- Which lease a cluster serves (R378, R398). -/
inductive Role where
  | none | primary | fallback | shadow | shadowFallback
deriving DecidableEq, Repr

/-- One cluster: lease, power, mover and loops (R18, R520, R528). -/
structure Cluster where
  powered : Bool
  job : Nat
  role : Role
  runs : List Run
  voltage : Nat
  marginLow : Nat
  /-- The loop is at its limit (detector 0x66): every 16th cycle is stretched (R528). -/
  stretching : Bool
  /-- The millisecond and the second last counted in, and the stretches counted in each (R528, R538). -/
  stretchMs : Nat
  stretchSec : Nat
  stretches : Nat
  stretchTotal : Nat
  margin : Int
  /-- Temperature of the cluster's sensor, 0.1 °C. -/
  temp : Int
  duty : Nat
deriving DecidableEq, Repr

/-- A request presented to an arbiter (R161). -/
structure ArbReq where
  requester : Requester
  cls : Nat
  bytes : Nat
  job : Nat
  /-- Cluster, run ID and transfer index for a cluster mover's request. -/
  move : Option (ClusterId × Nat × Nat)
  /-- Lines a prefetch request stages, and the prefetcher that asks for them (R149). -/
  lines : List Nat
  prefetcher : Option (TileId × Nat)
  revoked : Bool
  revocations : Nat
  estimate : Nat
deriving DecidableEq, Repr

/-- A granted transfer on an engine (R162, R164). -/
structure Grant where
  req : ArbReq
  order : Nat
  /-- Bytes that the decoder delivered to this transfer and that are not the ones stored, by local address (R156). -/
  got : List (Nat × List Byte)
deriving DecidableEq, Repr

/-- One tile-move arbiter with its 8 engines (R161 to R169). -/
structure Arbiter where
  waiting : List ArbReq
  heldBack : List ArbReq
  engines : Vector (Option Grant) 8
  last0 : Nat
  last1 : Nat
  last2 : Nat
  grants : Nat
  masked : List Nat
deriving DecidableEq, Repr

/-- One valid line of a stream-cache slice (R142). -/
structure CacheLine where
  set : Nat
  way : Nat
  tag : Nat
  dirty : Bool
  /-- Installed by a prefetcher and not yet used by a move (R138). -/
  staged : Bool
  /-- The 256 bytes the devices hold under a clean line that was filled with a miscorrected burst (R156); empty where they are the line's own. -/
  under : List Byte
deriving DecidableEq, Repr

/-- One stream prefetcher's assignment (R148). -/
structure Prefetcher where
  job : Nat
  tile : TileId
  slot : Nat
  /-- Partition byte offsets of the lines it still has to stage (R149). -/
  wanted : List Nat
deriving DecidableEq, Repr

/-- The steps of a partition reset (R425, R427). -/
inductive ResetStep where
  | none | casting | writeBack | asserted | training | restoring
deriving DecidableEq, Repr

/-- One record of a Cast (R422). -/
structure CastRecord where
  kind : Nat
  status : Nat
  unit : Nat
  offset : Nat
  data : List Byte
deriving DecidableEq, Repr

/-- A Cast (R421). -/
structure Cast where
  partition : Nat
  path : Nat
  seq : Nat
  eventTime : Nat
  captureStart : Nat
  captureEnd : Nat
  detector : Nat
  cause : Nat
  unit : Nat
  eventSeq : Nat
  records : List CastRecord
deriving DecidableEq, Repr

/-- A chunk queued on a stream (R238): its feed, the host address of its row, and the row's fields. -/
structure Chunk where
  feed : Nat
  /-- The mailbox on whose path the row table lies. -/
  box : Nat
  rowAddr : Nat
  steps : Nat
  inBuf : Nat
  outBuf : Nat
  mask : List Byte
  fedAt : Nat
deriving DecidableEq, Repr

/-- One entry of a stream table (R234). -/
structure Stream where
  id : Nat
  job : Nat
  /-- 0 RESIDENT; 1 SWAP_OUT; 2 PARKED; 3 SWAP_IN; 4 BROKEN. -/
  state : Nat
  slot : Nat
  half : Nat
  parkSlot : Nat
  /-- Queued chunks, oldest first. -/
  queue : List Chunk
  resetPending : Bool
  held : Bool
  gap : Bool
  steps : Nat
  lastUse : Nat
  /-- Chunks taken for the invocation in progress (R240). -/
  selected : Bool
  /-- A park waits for the commit of the invocation in progress (R253). -/
  parkAsked : Bool
deriving DecidableEq, Repr

/-- One partition: service state, arbiter, slice, memory controller, stream table (R18). -/
structure Part where
  /-- 0 in service; 1 fast path; 2 full path; 3 down (R411). -/
  state : Nat
  step : ResetStep
  /-- The `PARTITION_RESET` that waits for the reset in progress (R432). -/
  resetMbx : Option (MbxId × CmdHdr)
  lastPath : Nat
  fastResets : Nat
  fullResets : Nat
  lastDetector : Nat
  lastReset : Nat
  /-- Time-base value of the last return to service, by path. -/
  backFast : Option Nat
  backFull : Option Nat
  casts : List Cast
  casting : Option Cast
  arb : Arbiter
  pinned : Nat
  lines : List CacheLine
  plru : Tab Nat
  prefetchers : List Prefetcher
  prefetchMisses : Nat
  selfRefresh : Bool
  trainFails : Nat
  trainings : Nat
  poisoned : List Nat
  scrubLevel : Nat
  scrubBurst : Nat
  corrected : Nat
  quietWindows : Nat
  refreshBank : Nat
  railMv : Nat
  railFails : Nat
  railOn : Bool
  /-- Temperature of the slice's sensor, 0.1 °C. -/
  sliceTemp : Int
  streams : List Stream
deriving DecidableEq, Repr

/-! ### Mailboxes and the host window (10) -/

/-- A completion-ring entry (R354). -/
structure CplEntry where
  opcode : Nat
  tag : Nat
  status : Nat
  kind : Nat
  payload : List Byte
deriving DecidableEq, Repr

/-- A command that has been fetched and waits for an event before it takes effect or completes; `begun` tells that a part of it has taken effect (R353). -/
inductive Waiting where
  | pin (seq count key : Nat)
  | release (kind key : Nat)
  | delta (object fingerprint : Nat) (entries : List (Nat × Nat))
  | cancel (job : Nat)
  | submit (job : Nat)
  | place (object : Nat) (seq : Nat)
  | reset (partition : Nat)
  | force
  | park (job : Nat) (ids : List Nat) (begun : Bool)
  | cap (watts : Nat) (begun : Bool)
deriving DecidableEq, Repr

/-- One mailbox (R343, R345). -/
structure Mailbox where
  ctrl : Word
  haltCause : BitVec 3
  halted : Bool
  cmdCons : BitVec 16
  cmdBase : Word64
  cplBase : Word64
  /-- The ring bases as read at the last enable (R348). -/
  ringCmd : Word64
  ringCpl : Word64
  lost : Word
  cplProd : BitVec 16
  dblCmd : BitVec 16
  dblCpl : BitVec 16
  /-- The command fetched and not yet completed, and the tick of its fetch (R349, R353). -/
  current : Option (List Byte)
  fetchTick : Nat
  waiting : Option (Nat × CmdHdr × Waiting)
  held : List CplEntry
  /-- The command in hand was fetched before a disable: its completion is discarded (R348). -/
  stale : Bool
deriving DecidableEq, Repr

/-- A low word held for a two-part 64-bit write (R341). -/
structure HeldLow where
  path : Path
  offset : Nat
  value : Word
deriving DecidableEq, Repr

/-- A high word latched by a 32-bit read of a low word (R443). -/
structure LatchedHigh where
  path : Path
  offset : Nat
  value : Word
deriving DecidableEq, Repr

/-- A written event, which suppresses equal INFO and DEGRADE ones for 10 ms (R407). -/
structure RecentEvt where
  detector : Nat
  partition : Nat
  unit : Nat
  cause : Nat
  time : Nat
deriving DecidableEq, Repr

/-- One entry of the event log (R367, R535). -/
structure LogEntry where
  time : Nat
  seq : Nat
  detector : Nat
  severity : Nat
  partition : Nat
  job : Nat
  flags : Nat
  cause : Nat
  unit : Nat
  value : Nat
deriving DecidableEq, Repr

/-- The event machinery (R365, R367, R407). -/
structure Evt where
  status : Word
  mask : Word
  ringBase : Word64
  ringCtrl : Word
  prod : BitVec 16
  cons : BitVec 16
  seq : Nat
  /-- Written events of the last 10 ms (R407). -/
  recent : List RecentEvt
  /-- The entries that the event ring took on the latest tick that gave it one, in their order there (R407). -/
  tick : List LogEntry
deriving DecidableEq, Repr

/-- A pending injection (R413). -/
structure Injection where
  detector : Nat
  target : Word
  param : Word
  remaining : Nat
deriving DecidableEq, Repr

/-- The `FLT_` block and the counts of R414 (R411). -/
structure Flt where
  castNew : BitVec 8
  fatal : Bool
  fault : Bool
  degrade : Bool
  last : Word
  lastTime : Word64
  armed : Bool
  armedUntil : Word64
  injTarget : Word
  injParam : Word
  injCount : BitVec 8
  injRefused : Bool
  injDone : Word
  pending : Option Injection
  counts : Tab Nat
  severities : Tab Nat
  lastFatal : Nat
  castSeq : Nat
deriving DecidableEq, Repr

/-! ### Objects, images, jobs (10, 11) -/

/-- Where an object lies (R121). -/
structure Placement where
  tier : Nat
  partition : Nat
  node : Nat
  offset : Nat
  /-- Reservation ID and global base for tier 3 (R483). -/
  rid : Nat
  base : Nat
deriving DecidableEq, Repr

/-- An object (R121 to R123, R351, R428). -/
structure Obj where
  length : Nat
  owner : Nat
  shared : Bool
  place : Option Placement
  lost : Bool
  sealed : Bool
  port : Bool
  /-- The twin's placement while the object is twinned (R399). -/
  twin : Option Placement
deriving DecidableEq, Repr

/-- A binding entry of an image (R81). -/
structure Binding where
  slot : Nat
  access : Nat
  format : Nat
  minLength : Nat
deriving DecidableEq, Repr

/-- A milestone entry of an image (R82). -/
structure Milestone where
  index : Nat
  final : Bool
  tile : Nat
  budget : Nat
deriving DecidableEq, Repr

/-- A live-region entry of an image (R83). -/
structure LiveRegion where
  tile : Nat
  kind : Nat
  start : Nat
  length : Nat
deriving DecidableEq, Repr

/-- A SCRATCH_INIT section (R80). -/
structure ScratchInit where
  tile : Nat
  granule : Nat
  data : List Byte
deriving DecidableEq, Repr

/-- A function instance entry (R171). -/
structure InstEntry where
  function : Nat
  variant : Nat
  inFormat : Nat
  weightFormat : Nat
  outFormat : Nat
  flags : Nat
  activation : Nat
  inSlot : Nat
  weightSlot : Nat
  outSlot : Nat
  tiles : Nat
  dims : List Nat
deriving DecidableEq, Repr

/-- A loaded work image (R78 to R86). -/
structure Image where
  version : Nat
  classMask : Nat
  clusters : Nat
  onePartition : Bool
  shadowOk : Bool
  fallback : Nat
  fallbackClusters : Nat
  programs : Tab (List Word)
  descs : Tab (List Descriptor)
  scratch : List ScratchInit
  bindings : List Binding
  milestones : List Milestone
  live : List LiveRegion
  insts : List InstEntry
  object : Nat
  owner : Nat
  measurement : Nat
deriving DecidableEq, Repr

/-- The stall record of R138, less its reserved bytes. -/
structure StallRec where
  q1 : Nat
  t1 : Nat
  r1 : Nat
  q2 : Nat
  t2 : Nat
  r2 : Nat
  q3 : Nat
  t3 : Nat
  r3 : Nat
  absent : Nat
  lateRuns : Nat
  revocations : Nat
  merges : Nat
  prefetchHits : Nat
deriving DecidableEq, Repr

/-- The KV record of R228. -/
structure KvRec where
  pagesRead : Nat
  tokensAppended : Nat
  framesAllocated : Nat
  cowCopies : Nat
  tokensMatched : Nat
  falseMatches : Nat
  refSaturations : Nat
  spills : Nat
  recalls : Nat
  inPlaceReads : Nat
  indexReplacements : Nat
  passes : Nat
deriving DecidableEq, Repr

/-- The stream record of R257. -/
structure StreamRec where
  chunksRun : Nat
  stepsRun : Nat
  resets : Nat
  swapIns : Nat
  swapOuts : Nat
  absentRows : Nat
  gaps : Nat
deriving DecidableEq, Repr

/-- One queued row of a sequence feed, kind 2 (R361). -/
structure SeqRow where
  feed : Nat
  box : Nat
  rowAddr : Nat
  sequence : Nat
  tokens : List Nat
deriving DecidableEq, Repr

/-- A feed whose rows are sequence rows: one call (R208). -/
structure SeqCall where
  feed : Nat
  rows : List SeqRow
deriving DecidableEq, Repr

/-- A pass of an `ATTN` call, or of a planner (R208, R284). -/
inductive Pass where
  | single | append (inst n : Nat) | score (inst n : Nat) | merge (inst n : Nat) | plan | gate
deriving DecidableEq, Repr

/-- A stream row taken into an invocation (R240). -/
structure RowTaken where
  stream : Nat
  chunk : Chunk
  /-- The stream's reset_pending was folded into the chunk's mask (R252). -/
  applied : Bool
deriving DecidableEq, Repr

/-- A span allocated by an invocation and not yet committed: its place in the sequence, its first directory entry, and the shared span it replaces, for a copy-on-write (R206, R220). -/
structure NewSpan where
  sequence : Nat
  index : Nat
  first : Nat
  copyOf : Option Nat
deriving DecidableEq, Repr

/-- A row of an observation ring placed in an epoch (R324). -/
structure ObsRow where
  sensor : Nat
  epoch : Nat
  late : Bool
  instant : Int
  ringIndex : Nat
  mask : Nat
  motion : List Word
  features : List Word
deriving DecidableEq, Repr

/-- The rows of an epoch as frozen at its cutoff, and what gating and assembly made of them (R323 to R333). -/
structure EpochData where
  epoch : Nat
  /-- The rows within the limits of R325, in rank order within each sensor. -/
  rows : List ObsRow
  lateAbsorbed : Nat
  /-- Rows discarded as too late that the epoch's record reports, fixed as its invocation is taken (R335). -/
  lateDiscarded : Nat
  rowsDropped : Nat
  masked : Nat
  conflict : Nat
  dropped : Nat
  poseWait : Nat
  /-- The rows the network receives: features and the 8 appended values (R331, R333). -/
  assembled : List (List Word)
deriving DecidableEq, Repr

/-- An invocation in progress (R374, R391, R394). -/
structure Invocation where
  number : Nat
  /-- Its run has been prepared and its tiles started; and it had been started once before a fault (R433). -/
  started : Bool
  begun : Bool
  /-- An injection acts on its gate pass (R410). -/
  gateInjected : Bool
  /-- The tick of the planner pass last prepared, and what its headers carry, by tile: a halt accepted on that tick still counts for it (R284, R310). -/
  passAt : Nat
  headers : Tab (List Nat)
  start : Nat
  due : List (Nat × Nat)
  /-- Milestones reported, each with the time-base value of its `MARK` (R69). -/
  met : List (Nat × Nat)
  watching : Bool
  pass : Pass
  rows : List RowTaken
  calls : List SeqCall
  feedFirst : Nat
  feedLast : Nat
  isFallback : Bool
  missed : Nat
  faulted : Bool
  faultDetector : Nat
  faultPartition : Nat
  /-- The partition whose return to service the re-run waits for after a move into it failed, 8 for none (R433). -/
  waitPart : Nat
  shadowServed : Bool
  /-- KV spans allocated and not yet committed (R206). -/
  newSpans : List NewSpan
  /-- Field buffer held by a reader or aimed at by a writer (R288, R289). -/
  buffer : Option Nat
  /-- A warm start was rejected at the start (R278, R363). -/
  warmRejected : Bool
  absentRows : Nat
  epoch : Nat
  /-- The first step that an `EGO` invocation processes; `epoch` is the step after its last (R318). -/
  egoFrom : Nat
  /-- The epoch a fusion invocation runs (R323). -/
  fuse : Option EpochData
  kv : KvRec
deriving DecidableEq, Repr

/-- A fusion job's rows and epochs (R323 to R330). -/
structure FuseState where
  firstEdge : Nat
  /-- The next epoch whose cutoff has not passed. -/
  nextEpoch : Nat
  rows : List ObsRow
  rejected : Nat
  lateDiscarded : Nat
  /-- Consecutive dropped epochs per sensor, and the sensors for which 0x83 stands raised (R330). -/
  dropped : Tab Nat
  droppedRaised : List Nat
  /-- The epoch frozen at its cutoff whose invocation has not started (R323). -/
  frozen : Option EpochData
  /-- The cutoff of `nextEpoch` fell on the present tick: rows that still arrive on it count as before the cutoff (R314, R323). -/
  cutting : Bool
  /-- Time-base value since which an epoch waits for a pose, 0 for none (R321). -/
  waitSince : Nat
deriving DecidableEq, Repr

/-- A shadow commit not yet announced (R400, R401): number, status, invocation record and rows, the step after the last that it published and the discarded rows that its record reports (R318, R335). -/
structure ShadowCommit where
  number : Nat
  status : Nat
  record : List Byte
  rows : List RowTaken
  step : Nat
  discarded : Nat
deriving DecidableEq, Repr

/-- A warm shadow (R398 to R403). -/
structure Shadow where
  partition : Nat
  clusters : List Nat
  fallbackClusters : List Nat
  /-- 0 loading or copying; 1 running. -/
  state : Nat
  /-- The shadow's own run of an invocation. -/
  run : Option Invocation
  /-- Invocations the primary has started and the shadow has not (R400). -/
  queued : List Invocation
  commits : List ShadowCommit
  streams : List Stream
deriving DecidableEq, Repr

/-- A job (R373, R384). -/
structure Job where
  image : Nat
  cls : Nat
  period : Nat
  owner : Nat
  bindings : List BindEntry
  /-- Lease state code of R384. -/
  lease : Nat
  clusters : List Nat
  fbClusters : List Nat
  fallback : Nat
  /-- The image of a `JOB_SET_FALLBACK` that found an invocation in progress: the fallback from the next start on (R397). -/
  nextFallback : Option Nat
  wantsClusters : Nat
  wantsFallback : Nat
  queuedSince : Nat
  leasedAt : Nat
  readyAt : Option Nat
  nextStart : Nat
  startWaiting : Bool
  triggers : List Nat
  feeds : Nat
  calls : List SeqCall
  invocation : Option Invocation
  nextNumber : Nat
  ended : Nat
  fallbacks : Nat
  faults : Nat
  misses : Nat
  last : Nat
  stall : StallRec
  stallNow : StallRec
  kv : KvRec
  /-- Matching at feeds, counted into the next invocation's record (R218, R228). -/
  kvNow : KvRec
  strm : StreamRec
  strmNow : StreamRec
  saveObject : Nat
  saved : List (Nat × TileState)
  savedMem : List (Nat × List Byte)
  /-- Runs revoked by a pre-emption, with their virtual tiles, in issue order (R77). -/
  savedRuns : List (Nat × Run)
  resumeRunning : Bool
  /-- The invocation faulted: the lease is loaded again, after any reset, before its re-run (R433). -/
  rerun : Bool
  shadow : Option Shadow
  /-- The submit asked for a warm shadow, and the partition in which a lost one is established again (R398, R402). -/
  wantShadow : Bool
  /-- Invocations a takeover left to run, in order (R400, R401). -/
  owed : List Invocation
  shadowPart : Option Nat
  fuse : Option FuseState
  /-- The next step of an `EGO` job that no commit has published (R318). -/
  egoStep : Nat
  /-- Samples that arrived after their step, and whether one arrived since the last invocation start (R319). -/
  egoLate : Nat
  egoLateNew : Bool
  /-- The producer index of each ring that an `EGO` job reads, as last looked at (R319). -/
  egoSeen : Tab Nat
  /-- A field writer's start waits for a buffer (R289). -/
  bufferWait : Bool
  /-- `JOB_CANCEL` mode 0 found an invocation in progress: the job ends when it ends (R404). -/
  cancelled : Bool
deriving DecidableEq, Repr

/-! ### Key-value store (05) -/

/-- What `ATTN` instances must agree on to share pages: the family key and every parameter but Q, B, Sp, ℓ and the output format (R199). -/
structure Family where
  key : Nat
  hq : Nat
  hkv : Nat
  dim : Nat
  format : Nat
  layers : Nat
  scale : Nat
  pools : Nat
deriving DecidableEq, Repr

/-- A page-directory entry (R207). -/
structure PageEntry where
  /-- 0 free; 1 resident; 2 spilled; 3 lost. -/
  state : Nat
  pool : Nat
  location : Nat
  refs : Nat
  valid : Nat
  sealed : Bool
  hash : BitVec 64
  lastUse : Nat
  layer : Nat
  layers : Nat
  /-- Sfr of the page's family (R202). -/
  frame : Nat
  /-- Object of the page's pool, and of the spill object while spilled or moving. -/
  poolObject : Nat
  spillObject : Nat
  /-- 0 settled; 1 spill in progress; 2 recall in progress. -/
  moving : Nat
  target : Nat
deriving DecidableEq, Repr

/-- A sequence (R205). -/
structure Sequence where
  owner : Nat
  family : Family
  pools : List Nat
  length : Nat
  /-- First directory entries of its spans, in order. -/
  spans : List Nat
  layers : Nat
  frameBytes : Nat
  broken : Bool
deriving DecidableEq, Repr

/-- A pinned prefix (R222). -/
structure PinnedPfx where
  owner : Nat
  spans : List Nat
  count : Nat
  layers : Nat
  /-- It holds a lost page (R227). -/
  broken : Bool
deriving DecidableEq, Repr

/-- An entry of the prefix index (R216). -/
structure IndexEntry where
  key : BitVec 64
  tail : Bool
  poolSet : Nat
  family : Family
  first : Nat
  pinned : Bool
  lastHit : Nat
  count : Nat
deriving DecidableEq, Repr

/-- The key-value store (R199 to R228). -/
structure Kv where
  dir : Tab PageEntry
  sequences : Tab Sequence
  pinned : Tab PinnedPfx
  index : List IndexEntry
  cleared : List Nat
deriving DecidableEq, Repr

/-! ### Time (13) -/

/-- One port's PTP state (R449 to R452). -/
structure PtpPort where
  cfg : PtpPortCfg
  /-- IEEE 1588 portState; 0 when PTP is off (R443). -/
  state : Nat
  master : Option AnnounceData
  /-- Mean path delay, and the last Sync's transit by the local clock as corrected since. -/
  delay : Int
  gap : Int
  pendingSync : Option (Int × Int)
  pendingDelay : Option Int
  /-- Departure stamp of a Pdelay_Req, and the arrival of its response with the stamp the response carried. -/
  pendingPdelay : Option (Int × Option (Int × Int))
  syncGood : Nat
  /-- A two-step Sync whose Follow_Up has not left: when it was sent, and its stamp (R458). -/
  awaitingStamp : Option (Nat × Int)
  /-- Time-base value of the last Announce from the port's master (R452). -/
  announceAt : Nat
deriving DecidableEq, Repr

/-- The time base, calendar, keeper and servo (R440 to R457). -/
structure TimeBase where
  t : Nat
  f : Nat
  incr : BitVec 40
  slew : Nat
  ticks : Nat
  jumpLimit : Nat
  source : BitVec 2
  hostDisciplined : Bool
  calendarValid : Bool
  jumpRefused : Bool
  holdoverExceeded : Bool
  /-- Detector 0x43 has been raised in this holdover (R452). -/
  exceededRaised : Bool
  holdover : Bool
  locked : Bool
  offset : Int
  holdoverEst : Nat
  holdoverRem : Nat
  holdoverLimit : Nat
  lastRefused : Int
  utcFromMaster : Bool
  utcOffset : Nat
  calSec : Nat
  calNs : Nat
  calStopped : Bool
  /-- The calendar has lost power since it was last set (R457, R539). -/
  calLost : Bool
  adj : Word64
  incrNext : Option (BitVec 40)
  force : Option (Nat × MbxId × CmdHdr)
  port0 : PtpPort
  port1 : PtpPort
  servo : List Nat
  slewing : Bool
  keeper : Nat
  keeperTrim : Nat
deriving DecidableEq, Repr

/-- A transmit-timestamp queue (R454, R455). -/
structure Tsq where
  enable : Bool
  overflow : Bool
  entries : List (BitVec 16 × Nat)
  time : Word64
  dropped : Nat
deriving DecidableEq, Repr

/-! ### Start-up, settings, firmware (10, 15) -/

/-- A copy of the counter block in the ferroelectric RAM (R503). -/
structure CounterBlock where
  generation : Nat
  fwFloor : Nat
  plinthFloor : Nat
  bootCount : Nat
  /-- Bytes 0 to 15 of the MAC, as a number. -/
  mac : Nat
deriving DecidableEq, Repr

/-- A setting record: key and value bytes (R368). -/
structure Setting where
  key : Nat
  value : List Byte
deriving DecidableEq, Repr

/-- A Relief of the booted Plinth (R368). -/
structure Relief where
  id : Nat
  plinthVersion : Nat
  name : List Byte
  settings : List Setting
  verified : Bool
  measurement : Nat
  flags : Nat
  /-- The key_id of its signature block (R84, R493). -/
  keyId : Nat
deriving DecidableEq, Repr

/-- A Plinth image's contents (R368). -/
structure Plinth where
  version : Nat
  settings : List Setting
  reliefs : List Relief
  defaultRelief : Nat
  bytes : List Byte
deriving DecidableEq, Repr

/-- One flash slot of one target (R495 to R498). -/
structure Slot where
  /-- 0 empty; 1 staged; 2 committed; 3 confirmed. -/
  state : Nat
  sequence : Nat
  version : Nat
  length : Nat
  generation : Nat
  hash : Nat
  /-- The image in the slot hashes to the record's hash and verifies under R493 or R494. -/
  verified : Bool
  attempts : Nat
deriving DecidableEq, Repr

/-- A stored training record of one partition in one flash (R489). -/
structure Training where
  generation : Nat
  /-- Training format version of the firmware that wrote it, and the die temperature then, 0.1 °C. -/
  version : Nat
  temp : Int
deriving DecidableEq, Repr

/-- Start-up state: stage, slots, counter block, identity (R487 to R508). -/
structure Boot where
  stage : Nat
  fwSlot : Nat
  plinthSlot : Nat
  atelierOk : Bool
  mailboxReady : Bool
  fwA : Slot
  fwB : Slot
  plA : Slot
  plB : Slot
  plinthA : Plinth
  plinthB : Plinth
  plinth : Plinth
  fwVersion : Nat
  fwFloor : Nat
  plinthFloor : Nat
  bootCount : Nat
  counterGen : Nat
  counterOk : Bool
  /-- The two copies of the counter block (R503). -/
  counterA : CounterBlock
  counterB : CounterBlock
  identity : Nat
  identityOk : Bool
  activeRelief : Nat
  recordedRelief : Nat
  runtime : Tab Nat
  fwHash : Nat
  plinthHash : Nat
  reliefHash : Nat
  training0 : Tab Training
  training1 : Tab Training
  flash0 : Memory
  flash1 : Memory
  fetchStopped : Bool
  rootPort : Bool
  /-- A cold start is under way, not an Atelier restart (R488). -/
  cold : Bool
deriving DecidableEq, Repr

/-! ### Power and Patina (16) -/

/-- Power state, caps, readings, protective stop (R516 to R532). -/
structure Power where
  /-- 0 ACTIVE; 1 DROWSE; 2 STANDBY; 3 KEEPER; 4 OFF. -/
  state : Nat
  waking : Bool
  /-- The module holds itself in reset after power fail or a protective stop (R437, R532). -/
  heldInReset : Bool
  stopCause : Nat
  failRunning : Bool
  /-- The tick of a power-fail detect: a commit on it stands (R437). -/
  failAt : Nat
  capBefore : Option Nat
  capInForce : Nat
  inputMv : Nat
  inputTenthW : Nat
  /-- The two case temperatures, 0.1 °C (R531, R538). -/
  case0 : Int
  case1 : Int
  caseWarn : Bool
  junctionWarn : Bool
  tcxoOk : Bool
  crystalOk : Bool
  cameraOn0 : Bool
  cameraOn1 : Bool
  /-- The bytes that the I²C management port serves while they are held: its map at entry to STANDBY or KEEPER, empty when live (R562). -/
  i2cHeld : List Byte
deriving DecidableEq, Repr

/-- A counter image of the Patina: counters by byte offset (R536). -/
structure CounterImage where
  sequence : Nat
  time : Nat
  cause : Nat
  counters : Tab Nat
  valid : Bool
deriving DecidableEq, Repr

/-- The Patina (R533 to R539). -/
structure Patina where
  /-- Block counters not yet folded, by counter-image offset (R534). -/
  block : Tab Nat
  /-- Time-base value of the last fold, and nanoseconds of time counters not yet a whole unit (R534, R536). -/
  foldAt : Nat
  rest : Tab Nat
  always : CounterImage
  imageA : CounterImage
  imageB : CounterImage
  newestB : Bool
  alwaysTaken : Bool
  feramOk : Bool
  cellLow : Bool
  buffer : List LogEntry
  log : List (Nat × LogEntry)
  logIndex : Nat
  lost : Nat
  eventsTotal : Nat
  castLog : List (Nat × List Byte)
  castIndex : Nat
  utcHeld : Option Nat
  firstPowerOn : Nat
deriving DecidableEq, Repr

/-! ### Frieze (14) -/

/-- A frame kept for replay or waiting for credits (R463, R465). -/
structure TxFrame where
  ty : BitVec 4
  dest : BitVec 10
  src : BitVec 10
  vc : BitVec 2
  seq : BitVec 12
  blocks : Nat
  replays : Nat
  address : Nat
  tag : Nat
  /-- The length field of the header: 64-byte units − 1 of the data, or of the data asked for (R460). -/
  units : Nat
  /-- Frames that left while it waited, for the Management rule of R462. -/
  passed : Nat
  body : List Byte
deriving DecidableEq, Repr

/-- One Frieze port (R459, R469, R482). -/
structure FPort where
  /-- 0 OFF; 1 DETECT; 2 TRAIN; 3 UP; 4 REFUSED; 5 RETRAIN. -/
  state : Nat
  width : Nat
  lanes : BitVec 4
  partnerPort : Nat
  partnerNode : Nat
  partnerIdentity : Nat
  nonceSent : Nat
  /-- Verdict codes of Hello, sent and received: 0 accepted, 1 policy, 2 proof, 3 none yet (R461). -/
  verdictSent : Nat
  verdictGot : Nat
  /-- Nodes of the island that the link would make, as the partner's verdict said; 0 before it (R478). -/
  merged : Nat
  /-- Time-base values of the uncorrectable codewords of the last 1 ms (R466). -/
  uncTimes : List Nat
  upSince : Nat
  crcErrors : Nat
  fecCorrected : Nat
  fecUncorrectable : Nat
  replayed : Nat
  widthChanges : Nat
  trainings : Nat
  creditTimeouts : Nat
  fullPath : Bool
  credits : Vector Nat 4
  txSeq : BitVec 12
  rxSeq : BitVec 12
  waiting : List TxFrame
  unacked : List TxFrame
deriving DecidableEq, Repr

/-- A T3 reservation held or granted (R482, R483). -/
structure Reservation where
  id : Nat
  node : Nat
  base : Nat
  length : Nat
  t1 : Bool
  partition : Nat
  object : Nat
  boot : Nat
deriving DecidableEq, Repr

/-- A T3 request outstanding (R468). -/
structure T3Req where
  tag : BitVec 28
  node : Nat
  attempt : BitVec 4
  isRead : Bool
  address : Nat
  bytes : Nat
  job : Nat
  partition : Nat
  engine : Nat
deriving DecidableEq, Repr

/-- A management request awaiting its response (R461). -/
structure MgmtReq where
  seq : Nat
  kind : Nat
  node : Nat
  mbx : MbxId
  object : Nat
deriving DecidableEq, Repr

/-- One entry of a route table (R479, R482). -/
structure Route where
  dest : Nat
  valid : Bool
  isLocal : Bool
  port : Nat
  hops : Nat
  /-- Held in phase 1 of an update (R480). -/
  held : Bool
deriving DecidableEq, Repr

/-- The fabric (R459 to R486). -/
structure Fabric where
  ports : Vector FPort 6
  node : Nat
  joined : Bool
  registrar : Bool
  registrarIdentity : Nat
  registrarBoot : Nat
  registrarNode : Nat
  assigned : Nat
  policy : Nat
  listed : List Nat
  reports : List Report
  /-- The reports from which the registrar last computed routes (R480). -/
  topo : List Report
  /-- The reports whose routes were last released: the tables that the nodes hold (R480). -/
  installed : List Report
  /-- The port on which this node heard the registrar it follows; none while it is its own registrar (R473). -/
  hearPort : Option Nat
  routes : List Route
  pendingRoutes : List RouteEntry
  updating : Nat
  phaseWait : List Nat
  generation : Nat
  routeUpdates : Nat
  merges : Nat
  splits : Nat
  renumberings : Nat
  refusals : Nat
  resvFailures : Nat
  heldRes : List Reservation
  granted : List Reservation
  nextRid : Nat
  t3 : List T3Req
  nextTag : Nat
  mgmt : List MgmtReq
  nextSeq : Nat
  nodes : Nat
deriving DecidableEq, Repr

/-! ### External ports (17) -/

/-- One service Ethernet port (R542 to R544). -/
structure EthPort where
  rxSeq : Nat
  dropped : Nat
  macControl : Nat
  refused : Nat
  /-- Producer index last read of the transmit ring (R541). -/
  txProd : Nat
deriving DecidableEq, Repr

/-- One camera port (R550 to R552). -/
structure Camera where
  slotOpen : Bool
  dropping : Bool
  startStamp : Nat
  frameNumber : Nat
  lines : Nat
  flags : Nat
  seq : Nat
  discarded : Nat
deriving DecidableEq, Repr

/-- One CAN FD channel (R554, R555). -/
structure Can where
  busOff : Bool
  busOffs : Nat
  abandoned : Nat
  txProd : Nat
  /-- Time-base value from which the entry at the head of the transmit ring may start (R555). -/
  headAt : Nat
deriving DecidableEq, Repr

/-- One SPI master (R556, R557). -/
structure Spi where
  busy : Bool
  stamp : Nat
  overrun : Bool
  overruns : Nat
  seq : Nat
deriving DecidableEq, Repr

/-- A counted change of an encoder's stable levels: its stamp, the steps it counts, whether it was illegal, whether the index pulse was seen (R558, R559). -/
structure EncEdge where
  stamp : Nat
  delta : Int
  illegal : Bool
  index : Bool
deriving DecidableEq, Repr

/-- One quadrature encoder (R558, R559). -/
structure Encoder where
  a : Bool
  b : Bool
  index : Bool
  /-- Count and latest edge as of the last entry. -/
  count : Word
  edge : Word64
  illegals : Nat
  /-- Level changes counted since, oldest first. -/
  recent : List EncEdge
deriving DecidableEq, Repr

/-- The external ports (R540 to R562). -/
structure Ports where
  eth0 : EthPort
  eth1 : EthPort
  boundarySeq : Nat
  /-- Accepted frames in the 256 KiB filtering buffer, as ring entries, oldest first (R545). -/
  boundaryHeld : List (List Byte)
  boundaryDropped : Nat
  cameras : Vector Camera 8
  cans : Vector Can 4
  spis : Vector Spi 4
  encoders : Vector Encoder 8
  encoderSeq : Nat
  /-- The sampling instant of the last entry (R558). -/
  encoderLast : Nat
  syncPulses : Vector Nat 8
  jtagBypass : Bool
  jtagBoundary : List Bool
  extest : Bool
deriving DecidableEq, Repr

/-- What leaves the module, recorded in order (the model's own trace of its outputs). -/
inductive Emission where
  | msix (vector : Nat)
  | readValue (offset : Nat) (value : Word64)
  | bar2Data (bytes : List Byte)
  | bar2Abort
  | frame (port ty dest src vc seq address tag units : Nat) (body : List Byte)
  /-- What the link field of the port's next frame says: acknowledgement, and credits returned on a channel (R460, R463, R465). -/
  | link (port ack creditVc credits : Nat)
  | mgmt (kind : Nat) (flags : Nat) (node : Nat) (status : Nat) (seq : Nat) (body : List Byte)
  | ethFrame (port : Nat) (bytes : List Byte)
  | ptp (port : Nat) (kind : Nat) (a b : Int)
  | can (channel : Nat) (ident : Word) (bytes : List Byte)
  | spiStart (master : Nat)
  | syncPulse (camera : Nat)
  | i2cScript (group : Nat) (bytes : List Byte)
  | jtag (bits : List Bool)
  | jtagData (bytes : List Byte)
  | unsupportedRequest
  | inboundData (bytes : List Byte)
deriving DecidableEq, Repr

/-- The state of the block. -/
structure State where
  /-- Commands that wait, first in, first out. -/
  pending : List Instr
  /-- T0, T1 windows and T2 by local address (R117). -/
  mem : Memory
  /-- The PCIe host's memory: rings, BREF buffers, event ring (R343, R356, R365). -/
  hostMem : Memory
  tiles : Tab TileState
  clusters : Tab Cluster
  parts : Tab Part
  mbx : Tab Mailbox
  bar2Base : Word
  lows : List HeldLow
  highs : List LatchedHigh
  evt : Evt
  flt : Flt
  objects : Tab Obj
  images : Tab Image
  jobs : Tab Job
  jobCounter : Nat
  kv : Kv
  /-- `HALT_REQ` latch and halt_seq (R309, R310). -/
  haltLatched : Bool
  /-- The tick of the last acceptance of `HALT_REQ`, as TimeBase.ticks counts (R309, R310). -/
  haltAt : Nat
  haltSeq : Nat
  resting : Bool
  time : TimeBase
  tsq0 : Tsq
  tsq1 : Tsq
  boot : Boot
  power : Power
  pat : Patina
  fab : Fabric
  ports : Ports
  /-- The cycle for which detector 0x14 was last raised: each node with up to 3 of its edges (R417, R422). -/
  hangCycle : List (List Nat)
  /-- The cycles found at the last hang check, and where each node had got to then (R415, R417). -/
  hangSets : List (List Nat)
  hangSeen : List (Nat × Nat)
  runIds : Nat
  /-- Free values drawn so far (the model's own field, assumption 3). -/
  freeCount : Nat
  /-- What has left the module, oldest first (the model's own field, assumption 4). -/
  out : List Emission
deriving DecidableEq, Repr


/-- Reasons a step stops with a fault. No meaning of this model raises one: every command of the table has an effect the spec gives, or changes nothing. -/
inductive Fault where
  /-- Reserved for an access the spec says cannot exist; nothing raises it (safe). -/
  | noSuchAddress
deriving DecidableEq, Repr

/-- Reasons a step is refused. -/
inductive Refusal where
  /-- Raised by an arm of `exec` whose command has no meaning yet, with its mnemonic (safe: the run stops). -/
  | notModelled (mnemonic : String)
deriving DecidableEq, Repr

/-! ### The state right after reset

The tables hold nothing: an unlisted entry reads as its reset value, given by the defaults of `Ops.lean`. -/

/-- A stall record of zeros. -/
def StallRec.zero : StallRec := ⟨0, 0, 0, 0, 0, 0, 0, 0, 0, 0, 0, 0, 0, 0⟩

/-- A KV record of zeros. -/
def KvRec.zero : KvRec := ⟨0, 0, 0, 0, 0, 0, 0, 0, 0, 0, 0, 0⟩

/-- A stream record of zeros. -/
def StreamRec.zero : StreamRec := ⟨0, 0, 0, 0, 0, 0, 0⟩

/-- A port with PTP off (R443: portState 0), at the setting values of R450's defaults (assumption 7). -/
def PtpPort.off : PtpPort :=
  { cfg := ⟨0, 0, 0, 0, 0, 0, 0⟩, state := 0, master := none, delay := 0, gap := 0, pendingSync := none,
    pendingDelay := none, pendingPdelay := none, syncGood := 0, awaitingStamp := none, announceAt := 0 }

/-- A transmit-timestamp queue at reset (R455). -/
def Tsq.reset : Tsq := { enable := false, overflow := false, entries := [], time := 0, dropped := 0 }

/-- The time base at reset: T 0, increment 8.0 ns, jump limit 1,000 ns, TAI − UTC 37 (R441, R443, R450). -/
def TimeBase.reset : TimeBase :=
  { t := 0, f := 0, incr := 0x0800000000#40, slew := 0, ticks := 0, jumpLimit := 1000, source := 0,
    hostDisciplined := false, calendarValid := false, jumpRefused := false, holdoverExceeded := false, exceededRaised := false,
    holdover := false, locked := false, offset := 0, holdoverEst := 0, holdoverRem := 0,
    holdoverLimit := 1000000, lastRefused := 0, utcFromMaster := false, utcOffset := 37, calSec := 0,
    calNs := 0, calStopped := false, calLost := false, adj := 0, incrNext := none, force := none, port0 := PtpPort.off,
    port1 := PtpPort.off, servo := [], slewing := false, keeper := 0, keeperTrim := 0 }

/-- The event machinery at reset (R365). -/
def Evt.reset : Evt :=
  { status := 0, mask := 0x0007FFFF#32, ringBase := 0, ringCtrl := 0, prod := 0, cons := 0, seq := 0,
    recent := [], tick := [] }

/-- The fault block at reset (R411). -/
def Flt.reset : Flt :=
  { castNew := 0, fatal := false, fault := false, degrade := false, last := 0, lastTime := 0,
    armed := false, armedUntil := 0, injTarget := 0, injParam := 0, injCount := 0, injRefused := false,
    injDone := 0, pending := none, counts := [], severities := [], lastFatal := 0, castSeq := 0 }

/-- An empty flash slot (R496). -/
def Slot.empty : Slot :=
  { state := 0, sequence := 0, version := 0, length := 0, generation := 0, hash := 0, verified := false,
    attempts := 0 }

/-- The slot shipped in flash 0: confirmed, with the version and hash of the module's shipped image (assumption 6). -/
def Slot.shipped (version hash : Nat) : Slot :=
  { Slot.empty with state := 3, sequence := 1, version := version, generation := 1, hash := hash,
                    verified := true }

/-- No Plinth is booted: every setting has its default of R369, and ID_PLINTH_VERSION reads 0 (R342). -/
def Plinth.none : Plinth := { version := 0, settings := [], reliefs := [], defaultRelief := 0, bytes := [] }

/-- A number of `n` bytes in a shipped image, least significant first. -/
def shippedNum (n v : Nat) : List Byte := (List.range n).map (fun i => BitVec.ofNat 8 (v / 256 ^ i))

/-- The Relief of the shipped Plinth, before its signature block: no setting record, an empty name (R368, assumption 6). -/
def Relief.shippedBytes : List Byte :=
  [0x53, 0x4D, 0x52, 0x46] ++ shippedNum 2 1 ++ shippedNum 2 0 ++ shippedNum 4 Config.shippedPlinthVersion ++ shippedNum 4 0 ++ List.replicate 16 0

/-- The bytes of the shipped Plinth: header, the table of its one Relief, the Relief and the signature blocks (R84, R368, assumption 6). -/
def Plinth.shippedBytes : List Byte :=
  [0x53, 0x4D, 0x50, 0x4C] ++ shippedNum 2 1 ++ shippedNum 2 0x40 ++ shippedNum 4 Config.shippedPlinthVersion ++ shippedNum 4 264 ++ shippedNum 2 0 ++
  shippedNum 1 1 ++ shippedNum 1 1 ++ shippedNum 4 0x40 ++ shippedNum 4 0x40 ++ List.replicate 36 0 ++ shippedNum 4 72 ++ shippedNum 4 112 ++
  Relief.shippedBytes ++ shippedNum 80 (Config.shippedSignature 0) ++ shippedNum 80 (Config.shippedSignature 1)

/-- The Plinth shipped in slot A: no setting record, and one Relief without settings, so that every setting has its default of R369 (R368, assumption 6). -/
def Plinth.shipped : Plinth :=
  let relief : Relief := { id := 1, plinthVersion := Config.shippedPlinthVersion, name := List.replicate 16 0, settings := [], verified := true,
                           measurement := Config.shippedHash 2, flags := 0,
                           keyId := Config.shippedSignature 0 / 2 ^ 64 % 2 ^ 64 }
  { version := Config.shippedPlinthVersion, settings := [], reliefs := [relief], defaultRelief := 1, bytes := Plinth.shippedBytes }

/-- A copy of the counter block as manufactured: floors and counts of 0, under a MAC that the model leaves open (R503, assumption 6). -/
def CounterBlock.shipped (copy : Nat) : CounterBlock := { generation := 0, fwFloor := 0, plinthFloor := 0, bootCount := 0, mac := Config.shippedCounterMac copy }

/-- Start-up state at reset: no stage entered (R342), flash 0 as shipped (assumption 6). -/
def Boot.reset : Boot :=
  { stage := 0, fwSlot := 0, plinthSlot := 0, atelierOk := false, mailboxReady := false,
    fwA := Slot.shipped Config.shippedFwVersion (Config.shippedHash 0), fwB := Slot.empty,
    plA := Slot.shipped Config.shippedPlinthVersion (Config.shippedHash 1), plB := Slot.empty,
    plinthA := Plinth.shipped, plinthB := Plinth.none, plinth := Plinth.none, fwVersion := 0,
    fwFloor := 0, plinthFloor := 0, bootCount := 0, counterGen := 0, counterOk := true,
    counterA := CounterBlock.shipped 0, counterB := CounterBlock.shipped 1,
    identity := Config.certIdentity, identityOk := false, activeRelief := 0, recordedRelief := 0,
    runtime := [], fwHash := 0, plinthHash := 0, reliefHash := 0, training0 := [], training1 := [],
    flash0 := [], flash1 := [], fetchStopped := false, rootPort := false, cold := false }

/-- Power state at reset: the input is not yet applied, the module is OFF (R521, assumption 5). -/
def Power.reset : Power :=
  { state := 4, waking := false, heldInReset := false, stopCause := 0, failRunning := false, failAt := 0,
    capBefore := none, capInForce := 250, inputMv := 0, inputTenthW := 0, case0 := 0, case1 := 0,
    caseWarn := false, junctionWarn := false, tcxoOk := true, crystalOk := true, cameraOn0 := false,
    cameraOn1 := false, i2cHeld := [] }

/-- A counter image that has never been written (R534). -/
def CounterImage.empty : CounterImage :=
  { sequence := 0, time := 0, cause := 0, counters := [], valid := false }

/-- The Patina at reset (R537). -/
def Patina.reset : Patina :=
  { block := [], foldAt := 0, rest := [], always := CounterImage.empty, imageA := CounterImage.empty, imageB := CounterImage.empty,
    newestB := false, alwaysTaken := false, feramOk := false, cellLow := false, buffer := [], log := [],
    logIndex := 0, lost := 0, eventsTotal := 0, castLog := [], castIndex := 0, utcHeld := none,
    firstPowerOn := 0 }

/-- A Frieze port that is OFF (R469). -/
def FPort.off : FPort :=
  { state := 0, width := 0, lanes := 0, partnerPort := 0, partnerNode := 0, partnerIdentity := 0,
    nonceSent := 0, verdictSent := 3, verdictGot := 3, merged := 0, uncTimes := [], upSince := 0, crcErrors := 0,
    fecCorrected := 0, fecUncorrectable := 0, replayed := 0, widthChanges := 0, trainings := 0,
    creditTimeouts := 0, fullPath := false, credits := Vector.replicate 4 0, txSeq := 0, rxSeq := 0,
    waiting := [], unacked := [] }

/-- A fabric of one unjoined node (R474). -/
def Fabric.reset : Fabric :=
  { ports := Vector.replicate 6 FPort.off, node := 0, joined := false, registrar := false,
    registrarIdentity := 0, registrarBoot := 0, registrarNode := 0, assigned := 0, policy := 0,
    listed := [], reports := [], topo := [], installed := [], hearPort := none, routes := [], pendingRoutes := [], updating := 0, phaseWait := [],
    generation := 0, routeUpdates := 0, merges := 0, splits := 0, renumberings := 0, refusals := 0,
    resvFailures := 0, heldRes := [], granted := [], nextRid := 1, t3 := [], nextTag := 0, mgmt := [],
    nextSeq := 0, nodes := 0 }

/-- A service Ethernet port at reset. -/
def EthPort.reset : EthPort := { rxSeq := 0, dropped := 0, macControl := 0, refused := 0, txProd := 0 }

/-- A camera port at reset. -/
def Camera.reset : Camera :=
  { slotOpen := false, dropping := false, startStamp := 0, frameNumber := 0, lines := 0, flags := 0,
    seq := 0, discarded := 0 }

/-- A CAN channel at reset. -/
def Can.reset : Can := { busOff := false, busOffs := 0, abandoned := 0, txProd := 0, headAt := 0 }

/-- An SPI master at reset. -/
def Spi.reset : Spi := { busy := false, stamp := 0, overrun := false, overruns := 0, seq := 0 }

/-- An encoder at reset. -/
def Encoder.reset : Encoder :=
  { a := false, b := false, index := false, count := 0, edge := 0, illegals := 0, recent := [] }

/-- The external ports at reset. -/
def Ports.reset : Ports :=
  { eth0 := EthPort.reset, eth1 := EthPort.reset, boundarySeq := 0, boundaryHeld := [], boundaryDropped := 0,
    cameras := Vector.replicate 8 Camera.reset, cans := Vector.replicate 4 Can.reset,
    spis := Vector.replicate 4 Spi.reset, encoders := Vector.replicate 8 Encoder.reset, encoderSeq := 0, encoderLast := 0,
    syncPulses := Vector.replicate 8 0, jtagBypass := false, jtagBoundary := [], extest := false }

/-- The block right after reset: nothing powered on yet, no command waiting, every table empty. -/
def State.reset : State :=
  { pending := [], mem := [], hostMem := [], tiles := [], clusters := [], parts := [], mbx := [],
    bar2Base := 0, lows := [], highs := [], evt := Evt.reset, flt := Flt.reset, objects := [],
    images := [], jobs := [], jobCounter := 0,
    kv := { dir := [], sequences := [], pinned := [], index := [], cleared := [] },
    haltLatched := false, haltAt := 0, haltSeq := 0, resting := true, time := TimeBase.reset,
    tsq0 := Tsq.reset, tsq1 := Tsq.reset, boot := Boot.reset, power := Power.reset, pat := Patina.reset,
    fab := Fabric.reset, ports := Ports.reset, hangCycle := [], hangSets := [], hangSeen := [], runIds := 0, freeCount := 0, out := [] }

end Sys2Proof.Machine
end

