-- ==== Sys2Proof/Machine/Ops.lean ====
section
/-! DEFINITION. The named operations over memory, tables, registers, events, interrupts and completion rings that the meanings share. -/

namespace Sys2Proof.Machine

/-- The outcome of a command. -/
abbrev Out := Host.Outcome State Fault Refusal

/-! ### Bytes and fields (R11) -/

/-- The low `n` bytes of a number, least significant first (R11). -/
def leBytes : Nat → Nat → List Byte
  | 0, _ => []
  | n + 1, v => BitVec.ofNat 8 v :: leBytes n (v / 256)

/-- The number a little-endian byte sequence stands for (R11). -/
def ofLe : List Byte → Nat
  | [] => 0
  | b :: bs => b.toNat + 256 * ofLe bs

/-- The number a big-endian byte sequence stands for (R84, R505). -/
def ofBe (bs : List Byte) : Nat := bs.foldl (fun a b => a * 256 + b.toNat) 0

/-- `n` bytes of a number, most significant first. -/
def beBytes (n v : Nat) : List Byte := (leBytes n v).reverse

/-- The `n`-byte field at offset `off`. -/
def fld (bs : List Byte) (off n : Nat) : Nat := ofLe ((bs.drop off).take n)

/-- Bytes `off` to `off + n - 1`. -/
def slice (bs : List Byte) (off n : Nat) : List Byte := (bs.drop off).take n

/-- Exactly `n` bytes: cut, or padded with zeros (R13). -/
def padTo (n : Nat) (bs : List Byte) : List Byte :=
  bs.take n ++ List.replicate (n - bs.length) 0

/-- Padded with zeros to a multiple of `k` bytes. -/
def padUp (k : Nat) (bs : List Byte) : List Byte :=
  bs ++ List.replicate ((k - bs.length % k) % k) 0

/-- `n` bytes holding the fields at their offsets (ascending), zeros elsewhere (R13). -/
def layout (n : Nat) (fs : List (Nat × List Byte)) : List Byte :=
  padTo n (fs.foldl (fun acc f => padTo f.1 acc ++ f.2) [])

/-- The two's-complement value of the low `n` bits. -/
def signed (n v : Nat) : Int := (BitVec.ofNat n v).toInt

/-- The low `n` bits of an integer, two's complement. -/
def unsigned (n : Nat) (v : Int) : Nat := (BitVec.ofInt n v).toNat

/-- An integer limited to a range. -/
def clampInt (lo hi v : Int) : Int := if v < lo then lo else if hi < v then hi else v

/-- A bit field of a natural number. -/
def bits (v lo n : Nat) : Nat := v / 2 ^ lo % 2 ^ n

/-! ### Memory -/

/-- What a byte that nothing has written reads as: 0 (R74, R122, R488; assumption 8). -/
def Memory.unlisted : Byte := 0

/-- The cells of a byte sequence from address `a`, zero bytes left out. -/
def Memory.cells : Nat → List Byte → Memory
  | _, [] => []
  | a, b :: bs => if b = Memory.unlisted then Memory.cells (a + 1) bs
                  else (a, b) :: Memory.cells (a + 1) bs

/-- The byte at an address. -/
def Memory.byte (m : Memory) (a : Nat) : Byte :=
  match m.find? (fun c => c.1 == a) with
  | some c => c.2
  | none => Memory.unlisted

/-- `n` bytes from address `a`. -/
def Memory.read (m : Memory) (a n : Nat) : List Byte :=
  (List.range n).map (fun i => m.byte (a + i))

/-- The memory with the bytes `bs` at address `a` and after. -/
def Memory.write (m : Memory) (a : Nat) (bs : List Byte) : Memory :=
  m.filter (fun c => c.1 < a) ++ Memory.cells a bs ++ m.filter (fun c => a + bs.length ≤ c.1)

/-- The memory with `n` bytes from `a` cleared. -/
def Memory.clear (m : Memory) (a n : Nat) : Memory :=
  m.filter (fun c => c.1 < a) ++ m.filter (fun c => a + n ≤ c.1)

/-- The canonical form: addresses strictly rising, no entry equal to what an unlisted address reads as. -/
def Memory.wf (m : Memory) : Bool :=
  decide (m.Pairwise (fun x y => x.1 < y.1)) && m.all (fun c => c.2 != Memory.unlisted)

/-! ### Tables -/

/-- The entry of a key. -/
def Tab.get? {α : Type} (t : Tab α) (k : Nat) : Option α :=
  match t.find? (fun e => e.1 == k) with
  | some e => some e.2
  | none => none

/-- The table with the entry of `k` replaced or added, keys kept ascending. -/
def Tab.put {α : Type} (t : Tab α) (k : Nat) (v : α) : Tab α :=
  t.filter (fun e => e.1 < k) ++ (k, v) :: t.filter (fun e => k < e.1)

/-- The table without the entry of `k`. -/
def Tab.erase {α : Type} (t : Tab α) (k : Nat) : Tab α :=
  t.filter (fun e => e.1 != k)

/-- The keys in use. -/
def Tab.keys {α : Type} (t : Tab α) : List Nat := t.map (fun e => e.1)

/-- The entry of a counter table, 0 when unlisted. -/
def Tab.count (t : Tab Nat) (k : Nat) : Nat := (t.get? k).getD 0

/-- A counter increased, limited to its largest value (R536). -/
def Tab.bump (t : Tab Nat) (k n limit : Nat) : Tab Nat := t.put k (min limit (t.count k + n))

/-! ### Sorting and lists -/

/-- Insert before the first element that is not smaller. -/
def insertBy {α : Type} (less : α → α → Bool) (x : α) : List α → List α
  | [] => [x]
  | y :: ys => if less y x then y :: insertBy less x ys else x :: y :: ys

/-- Stable sort. -/
def sortBy {α : Type} (less : α → α → Bool) : List α → List α
  | [] => []
  | x :: xs => insertBy less x (sortBy less xs)

/-- The state after an operation over every element of a list, in order. -/
def forEach {α : Type} (xs : List α) (s : State) (f : State → α → State) : State := xs.foldl f s

/-- Remove later equal elements. -/
def distinct : List Nat → List Nat
  | [] => []
  | x :: xs => x :: (distinct xs).filter (fun y => y != x)

/-! ### Reset values of the tables' entries -/

/-- A program store that holds a program from word 0 and 0xFFFF_FFFF in every word beyond it (R74). -/
def programStore (ws : List Word) : List Word := ws ++ List.replicate (4096 - ws.length) 0xFFFFFFFF#32

/-- A tile's registers as R74 clears them: both sets marked cleared, an empty accumulator list reading as zeros. The store holds no program, and the 64 lane generators hold 0 until an invocation seeds them (assumption 31). -/
def TileState.cleared : TileState :=
  { phase := .idle, stall := .free, pc := 0, loops := [], counters := Vector.replicate 8 0,
    ptrs := Vector.replicate 16 0, sregs := Vector.replicate 32 0, sems := Vector.replicate 16 0,
    mode := 0, acc0 := [], acc1 := [], cleared0 := true, cleared1 := true, gens := List.replicate 64 0,
    satCount := 0, anomCount := 0, program := programStore [], progLen := 0, descs := [], cellQ := [], drainQ := [], vectorQ := [], transQ := [],
    scalarQ := [], sendQ := Vector.replicate 4 [], recvQ := Vector.replicate 4 [], signals := [],
    openRuns := 0, issued := 0, gated := false, groups := [],
    frozen := false }

/-- A cluster that no lease holds: off (R519, R520). -/
def Cluster.off : Cluster :=
  { powered := false, job := 0, role := .none, runs := [], voltage := 0, marginLow := 0,
    stretching := false, stretchMs := 0, stretchSec := 0, stretches := 0, stretchTotal := 0, margin := 0, temp := 0,
    duty := 16 }

/-- An arbiter with no request and no grant; the round-robin of each class starts at requester 0 (R163, assumption 9). -/
def Arbiter.reset : Arbiter :=
  { waiting := [], heldBack := [], engines := Vector.replicate 8 none, last0 := 10, last1 := 10,
    last2 := 10, grants := 0, masked := [] }

/-- A partition at reset: in service (R411), nothing pinned (R369), scrub level 0 (R160). -/
def Part.reset : Part :=
  { state := 0, step := .none, resetMbx := none, lastPath := 0xFF,
    fastResets := 0, fullResets := 0, lastDetector := 0, lastReset := 0, backFast := none,
    backFull := none, casts := [], casting := none, arb := Arbiter.reset, pinned := 0, lines := [],
    plru := [], prefetchers := [], prefetchMisses := 0, selfRefresh := false,
    trainFails := 0, trainings := 0, poisoned := [], scrubLevel := 0, scrubBurst := 0, corrected := 0,
    quietWindows := 0, refreshBank := 0, railMv := 0, railFails := 0, railOn := true, sliceTemp := 0,
    streams := [] }

/-- A mailbox at reset (R343, R345). -/
def Mailbox.reset : Mailbox :=
  { ctrl := 0, haltCause := 0, halted := false, cmdCons := 0, cmdBase := 0, cplBase := 0, ringCmd := 0,
    ringCpl := 0, lost := 0, cplProd := 0, dblCmd := 0, dblCpl := 0, current := none, fetchTick := 0,
    waiting := none, held := [], stale := false }

/-! ### Accessors of the state's tables -/

namespace State

/-- The registers of a tile. -/
def tile (s : State) (t : TileId) : TileState := (s.tiles.get? t.toNat).getD TileState.cleared

/-- Replace the registers of a tile. -/
def setTile (s : State) (t : TileId) (x : TileState) : State := { s with tiles := s.tiles.put t.toNat x }

/-- The state of a cluster. -/
def cluster (s : State) (c : Nat) : Cluster := (s.clusters.get? c).getD Cluster.off

/-- Replace the state of a cluster. -/
def setCluster (s : State) (c : Nat) (x : Cluster) : State := { s with clusters := s.clusters.put c x }

/-- The state of a partition. -/
def part (s : State) (p : Nat) : Part := (s.parts.get? p).getD Part.reset

/-- Replace the state of a partition. -/
def setPart (s : State) (p : Nat) (x : Part) : State := { s with parts := s.parts.put p x }

/-- The state of a mailbox. -/
def box (s : State) (m : MbxId) : Mailbox := (s.mbx.get? m.toNat).getD Mailbox.reset

/-- Replace the state of a mailbox. -/
def setBox (s : State) (m : MbxId) (x : Mailbox) : State := { s with mbx := s.mbx.put m.toNat x }

/-- An object, when it exists. -/
def obj? (s : State) (o : Nat) : Option Obj := s.objects.get? o

/-- Add or replace an object. -/
def setObj (s : State) (o : Nat) (x : Obj) : State := { s with objects := s.objects.put o x }

/-- A loaded image, when it exists. -/
def image? (s : State) (i : Nat) : Option Image := s.images.get? i

/-- A job, when it exists. -/
def job? (s : State) (j : Nat) : Option Job := s.jobs.get? j

/-- Add or replace a job. -/
def setJob (s : State) (j : Nat) (x : Job) : State := { s with jobs := s.jobs.put j x }

/-- The time-base value T (R440). -/
def now (s : State) : Nat := s.time.t

/-- What leaves the module is appended to the record of outputs (assumption 4). -/
def emit (s : State) (e : Emission) : State := { s with out := s.out ++ [e] }

/-- A fresh free value (assumption 3): the count it depends on, and the state with the count advanced. -/
def fresh (s : State) : Nat × State := (s.freeCount, { s with freeCount := s.freeCount + 1 })

/-- `n` fresh free bytes (R141, R356, R422). -/
def freeBytes (s : State) (n : Nat) : List Byte × State :=
  ((List.range n).map (fun i => Config.freeByte (s.freeCount + i)), { s with freeCount := s.freeCount + n })

end State

/-- A 32-bit count increased; past its largest value the spec gives no result (assumption 10). -/
def bump32 (x : Word) : Word := if x = BitVec.allOnes 32 then Config.countWrap else x + 1

/-- The state of an event that has an effect only under a condition (assumption 1). -/
def onlyIf (c : Bool) (s : State) (t : State) : State := if c then t else s

/-! ### Addresses (R19, R117, R118) -/

/-- First local address of a tile's scratchpad in the T0 aperture (R19, R117). -/
def t0Base (t : TileId) : Nat := 0x4000000000 + t.toNat * 0x100000

/-- First local address of a partition's T1 window (R117). -/
def t1Base (p : Nat) : Nat := 0x4800000000 + p * 0x2000000

/-- First local address of a partition's T2 (R117). -/
def t2Base (p : Nat) : Nat := p * 0x400000000

/-- The regions of the local address map (R117). -/
inductive Region where
  | t2 (p off : Nat)
  | t0 (tile off : Nat)
  | t1 (p off : Nat)
  | internal
  | reserved
deriving DecidableEq, Repr

/-- The region of a local address (R117, R118). -/
def regionOf (a : Nat) : Region :=
  if a < 0x2000000000 then .t2 (a / 0x400000000) (a % 0x400000000)
  else if 0x4000000000 ≤ a ∧ a < 0x4020000000 then
    .t0 ((a - 0x4000000000) / 0x100000) ((a - 0x4000000000) % 0x100000)
  else if 0x4800000000 ≤ a ∧ a < 0x4810000000 then
    .t1 ((a - 0x4800000000) / 0x2000000) ((a - 0x4800000000) % 0x2000000)
  else if 0x5000000000 ≤ a then .internal
  else .reserved

/-- Partition of a tile (R17). -/
def partOfTile (t : TileId) : Nat := t.toNat / 64

/-- Cluster of a tile, 0 to 63 over the die (R17). -/
def clusterOfTile (t : TileId) : Nat := t.toNat / 8

/-- Mesh column of a tile (R19). -/
def meshX (t : TileId) : Nat := 8 * (t.toNat / 64 % 4) + t.toNat % 8

/-- Mesh row of a tile (R19). -/
def meshY (t : TileId) : Nat := 8 * (t.toNat / 64 / 4) + t.toNat / 8 % 8

/-- Pinned capacity of a partition's slice in bytes (R144). -/
def pinnedBytes (s : State) (p : Nat) : Nat := 0x200000 * (s.part p).pinned

/-- A local address range lies in T2 or in pinned T1 of one partition (R117, R144). -/
def dataRange (s : State) (a n : Nat) : Bool :=
  match regionOf a with
  | .t2 _ off => decide (off + n ≤ 0x400000000)
  | .t1 p off => decide (off + n ≤ pinnedBytes s p)
  | _ => false

/-! ### Scratchpad (R33, R54) -/

/-- `n` bytes of a tile's scratchpad from byte address `a`, wrapping modulo 1 MiB (R54, R125). -/
def scratchRead (s : State) (t : TileId) (a n : Nat) : List Byte :=
  (List.range n).map (fun i => s.mem.byte (t0Base t + (a + i) % 0x100000))

/-- A tile's scratchpad with `bs` written from byte address `a`, wrapping modulo 1 MiB (R54, R125). -/
def scratchWrite (s : State) (t : TileId) (a : Nat) (bs : List Byte) : State :=
  let a := a % 0x100000
  let first := bs.take (0x100000 - a)
  let rest := bs.drop (0x100000 - a)
  { s with mem := (s.mem.write (t0Base t + a) first).write (t0Base t) rest }

/-! ### Host memory and the memory of other nodes (R17, R343, R356) -/

/-- Key in `hostMem` of a global address of another node (assumption 11). -/
def peerKey (g : Nat) : Nat := 2 ^ 64 + g

/-- Node of a global address (R17). -/
def nodeOf (g : Nat) : Nat := g / 2 ^ 54 % 1024

/-- Local part of a global address (R17). -/
def localOf (g : Nat) : Nat := g % 2 ^ 54

/-- The route table has a usable entry for a node (R479). -/
def routed (s : State) (node : Nat) : Bool :=
  s.fab.routes.any (fun r => r.dest == node && r.valid)

/-- MBX_CTRL.path of a mailbox (R343). -/
def Mailbox.path1 (b : Mailbox) : Bool := b.ctrl.getLsbD 1

/-- MBX_CTRL.node of a mailbox (R343). -/
def Mailbox.node (b : Mailbox) : BitVec 10 := b.ctrl.extractLsb' 16 10

/-- MBX_CTRL.enable of a mailbox (R343). -/
def Mailbox.enabled (b : Mailbox) : Bool := b.ctrl.getLsbD 0

/-- MBX_STATUS.active: enabled and not halted (R343). -/
def Mailbox.active (b : Mailbox) : Bool := b.enabled && !b.halted

/-- The path a mailbox takes its accesses from (R344). -/
def Mailbox.owner (b : Mailbox) : Path := if b.path1 then .frieze b.node else .pcie

/-! ### Interrupts (R366) -/

/-- A bit of EVT_STATUS becomes set; its MSI-X vector is raised on a change from 0 to 1 while unmasked and, for mailbox bits, while irq_en is 1 on a PCIe mailbox (R366). -/
def setEvt (s : State) (n : Nat) : State :=
  let was := s.evt.status.getLsbD n
  let s1 := { s with evt := { s.evt with status := s.evt.status ||| (1#32 <<< n) } }
  let b := s.box (BitVec.ofNat 4 n)
  let gate := n ≥ 16 || (b.ctrl.getLsbD 2 && !b.path1)
  if !was && !s.evt.mask.getLsbD n && gate && !s.boot.rootPort then s1.emit (.msix n) else s1

/-! ### Events (R367, R406 to R411) -/

/-- Severity of an event by the detector table (R410); `mild` selects the lower of two severities. -/
def severityOf (e : DetEvent) : Nat :=
  match e.detector with
  | 0x01 | 0x03 | 0x05 | 0x20 | 0x31 | 0x41 | 0x50 | 0x54 | 0x80 | 0x85 | 0xA0 | 0xA2 | 0xB0 => 0
  | 0x04 | 0x22 => if e.mild then 1 else 2
  | 0x30 => if e.cause = 0 then 1 else 0
  | 0x90 => if e.mild then 0 else 1
  | 0x07 | 0x12 | 0x13 | 0x23 | 0x33 | 0x40 | 0x42 | 0x43 | 0x51 | 0x53 | 0x62 | 0x63 | 0x66 | 0x70
  | 0x71 | 0x72 | 0x81 | 0x82 | 0x83 | 0x84 | 0xA1 => 1
  | 0x61 | 0x64 | 0x65 | 0x67 | 0x86 | 0x91 | 0x92 => 3
  | _ => 2

/-- The detector is one of the table (R410). -/
def detectorKnown (d : Nat) : Bool :=
  [0x01, 0x02, 0x03, 0x04, 0x05, 0x06, 0x07, 0x10, 0x11, 0x12, 0x13, 0x14, 0x20, 0x21, 0x22, 0x23, 0x30,
   0x31, 0x32, 0x33, 0x40, 0x41, 0x42, 0x43, 0x50, 0x51, 0x52, 0x53, 0x54, 0x55, 0x60, 0x61, 0x62, 0x63,
   0x64, 0x65, 0x66, 0x67, 0x70, 0x71, 0x72, 0x73, 0x80, 0x81, 0x82, 0x83, 0x84, 0x85, 0x86, 0x90, 0x91,
   0x92, 0xA0, 0xA1, 0xA2, 0xB0].contains d

/-- The 32 bytes of an event entry (R367, R408). -/
def LogEntry.bytes (e : LogEntry) : List Byte :=
  leBytes 8 e.time ++ leBytes 4 e.seq ++ leBytes 1 e.detector ++ leBytes 1 e.severity ++
  leBytes 1 e.partition ++ leBytes 1 0 ++ leBytes 2 e.job ++ leBytes 2 0 ++ leBytes 1 e.flags ++
  leBytes 1 e.cause ++ leBytes 2 e.unit ++ leBytes 8 e.value

/-- Two events of one tick stand in ascending order of detector, then of partition (R407). -/
def LogEntry.before (a b : LogEntry) : Bool :=
  a.detector < b.detector || (a.detector == b.detector && decide (a.partition ≤ b.partition))

/-- An entry put behind those it does not precede among the last ones, which are of its tick (R407). -/
def LogEntry.insert (e : LogEntry) (es : List LogEntry) : List LogEntry :=
  let later := (es.reverse.takeWhile (fun x => x.time == e.time && x.detector != 0 && e.detector != 0 && !x.before e)).length
  es.take (es.length - later) ++ e :: es.drop (es.length - later)

/-- An entry passed to the Patina's always-on buffer, among the events of its tick in their order, or counted as lost when its 1,024 entries are held (R367, R407, R534). -/
def patLog (s : State) (e : LogEntry) : State :=
  if s.pat.buffer.length < 1024 then { s with pat := { s.pat with buffer := e.insert s.pat.buffer } }
  else { s with pat := { s.pat with lost := min 0xFFFFFFFF (s.pat.lost + 1) } }

/-- A log record of R535: detector 0x00, severity INFO, seq 0. -/
def logRecord (s : State) (kind value : Nat) : State :=
  patLog s { time := s.now, seq := 0, detector := 0, severity := 0, partition := 0xFF, job := 0,
             flags := 0, cause := kind, unit := 0, value := value }

/-- A Patina block counter increased (R534, R536). -/
def patCount (s : State) (off n : Nat) : State :=
  { s with pat := { s.pat with block := s.pat.block.put off (s.pat.block.count off + n) } }

/-- R407: an INFO or DEGRADE event, and an equal written one, of whatever severity, in the window [t − 10 ms, t). -/
def suppressed (s : State) (sev : Nat) (e : DetEvent) : Bool :=
  sev ≤ 1 && s.evt.recent.any (fun r =>
    r.detector == e.detector && r.partition == e.partition && r.unit == e.unit && r.cause == e.cause &&
    r.time < s.now && s.now ≤ r.time + 10000000)

/-- The detector's counts of the Patina and of `FAULT_STATUS` (R407, R414, R536). -/
def countDetector (s : State) (d : Nat) : State :=
  patCount { s with flt := { s.flt with counts := s.flt.counts.bump d 1 0xFFFFFFFF } } (0x200 + 8 * d) 1

/-- Entries written into the event ring's slots from an index on (R367). -/
def ringWrite (s : State) (i : BitVec 16) (es : List LogEntry) : State :=
  forEach es.zipIdx s (fun s x =>
    { s with hostMem := s.hostMem.write (s.evt.ringBase.toNat + 32 * ((i.toNat + x.2) % 256)) x.1.bytes })

/-- The event ring takes an entry, or its overflow bit is set (R367); entries of the same tick that follow it in R407's order, and that the host has not consumed, move up by one slot. -/
def ringEvent (s : State) (e : LogEntry) : State :=
  if !s.evt.ringCtrl.getLsbD 0 || e.severity < (s.evt.ringCtrl.extractLsb' 4 2).toNat then s
  else if (s.evt.prod - s.evt.cons).toNat ≥ 256 then setEvt s 17
  else
    let mine := s.evt.tick.filter (fun x => x.time == e.time)
    let unread := mine.drop (mine.length - (s.evt.prod - s.evt.cons).toNat)
    let all := e.insert unread
    let s := ringWrite s (s.evt.prod - BitVec.ofNat 16 unread.length) all
    setEvt { s with evt := { s.evt with prod := s.evt.prod + 1, tick := all } } 16

/-- FLT_STATUS, FLT_LAST and the counts by severity (R411, R414). -/
def noteSeverity (s : State) (sev : Nat) (e : DetEvent) : State :=
  let last : Word := BitVec.ofNat 32 (e.partition % 256 * 65536 + sev * 256 + e.detector)
  { s with flt := { s.flt with
      degrade := s.flt.degrade || sev == 1
      fault := s.flt.fault || sev == 2
      fatal := s.flt.fatal || sev == 3
      last := if sev ≥ 2 then last else s.flt.last
      lastTime := if sev ≥ 2 then BitVec.ofNat 64 s.now else s.flt.lastTime
      lastFatal := if sev = 3 then s.now else s.flt.lastFatal
      severities := s.flt.severities.bump sev 1 0xFFFFFFFF } }

/-- Raise an event at a given severity with given detail flags: bit 0 injected, bit 1 escalated (R367, R407, R408). -/
def raiseAs (s : State) (sev flags : Nat) (e : DetEvent) : State :=
  let s := countDetector s e.detector
  if suppressed s sev e then s
  else
    let entry : LogEntry :=
      { time := s.now, seq := s.evt.seq, detector := e.detector, severity := sev, partition := e.partition,
        job := e.job, flags := flags, cause := e.cause, unit := e.unit, value := e.value }
    let seen : RecentEvt :=
      { detector := e.detector, partition := e.partition, unit := e.unit, cause := e.cause, time := s.now }
    let s := { s with evt := { s.evt with
      seq := (s.evt.seq + 1) % 2 ^ 32
      recent := seen :: s.evt.recent.filter (fun r => s.now ≤ r.time + 10000000) } }
    ringEvent (patLog (noteSeverity s sev e) entry) entry

/-- Raise an event at the severity of the detector table (R410). -/
def raise (s : State) (e : DetEvent) : State := raiseAs s (severityOf e) 0 e

/-- An event with its detail; partition 0xFF for none (R367, R408). -/
def mkEvent (detector partition job cause unit value : Nat) : DetEvent :=
  { detector := detector, partition := partition, job := job, cause := cause, unit := unit,
    value := value, mild := false }

/-- The mailbox-protocol event, at INFO or DEGRADE (R341 to R350, R410). -/
def event90 (info : Bool) : DetEvent :=
  { detector := 0x90, partition := 0xFF, job := 0, cause := 0, unit := 0, value := 0, mild := info }

/-! ### Injection (R413, R564) -/

/-- The field of FLT_INJ_TARGET that holds the target tile (R411). -/
def injTile (w : Word) : TileId := w.extractLsb' 15 9

/-- The cluster over the die that FLT_INJ_TARGET names (R411). -/
def injCluster (w : Word) : Nat := (w.extractLsb' 18 6).toNat

/-- The partition that FLT_INJ_TARGET names (R411). -/
def injPart (w : Word) : Nat := (w.extractLsb' 21 3).toNat

/-- The index that FLT_INJ_TARGET names (R411). -/
def injIndex (w : Word) : Nat := (w.extractLsb' 8 7).toNat

/-- A pending injection of a detector whose target is met: its target and parameter, and the state with one occurrence taken and counted in FLT_INJ_DONE (R413). -/
def takeInjection (s : State) (d : Nat) (hit : Injection → Bool) : Option Injection × State :=
  match s.flt.pending with
  | none => (none, s)
  | some i =>
    if i.detector = d ∧ hit i = true then
      let left := if i.remaining ≤ 1 then none else some { i with remaining := i.remaining - 1 }
      (some i, { s with flt := { s.flt with pending := left, injDone := bump32 s.flt.injDone } })
    else (none, s)

/-- Whether a taken injection marks the event's flags bit 0 (R408, R413). -/
def injFlags (i : Option Injection) : Nat := if i.isSome then 1 else 0

/-! ### Completion rings (R346 to R350, R354) -/

/-- The 128 bytes of a completion-ring entry, with the time-base value of its writing (R354). -/
def CplEntry.bytes (e : CplEntry) (time : Nat) : List Byte :=
  leBytes 2 e.opcode ++ leBytes 2 e.tag ++ leBytes 1 e.status ++ leBytes 1 e.kind ++
  leBytes 2 e.payload.length ++ leBytes 8 time ++ padTo 112 e.payload

/-- A mailbox halts: it fetches nothing until it is re-enabled (R343, R347). -/
def haltBox (s : State) (m : MbxId) (cause : BitVec 3) : State :=
  s.setBox m { s.box m with halted := true, haltCause := cause }

/-- Entries held in the completion ring (R346). -/
def Mailbox.cplHeld (b : Mailbox) : Nat := (b.cplProd - b.dblCpl).toNat

/-- Count a discarded entry in MBX_LOST (R343, R348, R350). -/
def loseEntry (s : State) (m : MbxId) : State :=
  s.setBox m { s.box m with lost := bump32 (s.box m).lost }

/-! ### Settings (R369) -/

/-- The value of a setting in force: run-time value, then the active Relief's, then the Plinth's, then the default. -/
def settingBytes (s : State) (key : Nat) : Option (List Byte) :=
  let inRelief := (s.boot.plinth.reliefs.find? (fun r => r.id == s.boot.activeRelief)).bind
    (fun r => r.settings.find? (fun x => x.key == key))
  match inRelief with
  | some x => some x.value
  | none => (s.boot.plinth.settings.find? (fun x => x.key == key)).map (fun x => x.value)

/-- A numeric setting with its default (R369). -/
def setting (s : State) (key default : Nat) : Nat :=
  match s.boot.runtime.get? key with
  | some v => v
  | none => match settingBytes s key with
    | some bs => ofLe bs
    | none => default

/-- Byte `i` of a setting that holds one byte per partition, 0 by default (R369). -/
def settingByte (s : State) (key i : Nat) : Nat :=
  match settingBytes s key with
  | some bs => fld bs i 1
  | none => 0

end Sys2Proof.Machine
end

