-- ==== Sys2Proof/Machine/Float.lean ====
section
/-! DEFINITION. Exact numbers, their rounding, and the element formats of chapter 2: every arithmetic unit computes an exact value here and rounds it once. -/

namespace Sys2Proof.Machine

/-- An exact number: (−1)^neg · m · 2^e, an infinity or a NaN (R90). A zero keeps its sign (R93). -/
inductive Num where
  | fin (neg : Bool) (m : Nat) (e : Int)
  | inf (neg : Bool)
  | nan
deriving DecidableEq, Repr

/-- The exact value of an integer times a power of two. -/
def Num.ofInt (v : Int) (e : Int) : Num := .fin (decide (v < 0)) v.natAbs e

/-- Positive zero. -/
def Num.zero : Num := .fin false 0 0

/-! ### Rounding (R105, R107) -/

/-- RNE(a ÷ b): round to nearest, ties to even. -/
def rneDiv (a b : Nat) : Nat :=
  let q := a / b
  let r := a % b
  if 2 * r < b then q else if b < 2 * r then q + 1 else if q % 2 = 0 then q else q + 1

/-- How a magnitude is rounded: to nearest even, or stochastically with a 16-bit random value (R105, R107). -/
inductive Rounding where
  | rne
  | stoch (r : Nat)
deriving DecidableEq, Repr

/-- m · 2^e in units of 2^q, rounded (R105, R107). -/
def roundUnits (rd : Rounding) (m : Nat) (e q : Int) : Nat :=
  if q ≤ e then m * 2 ^ (e - q).toNat
  else
    let d := 2 ^ (q - e).toNat
    match rd with
    | .rne => rneDiv m d
    | .stoch r =>
      let n := m / d
      let f16 := m % d * 65536 / d
      if f16 + r ≥ 65536 then n + 1 else n

/-- RNE(v · 2^e) for an integer v (R103, R109). -/
def rneInt (v : Int) (e : Int) : Int :=
  let n : Int := roundUnits .rne v.natAbs e 0
  if v < 0 then -n else n

/-- The exponent of the leading bit of m · 2^e, for m > 0. -/
def lead (m : Nat) (e : Int) : Int := e + Nat.log2 m

/-! ### Floating-point formats (R88, R90) -/

/-- A floating-point format: fraction bits, exponent of the smallest normal, and the codes of its limits. -/
structure FloatFmt where
  frac : Nat
  emin : Int
  expBits : Nat
  maxCode : Nat
  /-- Magnitude code of an infinity, when the format has one. -/
  infCode : Option Nat
  nanCode : Nat
deriving DecidableEq, Repr

/-- FP32 (R88, R90). -/
def fp32 : FloatFmt :=
  { frac := 23, emin := -126, expBits := 8, maxCode := 0x7F7FFFFF, infCode := some 0x7F800000, nanCode := 0x7FC00000 }
/-- FP16 (R88, R90). -/
def fp16 : FloatFmt :=
  { frac := 10, emin := -14, expBits := 5, maxCode := 0x7BFF, infCode := some 0x7C00, nanCode := 0x7E00 }
/-- BF16 (R88, R90). -/
def bf16 : FloatFmt :=
  { frac := 7, emin := -126, expBits := 8, maxCode := 0x7F7F, infCode := some 0x7F80, nanCode := 0x7FC0 }
/-- FP8-E4M3 (R88, R90): no infinity, NaN at 0x7F. -/
def e4m3 : FloatFmt :=
  { frac := 3, emin := -6, expBits := 4, maxCode := 0x7E, infCode := none, nanCode := 0x7F }
/-- FP8-E5M2 (R88, R90). -/
def e5m2 : FloatFmt :=
  { frac := 2, emin := -14, expBits := 5, maxCode := 0x7B, infCode := some 0x7C, nanCode := 0x7E }
/-- An FP4B element, E2M1 (R90). -/
def e2m1 : FloatFmt :=
  { frac := 1, emin := 0, expBits := 2, maxCode := 0x7, infCode := none, nanCode := 0x7 }

/-- Bit that holds the sign. -/
def FloatFmt.signBit (f : FloatFmt) : Nat := 2 ^ (f.expBits + f.frac)

/-- The exact value of an encoding; subnormals at their value (R90, R91). -/
def FloatFmt.decode (f : FloatFmt) (code : Nat) : Num :=
  let neg := code / f.signBit % 2 == 1
  let mag := code % f.signBit
  if mag ≤ f.maxCode then
    let ex := mag / 2 ^ f.frac
    let fr := mag % 2 ^ f.frac
    if ex = 0 then .fin neg fr (f.emin - f.frac)
    else .fin neg (2 ^ f.frac + fr) (f.emin - f.frac + (ex : Int) - 1)
  else if f.infCode = some mag then .inf neg
  else .nan

/-- The magnitude code of a finite magnitude before any overflow rule: the destination's spacing, unbounded above. -/
def FloatFmt.magCode (f : FloatFmt) (rd : Rounding) (m : Nat) (e : Int) : Nat :=
  if m = 0 then 0
  else
    let q0 := f.emin - (f.frac : Int)
    let q := max (lead m e - (f.frac : Int)) q0
    roundUnits rd m e q + (q - q0).toNat * 2 ^ f.frac

/-- Whether a finite overflow becomes an infinity: FP32, FP16, BF16; the FP8 formats saturate (R111). -/
def FloatFmt.overflowsToInf (f : FloatFmt) : Bool := f.frac == 23 || f.frac == 10 || f.frac == 7

/-- Encode under R111: finite overflow, infinities and NaN as the table says. -/
def FloatFmt.encode (f : FloatFmt) (rd : Rounding) : Num → Nat
  | .nan => f.nanCode
  | .inf neg => (if neg then f.signBit else 0) + f.infCode.getD f.maxCode
  | .fin neg m e =>
    let c := f.magCode rd m e
    let c := if c ≤ f.maxCode then c
             else if f.overflowsToInf then f.infCode.getD f.maxCode else f.maxCode
    (if neg then f.signBit else 0) + c

/-- Round to FP32 to nearest even, as a number (R102, R109). -/
def Num.toFp32 (x : Num) : Num := fp32.decode (fp32.encode .rne x)

/-! ### Exact arithmetic (IEEE 754 specials, R92, R93) -/

/-- Signed integer of a finite number at exponent `e0` ≤ its own. -/
def scaledInt (neg : Bool) (m : Nat) (e e0 : Int) : Int :=
  let v : Int := m * 2 ^ (e - e0).toNat
  if neg then -v else v

/-- Exact sum; a sum of opposite zeros or of opposite equal values is +0 (R93). -/
def Num.add : Num → Num → Num
  | .nan, _ => .nan
  | _, .nan => .nan
  | .inf a, .inf b => if a = b then .inf a else .nan
  | .inf a, _ => .inf a
  | _, .inf b => .inf b
  | .fin a m e, .fin b n f =>
    let e0 := min e f
    let v := scaledInt a m e e0 + scaledInt b n f e0
    if v = 0 then .fin (a && b) 0 e0 else .ofInt v e0

/-- Negation: the sign is inverted. -/
def Num.neg : Num → Num
  | .nan => .nan
  | .inf a => .inf (!a)
  | .fin a m e => .fin (!a) m e

/-- Magnitude. -/
def Num.abs : Num → Num
  | .nan => .nan
  | .inf _ => .inf false
  | .fin _ m e => .fin false m e

/-- A zero of either sign. -/
def Num.isZero : Num → Bool
  | .fin _ m _ => m == 0
  | _ => false

/-- Exact product; ∞ × 0 is NaN. -/
def Num.mul : Num → Num → Num
  | .nan, _ => .nan
  | _, .nan => .nan
  | .inf a, .inf b => .inf (a != b)
  | .inf a, .fin b n _ => if n = 0 then .nan else .inf (a != b)
  | .fin a m _, .inf b => if m = 0 then .nan else .inf (a != b)
  | .fin a m e, .fin b n f => .fin (a != b) (m * n) (e + f)

/-- Numeric order of two numbers that are no NaN: −1, 0 or 1; zeros are equal. -/
def Num.cmp : Num → Num → Int
  | .inf a, .inf b => if a = b then 0 else if a then -1 else 1
  | .inf a, _ => if a then -1 else 1
  | _, .inf b => if b then 1 else -1
  | .fin a m e, .fin b n f =>
    let e0 := min e f
    let d := scaledInt a m e e0 - scaledInt b n f e0
    if d < 0 then -1 else if d = 0 then 0 else 1
  | _, _ => 0

/-- Sign of a number. -/
def Num.sign : Num → Bool
  | .fin a _ _ => a
  | .inf a => a
  | .nan => false

/-- A NaN. -/
def Num.isNan : Num → Bool
  | .nan => true
  | _ => false

/-- MAX: NaN if either is NaN, +0 above −0 (R93). -/
def Num.maxOf (x y : Num) : Num :=
  if x.isNan || y.isNan then .nan
  else if x.isZero && y.isZero then (if x.sign && y.sign then x else .zero)
  else if x.cmp y < 0 then y else x

/-- MIN: NaN if either is NaN, −0 below +0 (R93). -/
def Num.minOf (x y : Num) : Num :=
  if x.isNan || y.isNan then .nan
  else if x.isZero && y.isZero then (if x.sign || y.sign then .fin true 0 0 else .zero)
  else if y.cmp x < 0 then y else x

/-- Less than; false with a NaN (R93). -/
def Num.lt (x y : Num) : Bool := !x.isNan && !y.isNan && x.cmp y < 0

/-- Equal; false with a NaN (R93). -/
def Num.eq (x y : Num) : Bool := !x.isNan && !y.isNan && x.cmp y == 0

/-- Integer square root, bit by bit from bit `n` down. -/
def isqrtBits : Nat → Nat → Nat → Nat
  | 0, _, r => r
  | n + 1, v, r => if (r + 2 ^ n) * (r + 2 ^ n) ≤ v then isqrtBits n v (r + 2 ^ n) else isqrtBits n v r

/-- ⌊√v⌋. -/
def isqrt (v : Nat) : Nat := isqrtBits (Nat.log2 v / 2 + 1) v 0

/-- A quotient or root with enough bits and a sticky bit, so that one later rounding is that of the exact value. -/
def sticky (neg : Bool) (q : Nat) (exact : Bool) (e : Int) : Num :=
  .fin neg (2 * q + (if exact then 0 else 1)) (e - 1)

/-- Division: x ÷ 0 is ±∞ for a non-zero x, 0 ÷ 0 and ∞ ÷ ∞ are NaN (IEEE 754, R39). -/
def Num.div : Num → Num → Num
  | .nan, _ => .nan
  | _, .nan => .nan
  | .inf _, .inf _ => .nan
  | .inf a, .fin b _ _ => .inf (a != b)
  | .fin a _ _, .inf b => .fin (a != b) 0 0
  | .fin a m e, .fin b n f =>
    if n = 0 then (if m = 0 then .nan else .inf (a != b))
    else
      let k := 64 + Nat.log2 n
      sticky (a != b) (m * 2 ^ k / n) (m * 2 ^ k % n == 0) (e - f - k)

/-- Square root: NaN of a negative value, −0 of −0 (IEEE 754, R63). -/
def Num.sqrt : Num → Num
  | .nan => .nan
  | .inf a => if a then .nan else .inf false
  | .fin a m e =>
    if m = 0 then .fin a 0 0
    else if a then .nan
    else
      let odd := e % 2 != 0
      let m' := (if odd then 2 * m else m) * 2 ^ 128
      let e' := ((if odd then e - 1 else e) - 128) / 2
      let r := isqrt m'
      sticky false r (r * r == m') e'

/-- Reciprocal square root: ±∞ of ±0, NaN of a negative value (IEEE 754, R39, R63). -/
def Num.rsqrt : Num → Num
  | .nan => .nan
  | .inf a => if a then .nan else .fin false 0 0
  | .fin a m e =>
    if m = 0 then .inf a
    else if a then .nan
    else
      let odd := e % 2 != 0
      let m' := if odd then 2 * m else m
      let e' := if odd then e - 1 else e
      let k := 64 + Nat.log2 m'
      let r := isqrt (2 ^ (2 * k) / m')
      sticky false r (r * r * m' == 2 ^ (2 * k)) (-(e' / 2) - k)

/-! ### Format codes (R88, R89) -/

/-- The eleven formats (R88). -/
inductive Fmt where
  | fp32 | fp16 | bf16 | e4m3 | e5m2 | fp4b | int8 | int4b | trib | fx16 | fx32
deriving DecidableEq, Repr

/-- The format of a code; codes 0xB to 0xF are reserved (R88). -/
def Fmt.ofCode : Nat → Option Fmt
  | 0 => some .fp32 | 1 => some .fp16 | 2 => some .bf16 | 3 => some .e4m3 | 4 => some .e5m2
  | 5 => some .fp4b | 6 => some .int8 | 7 => some .int4b | 8 => some .trib | 9 => some .fx16
  | 10 => some .fx32 | _ => none

/-- Element bits (R88). -/
def Fmt.elemBits : Fmt → Nat
  | .fp32 | .fx32 => 32
  | .fp16 | .bf16 | .fx16 => 16
  | .e4m3 | .e5m2 | .int8 => 8
  | .fp4b | .int4b => 4
  | .trib => 2

/-- The floating-point layout of a format that has one; an FP4B element without its scale (R88). -/
def Fmt.float? : Fmt → Option FloatFmt
  | .fp32 => some Machine.fp32 | .fp16 => some Machine.fp16 | .bf16 => some Machine.bf16
  | .e4m3 => some Machine.e4m3 | .e5m2 => some Machine.e5m2 | .fp4b => some Machine.e2m1
  | _ => none

/-- Element `i` of a packed sequence of bytes (R89). -/
def element (w : Nat) (bs : List Byte) (i : Nat) : Nat :=
  if w < 8 then bits (fld bs (i * w / 8) 1) (i * w % 8) w
  else fld bs (i * (w / 8)) (w / 8)

/-- The number whose `w`-bit digits are the elements, first element lowest (R89). -/
def packNat (w : Nat) : List Nat → Nat
  | [] => 0
  | x :: xs => x % 2 ^ w + 2 ^ w * packNat w xs

/-- Elements packed from the least significant bit (R89). -/
def packElems (w : Nat) (xs : List Nat) : List Byte := leBytes (xs.length * w / 8) (packNat w xs)

end Sys2Proof.Machine
end

