-- ==== Sys2Proof/Machine/Operands.lean ====
section
/-! DEFINITION. The operand forms of the tile's units: the mode register, pointers, element rows and their widening and narrowing (R54, R55, R96 to R100, R105 to R111). -/

namespace Sys2Proof.Machine

/-! ### The mode register (R55; its bit places are those of the `SETMODE` word, assumption 12) -/

/-- A format (TRIB excluded by R55). -/
def modeA (m : Word) : Fmt := (Fmt.ofCode (field m 23 4).toNat).getD .fp32
/-- B format. -/
def modeB (m : Word) : Fmt := (Fmt.ofCode (field m 19 4).toNat).getD .fp32
/-- Output format. -/
def modeOut (m : Word) : Fmt := (Fmt.ofCode (field m 15 4).toNat).getD .fp32
/-- Mode binary point. -/
def modeB0 (m : Word) : Nat := (field m 10 5).toNat
/-- Stochastic rounding. -/
def modeSr (m : Word) : Bool := bit m 9

/-! ### Pointers (R54) -/

/-- The scratchpad byte address a pointer register holds: granules of 16 bytes (R54). -/
def TileState.addr (x : TileState) (p : BitVec 4) : Nat := 16 * (x.ptrs[p.toNat]).toNat

/-! ### Lanes (R108) -/

/-- A lane or accumulator value on its way to a format: an exact number, or a fixed-point raw integer. -/
inductive Lane where
  | num (x : Num)
  | fx (q : Int)
deriving DecidableEq, Repr

/-- The lane types of R108. -/
inductive LaneType where
  | fp32 | int32 | fx32
deriving DecidableEq, Repr

/-- The lane type of a source format (R108). -/
def Fmt.laneType : Fmt → LaneType
  | .int8 => .int32
  | .fx16 | .fx32 => .fx32
  | _ => .fp32

/-- The exact value of a lane, a raw integer taken at binary point `b` (R94, R110). -/
def Lane.value (b : Nat) : Lane → Num
  | .num x => x
  | .fx q => .ofInt q (-(b : Int))

/-- Bytes of a 64-element row (R96). -/
def Fmt.rowBytes : Fmt → Nat
  | .fp4b | .int4b => 48
  | f => 8 * f.elemBits

/-- One element × block scale: an FP4B scale 0xFF gives NaN, an INT4B scale 0xFF gives 0 (R97, R108). -/
def blockElem (f : Fmt) (code scale : Nat) : Num :=
  match f with
  | .fp4b =>
    if scale = 0xFF then .nan
    else match e2m1.decode code with
      | .fin neg m e => (Num.fin neg m (e + scale - 127)).toFp32
      | x => x
  | _ => if scale = 0xFF then .zero else (Num.ofInt (signed 4 code) (scale - 127)).toFp32

/-- Widen element `i` of a row (R108). -/
def readLane (f : Fmt) (row : List Byte) (i : Nat) : Lane :=
  let code := element f.elemBits row i
  match f with
  | .fp4b | .int4b => .num (blockElem f code (fld row (32 + i / 32) 1))
  | .int8 => .num (.ofInt (signed 8 code) 0)
  | .fx16 => .fx (signed 16 code)
  | .fx32 => .fx (signed 32 code)
  | f => match f.float? with
    | some ff => .num (ff.decode code)
    | none => .num .zero

/-- Widen a 64-element row (R108). -/
def readRow (f : Fmt) (row : List Byte) : List Lane := (List.range 64).map (readLane f row)

/-- R97: a row met a reserved INT4B scale. -/
def rowAnomaly (f : Fmt) (row : List Byte) : Bool :=
  f == .int4b && (fld row 32 1 == 0xFF || fld row 33 1 == 0xFF)

/-! ### Narrowing (R100, R105 to R107, R111) -/

/-- A narrowed element with the counters of R99 it sets. -/
structure Narrowed where
  code : Nat
  sat : Bool
  anom : Bool
deriving DecidableEq, Repr

/-- The formats a write rounds stochastically to when `SETMODE` bit [9] is set (R105). -/
def Fmt.stochastic : Fmt → Bool
  | .e4m3 | .e5m2 | .fp4b | .int8 | .int4b => true
  | _ => false

/-- Round an exact number to an integer in a range: the clamped integer, and whether it was clamped. -/
def toRange (rd : Rounding) (lo hi : Int) (neg : Bool) (m : Nat) (e : Int) : Int × Bool :=
  let n : Int := roundUnits rd m e 0
  let v := if neg then -n else n
  (clampInt lo hi v, v < lo || hi < v)

/-- Narrow one lane to a fixed-point format of `w` bits at binary point `b` (R110, R111). -/
def narrowFx (w b : Nat) : Lane → Narrowed
  | .fx q =>
    let lo : Int := -(2 ^ (w - 1)); let hi : Int := 2 ^ (w - 1) - 1
    ⟨unsigned w (clampInt lo hi q), q < lo || hi < q, false⟩
  | .num .nan => ⟨0, false, true⟩
  | .num (.inf neg) => ⟨unsigned w (if neg then -(2 ^ (w - 1)) else 2 ^ (w - 1) - 1), true, false⟩
  | .num (.fin neg m e) =>
    let r := toRange .rne (-(2 ^ (w - 1))) (2 ^ (w - 1) - 1) neg m (e + b)
    ⟨unsigned w r.1, r.2, false⟩

/-- Narrow one lane to INT8 (R111): clipping is not counted. -/
def narrowInt8 (b : Nat) (rd : Rounding) (l : Lane) : Narrowed :=
  match l.value b with
  | .nan => ⟨0, false, true⟩
  | .inf neg => ⟨unsigned 8 (if neg then -128 else 127), false, false⟩
  | .fin neg m e => ⟨unsigned 8 (toRange rd (-128) 127 neg m e).1, false, false⟩

/-- Narrow one lane to a format without block scales (R111). -/
def narrow (f : Fmt) (b : Nat) (rd : Rounding) (l : Lane) : Narrowed :=
  match f with
  | .int8 => narrowInt8 b rd l
  | .fx16 => narrowFx 16 b l
  | .fx32 => narrowFx 32 b l
  | .e4m3 => ⟨e4m3.encode rd (l.value b), false, false⟩
  | .e5m2 => ⟨e5m2.encode rd (l.value b), false, false⟩
  | f => match f.float? with
    | some ff => ⟨ff.encode .rne (l.value b), false, false⟩
    | none => ⟨0, false, false⟩

/-- The larger of two finite magnitudes; other values count as 0 (R100). -/
def finiteMax (x y : Num) : Num :=
  match y with
  | .fin _ m e => if Num.cmp x (.fin false m e) < 0 then .fin false m e else x
  | _ => x

/-- The E8M0 scale of a block: from its largest finite magnitude (R100 steps 1 to 3). -/
def blockScale (vs : List Num) : Nat :=
  match vs.foldl finiteMax .zero with
  | .fin _ m e => if m = 0 then 0x7F else (clampInt 0 0xFE (lead m e - 2 + 127)).toNat
  | _ => 0x7F

/-- One element of a block scaled by 2^−(E − 127), rounded and saturated (R100 steps 4 and 6). -/
def blockCode (f : Fmt) (scale : Nat) (rd : Rounding) (v : Num) : Narrowed :=
  match f, v with
  | .fp4b, .fin neg m e => ⟨e2m1.encode rd (.fin neg m (e - scale + 127)), false, false⟩
  | .fp4b, _ => ⟨0, false, false⟩
  | _, .nan => ⟨0, false, true⟩
  | _, .inf neg => ⟨unsigned 4 (if neg then -8 else 7), false, false⟩
  | _, .fin neg m e => ⟨unsigned 4 (toRange rd (-8) 7 neg m (e - scale + 127)).1, false, false⟩

/-- Not finite. -/
def Num.special : Num → Bool
  | .fin _ _ _ => false
  | _ => true

/-- A 32-element block: its scale byte and its elements; an FP4B block with a NaN or an infinity is a NaN block (R100). -/
def narrowBlock (f : Fmt) (vs : List Num) (rds : List Rounding) : Nat × List Narrowed :=
  if f == .fp4b && vs.any Num.special then (0xFF, vs.map (fun _ => ⟨0, false, false⟩))
  else
    let e := blockScale vs
    (e, List.zipWith (fun v rd => blockCode f e rd v) vs rds)

/-- One step of a lane generator (R106). -/
def xorshift (x : Word) : Word :=
  let x := x ^^^ (x <<< 13)
  let x := x ^^^ (x >>> 17)
  x ^^^ (x <<< 5)

/-- The seed of lane `lane` (R106). -/
def genSeed (vtile invocation lane : Nat) : Word :=
  let base : Word := 0x9E3779B9#32 ^^^ BitVec.ofNat 32 (vtile * 2 ^ 20) ^^^ BitVec.ofNat 32 (invocation % 2 ^ 20)
  let x := base + BitVec.ofNat 32 (lane * 0x01000193)
  if x = 0 then 1 else x

/-- The 64 lane generators at an invocation's start (R106). -/
def genSeeds (vtile invocation : Nat) : List Word := (List.range 64).map (genSeed vtile invocation)

/-- A written row: its bytes, the counters it sets and the generators after it. -/
structure RowOut where
  bytes : List Byte
  sat : Bool
  anom : Bool
  gens : List Word
deriving DecidableEq, Repr

/-- Write a 64-lane row in a format: one generator step per lane under stochastic rounding (R96, R100, R105 to R107, R111). -/
def writeRow (f : Fmt) (b : Nat) (sr : Bool) (gens : List Word) (lanes : List Lane) : RowOut :=
  let st := sr && f.stochastic
  let gens' := if st then gens.map xorshift else gens
  let rds := if st then gens'.map (fun x => Rounding.stoch (x.toNat / 65536))
             else lanes.map (fun _ => Rounding.rne)
  match f with
  | .fp4b | .int4b =>
    let vs := lanes.map (Lane.value b)
    let r0 := narrowBlock f (vs.take 32) (rds.take 32)
    let r1 := narrowBlock f (vs.drop 32) (rds.drop 32)
    let ns := r0.2 ++ r1.2
    { bytes := padTo 48 (packElems 4 (ns.map Narrowed.code) ++ leBytes 1 r0.1 ++ leBytes 1 r1.1),
      sat := false, anom := ns.any Narrowed.anom, gens := gens' }
  | f =>
    let ns := List.zipWith (fun l rd => narrow f b rd l) lanes rds
    { bytes := packElems f.elemBits (ns.map Narrowed.code),
      sat := ns.any Narrowed.sat, anom := ns.any Narrowed.anom, gens := gens' }

end Sys2Proof.Machine
end

