-- ==== Sys2Proof/Machine/Flags.lean ====
section
/-! DEFINITION. The status a tile's words leave: the saturation and anomaly counters of R99 and the range rules that set them (R104, R109). -/

namespace Sys2Proof.Machine

/-- A 16-bit counter that saturates at 65,535 increased by 1 (R99). -/
def bump16 (x : BitVec 16) : BitVec 16 := if x = 0xFFFF#16 then x else x + 1

/-- Count a word whose elements saturated, and a word that met an anomaly (R99). -/
def TileState.count (x : TileState) (sat anom : Bool) : TileState :=
  { x with satCount := if sat then bump16 x.satCount else x.satCount,
           anomCount := if anom then bump16 x.anomCount else x.anomCount }

/-- Saturation to the INT32 range, and whether it happened (R104, R109). -/
def sat32 (v : Int) : Int × Bool := (clampInt (-2147483648) 2147483647 v, v < -2147483648 || 2147483647 < v)

/-- Saturation to the 48-bit accumulator range, and whether it happened (R104). -/
def sat48 (v : Int) : Int × Bool :=
  (clampInt (-140737488355328) 140737488355327 v, v < -140737488355328 || 140737488355327 < v)

end Sys2Proof.Machine
end

