-- ==== Sys2Proof/Machine/FriezeSend.lean ====
section
/-! DEFINITION. Sending on the Frieze: routes, credits, the transmit order of a port and management messages (R460 to R467, R479, R480). -/

namespace Sys2Proof.Machine

/-- The state of a Frieze port. -/
def fport (s : State) (p : Nat) : FPort := s.fab.ports.toList.getD p FPort.off

/-- Replace the state of a Frieze port. -/
def setFport (s : State) (p : Nat) (x : FPort) : State :=
  { s with fab := { s.fab with ports := Vector.ofFn (fun i => if i.val = p then x else s.fab.ports[i]) } }

/-- The route to a node (R479). -/
def routeTo (s : State) (node : Nat) : Option Route := s.fab.routes.find? (fun r => r.dest == node && r.valid)

/-- Blocks a frame occupies at its receiver (R463). -/
def frameBlocks (body : List Byte) : Nat := 1 + (body.length + 63) / 64

/-- Frames to the destination are held while its route entry changes (R480). -/
def heldDest (s : State) (d : Nat) : Bool := s.fab.routes.any (fun r => r.dest == d && r.held)

/-- The next frame of a port: the heads of its channels that hold enough credits, in the order of R462, held destinations passed over. -/
def nextFrame (x : FPort) (held : Nat → Bool) : Option TxFrame :=
  let head := fun (vc : Nat) => match x.waiting.find? (fun f => f.vc.toNat == vc && !held f.dest.toNat) with
    | some f => if f.blocks ≤ x.credits.toList.getD vc 0 then some f else none
    | none => none
  match head 3 with
  | some f => if 16 ≤ f.passed then some f else (head 0).orElse (fun _ => (head 1).orElse (fun _ => (head 2).orElse (fun _ => some f)))
  | none => (head 0).orElse (fun _ => (head 1).orElse (fun _ => head 2))

/-- Transmit one frame: it takes its credits and a link sequence number and is kept for replay (R463, R465). -/
def transmit (s : State) (p : Nat) (f : TxFrame) : State :=
  let x := fport s p
  let f := { f with seq := x.txSeq }
  let waiting := (x.waiting.erase { f with seq := 0 }).map (fun g => if g.vc = 3 then { g with passed := g.passed + 1 } else g)
  let s := setFport s p { x with
    txSeq := x.txSeq + 1, waiting := waiting, unacked := x.unacked ++ [f]
    credits := Vector.ofFn (fun i => if i.val = f.vc.toNat then x.credits[i] - f.blocks else x.credits[i]) }
  s.emit (.frame p f.ty.toNat f.dest.toNat f.src.toNat f.vc.toNat f.seq.toNat f.address f.tag f.units f.body)

/-- Transmit the frames of an UP port that hold credits (R462, R463). -/
def pump : Nat → State → Nat → State
  | 0, s, _ => s
  | n + 1, s, p =>
    let x := fport s p
    if x.state != 3 then s
    else match nextFrame x (heldDest s) with
      | some f => pump n (transmit s p f) p
      | none => s

/-- Pump every frame a port can send. -/
def pumpPort (s : State) (p : Nat) : State := pump ((fport s p).waiting.length) s p

/-- A frame ready to be queued; `ask` is the data length in bytes that a read request asks for. -/
def mkFrame (src ty dest vc address tag ask : Nat) (body : List Byte) : TxFrame :=
  { ty := BitVec.ofNat 4 ty, dest := BitVec.ofNat 10 dest, src := BitVec.ofNat 10 src, vc := BitVec.ofNat 2 vc, seq := 0
    blocks := frameBlocks body, replays := 0, address := address, tag := tag
    units := (max ask body.length + 63) / 64 - 1, passed := 0, body := padUp 64 body }

/-- Hand a frame to a port. -/
def sendOn (s : State) (p : Nat) (f : TxFrame) : State :=
  let x := fport s p
  pumpPort (setFport s p { x with waiting := x.waiting ++ [f] }) p

/-- Send a frame along the route to its destination, held while that entry changes (R467, R480); false when no route is valid. -/
def forward (s : State) (f : TxFrame) : State × Bool :=
  match routeTo s f.dest.toNat with
  | none => (s, false)
  | some r =>
    if r.isLocal then (s, false)
    else if r.held then
      let x := fport s r.port
      (setFport s r.port { x with waiting := x.waiting ++ [f] }, true)
    else (sendOn s r.port f, true)

/-- Send a frame of this node (R460). -/
def sendFrame (s : State) (ty node vc address tag ask : Nat) (body : List Byte) : State × Bool :=
  forward s (mkFrame s.fab.node ty node vc address tag ask body)

/-! ### Management messages (R461) -/

/-- A management message: header and body. -/
def mgmtBytes (kind flags status seq : Nat) (body : List Byte) : List Byte :=
  leBytes 2 kind ++ leBytes 2 flags ++ leBytes 2 body.length ++ leBytes 1 status ++ leBytes 1 0 ++
  leBytes 4 seq ++ leBytes 4 0 ++ body

/-- Send a routed management message on the Management channel; a message to this node itself is recorded only. -/
def sendMgmt (s : State) (kind flags node status seq : Nat) (body : List Byte) : State :=
  (sendFrame (s.emit (.mgmt kind flags node status seq body)) 4 node 3 0 0 0 (mgmtBytes kind flags status seq body)).1

/-- Send a link-local management message on a port; before UP and in REFUSED it is the only kind of frame that leaves (R461). -/
def sendLocal (s : State) (p kind : Nat) (body : List Byte) : State :=
  let f := mkFrame s.fab.node 4 s.fab.node 3 0 0 0 (mgmtBytes kind 1 0 0 body)
  let st := (fport s p).state
  if st = 3 then sendOn s p f
  else if st = 2 ∨ st = 4 then transmit s p f
  else s

/-- Answer a management request (R461). -/
def answer (s : State) (kind node status seq : Nat) (body : List Byte) : State := sendMgmt s kind 2 node status seq body

end Sys2Proof.Machine
end

