-- ==== Sys2Proof/Machine/Sc4.lean ====
section
/-! DEFINITION. The SC4 code: GF(16), the columns of the parity-check matrix, encoding and decoding (R154 to R158). -/

namespace Sys2Proof.Machine

/-! ### GF(16) with x⁴ + x + 1 (R154) -/

/-- Multiplication by α. -/
def gfTwo (a : BitVec 4) : BitVec 4 := (a <<< 1) ^^^ (if a.getLsbD 3 then 3#4 else 0#4)

/-- Product in GF(16). -/
def gfMul (a b : BitVec 4) : BitVec 4 :=
  (if b.getLsbD 0 then a else 0) ^^^ (if b.getLsbD 1 then gfTwo a else 0) ^^^
  (if b.getLsbD 2 then gfTwo (gfTwo a) else 0) ^^^ (if b.getLsbD 3 then gfTwo (gfTwo (gfTwo a)) else 0)

/-- A column of H, or a syndrome: four elements of GF(16) (R155). -/
structure Column where
  x0 : BitVec 4
  x1 : BitVec 4
  x2 : BitVec 4
  x3 : BitVec 4
deriving DecidableEq, Repr

/-- Sum of columns. -/
def Column.add (u v : Column) : Column := ⟨u.x0 ^^^ v.x0, u.x1 ^^^ v.x1, u.x2 ^^^ v.x2, u.x3 ^^^ v.x3⟩

/-- A column times an element. -/
def Column.scale (e : BitVec 4) (u : Column) : Column := ⟨gfMul e u.x0, gfMul e u.x1, gfMul e u.x2, gfMul e u.x3⟩

/-- The zero column. -/
def Column.zero : Column := ⟨0, 0, 0, 0⟩

/-- The column of symbol `i`, 0 to 35 (R155). -/
def h (i : Nat) : Column :=
  match i with
  | 32 => ⟨1, 0, 0, 0⟩
  | 33 => ⟨0, 0, 0, 1⟩
  | 34 => ⟨1, 1, 0, 1⟩
  | 35 => ⟨1, 0, 1, 8⟩
  | i =>
    let a := BitVec.ofNat 4 (i % 16); let b := BitVec.ofNat 4 (i / 16 + 2)
    ⟨1, a, b, gfMul a a ^^^ gfMul a b ^^^ gfMul 8 (gfMul b b)⟩

/-- The syndrome of symbols with their values (R155, R156). -/
def syndrome (xs : List (Nat × BitVec 4)) : Column :=
  xs.foldl (fun acc x => acc.add ((h x.1).scale x.2)) Column.zero

/-- The check symbols 32 to 35 of 32 data symbols: the solution of R156. -/
def sc4Encode (ds : List (BitVec 4)) : List (BitVec 4) :=
  let s := syndrome (ds.zipIdx.map (fun p => (p.2, p.1)))
  let c34 := s.x1; let c35 := s.x2
  [s.x0 ^^^ c34 ^^^ c35, s.x3 ^^^ c34 ^^^ gfMul 8 c35, c34, c35]

/-- What the decoder makes of a syndrome (R156). -/
inductive Sc4 where
  | clean
  | corrected (symbol : Nat) (e : BitVec 4)
  | bad
deriving DecidableEq, Repr

/-- Decode a syndrome: 0, a multiple of exactly one column, or uncorrectable (R156). -/
def sc4Decode (s : Column) : Sc4 :=
  if s = Column.zero then .clean
  else match (List.range 36).filterMap (fun k =>
      ((List.range 15).map (fun i => BitVec.ofNat 4 (i + 1))).find? (fun e => (h k).scale e == s) |>.map (fun e => (k, e))) with
    | [(k, e)] => .corrected k e
    | _ => .bad

/-- The decoding of a stored codeword read with some symbol errors (R156): errors of one symbol add up. -/
def sc4Errors (xs : List (Nat × BitVec 4)) : Sc4 := sc4Decode (syndrome xs)

/-! ### Codewords (R154, R158) -/

/-- An SC4 codeword: 128 data bits and 16 check bits (R154). -/
structure Codeword where
  data : BitVec 128
  check : BitVec 16
deriving DecidableEq, Repr

/-- Symbol `i`: data bits [4i + 3:4i] for 0 to 31, the check bits for 32 to 35 (R154). -/
def Codeword.symbol (w : Codeword) (i : Nat) : BitVec 4 :=
  if i < 32 then w.data.extractLsb' (4 * i) 4 else w.check.extractLsb' (4 * (i - 32)) 4

/-- A word with an element added to one symbol (R156). -/
def Codeword.add (w : Codeword) (i : Nat) (e : BitVec 4) : Codeword :=
  if i < 32 then { w with data := w.data ^^^ (e.setWidth 128 <<< (4 * i)) }
  else { w with check := w.check ^^^ (e.setWidth 16 <<< (4 * (i - 32))) }

/-- The 36 symbols with their numbers. -/
def Codeword.symbols (w : Codeword) : List (Nat × BitVec 4) := (List.range 36).map (fun i => (i, w.symbol i))

/-- The codeword of some data bits, with its check symbols (R156). -/
def Codeword.encode (d : BitVec 128) : Codeword :=
  let w : Codeword := { data := d, check := 0 }
  let cs := sc4Encode ((List.range 32).map w.symbol)
  { w with check := cs.getD 3 0 ++ cs.getD 2 0 ++ cs.getD 1 0 ++ cs.getD 0 0 }

/-- What the decoder makes of a word as read (R156). -/
def Codeword.decode (w : Codeword) : Sc4 := sc4Decode (syndrome w.symbols)

/-- The data the decoder delivers: a corrected symbol takes its error added again (R156). -/
def Codeword.delivered (w : Codeword) : BitVec 128 := match w.decode with
  | .corrected k e => (w.add k e).data
  | _ => w.data

/-- The word as stored poisoned: check symbols 32 and 33 inverted from their encoded values (R158). -/
def Codeword.poison (w : Codeword) : Codeword := (w.add 32 0xF).add 33 0xF

/-- A word as read with some symbols in error. -/
def Codeword.disturb (w : Codeword) (es : List (Nat × BitVec 4)) : Codeword := es.foldl (fun w e => w.add e.1 e.2) w

/-! ### DRAM coordinates (R152) -/

/-- The DRAM coordinates of a partition byte offset (R152). -/
structure DramCoord where
  row : Nat
  burst : Nat
  bank : Nat
  bankGroup : Nat
  codeword : Nat
  byte : Nat
deriving DecidableEq, Repr

/-- The decode of a partition byte offset, the same in every partition (R152). -/
def dramCoord (o : Nat) : DramCoord :=
  { row := bits o 18 16, burst := bits o 12 6, bank := bits o 10 2, bankGroup := bits o 8 2
    codeword := bits o 4 4, byte := bits o 0 4 }

/-- The burst, 0 to 2^26 − 1 in address order, that lies at some coordinates (R152). -/
def DramCoord.burstIndex (c : DramCoord) : Nat := ((c.row * 64 + c.burst) * 4 + c.bank) * 4 + c.bankGroup

/-- The bank that a refresh command names: the bank group in its low two bits, the bank in its high two (assumption 140). -/
def DramCoord.bankIndex (c : DramCoord) : Nat := c.bank * 4 + c.bankGroup

/-! ### Symbols of a burst (R151, R157) -/

/-- Module channel of a symbol in a partition (R151, R157). -/
def symbolChannel (p i : Nat) : Nat := 9 * p + (if i < 32 then i / 4 else 8)

/-- DQ pin of a symbol of codeword `j` (R157). -/
def symbolPin (j i : Nat) : Nat := 4 * (j / 4) + i % 4

/-- Beat of bit `b` of a symbol of codeword `j` (R157). -/
def symbolBeat (j b : Nat) : Nat := 4 * (j % 4) + b

/-- The codeword, symbol and bit that a pin of a channel of the partition carries on a beat (R157). -/
def carried (channel pin beat : Nat) : Nat × Nat × Nat :=
  (4 * (pin / 4) + beat / 4, (if channel < 8 then 4 * channel else 32) + pin % 4, beat % 4)

/-- The symbol error of one inverted beat of a pin (R157). -/
def beatError (channel pin beat : Nat) : SymErr :=
  let c := carried channel pin beat
  { codeword := c.1, symbol := c.2.1, pattern := 1#4 <<< c.2.2 }

/-- The symbol errors of a DQ pin that reads inverted on every beat: one symbol in each codeword of its group, beat by beat (R157, R410). -/
def pinErrors (channel pin : Nat) : List SymErr := (List.range 16).map (beatError channel pin)

/-- The errors of one codeword. -/
def errorsOf (errs : List SymErr) (j : Nat) : List (Nat × BitVec 4) :=
  (errs.filter (fun e => e.codeword == j)).map (fun e => (e.symbol, e.pattern))

/-- Codeword `j` of a burst covers its bytes 16j to 16j + 15 (R157). -/
def burstWord (bs : List Byte) (j : Nat) : Codeword := Codeword.encode (BitVec.ofNat 128 (ofLe (slice bs (16 * j) 16)))

/-- What a read of a burst meets: the corrected codewords with their symbols, whether one is uncorrectable, and the bytes delivered (R156, R157). -/
structure BurstRead where
  fixed : List (Nat × Nat)
  bad : Bool
  bytes : List Byte
deriving DecidableEq, Repr

/-- Read one codeword of a stored burst into what the burst's read has met so far; a codeword stored well and read without an error is delivered as it stands, its syndrome being 0 (R155, R156, R158). -/
def readWord (bs : List Byte) (poisoned : Bool) (errs : List SymErr) (acc : BurstRead) (j : Nat) : BurstRead :=
  let es := errorsOf errs j
  if es.isEmpty && !poisoned then { acc with bytes := acc.bytes ++ slice bs (16 * j) 16 }
  else
    let w := burstWord bs j
    let w := (if poisoned then w.poison else w).disturb es
    let out := { acc with bytes := acc.bytes ++ leBytes 16 w.delivered.toNat }
    match w.decode with
    | .clean => out
    | .corrected k _ => { out with fixed := acc.fixed ++ [(j, k)] }
    | .bad => { out with bad := true }

/-- Read a stored burst, or a line, with some symbols in error (R156 to R158). -/
def readBurst (bs : List Byte) (poisoned : Bool) (errs : List SymErr) : BurstRead :=
  (List.range 16).foldl (readWord bs poisoned errs) { fixed := [], bad := false, bytes := [] }

end Sys2Proof.Machine
end

