-- ==== Sys2Proof/Machine/Slice.lean ====
section
/-! DEFINITION. The stream-cache slice and the bursts of T2: lines, allocation, pseudo-LRU, partial-burst merges, reads under SC4 and their detectors (R133, R134, R142 to R150, R154 to R158). -/

namespace Sys2Proof.Machine

/-! ### Lines (R142 to R144) -/

/-- Set of a partition byte offset (R142). -/
def lineSet (o : Nat) : Nat := bits o 8 13

/-- Tag of a partition byte offset (R142). -/
def lineTag (o : Nat) : Nat := bits o 21 13

/-- The valid line that holds a burst (R142). -/
def findLine (x : Part) (o : Nat) : Option CacheLine :=
  x.lines.find? (fun l => l.set == lineSet o && l.tag == lineTag o)

/-- A part of the ways below tree node `n` at depth `d` is unpinned: the largest way of the subtree is not below `pinned`. -/
def openWay (pinned n d : Nat) : Bool := decide (pinned ≤ (n + 1) * 2 ^ (4 - d) - 1 - 16)

/-- Walk the pseudo-LRU tree of a set; a subtree of pinned ways is passed over (R143, assumption 24). -/
def plruWalk (tree pinned : Nat) : Nat → Nat → Nat → Nat
  | 0, _, n => n - 16
  | k + 1, d, n =>
    let right := bits tree n 1 == 1
    let left := 2 * n
    let pick := if right then left + 1 else left
    let pick := if openWay pinned pick (d + 1) then pick else left + 1
    plruWalk tree pinned k (d + 1) pick

/-- The tree of a set after an access to a way: every node on its path points away from it. -/
def plruTouch (tree way : Nat) : Nat :=
  (List.range 4).foldl (fun acc d =>
    let node := (16 + way) / 2 ^ (4 - d)
    let right := bits (16 + way) (3 - d) 1 == 1
    let cleared := acc - bits acc node 1 * 2 ^ node
    if right then cleared else cleared + 2 ^ node) tree

/-- Note an access to a way. -/
def touchWay (x : Part) (set way : Nat) : Part := { x with plru := x.plru.put set (plruTouch (x.plru.count set) way) }

/-- The way to fill: the lowest invalid unpinned one, else the pseudo-LRU victim (R143). -/
def fillWay (x : Part) (set : Nat) : Nat :=
  let used := (x.lines.filter (fun l => l.set == set)).map CacheLine.way
  match ((List.range 16).drop x.pinned).find? (fun w => !used.contains w) with
  | some w => w
  | none => plruWalk (x.plru.count set) x.pinned 4 0 1

/-- Partition byte offset of a line's burst (R142). -/
def CacheLine.burst (l : CacheLine) : Nat := l.tag * 2 ^ 21 + l.set * 256

/-- The bytes the devices hold of a burst: those under a clean line that differs, else what the memory shows (R133). -/
def deviceBytes (s : State) (p o : Nat) : List Byte :=
  match findLine (s.part p) o with
  | some l => if l.under.isEmpty then s.mem.read (t2Base p + o) 256 else l.under
  | none => s.mem.read (t2Base p + o) 256

/-- A burst is not poisoned: the whole of it has been written (R158). -/
def unpoison (x : Part) (o : Nat) : Part := { x with poisoned := x.poisoned.filter (fun b => b != o) }

/-- A line leaves its way: a dirty one is written back whole, with fresh check symbols; a clean one leaves the devices' bytes (R133, R143, R145, R158). -/
def evictLine (s : State) (p : Nat) (l : CacheLine) : State :=
  let x := { s.part p with lines := (s.part p).lines.filter (fun y => y != l) }
  if l.dirty then s.setPart p (unpoison x l.burst)
  else
    let s := s.setPart p x
    if l.under.isEmpty then s else { s with mem := s.mem.write (t2Base p + l.burst) l.under }

/-- Install a line in the way that R143 chooses, its victim evicted; `under` is what the devices hold where it differs. -/
def installLine (s : State) (p o : Nat) (dirty staged : Bool) (under : List Byte) : State :=
  let set := lineSet o
  let w := fillWay (s.part p) set
  let s := match (s.part p).lines.find? (fun l => l.set == set && l.way == w) with
    | some l => evictLine s p l
    | none => s
  let x := s.part p
  s.setPart p (touchWay { x with
    lines := x.lines ++ [{ set := set, way := w, tag := lineTag o, dirty := dirty, staged := staged, under := under }] } set w)

/-- Use a present line: a write makes it dirty, a staged line has been used (R134, R138). -/
def useLine (x : Part) (o : Nat) (write : Bool) : Part :=
  match findLine x o with
  | none => x
  | some l =>
    let lines := x.lines.map (fun y =>
      if y = l then { y with dirty := y.dirty || write, staged := false, under := if write then [] else y.under } else y)
    touchWay { x with lines := lines } l.set l.way

/-! ### Reads under SC4 (R147, R154 to R158) -/

/-- What a read of a burst or line met. -/
structure ReadOut where
  s : State
  failed : Bool
  /-- Detector of the underlying cause when it failed. -/
  detector : Nat
  /-- The codewords corrected, with their symbols. -/
  fixed : List (Nat × Nat)
  /-- The 256 bytes delivered. -/
  bytes : List Byte

/-- Raise one corrected detector per corrected codeword (R156). -/
def raiseCorrected (s : State) (flags : Nat) (cs : List (Nat × Nat)) (ev : Nat × Nat → DetEvent) : State :=
  forEach cs s (fun s c => raiseAs s 0 flags (ev c))

/-- The first symbol in error. -/
def firstSymbol (errs : List SymErr) : Nat × Nat := match errs with
  | e :: _ => (e.codeword, e.symbol)
  | [] => (0, 32)

/-- Count corrected codewords for the scrub level and the Patina (R160, R536). -/
def countCorrected (s : State) (p n : Nat) : State :=
  patCount (s.setPart p { s.part p with corrected := (s.part p).corrected + n }) (0x1A08 + 128 * p) n

/-- Count corrected symbols by module channel and DQ pin (R536). -/
def countPins (s : State) (p : Nat) (fixed : List (Nat × Nat)) : State :=
  forEach fixed s (fun s c => patCount s (0x1E00 + 4 * (16 * symbolChannel p c.2 + symbolPin c.1 c.2)) 1)

/-- The symbol errors an injection of 0x05 or 0x06 puts into a burst read of a partition, and whether one did (R410). -/
def injectT2 (s : State) (p : Nat) : List SymErr × Bool × State :=
  let a := takeInjection s 0x05 (fun q => injPart q.target == p)
  match a.1 with
  | some q => (pinErrors (injIndex q.target) (bits q.param.toNat 0 4), true, a.2)
  | none =>
    let b := takeInjection s 0x06 (fun q => injPart q.target == p && q.param.toNat != 0xFFFFFFFF)
    match b.1 with
    | some q => (pinErrors (injIndex q.target) (bits q.param.toNat 0 4) ++
                 pinErrors (injIndex q.target) (bits q.param.toNat 8 4), true, b.2)
    | none => ([], false, s)

/-- The event of a corrected codeword of a burst of T2 (R408). -/
def t2Corrected (p burst job : Nat) (c : Nat × Nat) : DetEvent :=
  mkEvent 0x05 p job (symbolPin c.1 c.2) (symbolChannel p c.2) (t2Base p + burst)

/-- The event of an uncorrectable burst of T2: the channel of the first symbol in error (R408, assumption 25). -/
def t2Bad (p burst job : Nat) (errs : List SymErr) : DetEvent :=
  mkEvent 0x06 p job 0 (symbolChannel p (firstSymbol errs).2) (t2Base p + burst)

/-- Read one burst of T2 from the devices: corrected codewords raise 0x05; an uncorrectable burst raises 0x06 and is poisoned (R156, R158, R410). -/
def readT2 (s : State) (p burst job : Nat) (errs : List SymErr) : ReadOut :=
  let i := injectT2 s p
  let errs := errs ++ i.1
  let flags := if i.2.1 then 1 else 0
  let r := readBurst (deviceBytes s p burst) ((s.part p).poisoned.contains burst) errs
  let s := countPins (countCorrected (raiseCorrected i.2.2 flags r.fixed (t2Corrected p burst job)) p r.fixed.length) p r.fixed
  if r.bad then
    let s := raiseAs s 2 flags (t2Bad p burst job errs)
    { s := s.setPart p { s.part p with poisoned := distinct (burst :: (s.part p).poisoned) }, failed := true, detector := 0x06
      fixed := r.fixed, bytes := r.bytes }
  else { s := s, failed := false, detector := 0, fixed := r.fixed, bytes := r.bytes }

/-- The symbol errors an injection of 0x03 or 0x04 puts into the next codeword read of a hit line (R410). -/
def injectT1 (s : State) (p : Nat) : List SymErr × Bool × State :=
  let e := fun (q : Injection) (lo : Nat) => ({ codeword := 0, symbol := bits q.param.toNat lo 6, pattern := 0xF } : SymErr)
  let a := takeInjection s 0x03 (fun q => injPart q.target == p)
  match a.1 with
  | some q => ([e q 0], true, a.2)
  | none =>
    let b := takeInjection s 0x04 (fun q => injPart q.target == p)
    match b.1 with
    | some q => ([e q 0, e q 8], true, b.2)
    | none => ([], false, s)

/-- A line is filled with a burst read from the devices; where the decoder delivered other bytes, the memory shows the line's (R133, R156). -/
def fillLine (s : State) (p burst : Nat) (dirty staged : Bool) (bytes : List Byte) : State :=
  let old := s.mem.read (t2Base p + burst) 256
  if bytes = old then installLine s p burst dirty staged []
  else installLine { s with mem := s.mem.write (t2Base p + burst) bytes } p burst dirty staged old

/-- Read a line of the slice, or of a pinned way: corrected codewords raise 0x03; an uncorrectable one raises 0x04 and fails, but a clean line is then invalidated and its burst refetched from T2, to be installed when it can be read (R140, R147, R408). -/
def readT1 (s : State) (p way value job : Nat) (line : Option CacheLine) (bytes : List Byte) (errs : List SymErr) : ReadOut :=
  let i := injectT1 s p
  let flags := if i.2.1 then 1 else 0
  let r := readBurst bytes false (errs ++ i.1)
  let s := raiseCorrected i.2.2 flags r.fixed (fun c => mkEvent 0x03 p job c.2 (p * 16 + way) value)
  if !r.bad then { s := s, failed := false, detector := 0, fixed := r.fixed, bytes := r.bytes }
  else
    let e := mkEvent 0x04 p job 0xFF (p * 16 + way) value
    match line.filter (fun l => !l.dirty) with
    | none => { s := raiseAs s 2 flags e, failed := true, detector := 0x04, fixed := r.fixed, bytes := r.bytes }
    | some l =>
      let q := readT2 (evictLine (raiseAs s 1 flags { e with mild := true }) p l) p l.burst job []
      if q.failed then q else { q with s := fillLine q.s p l.burst false false q.bytes }

/-- A line is written back, if dirty, and invalidated; false when a dirty line cannot be read (R145, R425). -/
def writeBackLine (s : State) (p : Nat) (l : CacheLine) : State × Bool :=
  if l.dirty then
    let a := t2Base p + l.burst
    let r := readT1 s p l.way l.burst 0 none (s.mem.read a 256) []
    if r.failed then (r.s, false) else (evictLine { r.s with mem := r.s.mem.write a r.bytes } p l, true)
  else (evictLine s p l, true)

/-- Some lines are written back and invalidated in turn, up to the first that cannot be read (R145, R425). -/
def writeBackLines (s : State) (p : Nat) (ls : List CacheLine) : State × Bool :=
  ls.foldl (fun acc l => if acc.2 then writeBackLine acc.1 p l else acc) (s, true)

/-! ### One access to one burst (R134, R143) -/

/-- The outcome of an access through the slice. -/
structure Access where
  s : State
  failed : Bool
  detector : Nat
  hit : Bool
  staged : Bool
  merged : Bool
  /-- The bytes delivered, where they are not the ones the memory shows afterwards (R156). -/
  got : List Byte

/-- The delivered bytes, when they are other than the memory's. -/
def otherBytes (s : State) (a : Nat) (bytes : List Byte) : List Byte := if bytes = s.mem.read a 256 then [] else bytes

/-- Access a burst of T2 whose line is present (R134, R140, R143, R147, R158). -/
def accessHit (s : State) (p burst job : Nat) (l : CacheLine) (write whole : Bool) (errs : List SymErr) : Access :=
  let bytes := s.mem.read (t2Base p + burst) 256
  let s := s.setPart p (useLine (s.part p) burst write)
  if write then
    let s := if whole then s.setPart p (unpoison (s.part p) burst) else s
    { s := s, failed := false, detector := 0, hit := true, staged := l.staged, merged := false, got := [] }
  else
    let r := readT1 s p l.way burst job (findLine (s.part p) burst) bytes errs
    { s := r.s, failed := r.failed, detector := r.detector, hit := true, staged := l.staged, merged := false
      got := otherBytes r.s (t2Base p + burst) r.bytes }

/-- Access a burst of T2 whose line is absent: a whole write reads nothing, a partial one reads the burst and merges, and the line is allocated unless no-allocate or 16 pinned ways forbid it (R134, R143, R144, R158). -/
def accessMiss (s : State) (p burst job : Nat) (write whole noAlloc : Bool) (errs : List SymErr) : Access :=
  let bypass := noAlloc || (s.part p).pinned == 16
  if write && whole then
    let s := s.setPart p (unpoison (s.part p) burst)
    { s := if bypass then s else installLine s p burst true false [], failed := false, detector := 0, hit := false
      staged := false, merged := false, got := [] }
  else
    let r := readT2 s p burst job errs
    let a := t2Base p + burst
    let s := if r.failed then r.s
      else if !bypass then fillLine r.s p burst write false r.bytes
      else if write then { r.s with mem := r.s.mem.write a r.bytes } else r.s
    { s := s, failed := r.failed, detector := r.detector, hit := false, staged := false, merged := write
      got := otherBytes s a r.bytes }

/-- Access a burst of T2 through the slice of its partition (R133, R134, R143). -/
def accessBurst (s : State) (p burst job : Nat) (write whole noAlloc : Bool) (errs : List SymErr) : Access :=
  match findLine (s.part p) burst with
  | some l => accessHit s p burst job l write whole errs
  | none => accessMiss s p burst job write whole noAlloc errs

/-- The bursts a byte range touches, each with whether the range covers it whole. -/
def burstsOf (off len : Nat) : List (Nat × Bool) :=
  if len = 0 then []
  else (List.range ((off + len - 1) / 256 - off / 256 + 1)).map (fun i =>
    let b := (off / 256 + i) * 256
    (b, decide (off ≤ b ∧ b + 256 ≤ off + len)))

/-- Access a byte range of T2 burst by burst; the errors met belong to the first burst read; answers failures, misses, merges, staged hits and the bytes delivered that are not the memory's, by local address. -/
structure RangeOut where
  s : State
  failed : Bool
  detector : Nat
  missed : Bool
  merges : Nat
  staged : Bool
  errs : List SymErr
  got : List (Nat × List Byte)

/-- What an access adds to a range's outcome. -/
def RangeOut.join (acc : RangeOut) (a : Access) (at_ : Nat) (read : Bool) : RangeOut :=
  { s := a.s, failed := a.failed, detector := a.detector, missed := acc.missed || !a.hit
    merges := acc.merges + (if a.merged then 1 else 0), staged := acc.staged || a.staged
    errs := if read then [] else acc.errs
    got := if a.got.isEmpty then acc.got else acc.got ++ [(at_, a.got)] }

/-- Access some bursts of T2 of a partition in turn, each whole or in part (R133, R134). -/
def accessBursts (acc : RangeOut) (p : Nat) (bs : List (Nat × Bool)) (job : Nat) (write noAlloc : Bool) : RangeOut :=
  bs.foldl (fun (acc : RangeOut) b =>
    if acc.failed then acc
    else acc.join (accessBurst acc.s p b.1 job write b.2 noAlloc acc.errs) (t2Base p + b.1) (!write || !b.2)) acc

/-- Access a byte range of T2 of a partition (R133, R134). -/
def accessRange (acc : RangeOut) (p off len job : Nat) (write noAlloc : Bool) : RangeOut :=
  accessBursts acc p (burstsOf off len) job write noAlloc

/-- Start of a sequence of range accesses. -/
def startRange (s : State) (errs : List SymErr) : RangeOut :=
  { s := s, failed := false, detector := 0, missed := false, merges := 0, staged := false, errs := errs, got := [] }

/-- Access some lines of a pinned window; an uncorrectable codeword of one that is read fails (R140, R144). -/
def accessPinned (acc : RangeOut) (p : Nat) (bs : List (Nat × Bool)) (job : Nat) (write : Bool) : RangeOut :=
  bs.foldl (fun (acc : RangeOut) b =>
    if acc.failed || write then acc
    else
      let a := t1Base p + b.1
      let r := readT1 acc.s p (bits b.1 21 4) b.1 job none (acc.s.mem.read a 256) acc.errs
      acc.join { s := r.s, failed := r.failed, detector := r.detector, hit := true, staged := false, merged := false
                 got := otherBytes r.s a r.bytes } a true) acc

/-- `n` bytes from an address as some accesses delivered them: the memory's, but for the bursts delivered otherwise (R156). -/
def readGot (m : Memory) (got : List (Nat × List Byte)) (a n : Nat) : List Byte :=
  if got.isEmpty then m.read a n
  else (List.range n).map (fun i => match got.find? (fun g => decide (g.1 ≤ a + i) && decide (a + i < g.1 + 256)) with
    | some g => g.2.getD (a + i - g.1) 0
    | none => m.byte (a + i))

/-- Install the lines a prefetch request staged; a line whose burst is uncorrectable is not installed (R149, R150). -/
def stageLines (s : State) (p job : Nat) (lines : List Nat) : State :=
  forEach lines s (fun s o =>
    if (findLine (s.part p) o).isSome || (s.part p).pinned == 16 then s
    else
      let r := readT2 s p o job []
      if r.failed then r.s else fillLine r.s p o false true r.bytes)

/-! ### The firmware's own accesses (R117, R119, R133) -/

/-- Detector 0x22 for a reserved address: the region's partition, or none (R117, R408). -/
def reservedEvent (a requester job : Nat) : DetEvent :=
  match regionOf a with
  | .t1 p _ => { mkEvent 0x22 p job requester (0x8000 + p) job with mild := true }
  | _ => { mkEvent 0x22 0xFF job requester 0xFFFF job with mild := true }

/-- A local address is reserved: outside the regions, or in a way that is not pinned (R117, R144). -/
def reservedAddr (s : State) (a : Nat) : Bool := match regionOf a with
  | .t1 p off => decide (pinnedBytes s p ≤ off)
  | .internal | .reserved => true
  | _ => false

/-- The firmware accesses one burst of the local address space: T2 through its slice, a pinned line, the T0 aperture without interlock; a reserved address has no effect (R117, R119, R133). -/
def localBurst (acc : RangeOut) (b : Nat × Bool) (write : Bool) : RangeOut :=
  if acc.failed || reservedAddr acc.s b.1 then acc
  else match regionOf b.1 with
    | .t2 p off => if (acc.s.part p).state = 0 then accessBursts acc p [(off, b.2)] 0 write false else { acc with failed := true }
    | .t1 p off => if (acc.s.part p).state = 0 then accessPinned acc p [(off, b.2)] 0 write else { acc with failed := true }
    | _ => acc

/-- The firmware accesses a range of the local address space; one that meets a reserved address raises 0x22 once (R117). -/
def localAccess (s : State) (a n : Nat) (write : Bool) : RangeOut :=
  let bs := burstsOf a n
  let r := bs.foldl (fun acc b => localBurst acc b write) (startRange s [])
  match bs.find? (fun b => reservedAddr s b.1) with
  | some b => { r with s := raise r.s (reservedEvent b.1 10 0) }
  | none => r

/-- `n` bytes of the local address space read by the firmware, none when they cannot be delivered; what a reserved address reads as is a free value (R117, assumption 141). -/
def localRead (s : State) (a n : Nat) : State × Option (List Byte) :=
  let r := localAccess s a n false
  if r.failed then (r.s, none)
  else if (burstsOf a n).any (fun b => reservedAddr s b.1) then
    let f := r.s.freeBytes n
    (f.2, some ((List.range n).map (fun i =>
      if reservedAddr s (a + i) then f.1.getD i 0 else (readGot r.s.mem r.got (a + i) 1).headD 0)))
  else (r.s, some (readGot r.s.mem r.got a n))

/-- Bytes written to the local address space by the firmware; nothing is written to a reserved address, and nothing when a burst written in part cannot be read (R117, R134, R140). -/
def localWrite (s : State) (a : Nat) (bs : List Byte) : State × Bool :=
  let r := localAccess s a bs.length true
  if r.failed then (r.s, false)
  else
    let put := fun (m : Memory) (b : Nat × Bool) =>
      if reservedAddr s b.1 then m
      else
        let lo := max a b.1
        m.write lo (slice bs (lo - a) (b.1 + 256 - lo))
    ({ r.s with mem := (burstsOf a bs.length).foldl put r.s.mem }, true)

end Sys2Proof.Machine
end

