-- ==== Sys2Proof/Machine/Rings.lean ====
section
/-! DEFINITION. Accesses on a path, to the PCIe host's memory, to another node or to this one, and the completion rings (R17, R343, R346 to R350, R354, R356). -/

namespace Sys2Proof.Machine

/-! ### Accesses on a path (R17, R356) -/

/-- Bytes read at a global address: this node's own memory, or another node's over a valid route (R17, assumption 11). -/
def globalRead (s : State) (a n : Nat) : State × Option (List Byte) :=
  if nodeOf a = s.fab.node then localRead s (localOf a) n
  else (s, if routed s (nodeOf a) then some (s.hostMem.read (peerKey a) n) else none)

/-- Bytes written at a global address (R17, assumption 11). -/
def globalWrite (s : State) (a : Nat) (bs : List Byte) : State × Bool :=
  if nodeOf a = s.fab.node then localWrite s (localOf a) bs
  else if routed s (nodeOf a) then ({ s with hostMem := s.hostMem.write (peerKey a) bs }, true)
  else (s, false)

/-- Bytes read from a buffer or a ring on a path, none when the access fails (R347, R356): PCIe bus address on path 0, global address on path 1. -/
def busRead (s : State) (path1 : Bool) (a n : Nat) : State × Option (List Byte) :=
  if 2 ^ 64 < a + n then (s, none)
  else if path1 then globalRead s a n
  else (s, some (s.hostMem.read a n))

/-- Bytes written to a buffer or a ring on a path; false when the access fails (R347, R356). -/
def busWrite (s : State) (path1 : Bool) (a : Nat) (bs : List Byte) : State × Bool :=
  if 2 ^ 64 < a + bs.length then (s, false)
  else if path1 then globalWrite s a bs
  else ({ s with hostMem := s.hostMem.write a bs }, true)

/-- The bytes of a command's buffer. -/
def bufRead (s : State) (m : MbxId) (b : Bref) (n : Nat) : State × Option (List Byte) :=
  busRead s (s.box m).path1 b.addr n

/-- After a failed access the destination bytes of a read command are undefined: those that lie in memory take free values (R356). -/
def spoilBuf (s : State) (m : MbxId) (b : Bref) (n : Nat) : State :=
  let f := s.freeBytes n
  if 2 ^ 64 < b.addr + n then s
  else if !(s.box m).path1 then { f.2 with hostMem := s.hostMem.write b.addr f.1 }
  else if nodeOf b.addr ≠ s.fab.node then { f.2 with hostMem := s.hostMem.write (peerKey b.addr) f.1 }
  else if dataRange s (localOf b.addr) n then { f.2 with mem := s.mem.write (localOf b.addr) f.1 }
  else s

/-- Write a reply into a command's buffer (R356). -/
def bufWrite (s : State) (m : MbxId) (b : Bref) (bs : List Byte) : State × Bool :=
  let r := busWrite s (s.box m).path1 b.addr bs
  if r.2 then r else (spoilBuf r.1 m b bs.length, false)

/-! ### Completion rings (R346 to R350, R354) -/

/-- Write one entry into the completion ring, advance MBX_CPL_PROD and raise the interrupt; an access that fails halts the mailbox with halt_cause 2, and the entry waits (R346, R347, R350, R366). -/
def writeEntry (s : State) (m : MbxId) (e : CplEntry) : State :=
  let b := s.box m
  let a := b.ringCpl.toNat + 128 * (b.cplProd.toNat % 64)
  let r := busWrite s b.path1 a (e.bytes s.now)
  if r.2 then setEvt (r.1.setBox m { b with cplProd := b.cplProd + 1 }) m.toNat
  else haltBox (r.1.setBox m { r.1.box m with held := e :: (r.1.box m).held }) m 2

/-- Post an entry in the order of the events that caused it: discarded while the mailbox is disabled, held while the ring is full, an invocation end beyond 256 held entries discarded with detector 0x90 (R348 to R350). -/
def postEntry (s : State) (m : MbxId) (e : CplEntry) : State :=
  let b := s.box m
  if !b.enabled then loseEntry s m
  else if b.held.isEmpty && b.cplHeld < 64 then writeEntry s m e
  else if e.kind = 1 ∧ b.held.length ≥ 256 then raise (loseEntry s m) (event90 false)
  else s.setBox m { b with held := b.held ++ [e] }

/-- Write held entries while the ring has room (R350). -/
def flushHeld : Nat → State → MbxId → State
  | 0, s, _ => s
  | n + 1, s, m =>
    let b := s.box m
    match b.held with
    | [] => s
    | e :: rest =>
      if b.enabled && b.cplHeld < 64 then
        let s := writeEntry (s.setBox m { b with held := rest }) m e
        if rest.length < (s.box m).held.length then s else flushHeld n s m
      else s

end Sys2Proof.Machine
end

