-- ==== Sys2Proof/Machine/Caps.lean ====
section
/-! DEFINITION. What every part of the firmware asks of jobs and of the module: a change of a job, the loop settings, cluster budgets and the cap in force (R369, R382, R524, R525, R530). -/

namespace Sys2Proof.Machine

/-- Change a job. -/
def updJob (s : State) (jid : Nat) (f : Job → Job) : State := match s.job? jid with
  | some j => s.setJob jid (f j)
  | none => s

/-- Change the invocation in progress of a job. -/
def updInv (s : State) (jid : Nat) (f : Invocation → Invocation) : State :=
  updJob s jid (fun j => { j with invocation := j.invocation.map f })

/-! ### Settings of leases -/

/-- A setting of the adaptive loops: its value, else the module's default, set at manufacture (R530). -/
def loopSetting (s : State) (key : Nat) : Nat := setting s key (Config.loopDefault key)

/-- The cluster budget of a power cap (R524). -/
def budgetOf (cap : Nat) : Nat :=
  if cap ≥ 250 then 64 else if cap ≥ 180 then 48 else if cap ≥ 120 then 26 else 4

/-- The power_cap setting (R369). -/
def capSetting (s : State) : Nat := setting s 0x0050 250

/-- The clusters of the die. -/
def allClusters : List Nat := List.range 64

/-- The highest reading of the die's 64 cluster sensors and 8 slice sensors, 0.1 °C (R531). -/
def junction (s : State) : Int :=
  (List.range 8).foldl (fun a p => max a (s.part p).sliceTemp) (allClusters.foldl (fun a c => max a (s.cluster c).temp) (s.cluster 0).temp)

/-- The higher case temperature, 0.1 °C. -/
def caseTop (s : State) : Int := max s.power.case0 s.power.case1

/-- A cluster that a lease holds (R378). -/
def Cluster.leased (c : Cluster) : Bool := c.job != 0

/-- Clusters leased at this time (R382). -/
def leasedCount (s : State) : Nat := (allClusters.filter (fun c => (s.cluster c).leased)).length

/-- Clusters leased to Held and Prompt jobs (R382, R525). -/
def firmLeased (s : State) : Nat :=
  (allClusters.filter (fun c => (s.cluster c).leased &&
    match s.job? (s.cluster c).job with
    | some j => j.cls != 2
    | none => false)).length

/-- The lowest cap whose budget covers `n` clusters (R525). -/
def lowestCap (n : Nat) : Nat :=
  if n ≤ 4 then 60 else if n ≤ 26 then 120 else if n ≤ 48 then 180 else 250

/-- The cap in force: the setting, or the lowest cap that covers the Held and Prompt leases while they exceed the setting's budget (R525). -/
def capInForce (s : State) : Nat :=
  if firmLeased s ≤ budgetOf (capSetting s) then capSetting s else lowestCap (firmLeased s)

/-- The cap that a waiting `POWER_MODE` is about to set: nothing new is leased beyond its budget (R382). -/
def pendingCap (s : State) : Nat :=
  s.mbx.foldl (fun a e => match e.2.waiting with
    | some (_, _, .cap w _) => min a w
    | _ => a) 250

/-- The cap against whose budget Held and Prompt leases are measured (R525). -/
def leaseCap (s : State) : Nat := min (capSetting s) (pendingCap s)

/-- Log a change of the cap in force (R535). -/
def noteCap (s : State) : State :=
  let c := capInForce s
  if c = s.power.capInForce then s
  else logRecord { s with power := { s.power with capInForce := c } } 0x04 (s.power.capInForce + c * 65536)

end Sys2Proof.Machine
end

