-- ==== Sys2Proof/Machine/PatinaBase.lean ====
section
/-! DEFINITION. The Patina's counters and its event log: the fold of block counters into the always-on image, its commit, the drain of the event buffer (R534 to R536). -/

namespace Sys2Proof.Machine

/-! ### Counters (R536) -/

/-- The largest value of the counter at an offset of a counter image, by its width. -/
def counterMax (off : Nat) : Nat :=
  if off = 0xAC ∨ (0xA00 ≤ off ∧ off < 0x1A00 ∧ off % 64 = 0x28) then 0x7FFF
  else if [0x48, 0x4C, 0x50].contains off ∨ (0x1A00 ≤ off ∧ off < 0x1E00 ∧ [0, 4, 0x30].contains (off % 128)) ∨
      (0x1E00 ≤ off ∧ off < 0x3000) ∨ (0x3000 ≤ off ∧ off < 0x3180 ∧ [0, 4].contains (off % 64)) then 0xFFFFFFFF
  else 0xFFFFFFFFFFFFFFFF

/-- A counter increased, saturating at its largest value. -/
def addCounter (t : Tab Nat) (off n : Nat) : Tab Nat := if n = 0 then t else t.bump off n (counterMax off)

/-- A highest reading raised, in whole °C. -/
def raiseHighest (t : Tab Nat) (off : Nat) (tenths : Int) : Tab Nat :=
  let v := (tenths / 10).toNat
  if t.count off < v then t.put off v else t

/-- Block counters added into an image's counters. -/
def foldBlock (t block : Tab Nat) : Tab Nat := block.foldl (fun t e => addCounter t e.1 e.2) t

/-- The place of a cap among 60, 120, 180 and 250 W. -/
def capIndex (cap : Nat) : Nat := if cap ≤ 60 then 0 else if cap ≤ 120 then 1 else if cap ≤ 180 then 2 else 3

/-- The counters that run with time: offset, amount per nanosecond, amount per count. -/
def runningCounters (s : State) : List (Nat × Nat × Nat) :=
  let sec := 1000000000
  let cl : Nat → Nat → Bool → List (Nat × Nat × Nat) := fun c k on =>
    if on then [(0xA00 + 64 * c + k, 1, sec)] else []
  [(0x40, 1, sec), (0x54 + 8 * s.power.state, 1, sec), (0x7C + 8 * capIndex (capInForce s), 1, sec),
   (0x9C, s.power.inputTenthW, 36000000000000)] ++
  (allClusters.map (fun c =>
    let x := s.cluster c
    cl c 0 x.powered ++ cl c 8 x.leased ++ cl c 0x18 (x.powered && x.voltage == loopSetting s 0x0101) ++ cl c 0x20 (decide (1000 ≤ x.temp)))).flatten ++
  (List.range 8).map (fun p => (0x1A10 + 128 * p + 8 * min 3 (s.part p).scrubLevel, 1, sec)) ++
  ((List.range 6).filter (fun p => (fport s p).state == 3)).map (fun p => (0x3008 + 64 * p, 1, sec))

/-- Time counters advanced by `dt` nanoseconds: the counters, and what is left of a count. -/
def runCounters (dt : Nat) (es : List (Nat × Nat × Nat)) (t rest : Tab Nat) : Tab Nat × Tab Nat :=
  es.foldl (fun acc e =>
    let v := acc.2.count e.1 + dt * e.2.1
    (addCounter acc.1 e.1 (v / e.2.2), if v % e.2.2 = 0 then acc.2.erase e.1 else acc.2.put e.1 (v % e.2.2))) (t, rest)

/-- The highest readings. -/
def highestReadings (s : State) (t : Tab Nat) : Tab Nat :=
  allClusters.foldl (fun t c => raiseHighest t (0xA28 + 64 * c) (s.cluster c).temp) (raiseHighest t 0xAC (caseTop s))

/-- Fold the block counters into the always-on image and clear them (R534 step 1). -/
def fold (s : State) : State :=
  let r := runCounters (s.now - s.pat.foldAt) (runningCounters s) (foldBlock s.pat.always.counters s.pat.block) s.pat.rest
  { s with pat := { s.pat with
    always := { s.pat.always with counters := highestReadings s r.1 }, block := [], rest := r.2, foldAt := s.now } }

/-- Commit the always-on image into the older of images A and B, with the next sequence number (R534 step 2). -/
def commitPatina (s : State) (cause : Nat) : State :=
  let s := fold s
  let p := s.pat
  let seq := (max p.imageA.sequence p.imageB.sequence + 1) % 2 ^ 32
  let img : CounterImage := { p.always with sequence := seq, time := s.now, cause := cause, valid := true }
  { s with pat := { p with
    always := img
    imageA := if p.newestB then img else p.imageA
    imageB := if p.newestB then p.imageB else img
    newestB := !p.newestB } }

/-- Buffered entries drain in order into the event log, entry n at slot n mod 118,784 (R534 step 3, R535). -/
def drainLog (s : State) : State :=
  let put := fun (p : Patina) (e : LogEntry) =>
    let slot := p.logIndex % 118784
    { p with log := p.log.filter (fun x => x.1 != slot) ++ [(slot, e)], logIndex := (p.logIndex + 1) % 2 ^ 32
             eventsTotal := min 0xFFFFFFFFFFFFFFFF (p.eventsTotal + 1) }
  { s with pat := { (s.pat.buffer.foldl put s.pat) with buffer := [] } }

/-- The module enters another power state: the Patina is committed and the change recorded (R522, R534, R535). -/
def changePower (s : State) (new : Nat) : State :=
  let s := logRecord (commitPatina s 1) 0x03 (s.power.state + new * 256)
  { s with power := { s.power with state := new, waking := false } }

/-- An erase cycle of a region of a NOR flash: 0 firmware record, 1 Plinth record, 2 PUF data, 3 certificates, 4 training store, 5 Plinth slot, 6 firmware slot, 7 the rest (R495, R536). -/
def countErase (s : State) (flash region : Nat) : State := patCount s (0x3180 + 64 * flash + 8 * region) 1

end Sys2Proof.Machine
end

