-- ==== Sys2Proof/Machine/Lease.lean ====
section
/-! DEFINITION. Leases of clusters: eligibility, thermal placement, budgets, loading and clearing tiles, pre-emption (R72 to R77, R378 to R390, R520, R524, R525). -/

namespace Sys2Proof.Machine

/-! ### Clusters that a lease may take (R377 to R379) -/

/-- held_reserved of a partition (R369). -/
def heldReserved (s : State) (p : Nat) : Nat := settingByte s 0x0040 p

/-- A reserved cluster of its partition (R379). -/
def isReserved (s : State) (c : Nat) : Bool := c % 8 < heldReserved s (c / 8)

/-- A cluster that no lease holds, in a partition in service (R378, R430). -/
def isFree (s : State) (c : Nat) : Bool := !(s.cluster c).leased && (s.part (c / 8)).state == 0

/-- Free clusters that a class may lease: reserved ones for Held, unreserved ones otherwise (R377, R379). -/
def eligible (s : State) (cls : Nat) : List Nat :=
  allClusters.filter (fun c => isFree s c && (isReserved s c == (cls == 0)))

/-! ### Thermal placement (R380) -/

/-- A cluster's temperature, rounded down to 1 °C (R380 step 1). -/
def wholeTemp (s : State) (c : Nat) : Int := (s.cluster c).temp.fdiv 10

/-- Coolest first, the lower index among equal temperatures (R380 step 2). -/
def cooler (s : State) (a b : Nat) : Bool :=
  let ta := wholeTemp s a; let tb := wholeTemp s b
  ta < tb || (ta == tb && a < b)

/-- The `n` coolest of some clusters, `none` when there are fewer (R380). -/
def coolest (s : State) (n : Nat) (cs : List Nat) : Option (List Nat) :=
  if cs.length < n then none else some ((sortBy (cooler s) cs).take n)

/-- Sum of temperatures (R380 step 3). -/
def heat (s : State) (cs : List Nat) : Int := cs.foldl (fun a c => a + wholeTemp s c) 0

/-- R380 step 3: the partition whose coolest clusters have the lowest sum, the lower one among equal sums. -/
def placeOne (s : State) (n m : Nat) (cs : List Nat) (avoid : Option Nat) : Option (List Nat × List Nat) :=
  let inPart := fun p => cs.filter (fun c => c / 8 == p)
  let ok := (List.range 8).filter (fun p => some p != avoid && decide (n + m ≤ (inPart p).length))
  let pick := fun p => (sortBy (cooler s) (inPart p)).take n
  let best := ok.foldl (fun acc p =>
    match acc with
    | none => some p
    | some q => if heat s (pick p) < heat s (pick q) then some p else some q) none
  best.map (fun p => (pick p, ((sortBy (cooler s) (inPart p)).drop n).take m))

/-- Choose the clusters of a lease and its fallback clusters (R380). -/
def place (s : State) (onePart : Bool) (n m : Nat) (cs : List Nat) (avoid : Option Nat) :
    Option (List Nat × List Nat) :=
  if onePart then placeOne s n m cs avoid
  else if cs.length < n + m then none
  else
    let sorted := sortBy (cooler s) cs
    some (sorted.take n, (sorted.drop n).take m)

/-! ### Tiles of a lease -/

/-- Change a tile's registers. -/
def updTile (s : State) (t : TileId) (f : TileState → TileState) : State := s.setTile t (f (s.tile t))

/-- The tile ID of tile `i` of a cluster (R17). -/
def tileId (c i : Nat) : TileId := BitVec.ofNat 9 (c * 8 + i)

/-- The tiles of a cluster. -/
def clusterTiles (c : Nat) : List TileId := (List.range 8).map (tileId c)

/-- The clusters of a job's lease in one role, ascending: virtual cluster v is the v-th (R381). -/
def Job.roleClusters (j : Job) : Role → List Nat
  | .primary => sortBy (fun a b => a < b) j.clusters
  | .fallback => sortBy (fun a b => a < b) j.fbClusters
  | .shadow => match j.shadow with
    | some sh => sortBy (fun a b => a < b) sh.clusters
    | none => []
  | .shadowFallback => match j.shadow with
    | some sh => sortBy (fun a b => a < b) sh.fallbackClusters
    | none => []
  | .none => []

/-- The physical tile of a virtual tile in a list of clusters; none for an index without a map entry (R72, R73). -/
def physTile (cs : List Nat) (vt : Nat) : Option TileId :=
  match cs[vt / 8]? with
  | some c => some (tileId c (vt % 8))
  | none => none

/-- The job and role that hold a tile's cluster (R37, R378). -/
def ownerOf (s : State) (t : TileId) : Option (Nat × Role) :=
  let c := s.cluster (clusterOfTile t)
  if c.leased then some (c.job, c.role) else none

/-- The clusters of the lease a tile belongs to (R72). -/
def leaseOf (s : State) (t : TileId) : List Nat :=
  match ownerOf s t with
  | some (j, r) => match s.job? j with
    | some job => job.roleClusters r
    | none => []
  | none => []

/-- The virtual tile of a physical tile in a list of clusters (R381). -/
def virtTile (cs : List Nat) (t : TileId) : Nat := (cs.findIdx (fun c => c == clusterOfTile t)) * 8 + t.toNat % 8

/-- The tiles of a list of clusters with their virtual tiles. -/
def leaseTiles (cs : List Nat) : List (Nat × TileId) :=
  (cs.zipIdx.map (fun p => (List.range 8).map (fun i => (p.2 * 8 + i, tileId p.1 i)))).flatten

/-- Clear the scratchpads of a cluster's tiles to 0 (R74). -/
def clearScratch (s : State) (c : Nat) : State :=
  { s with mem := s.mem.clear (t0Base (tileId c 0)) 0x800000 }

/-- Switch a cluster on for a lease: it starts at vmax with its margin_low setting, its T0 and registers cleared (R74, R520, R528); the fold first keeps what it counts from here apart from the time before (R534). -/
def powerOnCluster (s : State) (j : Nat) (role : Role) (c : Nat) : State :=
  let s := fold s
  let old := s.cluster c
  let s := s.setCluster c { Cluster.off with
    powered := true, job := j, role := role, voltage := loopSetting s 0x0101,
    marginLow := if old.marginLow = 0 then loopSetting s 0x0102 else old.marginLow,
    temp := old.temp, stretchSec := old.stretchSec, stretchTotal := old.stretchTotal }
  let s := clearScratch s c
  forEach (clusterTiles c) s (fun s t => s.setTile t TileState.cleared)

/-- Switch a cluster off: T0 contents and registers are lost (R379, R405, R520); its mover is masked (R163). The block counters are folded first (R534). -/
def powerOffCluster (s : State) (c : Nat) : State :=
  let s := fold s
  let old := s.cluster c
  let s := s.setCluster c { Cluster.off with
    temp := old.temp, stretchSec := old.stretchSec, stretchTotal := old.stretchTotal, marginLow := old.marginLow }
  let s := clearScratch s c
  { s with tiles := s.tiles.filter (fun e => e.1 / 8 != c) }

/-- Load an image onto clusters: programs, descriptors, initial scratchpad data, cleared registers (R74). -/
def loadImage (s : State) (cs : List Nat) (im : Image) : State :=
  let s := forEach cs s clearScratch
  forEach (leaseTiles cs) s (fun s e =>
    let x := { TileState.cleared with
      program := programStore ((im.programs.get? e.1).getD []), progLen := ((im.programs.get? e.1).getD []).length
      descs := (im.descs.get? e.1).getD [] }
    let s := s.setTile e.2 x
    forEach (im.scratch.filter (fun d => d.tile == e.1)) s (fun s d =>
      scratchWrite s e.2 (16 * d.granule) d.data))

/-! ### Runs and transfers of clusters -/

/-- The arbiter of partition `p` without the requests and grants of some clusters' movers (R77, R163). -/
def Arbiter.dropMoves (a : Arbiter) (p : Nat) (cs : List Nat) : Arbiter :=
  let mine := fun (q : ArbReq) => match q.move with
    | some (c, _, _) => cs.contains c.toNat
    | none => decide (q.requester.val < 8) && cs.contains (8 * p + q.requester.val)
  { a with
    waiting := a.waiting.filter (fun q => !mine q)
    heldBack := a.heldBack.filter (fun q => !mine q)
    engines := a.engines.map (fun g => match g with
      | some g => if mine g.req then none else some g
      | none => none) }

/-- T3 requests whose transfer no engine carries any longer are forgotten, so that their answers are discarded (R131, R164, R480). -/
def pruneT3 (s : State) : State :=
  { s with fab := { s.fab with t3 := s.fab.t3.filter (fun r =>
      ((s.part r.partition).arb.engines.toList.getD r.engine none).any (fun g => g.req.move.isSome)) } }

/-- Remove the runs of some clusters with their requests and grants (R77). -/
def removeRuns (s : State) (cs : List Nat) : State :=
  let s := forEach cs s (fun s c => s.setCluster c { s.cluster c with runs := [] })
  pruneT3 (forEach (List.range 8) s (fun s p => s.setPart p { s.part p with arb := (s.part p).arb.dropMoves p cs }))

/-- A stall counter increased, limited to 32 bits (R138). -/
def stallAdd (a b : Nat) : Nat := min 0xFFFFFFFF (a + b)

/-- The cycles of a run that never completes are counted under T2 (R138). -/
def chargeLost (s : State) (r : Run) : State :=
  if r.shadow then s
  else match s.job? r.job with
    | none => s
    | some j =>
      let k := j.stallNow
      s.setJob r.job { j with stallNow := { k with
        q2 := stallAdd k.q2 r.queuedCycles, t2 := stallAdd k.t2 r.transferCycles, r2 := stallAdd k.r2 r.restartCycles } }

/-- Drop the runs of some clusters for good (R140, R395). -/
def dropRuns (s : State) (cs : List Nat) : State :=
  let s := forEach cs s (fun s c => forEach (s.cluster c).runs s chargeLost)
  removeRuns s cs

/-- Stop every tile of some clusters: nothing more is issued, queues and moves are dropped (R140, R395, R404). -/
def stopClusters (s : State) (cs : List Nat) : State :=
  let s := dropRuns s cs
  forEach (leaseTiles cs) s (fun s e =>
    let x := s.tile e.2
    s.setTile e.2 { x with
      phase := if x.phase = .running then .stopped else x.phase, stall := .free
      cellQ := [], drainQ := [], vectorQ := [], transQ := [], scalarQ := []
      sendQ := Vector.replicate 4 [], recvQ := Vector.replicate 4 [], signals := [], openRuns := 0 })

/-- The words of a tile's program. -/
def TileState.words (x : TileState) : List Word := x.program.take x.progLen

/-- A tile begins at word 0 when it has a program (R75, R76). -/
def TileState.begin (x : TileState) : TileState :=
  if x.progLen = 0 then x
  else { x with phase := .running, stall := .free, pc := 0, loops := [], counters := Vector.replicate 8 0 }

/-- The saturation and anomaly counts of some clusters' tiles are cleared (R99). -/
def clearCounts (s : State) (cs : List Nat) : State :=
  forEach (leaseTiles cs) s (fun s e => s.setTile e.2 { s.tile e.2 with satCount := 0, anomCount := 0 })

/-- Start the tiles of some clusters, with fresh lane generators and counts on every one; registers and scratchpads persist (R75, R76, R99, R106). -/
def startClusters (s : State) (cs : List Nat) (number : Nat) : State :=
  forEach (leaseTiles cs) s (fun s e =>
    s.setTile e.2 { (s.tile e.2).begin with
      gens := genSeeds e.1 number, satCount := 0, anomCount := 0, groups := [], issued := 0 })

/-- Start a further pass at word 0 without a new invocation's seeds and counts (R208, R284). -/
def startPass (s : State) (cs : List Nat) : State :=
  forEach (leaseTiles cs) s (fun s e =>
    s.setTile e.2 (s.tile e.2).begin)

/-- Every tile of the clusters that has a program has reached `END` (R391). -/
def allEnded (s : State) (cs : List Nat) : Bool :=
  (leaseTiles cs).all (fun e => (s.tile e.2).progLen == 0 || (s.tile e.2).phase == .ended)

/-- The commit groups a program declares (R391). -/
def declaredGroups (ws : List Word) : List Nat :=
  ws.filterMap (fun w => match decodeSeq w with
    | some (.commit g) => some g.toNat
    | _ => none)

/-- Every group that a tile's program declares has been reached by it (R391). -/
def groupsReached (s : State) (cs : List Nat) : Bool :=
  (leaseTiles cs).all (fun e =>
    (declaredGroups (s.tile e.2).words).all (fun g => (s.tile e.2).groups.contains g))

/-- Sum of the saturation counts of a lease (R99). -/
def satSum (s : State) (cs : List Nat) : Nat :=
  (leaseTiles cs).foldl (fun a e => a + (s.tile e.2).satCount.toNat) 0

/-- Sum of the anomaly counts of a lease (R99). -/
def anomSum (s : State) (cs : List Nat) : Nat :=
  (leaseTiles cs).foldl (fun a e => a + (s.tile e.2).anomCount.toNat) 0

/-! ### Granting (R378, R380, R383) -/

/-- Free clusters within the cluster budget of a cap (R382, R524). -/
def roomFor (s : State) (cap n : Nat) : Bool := leasedCount s + n ≤ budgetOf cap

/-- The job takes these clusters and is LOADING (R384, R520). -/
def grantTo (s : State) (jid : Nat) (cs fb : List Nat) (lease : Nat) : State :=
  match s.job? jid with
  | none => s
  | some j =>
    let s := s.setJob jid { j with clusters := cs, fbClusters := fb, lease := lease, leasedAt := s.now }
    let s := forEach cs s (fun s c => powerOnCluster s jid .primary c)
    noteCap (forEach fb s (fun s c => powerOnCluster s jid .fallback c))

/-- The lease of a job must lie in one partition: placement_flags bit 0, or a warm shadow (R378). -/
def onePartition (s : State) (j : Job) : Bool :=
  j.shadow.isSome || (match s.image? j.image with
    | some im => im.onePartition
    | none => false)

/-- PENDING and SAVED Ambient jobs, oldest in that state first (R383). -/
def queuedJobs (s : State) : List (Nat × Job) :=
  sortBy (fun a b => a.2.queuedSince < b.2.queuedSince ||
      (a.2.queuedSince == b.2.queuedSince && a.1 < b.1))
    (s.jobs.filter (fun e => e.2.cls == 2 && (e.2.lease == 0 || e.2.lease == 5)))

/-- A Prompt submit waits for the clusters of pre-empted jobs, which no queued job takes from it (R383, R386). -/
def promptWaits (s : State) : Bool :=
  s.mbx.any (fun e => match e.2.waiting with
    | some (_, _, .submit jid) => (s.job? jid).any (fun j => j.lease == 0)
    | _ => false)

/-- The clusters of a job are freed and powered off; freed clusters go to queued jobs (R379, R383, R405). -/
def freeClusters (s : State) (cs : List Nat) : State := noteCap (forEach cs (dropRuns s cs) powerOffCluster)

/-! ### Pre-emption (R77, R385 to R387) -/

/-- Ambient jobs that hold a lease and may be pre-empted, most recently leased first, the lower ID among equals (R386). One that is being loaded or reloaded may be once that is complete (R384). -/
def victims (s : State) : List (Nat × Job) :=
  sortBy (fun a b => b.2.leasedAt < a.2.leasedAt || (a.2.leasedAt == b.2.leasedAt && a.1 < b.1))
    (s.jobs.filter (fun e => e.2.cls == 2 && [1, 2, 3, 6].contains e.2.lease))

/-- Take jobs in order, passing over those whose clusters do not help, until the clusters free by then meet the need (R386). -/
def takeUntil (enough : List Nat → Bool) (helps : List Nat → List Nat → Bool) :
    List (Nat × Job) → List Nat → List Nat → Option (List Nat)
  | [], free, taken => if enough free then some taken else none
  | v :: vs, free, taken =>
    if enough free then some taken
    else if helps free v.2.clusters then takeUntil enough helps vs (free ++ v.2.clusters) (taken ++ [v.1])
    else takeUntil enough helps vs free taken

/-- The first of two pre-emption orders takes the more recently leased job where they part. -/
def sooner : List Nat → List Nat → Bool
  | [], _ => true
  | _ :: _, [] => false
  | a :: as, b :: bs => decide (a < b) || (a == b && sooner as bs)

/-- The jobs to pre-empt for `n` unreserved clusters that pass a test, within the cluster budget: a cluster that the active Relief reserves helps only the budget (R379, R382, R386). -/
def preemptFor (s : State) (n : Nat) (here : Nat → Bool) : Option (List Nat) :=
  let free := eligible s 1
  let useful := fun (f : List Nat) => f.filter (fun c => here c && !isReserved s c)
  let room := fun (f : List Nat) => decide (leasedCount s + free.length + n ≤ budgetOf (leaseCap s) + f.length)
  takeUntil (fun f => decide (n ≤ (useful f).length) && room f) (fun f cs => !room f || !(useful cs).isEmpty) (victims s) free []

/-- R386: the jobs to pre-empt for `n` + `m` clusters, `none` when pre-emption cannot meet the need. In one partition: of the partitions that can meet it, the one whose jobs were leased most recently (assumption 14). -/
def choosePreempt (s : State) (onePart : Bool) (n m : Nat) : Option (List Nat) :=
  if !onePart then preemptFor s (n + m) (fun _ => true)
  else
    let tries := (List.range 8).filterMap (fun p => preemptFor s (n + m) (fun c => c / 8 == p))
    let places := fun (t : List Nat) => t.map (fun k => (victims s).findIdx (fun v => v.1 == k))
    tries.foldl (fun acc t => match acc with
      | none => some t
      | some b => if sooner (places b) (places t) then some b else some t) none

/-- The bytes of a flowing `SEND`'s source written into the matching buffer (R66, R387). -/
def deliver (s : State) (src : TileId) (snd : SendOp) (dst : TileId) (rcv : RecvOp) : State :=
  scratchWrite s dst rcv.dst (scratchRead s src snd.src (64 * snd.flits))

/-- The oldest `SEND` of a port is complete; signals that waited for it have one less ahead (R43, R46). -/
def TileState.popSend (x : TileState) (p : Nat) : TileState :=
  { x with
    sendQ := Vector.ofFn (fun i => if i.val = p then x.sendQ[i].tail else x.sendQ[i])
    signals := x.signals.map (fun g => { g with
      ahead := g.ahead.zipIdx.map (fun a => if a.2 = p then a.1 - 1 else a.1) }) }

/-- The posted `RECV` of a port is complete (R43). -/
def TileState.popRecv (x : TileState) (p : Nat) : TileState :=
  { x with recvQ := Vector.ofFn (fun i => if i.val = p then x.recvQ[i].tail else x.recvQ[i]) }

/-- Live bytes of a job's tiles by its image's live-region entries (R83, R388). -/
def liveBytes (s : State) (cs : List Nat) (im : Image) : List (Nat × List Byte) :=
  im.live.filterMap (fun r =>
    if r.kind = 0 then
      (physTile cs r.tile).map (fun t => (r.tile * 0x100000 + r.start, scratchRead s t r.start r.length))
    else none)

/-- The accumulator sets an image does not declare live are lost at a switch (R77). -/
def keepLiveSets (im : Image) (vt : Nat) (x : TileState) : TileState :=
  let live := fun k => im.live.any (fun r => r.tile == vt && r.kind == k)
  { x with acc0 := if live 1 then x.acc0 else [], acc1 := if live 2 then x.acc1 else [] }

/-- The register contexts that a switch saves, with the words of the units complete; a stopped tile goes on at the word at which it stopped (R77, R387, R390). -/
def savedContexts (s : State) (cs : List Nat) (im : Option Image) : List (Nat × TileState) :=
  (leaseTiles cs).map (fun e =>
    let x := s.tile e.2
    let x := { x with
      phase := if x.phase = .stopped then .running else x.phase
      cellQ := [], drainQ := [], vectorQ := [], transQ := [], scalarQ := [] }
    (e.1, match im with
      | some im => keepLiveSets im e.1 x
      | none => x))

/-- A job's switch save is in progress. -/
def saving (s : State) : Bool := s.jobs.any (fun e => e.2.lease == 4)

/-- The job is READY or RUNNING, from where a pre-emption starts (R384). -/
def mayPreempt (s : State) (k : Nat) : Bool := match s.job? k with
  | some j => j.lease == 2 || j.lease == 3
  | none => false

/-- Jobs being saved. -/
def savingJobs (s : State) : List Nat := (s.jobs.filter (fun e => e.2.lease == 4)).map Prod.fst

/-! ### Object space (R121, R356, R388) -/

/-- Bytes of an object's placement kept free of other objects: tier, partition, offset, length (R358). -/
def spans (s : State) : List (Nat × Nat × Nat × Nat) :=
  (s.objects.map (fun e =>
    let f := fun (p : Option Placement) => match p with
      | some p => if p.tier = 3 then [] else [(p.tier, p.partition, p.offset, e.2.length)]
      | none => []
    f e.2.place ++ f e.2.twin)).flatten ++
  s.fab.granted.map (fun r => (if r.t1 then 1 else 2, r.partition, localOf r.base - (if r.t1 then t1Base r.partition else t2Base r.partition), r.length))

/-- A range of a partition's T1 window or T2 overlaps no object and no granted reservation. -/
def rangeFree (s : State) (tier p off len : Nat) : Bool :=
  (spans s).all (fun x => !(x.1 == tier && x.2.1 == p && off < x.2.2.1 + x.2.2.2 && x.2.2.1 < off + len))

/-- Capacity of a tier in a partition (R116, R144). -/
def tierSize (s : State) (tier p : Nat) : Nat := if tier = 1 then pinnedBytes s p else 0x400000000

/-- The lowest free offset for an object: 0 or the end of another one, 256-byte aligned. -/
def lowestFree (s : State) (tier p len : Nat) : Option Nat :=
  let cands := 0 :: ((spans s).filter (fun x => x.1 == tier && x.2.1 == p)).map (fun x => x.2.2.1 + x.2.2.2)
  let ok := cands.filter (fun o => decide (o + len ≤ tierSize s tier p) && rangeFree s tier p o len)
  (sortBy (fun a b => a < b) ok).head?

/-- The firmware's choice of an offset: its free pick where that range is free, else the lowest free one (R356, assumption 13). -/
def chooseOffset (s : State) (tier p len : Nat) : Option Nat :=
  let pick := Config.placementChoice s.freeCount / 256 * 256
  if pick + len ≤ tierSize s tier p ∧ rangeFree s tier p pick len = true then some pick
  else lowestFree s tier p len

/-- Bytes of T2 of a partition that no object holds (R388). -/
def freeT2 (s : State) (p : Nat) : Nat :=
  0x400000000 - ((spans s).filter (fun x => x.1 == 2 && x.2.1 == p)).foldl (fun a x => a + x.2.2.2) 0

/-- Local address of a placement in T1 or T2; global address in T3 (R117, R356). -/
def Placement.addr (p : Placement) : Nat :=
  if p.tier = 1 then t1Base p.partition + p.offset
  else if p.tier = 2 then t2Base p.partition + p.offset
  else p.base + p.offset

/-- Where a placement's bytes lie: an address in this node's local memory, also for T3 on the node's own base, else a key of another node's (R17, assumption 11). -/
def Placement.home (s : State) (p : Placement) (off : Nat) : Sum Nat Nat :=
  if p.tier ≠ 3 then .inl (p.addr + off)
  else if nodeOf p.base = s.fab.node then .inl (localOf (p.addr + off))
  else .inr (peerKey (p.addr + off))

/-- Bytes that a placement holds, as the memory shows them. -/
def placeBytes (s : State) (p : Placement) (off n : Nat) : List Byte := match p.home s off with
  | .inl a => s.mem.read a n
  | .inr k => s.hostMem.read k n

/-- `n` bytes that an object holds from an offset: this module's, or the peer's (R122, assumption 11). -/
def objBytes (s : State) (o : Obj) (off n : Nat) : List Byte :=
  match o.place with
  | none => List.replicate n 0
  | some p => placeBytes s p off n

/-- Lay bytes down at a placement. -/
def placeStore (s : State) (p : Placement) (off : Nat) (bs : List Byte) : State := match p.home s off with
  | .inl a => { s with mem := s.mem.write a bs }
  | .inr k => { s with hostMem := s.hostMem.write k bs }

/-- The bytes of a placement read as 0 (R122). -/
def placeClear (s : State) (p : Placement) (n : Nat) : State := match p.home s 0 with
  | .inl a => { s with mem := s.mem.clear a n }
  | .inr k => { s with hostMem := s.hostMem.clear k n }

/-- A placement can be reached: its partition is in service, or its reservation is held and its node routed (R140). -/
def placeServes (s : State) (p : Placement) : Bool :=
  if p.tier = 3 then
    s.fab.heldRes.any (fun h => h.id == p.rid && h.node == p.node) && (nodeOf p.base == s.fab.node || routed s p.node)
  else (s.part p.partition).state == 0

/-- The firmware reads bytes at a placement: this module's through the slice; none when they cannot be delivered (R133, R135, R158). What a read of an object that an invocation is writing returns is the memory's bytes at that moment, a mixture R135 leaves open (assumption 142). -/
def firmwareRead (s : State) (p : Placement) (off n : Nat) : State × Option (List Byte) :=
  if !placeServes s p then (s, none)
  else match p.home s off with
    | .inl a => localRead s a n
    | .inr k => (s, some (s.hostMem.read k n))

/-- The firmware writes bytes at a placement, this module's through the slice; false when a burst written in part cannot be read, or the location does not serve (R133, R134, R158). -/
def firmwareWrite (s : State) (p : Placement) (off : Nat) (bs : List Byte) : State × Bool :=
  if !placeServes s p then (s, false)
  else match p.home s off with
    | .inl a => localWrite s a bs
    | .inr k => ({ s with hostMem := s.hostMem.write k bs }, true)

/-- Every burst of a placement takes zeros and their check bits, through the slice, without a line (R122, R133, R158). -/
def placeZero (s : State) (p : Placement) (n : Nat) : State :=
  let s := if p.tier = 2 then (accessRange (startRange s []) p.partition p.offset n 0 true true).s else s
  placeClear s p n

/-- What the firmware's reading of an object does to the slice it lies behind (R133). -/
def objTouch (s : State) (o : Obj) (off n : Nat) : State :=
  match o.place with
  | some p => (firmwareRead s p off n).1
  | none => s

/-- The firmware reads bytes of an object: the state after it and the bytes; what cannot be delivered is a free value (R133, assumption 143). -/
def objFetch (s : State) (o : Obj) (off n : Nat) : State × List Byte :=
  match o.place with
  | none => (s, List.replicate n 0)
  | some p => match firmwareRead s p off n with
    | (t, some bs) => (t, bs)
    | (t, none) =>
      let f := t.freeBytes n
      (f.2, f.1)

/-- The firmware writes bytes of an object at its placement (R133). -/
def objWriteBytes (s : State) (o : Obj) (off : Nat) (bs : List Byte) : State :=
  match o.place with
  | some p => (firmwareWrite s p off bs).1
  | none => s

/-- Write bytes of an object, to the original and then to its twin (R399). -/
def objWriteBoth (s : State) (o : Obj) (off : Nat) (bs : List Byte) : State :=
  match o.twin with
  | some p => (firmwareWrite (objWriteBytes s o off bs) p off bs).1
  | none => objWriteBytes s o off bs

/-- The object a job binds to a slot (R359). -/
def Job.slotObj (j : Job) (slot : Nat) : Option Nat :=
  (j.bindings.find? (fun b => b.slot == slot)).map (fun b => b.object)

/-- The object bound to a slot, with its record. -/
def boundObj (s : State) (j : Job) (slot : Nat) : Option Obj := (j.slotObj slot).bind s.obj?

/-- An object ID the firmware assigns: its free pick when unused and below 0xFFFF_0000, else the lowest unused from 1 (R356, assumption 13). -/
def newObjectId (s : State) : Nat :=
  let pick := Config.objectIdChoice s.freeCount
  if 0 < pick ∧ pick < 0xFFFF0000 ∧ (s.obj? pick).isNone = true then pick
  else ((List.range (s.objects.length + 1)).map (fun i => i + 1)).find? (fun i => (s.obj? i).isNone)
    |>.getD (s.objects.length + 1)

end Sys2Proof.Machine
end

