-- ==== Sys2Proof/Machine/Descriptors.lean ====
section
/-! DEFINITION. Descriptors and the transfers they describe: geometry, the pieces of a transfer, the placement a run resolves to and the copy of one transfer (R65, R96, R122, R124 to R131, R156). -/

namespace Sys2Proof.Machine

/-! ### Descriptor geometry (R124 to R127) -/

/-- The format of a descriptor. -/
def Descriptor.fmt (d : Descriptor) : Fmt := (Fmt.ofCode d.format).getD .fp32
/-- Outward from scratchpad (R124). -/
def Descriptor.outward (d : Descriptor) : Bool := d.flags % 2 == 1
/-- Separate scales (R124). -/
def Descriptor.separate (d : Descriptor) : Bool := bits d.flags 1 1 == 1
/-- No-allocate in T1 (R124). -/
def Descriptor.noAlloc (d : Descriptor) : Bool := bits d.flags 2 1 == 1
/-- Prefetch (R124). -/
def Descriptor.prefetch (d : Descriptor) : Bool := bits d.flags 3 1 == 1
/-- Tile rows. -/
def Descriptor.rows (d : Descriptor) : Nat := d.rowsM1 + 1
/-- Tile columns. -/
def Descriptor.cols (d : Descriptor) : Nat := d.colsM1 + 1
/-- Tiles in the run. -/
def Descriptor.run (d : Descriptor) : Nat := d.runM1 + 1

/-- K steps of a block group (R95). -/
def blockLen (f : Fmt) : Nat := if f = .trib then 64 else 32
/-- Bytes of a block group (R95). -/
def groupBytes (f : Fmt) : Nat := if f = .trib then 1152 else 1088
/-- Bytes of a group's scale area (R95, R126). -/
def areaBytes (f : Fmt) : Nat := if f = .trib then 128 else 64
/-- Bytes of one K step's element row (R95). -/
def kRowBytes (f : Fmt) : Nat := if f = .trib then 16 else 32

/-- Bytes one tile occupies in scratchpad (R125). -/
def Descriptor.packed (d : Descriptor) : Nat :=
  match d.layout with
  | 0 => d.rows * d.cols * d.fmt.elemBits / 8
  | 1 => d.rows / blockLen d.fmt * groupBytes d.fmt
  | _ => d.rows * 48

/-- Scale bytes of one tile (R126, R127). -/
def Descriptor.scaleBytes (d : Descriptor) : Nat :=
  match d.layout with
  | 1 => d.rows / blockLen d.fmt * areaBytes d.fmt
  | 2 => d.rows * 2
  | _ => 0

/-- S of R127: the packed size, less the scale bytes when separate scales are set. -/
def Descriptor.tileBytes (d : Descriptor) : Nat := if d.separate then d.packed - d.scaleBytes else d.packed

/-- A piece of a transfer: offset from the run's local address, offset in the object, bytes. -/
structure Piece where
  loc : Nat
  off : Nat
  bytes : Nat
deriving DecidableEq, Repr

/-- The pieces of tile `t` of a run whose elements and scales start at these offsets (R125, R126). -/
def Descriptor.pieces (d : Descriptor) (offset scaleOff t : Nat) : List Piece :=
  let base := t * d.packed
  let start := offset + t * d.runStride
  if !d.separate then
    match d.layout with
    | 0 =>
      let rb := d.cols * d.fmt.elemBits / 8
      (List.range d.rows).map (fun r => ⟨base + r * rb, start + r * d.rowStride, rb⟩)
    | _ => [⟨base, start, d.packed⟩]
  else
    match d.layout with
    | 1 =>
      let bl := blockLen d.fmt; let rb := kRowBytes d.fmt; let gs := groupBytes d.fmt
      let groups := d.rows / bl
      (List.range d.rows).map (fun r => ⟨base + r / bl * gs + r % bl * rb, start + r * d.rowStride, rb⟩) ++
      (List.range groups).map (fun g =>
        ⟨base + g * gs + bl * rb, scaleOff + (t * groups + g) * d.scaleStride, areaBytes d.fmt⟩)
    | _ =>
      (List.range d.rows).map (fun r => ⟨base + r * 48, start + r * d.rowStride, 32⟩) ++
      (List.range d.rows).map (fun r => ⟨base + r * 48 + 32, scaleOff + (t * d.rows + r) * d.scaleStride, 2⟩)

/-- The pieces of a whole run. -/
def Descriptor.allPieces (d : Descriptor) (offset scaleOff : Nat) : List Piece :=
  ((List.range d.run).map (d.pieces offset scaleOff)).flatten

/-- Whether every piece of a run lies inside an object of `len` bytes (R128, R130). -/
def Descriptor.fitsIn (d : Descriptor) (offset scaleOff len : Nat) : Bool :=
  (d.allPieces offset scaleOff).all (fun p => decide (p.off + p.bytes ≤ len))

/-- Offsets of a run indexed by K (R127). -/
def Descriptor.indexed (d : Descriptor) (k : Nat) : Nat × Nat :=
  (d.offset + k * d.run * d.tileBytes, if d.separate then d.scaleOffset + k * d.run * d.scaleBytes else d.scaleOffset)

/-! ### Runs (R129 to R132) -/

/-- The placement a run's descriptor resolves to: the twin's for the shadow (R122, R399). -/
def runPlace (o : Obj) (shadow : Bool) : Option Placement :=
  if shadow then (match o.twin with
    | some t => some t
    | none => o.place)
  else o.place

/-- The job and role that a tile's moves belong to. -/
def tileShadow (s : State) (t : TileId) : Bool := match ownerOf s t with
  | some (_, .shadow) | some (_, .shadowFallback) => true
  | _ => false

/-- The object that a descriptor resolves to for a tile: the one the firmware aimed a page slot at, else that bound to its slot in the job the tile serves (R74, R209, assumption 148). -/
def descObject (s : State) (t : TileId) (d : Descriptor) : Option Nat :=
  match d.via with
  | some o => some o
  | none => match ownerOf s t with
    | some (jid, _) => (s.job? jid).bind (fun j => j.slotObj d.slot)
    | none => none

/-- The bytes of a transfer of a run, for the arbiter (R167). -/
def Run.bytes (r : Run) : Nat := r.desc.packed

/-- The local address of a run's object offset 0 (R117). -/
def runObj (s : State) (r : Run) : Option (Obj × Placement) :=
  (s.obj? r.object).bind (fun o => (runPlace o r.shadow).map (fun p => (o, p)))

/-- The bytes of a placement as a transfer's reads delivered them (R156). -/
def placeGot (s : State) (p : Placement) (got : List (Nat × List Byte)) (off n : Nat) : List Byte := match p.home s off with
  | .inl a => readGot s.mem got a n
  | .inr k => s.hostMem.read k n

/-- One piece of a transfer is copied between the scratchpad and the run's placement (R126, R131); chunk data of an idle row reads the null state, zeros, and writes no output (R240, assumption 158). -/
def copyPiece (s : State) (r : Run) (p : Placement) (got : List (Nat × List Byte)) (x : Piece) : State :=
  let a := r.localAddr + x.loc
  if r.desc.idle then (if r.desc.outward then s else scratchWrite s r.tile a (List.replicate x.bytes 0))
  else if r.desc.outward then placeStore s p x.off (scratchRead s r.tile a x.bytes)
  else scratchWrite s r.tile a (placeGot s p got x.off x.bytes)

/-- Bytes 34 to 47 of a row of the ROW layout are written as 0 by an inward move with separate scales (R96, assumption 26). -/
def padRows (s : State) (r : Run) (t : Nat) : State :=
  if r.desc.layout = 2 ∧ r.desc.separate = true ∧ r.desc.outward = false then
    forEach (List.range r.desc.rows) s (fun s i =>
      scratchWrite s r.tile (r.localAddr + t * r.desc.packed + i * 48 + 34) (List.replicate 14 0))
  else s

/-- The whole of one tile transfer: every source byte, as delivered, to its destination (R126, R131). -/
def copyTransfer (s : State) (r : Run) (t : Nat) (got : List (Nat × List Byte)) : State :=
  match runObj s r with
  | none => s
  | some (_, p) =>
    let s := forEach (r.desc.pieces r.offset r.scaleOff t) s (fun s x => copyPiece s r p got x)
    padRows s r t
/-- A tile's state in a run's cause code: 0 queued, 1 transfer, 2 restart (R138, R408). -/
def Run.cause (r : Run) : Nat :=
  if r.xfers.any (fun x => x.state == .granted) then 1
  else if r.xfers.any (fun x => x.state == .restart) then 2
  else 0

/-- Change one run of a cluster. -/
def updRun (s : State) (c id : Nat) (f : Run → Run) : State :=
  s.setCluster c { s.cluster c with runs := (s.cluster c).runs.map (fun r => if r.id = id then f r else r) }

/-- Change the transfer that a request stands for. -/
def setXfer (s : State) (q : ArbReq) (f : Xfer → Xfer) : State :=
  match q.move with
  | some (c, id, i) => updRun s c.toNat id (fun r =>
      { r with xfers := r.xfers.zipIdx.map (fun x => if x.2 = i then f x.1 else x.1) })
  | none => s

/-- The destination bytes of a failed transfer are undefined: the scratchpad's for an inward one, the placement's for an outward one (R141). -/
def spoilTransfer (s : State) (r : Run) (i : Nat) : State :=
  if r.desc.outward then match runObj s r with
    | none => s
    | some (_, p) => forEach (r.desc.pieces r.offset r.scaleOff i) s (fun s x =>
        let f := s.freeBytes x.bytes
        placeStore f.2 p x.off f.1)
  else
    let f := s.freeBytes r.desc.packed
    scratchWrite f.2 r.tile (r.localAddr + i * r.desc.packed) f.1

end Sys2Proof.Machine
end

