-- ==== Sys2Proof/Machine/Arbiter.lean ====
section
/-! DEFINITION. The tile-move arbiter: masks, the order of grants, revocation, turn estimates with their responses, and the entry of a request (R161 to R168). -/

namespace Sys2Proof.Machine

/-! ### Requests (R161, R163) -/

/-- A requester is masked: it is held in reset, or its domain is off (R163). -/
def masked (s : State) (p r : Nat) : Bool :=
  (s.part p).arb.masked.contains r || (decide (r < 8) && !(s.cluster (p * 8 + r)).powered)

/-- The class of a job for its requests. -/
def jobClass (s : State) (j : Nat) : Nat := match s.job? j with
  | some x => x.cls
  | none => 2

/-- A request that stands for no run and no prefetched line. -/
def plainRequest (r : Requester) (cls bytes job : Nat) : ArbReq :=
  { requester := r, cls := cls, bytes := bytes, job := job, move := none, lines := [], prefetcher := none, revoked := false
    revocations := 0, estimate := 0 }

/-- The request of the first prefetcher in turn that wants lines, for at most `bytes` (R149, R161). -/
def prefetchRequest (s : State) (p bytes : Nat) : Option ArbReq :=
  ((s.part p).prefetchers.find? (fun f => !f.wanted.isEmpty)).map (fun f =>
    let n := max 1 (bytes / 256)
    { plainRequest 8 (jobClass s f.job) (256 * min n f.wanted.length) f.job with
      lines := f.wanted.take n, prefetcher := some (f.tile, f.slot) })

/-- Change the stall counts of the invocation in progress of a job; a shadow's runs are not the job's. -/
def updStall (s : State) (r : Run) (f : StallRec → StallRec) : State :=
  if r.shadow then s
  else match s.job? r.job with
    | some j => s.setJob r.job { j with stallNow := f j.stallNow }
    | none => s

/-- Change an arbiter. -/
def updArb (s : State) (p : Nat) (f : Arbiter → Arbiter) : State := s.setPart p { s.part p with arb := f (s.part p).arb }

/-- The prefetcher a request comes from. -/
def ArbReq.from (q : ArbReq) (f : Prefetcher) : Bool := q.prefetcher == some (f.tile, f.slot)

/-- The lines of a presented prefetch request leave their prefetcher (R149). -/
def takeLines (s : State) (p : Nat) (q : ArbReq) : State :=
  if q.lines.isEmpty then s
  else s.setPart p { s.part p with prefetchers := (s.part p).prefetchers.map (fun f =>
    { f with wanted := if q.from f then f.wanted.filter (fun l => !q.lines.contains l) else f.wanted }) }

/-- The prefetchers take turns: the one a request came from goes behind the others (R161). -/
def turnPrefetcher (x : Part) (q : ArbReq) : Part :=
  if q.prefetcher.isNone then x
  else { x with prefetchers := x.prefetchers.filter (fun f => !q.from f) ++ x.prefetchers.filter q.from }

/-! ### Order of grants (R162) -/

/-- The requester last granted in a class. -/
def Arbiter.last (a : Arbiter) (cls : Nat) : Nat := if cls = 0 then a.last0 else if cls = 1 then a.last1 else a.last2

/-- The order key of a request: class, revoked first, then turns after the requester last granted (R162). -/
def Arbiter.key (a : Arbiter) (q : ArbReq) : Nat :=
  q.cls * 100 + (if q.revoked then 0 else 50) + (q.requester.val + 11 - a.last q.cls - 1) % 11

/-- The waiting request to be granted next (R162). -/
def Arbiter.next (a : Arbiter) : Option ArbReq := (sortBy (fun x y => decide (a.key x < a.key y)) a.waiting).head?

/-- Engines without a transfer. -/
def Arbiter.free (a : Arbiter) : List Nat :=
  (List.range 8).filter (fun e => ((a.engines.toList)[e]?.getD none).isNone)

/-- Put a transfer on an engine, or clear it. -/
def Arbiter.setEngine (a : Arbiter) (e : Nat) (g : Option Grant) : Arbiter :=
  { a with engines := Vector.ofFn (fun i => if i.val = e then g else a.engines[i]) }

/-- The grant on an engine. -/
def Arbiter.grantOf (a : Arbiter) (e : Nat) : Option Grant := (a.engines.toList)[e]?.getD none

/-! ### Revocation (R164 to R166) -/

/-- Engines with an Ambient transfer that may be revoked, most recently started first, then the lowest engine (R164, R166). -/
def revocable (a : Arbiter) : List (Nat × Grant) :=
  sortBy (fun x y => y.2.order < x.2.order || (x.2.order == y.2.order && x.1 < y.1))
    ((List.range 8).filterMap (fun e => match a.grantOf e with
      | some g => if g.req.cls == 2 && decide (g.req.revocations < 16) then some (e, g) else none
      | none => none))

/-- Raise detector 0x23 for a transfer revoked 16 times (R166, R408). -/
def stormEvent (p e : Nat) (q : ArbReq) : DetEvent := mkEvent 0x23 p q.job q.requester.val (p * 8 + e) q.job

/-- Revoke the transfer on an engine: it keeps no progress and becomes its requester's waiting request; a newer request returns into the requester (R161, R164 to R166). -/
def revoke (s : State) (p e : Nat) (g : Grant) : State :=
  let q := { g.req with revoked := true, revocations := g.req.revocations + 1 }
  let s := pruneT3 (updArb s p (fun a =>
    let newer := a.waiting.filter (fun w => w.requester == q.requester)
    { (a.setEngine e none) with
      waiting := a.waiting.filter (fun w => w.requester != q.requester) ++ [q]
      heldBack := a.heldBack ++ newer }))
  let s := setXfer s q (fun x => { x with state := .restart, revocations := x.revocations + 1 })
  let s := match q.move with
    | some (c, id, _) => match (s.cluster c.toNat).runs.find? (fun r => r.id == id) with
      | some r => updStall s r (fun k => { k with revocations := min 65535 (k.revocations + 1) })
      | none => s
    | none => s
  if q.revocations = 16 then raise s (stormEvent p e q) else s

/-! ### Turn estimates (R167, R168) -/

/-- Bytes left of the transfers in progress: the model keeps no progress, so each is a free value up to its size (R167, assumption 29). -/
def remaining (s : State) (p : Nat) : Nat :=
  ((List.range 8).map (fun e => match (s.part p).arb.grantOf e with
    | some g => Config.freeNat (s.freeCount + e) % (g.req.bytes + 1)
    | none => 0)).sum

/-- The estimate of a waiting request (R167). -/
def estimateOf (s : State) (p : Nat) (q : ArbReq) : Nat :=
  let a := (s.part p).arb
  let before := a.waiting.filter (fun w => a.key w < a.key q)
  let ahead := remaining s p + (before.map ArbReq.bytes).sum
  min 255 ((ahead + 65535) / 65536)

/-- A tile stalls at a `WAIT` fed by a run (R168). -/
def waitsOn (x : TileState) (r : Run) : Bool := match x.stall with
  | .waitSem sem _ => sem == r.sem
  | _ => false

/-- A tile's program signals a semaphore of a virtual tile (R168, R416). -/
def signalsTo (x : TileState) (sem : BitVec 4) (vt : Nat) : Bool :=
  x.words.any (fun w => match decodeSeq w with
    | some (.signal m v _) => m == sem && v.toNat == vt
    | _ => false)

/-- A tile stalls at a `WAIT` that one of some tiles of its lease feeds by a `SIGNAL`. -/
def fedBy (s : State) (t : TileId) (from_ : List TileId) : Bool := match (s.tile t).stall with
  | .waitSem sem _ => from_.any (fun u => signalsTo (s.tile u) sem (virtTile (leaseOf s t) t))
  | _ => false

/-- Tiles of a cluster whose `WAIT`s a run feeds: its own tile's, and those that wait for a tile already among them (R168, assumption 145). -/
def fedTiles (s : State) (c : Nat) (r : Run) : List TileId :=
  if waitsOn (s.tile r.tile) r then
    (List.range 8).foldl (fun acc _ => acc ++ (clusterTiles c).filter (fun t => !acc.contains t && fedBy s t acc)) [r.tile]
  else []

/-- A cluster mover that receives an estimate of 2 or more gates the tiles whose `WAIT`s the request feeds; the grant ungates the mover's tiles (R168). -/
def gateFor (s : State) (q : ArbReq) (on : Bool) : State :=
  match q.move with
  | none => s
  | some (c, id, _) =>
    if on then match (s.cluster c.toNat).runs.find? (fun r => r.id == id) with
      | none => s
      | some r => forEach (fedTiles s c.toNat r) s (fun s t => updTile s t (fun x => { x with gated := true }))
    else forEach (clusterTiles c.toNat) s (fun s t => if (s.tile t).gated then updTile s t (fun x => { x with gated := false }) else s)

/-- The prefetcher group withdraws its request: the lines return to their prefetcher, which goes behind the others, and the next one's request is offered instead, its estimate due at the next update (R168, assumption 146). -/
def withdrawPrefetch (s : State) (p : Nat) (q : ArbReq) : State :=
  let x := s.part p
  let back := x.prefetchers.map (fun f => if q.from f then { f with wanted := distinct (q.lines ++ f.wanted) } else f)
  let s := s.setPart p (turnPrefetcher { x with
    prefetchers := back, arb := { x.arb with waiting := x.arb.waiting.filter (fun w => w != q) } } q)
  match prefetchRequest s p (256 * q.lines.length) with
  | some n => updArb (takeLines s p n) p (fun a => { a with waiting := a.waiting ++ [n] })
  | none => s

/-- Give one waiting request its estimate, with the requester's response (R167, R168). -/
def giveEstimate (s : State) (p : Nat) (q : ArbReq) : State :=
  let e := estimateOf s p q
  let q' := { q with estimate := e }
  let s := updArb s p (fun a => { a with waiting := a.waiting.map (fun w => if w = q then q' else w) })
  if q.requester.val = 8 then (if 1 ≤ e then withdrawPrefetch s p q' else s)
  else if q.requester.val < 8 ∧ 2 ≤ e then gateFor s q' true
  else s

/-- The waiting requests that find no engine: those for which the free engines do not suffice in the order of grants (R164, R167). -/
def Arbiter.unserved (a : Arbiter) : List ArbReq :=
  (sortBy (fun x y => decide (a.key x < a.key y)) a.waiting).drop a.free.length

/-- Every waiting request that finds no engine and has had no estimate receives one (R167). -/
def giveEstimates (s : State) (p : Nat) : State :=
  let qs := (s.part p).arb.unserved.filter (fun q => q.estimate == 0)
  let s := forEach qs s (fun s q => giveEstimate s p q)
  { s with freeCount := s.freeCount + 8 }

/-! ### The entry of a request (R161, R164, R167) -/

/-- While the free engines do not suffice for the Held requests, each such request revokes the Ambient transfer that started last (R164). -/
def revokeHeld : Nat → State → Nat → State
  | 0, s, _ => s
  | n + 1, s, p =>
    if (s.part p).arb.unserved.any (fun q => q.cls == 0) then match (revocable (s.part p).arb).head? with
      | some (e, g) => revokeHeld n (revoke s p e g) p
      | none => s
    else s

/-- A request enters the arbiter: a Held one for which no engine is free revokes an Ambient transfer; every request without an engine, a revoked one among them, receives an estimate (R161, R164, R167). -/
def enqueue (s : State) (p : Nat) (q : ArbReq) : State :=
  let s := takeLines s p q
  let s := updArb s p (fun a => { a with waiting := a.waiting ++ [q] })
  let s := setXfer s q (fun x => { x with state := .waiting })
  giveEstimates (revokeHeld 8 s p) p

/-- A move of the Atelier enters the arbiter of its partition, one at a time; what it moves takes effect with the command that says it is written (R161, R236, R241). -/
def atelierMove (s : State) (p cls bytes job : Nat) : State :=
  if 8 ≤ p || masked s p 10 || (s.part p).arb.waiting.any (fun q => q.requester == 10) then s
  else enqueue s p (plainRequest 10 cls bytes job)

/-- An Atelier move for an object: the Prompt class, in the arbiter of the object's partition (R161). -/
def objMove (s : State) (oid bytes : Nat) : State := match (s.obj? oid).bind Obj.place with
  | some p => if p.tier = 3 then s else atelierMove s p.partition 1 bytes 0
  | none => s

/-! ### The switch's moves and the queue of Ambient jobs (R383, R386, R389) -/

/-- The moves of a switch save or reload: an Atelier request of a class for the job's save object (R389). -/
def switchMove (s : State) (j : Job) (cls jid : Nat) : State := match s.obj? j.saveObject with
  | some o => match o.place with
    | some p => if p.tier = 3 then s else atelierMove s p.partition cls o.length jid
    | none => s
  | none => s

/-- Pre-empt an Ambient job: its tiles stop at a word boundary, and its moves are revoked; words that units accepted still complete, and the job is SAVING; the save moves of its live bytes enter the arbiter in the Prompt class, as the class of a Prompt job that takes the clusters or, for a lowered cap, of Atelier work (R77, R384, R387, R389). -/
def preempt (s : State) (jid : Nat) : State :=
  match s.job? jid with
  | none => s
  | some j =>
    let cs := j.roleClusters .primary
    let runs := (cs.map (fun c => (s.cluster c).runs.map (fun r => (virtTile cs r.tile, r)))).flatten
    let s := removeRuns s cs
    let s := forEach (leaseTiles cs) s (fun s e =>
      let x := s.tile e.2
      s.setTile e.2 { x with phase := if x.phase = .running then .stopped else x.phase, gated := false })
    let s := switchMove s j 1 jid
    s.setJob jid { j with lease := 4, savedRuns := runs, resumeRunning := j.lease == 3 }

/-- Pre-empt the first of some jobs: one at a time, once no save is in progress and the job is loaded (R384, R386). -/
def preemptFirst (s : State) (ks : List Nat) : State :=
  match ks with
  | k :: _ => if saving s || !mayPreempt s k then s else preempt s k
  | [] => s

/-- Pre-empt towards a cap: the job leased most recently first, until the leases fit its budget (R382, R386, R525). -/
def enforceCap (s : State) (cap : Nat) : State :=
  if leasedCount s ≤ budgetOf cap then s else preemptFirst s ((victims s).map (fun v => v.1))

/-- R383: grant free unreserved clusters to the queued jobs in order; the first that does not fit blocks the rest. New Ambient leases wait while a temperature warning holds (R531), and every grant waits while the module drowses, its armature clocks stopped (R523). The reload moves of a SAVED job enter the arbiter in the Ambient class (R389). -/
def grantQueue : Nat → State → State
  | 0, s => s
  | n + 1, s =>
    match queuedJobs s with
    | [] => s
    | (jid, j) :: _ =>
      if promptWaits s || s.power.state == 1 || ((s.power.caseWarn || s.power.junctionWarn) && j.lease == 0) then s
      else if !roomFor s (min (capInForce s) (pendingCap s)) j.wantsClusters then s
      else match place s (onePartition s j) j.wantsClusters 0 (eligible s 2) none with
        | none => s
        | some (cs, _) =>
          let t := grantTo s jid cs [] (if j.lease = 0 then 1 else 6)
          grantQueue n (if j.lease = 0 then t else switchMove t j 2 jid)

end Sys2Proof.Machine
end

