-- ==== Sys2Proof/Machine/KvBase.lean ====
section
/-! DEFINITION. The key-value store of chapter 5: geometry, page directory, hashes, prefix index, allocation, spill, recall, commit and release (R199 to R228). -/

namespace Sys2Proof.Machine

/-! ### Instances and geometry (R199 to R203) -/

/-- The geometry an `ATTN` instance entry gives (R200). -/
structure Attn where
  hq : Nat
  hkv : Nat
  dim : Nat
  q : Nat
  rows : Nat
  layer : Nat
  layers : Nat
  family : Nat
  scale : Nat
  firstPool : Nat
  pools : Nat
  pageSlots : Nat
  spill : Option Nat
  format : Nat
  outFormat : Nat
  tiles : Nat
deriving DecidableEq, Repr

/-- A dimension word of an instance (R171). -/
def InstEntry.dim (i : InstEntry) (k : Nat) : Nat := i.dims[k]?.getD 0

/-- The `ATTN` fields of an instance entry (R200). -/
def InstEntry.attn (i : InstEntry) : Attn :=
  { hq := i.dim 0, hkv := i.dim 1, dim := i.dim 2, q := i.dim 3, rows := bits (i.dim 4) 0 16,
    layer := bits (i.dim 4) 16 8, layers := bits (i.dim 4) 24 8, family := i.dim 5, scale := i.dim 6,
    firstPool := bits (i.dim 7) 0 8, pools := bits (i.dim 7) 8 3 + 1, pageSlots := bits (i.dim 7) 12 4 + 1,
    spill := if bits (i.dim 7) 16 8 = 0xFF then none else some (bits (i.dim 7) 16 8),
    format := i.inFormat, outFormat := i.outFormat, tiles := i.tiles }

/-- The `ATTN` instances of an image, in entry order. -/
def Image.attns (im : Image) : List Attn := (im.insts.filter (fun i => i.function == 0x09)).map InstEntry.attn

/-- Element size in bytes of a KV format (R202). -/
def Attn.elem (a : Attn) : Nat := match Fmt.ofCode a.format with
  | some f => f.elemBits / 8
  | none => 1

/-- Spg, the page size (R202). -/
def Attn.pageBytes (a : Attn) : Nat := 2 * a.hkv * 256 * a.dim * a.elem

/-- Sfr, the frame size (R202). -/
def Attn.frameBytes (a : Attn) : Nat := a.pageBytes + 1024

/-- The family of an instance: what instances of one family, in one image or in several, agree on (R199, R201). -/
def Attn.fam (a : Attn) : Family :=
  { key := a.family, hq := a.hq, hkv := a.hkv, dim := a.dim, format := a.format, layers := a.layers, scale := a.scale, pools := a.pools }

/-- A format permitted as output: every code but TRIB's and the reserved ones (R88). -/
def outputFormat (c : Nat) : Bool := decide (c ≤ 0xA) && c != 8

/-- R199: the limits of the parameter table. -/
def Attn.ok (a : Attn) : Bool :=
  bits a.scale 23 8 != 255 && outputFormat a.outFormat &&
  1 ≤ a.hq && a.hq ≤ 128 && 1 ≤ a.hkv && a.hkv ≤ 16 && a.hq % a.hkv == 0 && (a.dim == 64 || a.dim == 128) &&
  [1, 2, 3, 4].contains a.format && 1 ≤ a.q && a.q ≤ 256 && 1 ≤ a.rows && a.rows ≤ 256 &&
  a.rows * a.q ≤ 4096 && a.hq / a.hkv * a.q ≤ 1024 && 1 ≤ a.layers && a.layer < a.layers && a.family != 0

/-- The pool objects a job binds for an instance, in pool order (R200). -/
def poolObjects (j : Job) (a : Attn) : List Nat :=
  (List.range a.pools).map (fun i => (j.slotObj (a.firstPool + i)).getD 0)

/-- Nfr of a pool (R203). -/
def framesOf (s : State) (pool frameBytes : Nat) : Nat :=
  match s.obj? pool with
  | some o => min 65535 (o.length / frameBytes)
  | none => 0

/-! ### Hashes (R215) -/

/-- One FNV step of R215. -/
def fnvStep (h : BitVec 64) (w : Nat) : BitVec 64 := (h ^^^ BitVec.ofNat 64 w) * 0x00000100000001B3#64

/-- The hash of a run of words from a seed, mixed at the end (R215, R264). -/
def fnvHash (seed : BitVec 64) (ws : List Nat) : BitVec 64 :=
  let h := ws.foldl fnvStep seed
  h ^^^ (h >>> 31)

/-- The seed of span 0 of a family (R215). -/
def familySeed (family : Nat) : BitVec 64 := 0xCBF29CE484222325#64 ^^^ BitVec.ofNat 64 family

/-! ### Directory and frames (R204, R207) -/

/-- Pool index of the page of layer ℓ for page index i (R204). -/
def poolOf (layer index pools : Nat) : Nat := (layer + index) % pools

/-- The directory entry is free (R207). -/
def entryFree (kv : Kv) (e : Nat) : Bool := (kv.dir.get? e).isNone

/-- The lowest run of `n` free directory entries (R207, assumption 13). -/
def freeRunFrom (kv : Kv) (n : Nat) : Nat → Nat → Option Nat
  | 0, _ => none
  | fuel + 1, e =>
    if e + n ≤ 65536 then
      if (List.range n).all (fun i => entryFree kv (e + i)) then some e else freeRunFrom kv n fuel (e + 1)
    else none

/-- A run of `n` free directory entries, `none` when there is none (R207). -/
def freeRun (kv : Kv) (n : Nat) : Option Nat := freeRunFrom kv n 65536 0

/-- As many disjoint runs of `n` free directory entries as a call needs stand from entry `e` on (R207). -/
def freeRunsFrom (kv : Kv) (n : Nat) : Nat → Nat → Nat → Bool
  | _, _, 0 => true
  | 0, _, _ + 1 => false
  | fuel + 1, e, k + 1 =>
    if 65536 < e + n then false
    else if (List.range n).all (fun i => entryFree kv (e + i)) then freeRunsFrom kv n fuel (e + n) k
    else freeRunsFrom kv n fuel (e + 1) (k + 1)

/-- Frames of a pool that pages hold or that a recall fills (R203, R207). -/
def usedFrames (kv : Kv) (pool : Nat) : List Nat :=
  (kv.dir.filter (fun e => e.2.poolObject == pool && (e.2.state == 1 || e.2.moving == 2))).map
    (fun e => if e.2.moving = 2 then e.2.target else e.2.location)

/-- A free frame of a pool, frame 0 never allocated (R203). -/
def freeFrame (s : State) (pool frameBytes : Nat) : Option Nat :=
  ((List.range (framesOf s pool frameBytes)).drop 1).find? (fun f => !(usedFrames s.kv pool).contains f)

/-- Free frames of a pool. -/
def freeFrames (s : State) (pool frameBytes : Nat) : Nat :=
  framesOf s pool frameBytes - 1 - (usedFrames s.kv pool).length

/-- Slots of the spill object in use. -/
def usedSpill (kv : Kv) (obj : Nat) : List Nat :=
  (kv.dir.filter (fun e => e.2.spillObject == obj && (e.2.state == 2 || e.2.moving == 1))).map
    (fun e => if e.2.moving = 1 then e.2.target else e.2.location)

/-- Slots of a spill object (R224). -/
def spillSlots (s : State) (obj frameBytes : Nat) : Nat :=
  match s.obj? obj with
  | some o => o.length / frameBytes
  | none => 0

/-- A free slot of a spill object (R224). -/
def freeSpill (s : State) (obj frameBytes : Nat) : Option Nat :=
  (List.range (spillSlots s obj frameBytes)).find? (fun f => !(usedSpill s.kv obj).contains f)

/-- The object that holds a page: its spill object while it is spilled, else its pool (R224, R226). -/
def PageEntry.home (e : PageEntry) : Nat := if e.state = 2 then e.spillObject else e.poolObject

/-- Some bytes of a page's frame, resident or spilled. -/
def pageBytes (s : State) (e : PageEntry) (off n : Nat) : List Byte :=
  match s.obj? e.home with
  | some o => objBytes s o (e.location * e.frame + off) n
  | none => []

/-- What the firmware's reading of a page does to the slice it lies behind (R133). -/
def pageTouch (s : State) (e : PageEntry) (off n : Nat) : State :=
  match s.obj? e.home with
  | some o => objTouch s o (e.location * e.frame + off) n
  | none => s

/-- The bytes of a page's frame. -/
def frameData (s : State) (e : PageEntry) : List Byte := pageBytes s e 0 e.frame

/-- The token list of a span: the last 1,024 bytes of its layer-0 frame, resident or spilled (R202). -/
def spanTokens (s : State) (first : Nat) : List Nat :=
  match s.kv.dir.get? first with
  | none => []
  | some e =>
    let bs := pageBytes s e (e.frame - 1024) 1024
    (List.range 256).map (fun i => fld bs (4 * i) 4)

/-- The reading of a span's token list (R133, R218). -/
def tokensTouch (s : State) (first : Nat) : State :=
  match s.kv.dir.get? first with
  | none => s
  | some e => pageTouch s e (e.frame - 1024) 1024

/-- A broken sequence holds a lost page (R227). -/
def spanLost (kv : Kv) (first layers : Nat) : Bool :=
  (List.range layers).any (fun l => match kv.dir.get? (first + l) with
    | some e => e.state == 3
    | none => false)

/-! ### Index (R216 to R219) -/

/-- The bucket of a key (R216). -/
def bucketOf (key : BitVec 64) : Nat := (key.extractLsb' 0 15).toNat

/-- Find an entry by kind, key and pool set, of one family: pages are shared within a family only (R199, R216). -/
def findIndex (kv : Kv) (tail : Bool) (key : BitVec 64) (pool : Nat) (f : Family) : Option IndexEntry :=
  kv.index.find? (fun e => e.tail == tail && e.key == key && e.poolSet == pool && e.family == f)

/-- Insert an entry: a full bucket loses its unpinned entry with the oldest last hit, or refuses the new one when all four are pinned; true when one was replaced or not inserted (R216). -/
def indexInsert (kv : Kv) (e : IndexEntry) : Kv × Bool :=
  let inBucket := kv.index.filter (fun x => bucketOf x.key == bucketOf e.key)
  if inBucket.length < 4 then ({ kv with index := kv.index ++ [e] }, false)
  else
    let open_ := inBucket.filter (fun x => !x.pinned)
    match sortBy (fun a b => a.lastHit < b.lastHit) open_ with
    | [] => (kv, true)
    | v :: _ => ({ kv with index := kv.index.filter (fun x => x != v) ++ [e] }, true)

/-- Remove the entries of a span (R217, R223, R227). -/
def indexRemove (kv : Kv) (first : Nat) : Kv := { kv with index := kv.index.filter (fun x => x.first != first) }

/-! ### References (R207, R221, R223) -/

/-- Add 1 to refs of each page of a span (R218, R222). -/
def holdSpan (kv : Kv) (first layers : Nat) : Kv :=
  { kv with dir := kv.dir.map (fun e =>
      if first ≤ e.1 ∧ e.1 < first + layers then (e.1, { e.2 with refs := e.2.refs + 1 }) else e) }

/-- Remove one reference from each page of a span; pages without a holder are freed with their frames or slots, and the span's index entries removed (R217, R223). -/
def dropSpan (kv : Kv) (first layers : Nat) : Kv :=
  let dir := kv.dir.filterMap (fun e =>
    if first ≤ e.1 ∧ e.1 < first + layers then
      (if e.2.refs ≤ 1 then none else some (e.1, { e.2 with refs := e.2.refs - 1 }))
    else some e)
  let kv := { kv with dir := dir }
  if (kv.dir.get? first).isNone then indexRemove kv first else kv

/-- Every page of a span could take one more holder (R221). -/
def spanShareable (kv : Kv) (first layers : Nat) : Bool :=
  (List.range layers).all (fun l => match kv.dir.get? (first + l) with
    | some e => e.refs < 65535 && e.state != 3
    | none => false)

/-! ### Prefix matching (R218) -/

/-- What matching tokens against the index has found so far. -/
structure MatchState where
  kv : Kv
  spans : List Nat
  matched : Nat
  parent : BitVec 64
  falseMatches : Nat
  refusals : Nat
deriving DecidableEq, Repr

/-- Note a hit on an index entry (R216). -/
def touchIndex (kv : Kv) (e : IndexEntry) (now : Nat) : Kv :=
  { kv with index := kv.index.map (fun x => if x = e then { x with lastHit := now } else x) }

/-- The tail of a match: a tail entry whose tokens differ from the remaining ones, or outnumber them, is counted as a false match (R218, R221, assumption 149). -/
def matchTail (s : State) (pool : Nat) (f : Family) (toks : List Nat) (m : MatchState) : MatchState :=
  match findIndex m.kv true m.parent pool f with
  | none => m
  | some t =>
    if (spanTokens s t.first).take t.count = toks.take t.count ∧ t.count ≤ toks.length then
      if spanShareable m.kv t.first f.layers then
        { m with kv := holdSpan (touchIndex m.kv t s.now) t.first f.layers,
                 spans := m.spans ++ [t.first], matched := m.matched + t.count }
      else { m with refusals := m.refusals + 1 }
    else { m with falseMatches := m.falseMatches + 1 }

/-- The loop over full spans, and the tail (R218, R221). -/
def matchSpans (s : State) (pool : Nat) (f : Family) : Nat → List Nat → MatchState → MatchState
  | 0, _, m => m
  | fuel + 1, toks, m =>
    if 256 ≤ toks.length then
      let h := fnvHash m.parent (toks.take 256)
      match findIndex m.kv false h pool f with
      | none => matchTail s pool f toks m
      | some e =>
        if spanTokens s e.first = toks.take 256 then
          if spanShareable m.kv e.first f.layers then
            matchSpans s pool f fuel (toks.drop 256)
              { m with kv := holdSpan (touchIndex m.kv e s.now) e.first f.layers,
                       spans := m.spans ++ [e.first], matched := m.matched + 256, parent := h }
          else { m with refusals := m.refusals + 1 }
        else matchTail s pool f toks { m with falseMatches := m.falseMatches + 1 }
    else matchTail s pool f toks m

/-! ### The needs of a call (R220, R224, R225) -/

/-- Pages of a sequence of `n` positions. -/
def pagesFor (n : Nat) : Nat := (n + 255) / 256

/-- The sequence has a last, partly filled span that another holder shares: it must be copied before an append (R220). -/
def needsCopy (kv : Kv) (q : Sequence) : Option Nat :=
  if q.length % 256 = 0 then none
  else match q.spans.getLast? with
    | none => none
    | some first =>
      if (List.range q.layers).any (fun l => match kv.dir.get? (first + l) with
        | some e => decide (1 < e.refs)
        | none => false) then some first else none

/-- The spans a row needs: page indices with the span each one copies (R208, R220). -/
def rowNeeds (kv : Kv) (r : SeqRow) : List (Nat × Nat × Option Nat) :=
  match kv.sequences.get? r.sequence with
  | none => []
  | some q =>
    if r.tokens.isEmpty then []
    else
      let copy := match needsCopy kv q with
        | some f => [(r.sequence, pagesFor q.length - 1, some f)]
        | none => []
      let first := pagesFor q.length
      let n := pagesFor (q.length + r.tokens.length) - first
      copy ++ (List.range n).map (fun i => (r.sequence, first + i, none))

/-- The spans a call needs. -/
def callNeeds (kv : Kv) (rows : List SeqRow) : List (Nat × Nat × Option Nat) :=
  (rows.map (rowNeeds kv)).flatten

/-- Frames a call needs of pool `p`: one per layer whose page lies there (R204, R224). -/
def framesNeeded (needs : List (Nat × Nat × Option Nat)) (layers pools p : Nat) : Nat :=
  (needs.map (fun n => ((List.range layers).filter (fun l => poolOf l n.2.1 pools == p)).length)).sum

/-! ### Calls of invocations (R206, R208) -/

/-- The first `ATTN` instance of an image. -/
def attn? (s : State) (image : Nat) : Option Attn := (s.image? image).bind (fun im => im.attns.head?)

/-- The fallback image's `ATTN` instances are of another family than the job's, and so keep their own sequences (R206). -/
def ownSequences (s : State) (j : Job) : Bool :=
  (attn? s j.fallback).isSome && (attn? s j.fallback).map Attn.fam != (attn? s j.image).map Attn.fam

/-- The name under which a fallback keeps its own sequence for one that a job's feeds name, beyond the IDs that host software can choose (R206, assumption 150). -/
def ownKey (jid seq : Nat) : Nat := (jid + 1) * 2 ^ 32 + seq

/-- The rows of the call that an invocation's run serves, with the sequences it appends to (R206, R208). -/
def runRows (s : State) (jid : Nat) (j : Job) (i : Invocation) : List SeqRow :=
  let rows := (i.calls.map SeqCall.rows).flatten
  if i.isFallback && ownSequences s j then rows.map (fun r => { r with sequence := ownKey jid r.sequence }) else rows

/-- Pages the call reads or writes: never spilled for it (R224). -/
def callPages (kv : Kv) (rows : List SeqRow) : List Nat :=
  (rows.map (fun r => match kv.sequences.get? r.sequence with
    | some q => (q.spans.map (fun f => (List.range q.layers).map (fun l => f + l))).flatten
    | none => [])).flatten

/-- Pages that the calls in progress read or write, new ones among them (R214, R224). -/
def busyPages (s : State) : List Nat :=
  (s.jobs.map (fun e => match e.2.invocation with
    | some i => callPages s.kv (runRows s e.1 e.2 i) ++
        (i.newSpans.map (fun n => (s.kv.dir.filter (fun x => decide (n.first ≤ x.1) && (match s.kv.dir.get? n.first with
          | some p => decide (x.1 < n.first + p.layers)
          | none => false))).map Prod.fst)).flatten
    | none => [])).flatten

/-- A pinned prefix holds the page (R222). -/
def pagePinned (kv : Kv) (e : Nat) : Bool :=
  kv.pinned.any (fun p => p.2.spans.any (fun f => decide (f ≤ e ∧ e < f + p.2.layers)))

/-- Pages of a pool that may be spilled for a call, oldest last_use first, lowest entry first among equals (R224). -/
def spillable (kv : Kv) (pool : Nat) (keep : List Nat) : List (Nat × PageEntry) :=
  sortBy (fun a b => a.2.lastUse < b.2.lastUse || (a.2.lastUse == b.2.lastUse && a.1 < b.1))
    (kv.dir.filter (fun e => e.2.poolObject == pool && e.2.state == 1 && e.2.moving == 0 &&
      !keep.contains e.1 && !pagePinned kv e.1))

/-- R225: the whole need of a call can be met from free frames, spillable pages and free spill slots together, and from runs of free directory entries. -/
def callFits (s : State) (j : Job) (a : Attn) (rows : List SeqRow) : Bool :=
  let needs := callNeeds s.kv rows
  let keep := callPages s.kv rows ++ busyPages s
  let pools := poolObjects j a
  let spillObj := (a.spill.bind j.slotObj).getD 0
  let deficits := pools.zipIdx.map (fun p =>
    framesNeeded needs a.layers a.pools p.2 - freeFrames s p.1 a.frameBytes)
  let enough := (pools.zip deficits).all (fun p => decide (p.2 ≤ (spillable s.kv p.1 keep).length))
  let slots := if a.spill.isNone then 0
    else spillSlots s spillObj a.frameBytes - (usedSpill s.kv spillObj).length
  enough && decide (deficits.sum ≤ slots) && freeRunsFrom s.kv a.layers 65536 0 needs.length

/-! ### Allocation and commit -/

/-- The directory entries of a new span, one frame per layer, token lists all 0xFF; `none` when a frame is missing (R202, R204, R207). -/
def allocSpan (s : State) (pools : List Nat) (a : Attn) (index : Nat) : Option (State × Nat) :=
  match freeRun s.kv a.layers with
  | none => none
  | some first =>
    let step := fun (acc : Option State) (l : Nat) => acc.bind (fun s =>
      let p := poolOf l index a.pools
      let pool := pools[p]?.getD 0
      (freeFrame s pool a.frameBytes).map (fun f =>
        let e : PageEntry :=
          { state := 1, pool := p, location := f, refs := 1, valid := 0, sealed := false, hash := 0,
            lastUse := s.now, layer := l, layers := a.layers, frame := a.frameBytes, poolObject := pool, spillObject := 0,
            moving := 0, target := 0 }
        let s := { s with kv := { s.kv with dir := s.kv.dir.put (first + l) e } }
        match s.obj? pool with
        | some o => objWriteBytes s o (f * a.frameBytes + a.pageBytes) (List.replicate 1024 0xFF)
        | none => s))
    ((List.range a.layers).foldl step (some s)).map (fun s => (s, first))

/-- Allocate every span a call needs (R208, R224). -/
def allocCall (s : State) (pools : List Nat) (a : Attn) :
    List (Nat × Nat × Option Nat) → List NewSpan → Option (State × List NewSpan)
  | [], acc => some (s, acc)
  | n :: ns, acc =>
    match allocSpan s pools a n.2.1 with
    | none => none
    | some (s, first) =>
      allocCall s pools a ns (acc ++ [{ sequence := n.1, index := n.2.1, first := first, copyOf := n.2.2 }])

/-- Give back the spans of an invocation that publishes nothing (R206). -/
def abortSpans (s : State) (ns : List NewSpan) : State :=
  forEach ns s (fun s n =>
    match s.kv.dir.get? n.first with
    | none => s
    | some e => { s with kv := { s.kv with dir := s.kv.dir.filter (fun x => x.1 < n.first || n.first + e.layers ≤ x.1) } })

/-- Start a spill of a page into a slot (R224). -/
def startSpill (s : State) (entry obj : Nat) : State :=
  match s.kv.dir.get? entry with
  | none => s
  | some e => match freeSpill s obj e.frame with
    | none => s
    | some slot =>
      let s := objMove s e.poolObject e.frame
      { s with kv := { s.kv with dir := s.kv.dir.put entry { e with moving := 1, target := slot, spillObject := obj } } }

/-- Start the spills a call waits on, pool by pool (R224). -/
def startSpills (s : State) (j : Job) (a : Attn) (rows : List SeqRow) : State :=
  let needs := callNeeds s.kv rows
  let keep := callPages s.kv rows ++ busyPages s
  let obj := (a.spill.bind j.slotObj).getD 0
  forEach (poolObjects j a).zipIdx s (fun s p =>
    let n := framesNeeded needs a.layers a.pools p.2 - freeFrames s p.1 a.frameBytes
    let under := (s.kv.dir.filter (fun e => e.2.poolObject == p.1 && e.2.moving == 1)).length
    forEach ((spillable s.kv p.1 keep).take (n - under)) s (fun s e => startSpill s e.1 obj))

/-- Start the recall of a spilled page into a free frame. Without one, an idle page of the pool that the call does not use is spilled to make one; where none can, the page is read in place (R224, R226). -/
def startRecall (s : State) (entry : Nat) (keep : List Nat) : State :=
  match s.kv.dir.get? entry with
  | none => s
  | some e =>
    if e.state = 2 ∧ e.moving = 0 then
      match freeFrame s e.poolObject e.frame with
      | some f =>
        let s := objMove s e.poolObject e.frame
        { s with kv := { s.kv with dir := s.kv.dir.put entry { e with moving := 2, target := f } } }
      | none => match spillable s.kv e.poolObject keep with
        | v :: _ => startSpill s v.1 e.spillObject
        | [] => s
    else s

/-- Recall the spilled pages of one layer of a call (R226). -/
def recallLayer (s : State) (rows : List SeqRow) (layer : Nat) : State :=
  let keep := callPages s.kv rows ++ busyPages s
  forEach rows s (fun s r => match s.kv.sequences.get? r.sequence with
    | some q => if layer < q.layers then forEach q.spans s (fun s f => startRecall s (f + layer) keep) else s
    | none => s)

/-- Pages that spills are moving away. -/
def spilling (kv : Kv) : Nat := (kv.dir.filter (fun e => e.2.moving == 1)).length

/-- The hash that seeds a span of a sequence: its parent span's, or the family's seed (R215). -/
def parentHash (kv : Kv) (q : Sequence) (i : Nat) : BitVec 64 :=
  if i = 0 then familySeed q.family.key
  else match q.spans[i - 1]?.bind kv.dir.get? with
    | some p => p.hash
    | none => familySeed q.family.key

/-- Seal a span whose layer-0 page holds 256 positions: its hash is registered unless an entry with that key and pool set exists (R217); a pin registers a span sealed before whose entry is gone again (R222). True in the flag when an entry was replaced or not inserted. -/
def sealSpan (s : State) (q : Sequence) (i : Nat) (pin : Bool) : State × Bool :=
  match q.spans[i]? with
  | none => (s, false)
  | some first =>
    match s.kv.dir.get? first with
    | none => (s, false)
    | some e =>
      if (e.sealed && !pin) || decide (e.valid < 256) then (s, false)
      else
        let h := if e.sealed then e.hash else fnvHash (parentHash s.kv q i) (spanTokens s first)
        let s := if e.sealed then s else tokensTouch s first
        let pool := q.pools.head?.getD 0
        let kv := { s.kv with dir := s.kv.dir.put first { e with sealed := true, hash := h } }
        if (findIndex kv false h pool q.family).isSome then ({ s with kv := kv }, false)
        else
          let r := indexInsert kv { key := h, tail := false, poolSet := pool, family := q.family, first := first,
                                    pinned := pin, lastHit := s.now, count := 256 }
          ({ s with kv := r.1 }, r.2)

/-- Seal the first spans of a sequence, each once (R217, R222); the number of entries replaced or not inserted is returned. -/
def sealSpans (s : State) (q : Sequence) (n : Nat) (pin : Bool) : State × Nat :=
  (List.range n).foldl (fun acc i =>
    let x := sealSpan acc.1 q i pin
    (x.1, acc.2 + if x.2 then 1 else 0)) (s, 0)

/-- Set the committed positions and last_use of the pages of a span (R207). -/
def touchSpan (s : State) (first layers valid : Nat) : State :=
  { s with kv := { s.kv with dir := s.kv.dir.map (fun e =>
      if first ≤ e.1 ∧ e.1 < first + layers then (e.1, { e.2 with valid := max e.2.valid valid, lastUse := s.now })
      else e) } }

/-- Commit one row of a call: length, page list, reference counts, sealing (R206, R217, R220); the number of index replacements is returned. -/
def commitRow (s : State) (ns : List NewSpan) (r : SeqRow) : State × Nat :=
  match s.kv.sequences.get? r.sequence with
  | none => (s, 0)
  | some q =>
    let mine := ns.filter (fun n => n.sequence == r.sequence)
    let s := forEach mine s (fun s n => match n.copyOf with
      | some old => { s with kv := dropSpan s.kv old q.layers }
      | none => s)
    let spans := mine.foldl (fun sp n => sp.take n.index ++ [n.first]) q.spans
    let q' := { q with spans := spans, length := q.length + r.tokens.length }
    let s := { s with kv := { s.kv with sequences := s.kv.sequences.put r.sequence q' } }
    let s := forEach spans.zipIdx s (fun s f => touchSpan s f.1 q.layers (min 256 (q'.length - 256 * f.2)))
    sealSpans s q' spans.length false

/-! ### Pin and release (R219, R222, R223) -/

/-- Frames of a pool that pinned prefixes hold. -/
def pinnedFrames (kv : Kv) (pool : Nat) : Nat :=
  (kv.dir.filter (fun e => e.2.poolObject == pool && pagePinned kv e.1)).length

/-- R222: the status of a pin before it waits for any commit. -/
def pinCheck (s : State) (seq count key : Nat) : Nat :=
  match s.kv.sequences.get? seq with
  | none => 0x03
  | some q =>
    if count = 0 ∨ q.length < count ∨ key = 0 ∨ (s.kv.pinned.get? key).isSome = true then 0x03
    else
      let spans := q.spans.take (pagesFor count)
      let kv := { s.kv with pinned := s.kv.pinned.put key { owner := 0, spans := spans, count := count, layers := q.layers, broken := false } }
      if 64 ≤ s.kv.pinned.length ∨
          q.pools.any (fun p => decide (framesOf s p q.frameBytes < 2 * pinnedFrames kv p)) = true then 0x04
      else 0

/-- Count entries that a pin replaced or could not insert into the next record of the job that feeds the family's sequences from these pools, the lowest one among several (R216, R228, assumption 151). -/
def countPin (s : State) (q : Sequence) (n : Nat) : State :=
  match s.jobs.find? (fun e => match attn? s e.2.image with
    | some a => a.fam == q.family && poolObjects e.2 a == q.pools
    | none => false) with
  | some (k, j) =>
    if n = 0 then s
    else s.setJob k { j with kvNow := { j.kvNow with indexReplacements := j.kvNow.indexReplacements + n } }
  | none => s

/-- R222: the pin takes effect. -/
def pinApply (s : State) (owner seq count key : Nat) : State :=
  match s.kv.sequences.get? seq with
  | none => s
  | some q =>
    let spans := q.spans.take (pagesFor count)
    let full := q.spans.take (count / 256)
    let pool := q.pools.head?.getD 0
    let s := forEach spans s (fun s f => { s with kv := holdSpan s.kv f q.layers })
    let pin : PinnedPfx := { owner := owner, spans := spans, count := count, layers := q.layers, broken := false }
    let s := { s with kv := { s.kv with pinned := s.kv.pinned.put key pin } }
    let r := sealSpans s q full.length true
    let s := countPin r.1 q r.2
    let s := { s with kv := { s.kv with index := s.kv.index.map (fun e =>
        if full.contains e.first ∧ e.tail = false then { e with pinned := true } else e) } }
    if count % 256 = 0 then s
    else
      let parent := parentHash s.kv q full.length
      if (findIndex s.kv true parent pool q.family).isSome then s
      else
        let r := indexInsert s.kv
          { key := parent, tail := true, poolSet := pool, family := q.family, first := spans.getLast?.getD 0, pinned := true
            lastHit := s.now, count := count % 256 }
        countPin { s with kv := r.1 } q (if r.2 then 1 else 0)

/-- R223: a sequence is released. -/
def releaseSequence (s : State) (seq : Nat) : State :=
  match s.kv.sequences.get? seq with
  | none => s
  | some q =>
    let s := forEach q.spans s (fun s f => { s with kv := dropSpan s.kv f q.layers })
    { s with kv := { s.kv with sequences := s.kv.sequences.erase seq } }

/-- R223: a pinned prefix is released; entries no other prefix covers lose their pinned flag. -/
def releasePrefix (s : State) (key : Nat) : State :=
  match s.kv.pinned.get? key with
  | none => s
  | some p =>
    let s := { s with kv := { s.kv with pinned := s.kv.pinned.erase key } }
    let s := forEach p.spans s (fun s f => { s with kv := dropSpan s.kv f p.layers })
    { s with kv := { s.kv with index := s.kv.index.map (fun e =>
        if p.spans.contains e.first ∧ s.kv.pinned.any (fun x => x.2.spans.contains e.first) = false then
          { e with pinned := false } else e) } }

/-- An invocation in progress appends to the sequence (R205, R222, R223). -/
def appending (s : State) (seq : Nat) : Bool :=
  s.jobs.any (fun e => match e.2.invocation with
    | some i => (runRows s e.1 e.2 i).any (fun r => r.sequence == seq && !r.tokens.isEmpty)
    | none => false)

/-- R227: pages whose pool or spill object is lost become lost; their holders, sequences and pinned prefixes, are broken and their index entries removed; a spill or recall whose other end is lost is given up. -/
def losePages (s : State) (isLost : Nat → Bool) : State :=
  let hit := fun (e : PageEntry) =>
    (e.state == 1 && isLost e.poolObject) || (e.state == 2 && isLost e.spillObject)
  let cut := fun (e : PageEntry) => (e.moving == 2 && isLost e.poolObject) || (e.moving == 1 && isLost e.spillObject)
  let dir := s.kv.dir.map (fun e =>
    if hit e.2 then (e.1, { e.2 with state := 3, moving := 0 })
    else if cut e.2 then (e.1, { e.2 with moving := 0 })
    else e)
  let kv := { s.kv with dir := dir }
  { s with kv := { kv with
      sequences := kv.sequences.map (fun q =>
        (q.1, { q.2 with broken := q.2.broken || q.2.spans.any (fun f => spanLost kv f q.2.layers) }))
      pinned := kv.pinned.map (fun p =>
        (p.1, { p.2 with broken := p.2.broken || p.2.spans.any (fun f => spanLost kv f p.2.layers) }))
      index := kv.index.filter (fun e => match kv.dir.get? e.first with
        | some p => !spanLost kv e.first p.layers
        | none => false) } }

end Sys2Proof.Machine
end

