-- ==== Sys2Proof/Machine/StreamBase.lean ====
section
/-! DEFINITION. Recurrent streams: their geometry, slots, eviction, swaps, chunk selection, commit and loss (R230 to R257). -/

namespace Sys2Proof.Machine

/-! ### Geometry (R230 to R233, R243, R248) -/

/-- What the stream instances of an image share. -/
structure StreamGeo where
  family : Nat
  rows : Nat
  steps : Nat
  lrec : Nat
  poolSlot : Nat
  parkSlot : Option Nat
  insts : List InstEntry
deriving DecidableEq, Repr

/-- The stream instances of an image, in entry order (R171). -/
def Image.streamInsts (im : Image) : List InstEntry :=
  im.insts.filter (fun i => i.function == 0x0A || i.function == 0x0B)

/-- The geometry of an image's stream instances, `none` when it has none (R243). -/
def Image.streamGeo (im : Image) : Option StreamGeo :=
  match im.streamInsts with
  | [] => none
  | i :: is =>
    let park := bits (i.dim 6) 8 8
    some { family := i.dim 3, rows := i.dim 1, steps := i.dim 2, lrec := i.dim 5,
           poolSlot := bits (i.dim 6) 0 8, parkSlot := if park = 0xFF then none else some park,
           insts := i :: is }

/-- Bytes of a state record rounded up to 256: half a pool slot, and a park slot (R231, R232). -/
def StreamGeo.half (g : StreamGeo) : Nat := (g.lrec + 255) / 256 * 256

/-- Bytes of a row control block (R241). -/
def StreamGeo.ctlBytes (g : StreamGeo) : Nat := 16 + ((g.steps + 7) / 8 + 15) / 16 * 16

/-- Bytes of a kind-1 feed row: the same figure (R361). -/
def StreamGeo.rowBytes (g : StreamGeo) : Nat := g.ctlBytes

/-- State bytes of one instance (R230). -/
def InstEntry.stateBytes (i : InstEntry) : Nat :=
  if i.function = 0x0B ∧ i.variant = 0 then 8 * i.dim 0 else 4 * i.dim 0

/-- The stream geometry of a job's image. -/
def jobStreamGeo (s : State) (j : Job) : Option StreamGeo := (s.image? j.image).bind Image.streamGeo

/-- The pool object of a job's family, when one is bound. -/
def jobPool (s : State) (j : Job) : Option Nat := (jobStreamGeo s j).bind (fun g => j.slotObj g.poolSlot)

/-- The park object of a job's family, when one is bound (R232). -/
def jobPark (s : State) (j : Job) : Option Nat :=
  (jobStreamGeo s j).bind (fun g => g.parkSlot.bind j.slotObj)

/-- The partition of an object (R233). -/
def objPart (s : State) (o : Nat) : Option Nat := ((s.obj? o).bind Obj.place).map Placement.partition

/-- Slots of a state pool (R231). -/
def poolSlots (s : State) (o : Nat) (g : StreamGeo) : Nat :=
  match s.obj? o with
  | some x => min 65536 (x.length / (2 * g.half))
  | none => 0

/-- Slots of a park object (R232). -/
def parkSlots (s : State) (o : Nat) (g : StreamGeo) : Nat :=
  match s.obj? o with
  | some x => min 65535 (x.length / g.half)
  | none => 0

/-! ### The stream table (R234) -/

/-- Every entry of the tables with its partition. -/
def allStreams (s : State) : List (Nat × Stream) :=
  ((List.range 8).map (fun p => (s.part p).streams.map (fun x => (p, x)))).flatten

/-- The entry of a stream ID, with the partition that holds it. -/
def findStream (s : State) (id : Nat) : Option (Nat × Stream) := (allStreams s).find? (fun e => e.2.id == id)

/-- Change the entry of a stream ID. -/
def updStream (s : State) (p id : Nat) (f : Stream → Stream) : State :=
  s.setPart p { s.part p with streams := (s.part p).streams.map (fun x => if x.id = id then f x else x) }

/-- Second entries of shadows that count against a partition's limits (R256). -/
def shadowStreams (s : State) (p : Nat) : List Stream :=
  (s.jobs.map (fun e => match e.2.shadow with
    | some sh => if sh.partition = p then sh.streams else []
    | none => [])).flatten

/-- The stream holds a slot of a state pool (R234). -/
def Stream.active (x : Stream) : Bool := x.state == 0 || x.state == 1 || x.state == 3

/-- Active streams of a partition (R234). -/
def activeStreams (s : State) (p : Nat) : Nat :=
  (((s.part p).streams ++ shadowStreams s p).filter Stream.active).length

/-- Streams in a partition's table (R234). -/
def tableStreams (s : State) (p : Nat) : Nat := ((s.part p).streams ++ shadowStreams s p).length

/-- The pool object of a stream's job. -/
def streamPool (s : State) (x : Stream) : Option Nat := (s.job? x.job).bind (jobPool s)

/-- Slots of a pool that streams hold. -/
def usedSlots (s : State) (pool : Nat) : List Nat :=
  ((allStreams s).filter (fun e => e.2.active && streamPool s e.2 == some pool)).map (fun e => e.2.slot)

/-- The lowest free slot of a pool (assumption 13). -/
def freeSlot (s : State) (pool : Nat) (g : StreamGeo) : Option Nat :=
  (List.range (poolSlots s pool g)).find? (fun k => !(usedSlots s pool).contains k)

/-- Park slots in use of a park object. -/
def usedPark (s : State) (obj : Nat) : List Nat :=
  ((allStreams s).filter (fun e => e.2.parkSlot != 0xFFFF && (s.job? e.2.job).bind (jobPark s) == some obj)).map
    (fun e => e.2.parkSlot)

/-- The lowest free park slot of a park object. -/
def freePark (s : State) (obj : Nat) (g : StreamGeo) : Option Nat :=
  (List.range (parkSlots s obj g)).find? (fun k => !(usedPark s obj).contains k)

/-! ### State records -/

/-- The initial state record: each instance's bound vector at its offset, zeros elsewhere (R230, R243, assumption 16). -/
def initialState (s : State) (j : Job) (g : StreamGeo) : List Byte :=
  g.insts.foldl (fun acc i =>
    let slot := bits (i.dim 6) 24 8
    let v := if slot = 0xFF then [] else match boundObj s j slot with
      | some o => objBytes s o 0 (min i.stateBytes o.length)
      | none => []
    let v := padTo i.stateBytes v
    let off := i.dim 4
    padTo g.half (acc.take off ++ v ++ acc.drop (off + i.stateBytes)))
    (List.replicate g.half 0)

/-- Byte offset of a half of a slot in its pool (R231). -/
def halfOffset (g : StreamGeo) (slot half : Nat) : Nat := (2 * slot + half) * g.half

/-- Copy the current half of a stream to its park slot (R236). -/
def writePark (s : State) (x : Stream) : State :=
  match s.job? x.job with
  | none => s
  | some j => match jobStreamGeo s j, (jobPool s j).bind s.obj?, (jobPark s j).bind s.obj? with
    | some g, some pool, some park =>
      objWriteBytes s park (x.parkSlot * g.half) (objBytes s pool (halfOffset g x.slot x.half) g.half)
    | _, _, _ => s

/-- Copy the park slot of a stream into half 0 of its slot (R236). -/
def readPark (s : State) (x : Stream) : State :=
  match s.job? x.job with
  | none => s
  | some j => match jobStreamGeo s j, (jobPool s j).bind s.obj?, (jobPark s j).bind s.obj? with
    | some g, some pool, some park =>
      objWriteBytes s pool (halfOffset g x.slot 0) (objBytes s park (x.parkSlot * g.half) g.half)
    | _, _, _ => s

/-- Write the initial state into half 0 of a slot (R236). -/
def writeInitial (s : State) (j : Job) (slot : Nat) : State :=
  match jobStreamGeo s j, (jobPool s j).bind s.obj? with
  | some g, some pool => objWriteBytes s pool (halfOffset g slot 0) (initialState s j g)
  | _, _ => s

/-- Count in the job's stream record of the invocation in progress or next to end (R257). -/
def countStream (s : State) (jid : Nat) (f : StreamRec → StreamRec) : State :=
  match s.job? jid with
  | some j => s.setJob jid { j with strmNow := f j.strmNow }
  | none => s

/-- A 32-bit counter limited to its largest value (R257). -/
def sat32n (v : Nat) : Nat := min 0xFFFFFFFF v

/-- A 16-bit counter limited to its largest value (R138, R257). -/
def sat16n (v : Nat) : Nat := min 0xFFFF v

/-! ### Eviction and swaps (R236, R237) -/

/-- The time at which a stream's queue head was fed; 0 for an empty queue. -/
def Stream.headFed (x : Stream) : Nat := match x.queue with
  | c :: _ => c.fedAt
  | [] => 0

/-- A stream the firmware may evict: RESIDENT, not Held, not selected, with a park slot (R232, R237). -/
def Stream.evictable (x : Stream) : Bool := x.state == 0 && !x.held && !x.selected && x.parkSlot != 0xFFFF

/-- R237: the victim among candidates. -/
def victimOf (xs : List Stream) : Option Stream :=
  match sortBy (fun a b => a.lastUse < b.lastUse || (a.lastUse == b.lastUse && a.id < b.id))
      (xs.filter (fun x => x.queue.isEmpty)) with
  | v :: _ => some v
  | [] => (sortBy (fun a b => b.headFed < a.headFed || (a.headFed == b.headFed && a.id < b.id)) xs).head?

/-- The stream to evict for a slot of a pool in a partition: one of the pool when the pool has no free slot, one of any pool when only the partition's limit stands in the way (R237). -/
def chooseVictim (s : State) (p pool : Nat) (full : Bool) : Option Stream :=
  let xs := (s.part p).streams.filter Stream.evictable
  victimOf (if full then xs.filter (fun x => streamPool s x == some pool) else xs)

/-- An Atelier move of half a pool slot for a stream's job (R236). -/
def stateMove (s : State) (p jid : Nat) : State := match (s.job? jid).bind (jobStreamGeo s) with
  | some g => atelierMove s p 1 g.half 0
  | none => s

/-- Start to park a stream (R236); the parked stream is counted (R257). -/
def startPark (s : State) (p id : Nat) : State :=
  match (s.part p).streams.find? (fun x => x.id == id) with
  | some x =>
    let s := countStream s x.job (fun r => { r with swapOuts := sat32n (r.swapOuts + 1) })
    stateMove (updStream s p id (fun x => { x with state := 1 })) p x.job
  | none => s

/-- A slot can be taken at once (R234, R237). -/
def slotNow (s : State) (p pool : Nat) (g : StreamGeo) : Option Nat :=
  if activeStreams s p ≥ 1024 then none else freeSlot s pool g

/-- Step 0 of a chunk is marked. -/
def Chunk.marked0 (c : Chunk) : Bool := match c.mask with
  | b :: _ => b.getLsbD 0
  | [] => false

/-- The chunk for which a stream needs its slot begins with a reset: a selected one by its mask as selected, which a later reset leaves alone, the head of the queue by its mask or a pending reset (R236, R241, R252). -/
def needsFresh (x : Stream) (selected : Option RowTaken) : Bool := match selected with
  | some r => r.chunk.marked0
  | none => match x.queue with
    | c :: _ => x.resetPending || c.marked0
    | [] => false

/-- The row control block of a row (R241). -/
def ctlBlock (g : StreamGeo) (x : Stream) (c : Chunk) : List Byte :=
  layout g.ctlBytes
    [(0, leBytes 4 x.id), (4, leBytes 2 c.steps), (6, leBytes 2 0), (8, leBytes 2 x.slot),
     (10, leBytes 1 x.half), (16, c.mask)]

/-- The control block of an idle row (R240, R241). -/
def idleBlock (g : StreamGeo) : List Byte := layout g.ctlBytes [(6, leBytes 2 1)]

/-- Write the control block of a row into the control object of every instance, through Atelier moves (R241). -/
def writeBlock (s : State) (j : Job) (g : StreamGeo) (row : Nat) (block : List Byte) : State :=
  forEach (distinct (g.insts.map (fun i => bits (i.dim 6) 16 8))) s (fun s k => match j.slotObj k with
    | none => s
    | some oid => match s.obj? oid with
      | some o => objWriteBytes (objMove s oid g.ctlBytes) o (row * g.ctlBytes) block
      | none => s)

/-- Rewrite the control block of a row already dispatched, once its stream has a slot (R241, R242). -/
def refreshCtl (s : State) (p id : Nat) : State :=
  match (s.part p).streams.find? (fun x => x.id == id) with
  | none => s
  | some x => match s.job? x.job with
    | none => s
    | some j => match jobStreamGeo s j, j.invocation with
      | some g, some inv => match inv.rows.zipIdx.find? (fun r => r.1.stream == id) with
        | some (r, i) => writeBlock s j g i (ctlBlock g x r.chunk)
        | none => s
      | _, _ => s

/-- Take a slot for a PARKED stream whose chunk is at the head of its queue or selected, or start to evict for it (R236, R237); `going` are the pools of the evictions in progress that no need before this one counts on. -/
def needSlot (s : State) (p : Nat) (x : Stream) (going : List (Option Nat)) : State × List (Option Nat) :=
  match s.job? x.job with
  | none => (s, going)
  | some j => match jobStreamGeo s j, jobPool s j with
    | some g, some pool =>
      match slotNow s p pool g with
      | some k =>
        let fresh := needsFresh x (j.invocation.bind (fun i => i.rows.find? (fun r => r.stream == x.id)))
        let s := stateMove (countStream s x.job (fun r => { r with swapIns := sat32n (r.swapIns + 1) })) p x.job
        let s := if fresh then writeInitial s j k else s
        (refreshCtl (updStream s p x.id (fun x => { x with state := if fresh then 0 else 3, slot := k, half := 0 })) p x.id, going)
      | none =>
        let full := (freeSlot s pool g).isNone
        match going.find? (fun q => !full || q == some pool) with
        | some q => (s, going.erase q)
        | none => match chooseVictim s p pool full with
          | some v => (startPark s p v.id, going)
          | none => (s, going)
    | _, _ => (s, going)

/-- PARKED streams that need a slot, oldest head feed first (R236, R240). -/
def streamNeeds (s : State) (p : Nat) : List Stream :=
  sortBy (fun a b => a.headFed < b.headFed || (a.headFed == b.headFed && a.id < b.id))
    ((s.part p).streams.filter (fun x => x.state == 2 && (x.selected || !x.queue.isEmpty)))

/-- Meet the needs for slots of one partition: swap-ins start, or evictions for them (R236, R237, R242). -/
def servePart (s : State) (p : Nat) : State :=
  let going := ((s.part p).streams.filter (fun x => x.state == 1)).map (streamPool s)
  ((streamNeeds s p).foldl (fun acc x => needSlot acc.1 p x acc.2) (s, going)).1

/-- Meet the needs of every partition. -/
def serveStreams (s : State) : State := forEach (List.range 8) s servePart

/-- The state of a parking stream is written and its slot is free (R236). -/
def endPark (s : State) (p : Nat) (x : Stream) : State := updStream (writePark s x) p x.id (fun x => { x with state := 2 })

/-- A slot of a pool, or of any pool, is freed inside the command: by a swap-out in progress, else by an eviction (R237, assumption 17); none when no stream can be evicted. -/
def freeAtOnce (s : State) (p pool : Nat) (full : Bool) : Option State :=
  match (s.part p).streams.find? (fun x => x.state == 1 && (!full || streamPool s x == some pool)) with
  | some x => some (endPark s p x)
  | none => (chooseVictim s p pool full).map (fun v => endPark (startPark s p v.id) p v)

/-- A slot for a command, one freed for it where need be (R237, R251, R252). -/
def slotAtOnce (s : State) (p pool : Nat) (g : StreamGeo) : Option (State × Nat) :=
  match slotNow s p pool g with
  | some k => some (s, k)
  | none => (freeAtOnce s p pool (freeSlot s pool g).isNone).bind (fun s => (slotNow s p pool g).map (fun k => (s, k)))

/-! ### Selection, commit, return and loss (R240 to R242, R255) -/

/-- A stream whose state is absent at selection (R242). -/
def Stream.absent (x : Stream) : Bool := x.state == 1 || x.state == 2 || x.state == 3

/-- Streams of a job with a queued chunk, in the order of R240. -/
def readyStreams (s : State) (jid : Nat) : List (Nat × Stream) :=
  sortBy (fun a b => a.2.headFed < b.2.headFed || (a.2.headFed == b.2.headFed && a.2.id < b.2.id))
    ((allStreams s).filter (fun e => e.2.job == jid && !e.2.queue.isEmpty && e.2.state != 4))

/-- A chunk's mask with bit 0 set when a reset was pending (R241). -/
def Chunk.marked (c : Chunk) (pending : Bool) : Chunk :=
  if pending then { c with mask := match c.mask with
    | b :: bs => (b ||| 1) :: bs
    | [] => [1] } else c

/-- Take one chunk of each ready stream, at most B (R240); absent states raise 0xB0 once per row (R242). -/
def takeRows (s : State) (jid : Nat) (rows : Nat) : State × List RowTaken :=
  ((readyStreams s jid).take rows).foldl (fun acc e =>
    match e.2.queue with
    | [] => acc
    | c :: rest =>
      let r : RowTaken := { stream := e.2.id, chunk := c.marked e.2.resetPending, applied := e.2.resetPending }
      let s := updStream acc.1 e.1 e.2.id (fun x => { x with queue := rest, selected := true })
      let s := if e.2.absent then
          countStream (raise s (mkEvent 0xB0 e.1 jid 0 jid e.2.id)) jid
            (fun r => { r with absentRows := sat16n (r.absentRows + 1) })
        else s
      (s, acc.2 ++ [r])) (s, [])

/-- Write the row control blocks of an invocation, idle rows included (R241). -/
def writeCtl (s : State) (j : Job) (g : StreamGeo) (rows : List RowTaken) : State :=
  forEach (List.range g.rows) s (fun s i => writeBlock s j g i (match rows[i]? with
    | none => idleBlock g
    | some r => match findStream s r.stream with
      | some e => ctlBlock g e.2 r.chunk
      | none => idleBlock g))

/-- Marks below the step count of a chunk (R245, R257). -/
def Chunk.marks (c : Chunk) : Nat :=
  ((List.range c.steps).filter (fun t => (c.mask[t / 8]?.getD 0).getLsbD (t % 8))).length

/-- The stream after the commit of a chunk (R255). -/
def Stream.committed (x : Stream) (c : Chunk) (applied : Bool) (now : Nat) : Stream :=
  { x with half := 1 - x.half, steps := (x.steps + c.steps) % 2 ^ 64, lastUse := now,
           resetPending := x.resetPending && !applied, gap := false, selected := false }

/-- The chunks of an invocation commit (R255, R257); streams asked to park do so now (R253). -/
def commitRows (s : State) (jid : Nat) (rows : List RowTaken) : State :=
  forEach rows s (fun s r => match findStream s r.stream with
    | none => s
    | some e =>
      let s := updStream s e.1 r.stream (fun x => x.committed r.chunk r.applied s.now)
      let s := countStream s jid (fun q => { q with
        chunksRun := sat32n (q.chunksRun + 1), stepsRun := sat32n (q.stepsRun + r.chunk.steps)
        resets := sat32n (q.resets + r.chunk.marks) })
      if e.2.parkAsked then startPark (updStream s e.1 r.stream (fun x => { x with parkAsked := false })) e.1 r.stream
      else s)

/-- The chunks of an abandoned invocation are complete: the stream keeps its state and gap is set (R255). -/
def abandonRows (s : State) (jid : Nat) (rows : List RowTaken) : State :=
  forEach rows s (fun s r => match findStream s r.stream with
    | none => s
    | some e =>
      let s := updStream s e.1 r.stream (fun x => { x with gap := true, selected := false })
      let s := countStream s jid (fun q => { q with gaps := sat16n (q.gaps + 1) })
      if e.2.parkAsked then startPark (updStream s e.1 r.stream (fun x => { x with parkAsked := false })) e.1 r.stream
      else s)

/-- The chunks of a faulted invocation return to the heads of their queues (R255). -/
def requeueRows (s : State) (rows : List RowTaken) : State :=
  forEach rows s (fun s r => match findStream s r.stream with
    | none => s
    | some e => updStream s e.1 r.stream (fun x => { x with queue := r.chunk :: x.queue, selected := false }))

/-- Streams whose slot contents or park object are lost become BROKEN (R255). -/
def breakStreams (s : State) (isLost : Nat → Bool) : State :=
  forEach (List.range 8) s (fun s p => s.setPart p { s.part p with
    streams := (s.part p).streams.map (fun x =>
      let job := s.job? x.job
      let pool := job.bind (jobPool s)
      let park := job.bind (jobPark s)
      let lostIn := fun (o : Option Nat) => match o with
        | some o => isLost o
        | none => false
      if ((x.state == 0 || x.state == 1 || x.state == 3) && lostIn pool) || ((x.state == 2 || x.state == 1) && lostIn park)
      then { x with state := 4 } else x) })

/-- Remove every stream of a job, with its chunks (R405). -/
def dropStreams (s : State) (jid : Nat) : State :=
  forEach (List.range 8) s (fun s p => s.setPart p { s.part p with
    streams := (s.part p).streams.filter (fun x => x.job != jid) })

/-- Stream rows queued for a job. -/
def queuedRows (s : State) (jid : Nat) : List (Nat × Chunk) :=
  ((allStreams s).map (fun e => if e.2.job = jid then e.2.queue.map (fun c => (e.2.id, c)) else [])).flatten

end Sys2Proof.Machine
end

