-- ==== Sys2Proof/Machine/CmdBase.lean ====
section
/-! DEFINITION. What every mailbox command shares: status codes, the command in hand, ownership, privilege, completion and buffers (R349 to R356). -/

namespace Sys2Proof.Machine

/-! ### Status codes (R355) -/

/-- `OK`. -/
def stOk : Nat := 0x00
/-- `BUSY`. -/
def stBusy : Nat := 0x01
/-- `BAD_OPCODE`. -/
def stBadOpcode : Nat := 0x02
/-- `BAD_PARAM`. -/
def stBadParam : Nat := 0x03
/-- `NO_RESOURCE`. -/
def stNoResource : Nat := 0x04
/-- `DENIED`. -/
def stDenied : Nat := 0x05
/-- `TIMEOUT`. -/
def stTimeout : Nat := 0x06
/-- `FAULTED`. -/
def stFaulted : Nat := 0x07
/-- `STRUCTURE_MISMATCH`. -/
def stMismatch : Nat := 0x08
/-- `LATE`. -/
def stLate : Nat := 0x09
/-- `FALLBACK_USED`. -/
def stFallback : Nat := 0x0A
/-- `NO_PATH`. -/
def stNoPath : Nat := 0x0B
/-- `TIME_UP`. -/
def stTimeUp : Nat := 0x0C
/-- `ABSENT`. -/
def stAbsent : Nat := 0x0D

/-! ### Commands in hand (R349) -/

/-- The mailbox has a fetched command in hand that neither waits nor has completed (R349). -/
def inHand (s : State) (m : MbxId) : Bool := (s.box m).current.isSome && (s.box m).waiting.isNone

/-- Post the completion of the command in hand, after which the next one may be fetched; that of a command fetched before a disable is discarded (R348, R349, R354). -/
def complete (s : State) (m : MbxId) (h : CmdHdr) (op status : Nat) (payload : List Byte) : State :=
  let b := s.box m
  let s := s.setBox m { b with current := none, waiting := none, stale := false }
  if b.stale then loseEntry s m
  else postEntry s m { opcode := op, tag := h.tag.toNat, status := status, kind := 0, payload := payload }

/-- The reserved byte ranges inside an opcode's payload: offset and length. Bytes between two named fields that the payload table neither names nor calls reserved are held to be reserved too (R16, R354, R356; DESIGN CHOICE, assumption 160). -/
def reservedRanges : Nat → List (Nat × Nat)
  | 0x10 => [(0x04, 12), (0x1C, 4)]
  | 0x11 | 0x80 | 0x91 => [(0x0C, 4)]
  | 0x22 | 0x23 => [(0x04, 4), (0x1C, 4)]
  | 0x25 => [(0x04, 12), (0x1C, 4)]
  | 0x40 => [(0x0A, 6)]
  | 0x42 | 0x81 | 0x92 => [(0x02, 14), (0x1C, 4)]
  | 0x43 => [(0x03, 1), (0x08, 8), (0x1C, 4)]
  | 0x50 | 0x51 | 0x52 | 0x53 => [(0x04, 12), (0x1C, 4)]
  | 0x61 => [(0x01, 3)]
  | 0x70 => [(0x0D, 3), (0x17, 1), (0x1F, 1)]
  | 0xA0 => [(0x02, 2), (0x08, 8), (0x1C, 4)]
  | 0xB0 => [(0x01, 15), (0x1C, 4)]
  | 0xB2 => [(0x2C, 4)]
  | 0xC0 => [(0x01, 1)]
  | _ => []

/-- Every reserved byte of the entry in hand is 0: in the header, inside the payload and beyond its length (R16, R354). -/
def reservedOk (entry : List Byte) (op len : Nat) : Bool :=
  let zero := fun (off n : Nat) => (slice entry off n).all (fun b => b == 0)
  zero 0x06 2 && zero 0x0C 4 && zero (16 + len) 112 && (reservedRanges op).all (fun r => zero (16 + r.1) r.2)

/-- Perform a command whose payload length is `len`: another length, a timeout beyond its range, or a reserved byte that is not 0, completes with `BAD_PARAM` (R16, R354); without a command in hand nothing happens (assumption 1). -/
def command (s : State) (m : MbxId) (h : CmdHdr) (op len : Nat) (f : State → State) : Out :=
  .next (onlyIf (inHand s m) s
    (if h.length ≠ len ∨ 60000000 < h.timeout ∨ reservedOk ((s.box m).current.getD []) op len = false then complete s m h op stBadParam []
     else f s))

/-- A command accepted only on mailbox 0 (R352); elsewhere `DENIED`. -/
def command0 (s : State) (m : MbxId) (h : CmdHdr) (op len : Nat) (f : State → State) : Out :=
  command s m h op len (fun s => if m ≠ 0 then complete s m h op stDenied [] else f s)

/-- Mailbox 0 acts on every resource; a client only on its own (R351). -/
def mayUse (m : MbxId) (owner : Nat) : Bool := m == 0 || m.toNat == owner

/-- The command waits for an event (R222, R223, R277, R383, R404). -/
def await (s : State) (m : MbxId) (h : CmdHdr) (op : Nat) (w : Waiting) : State :=
  s.setBox m { s.box m with waiting := some (op, h, w) }

/-- The mailboxes with a waiting command, in number order. -/
def waiters (s : State) : List (MbxId × Nat × CmdHdr × Waiting) :=
  s.mbx.filterMap (fun e => match e.2.waiting with
    | some w => some (BitVec.ofNat 4 e.1, w.1, w.2.1, w.2.2)
    | none => none)

/-! ### Buffers (R347, R356) -/

/-- A buffer access failed: the mailbox halts with halt_cause 2 and the command completes with `FAULTED` (R347, R356). -/
def bufFault (s : State) (m : MbxId) (h : CmdHdr) (op : Nat) : State :=
  complete (haltBox s m 2) m h op stFaulted []

/-- Read a command's buffer, or complete with `BAD_PARAM` when it is too short and `FAULTED` when the access fails (R356). -/
def withBuf (s : State) (m : MbxId) (h : CmdHdr) (op : Nat) (b : Bref) (n : Nat)
    (f : State → List Byte → State) : State :=
  if b.len < n then complete s m h op stBadParam []
  else match bufRead s m b n with
    | (s, none) => bufFault s m h op
    | (s, some bs) => f s bs

/-- Write a command's buffer and go on, or complete with `BAD_PARAM` or `FAULTED` (R356). -/
def replyBuf (s : State) (m : MbxId) (h : CmdHdr) (op : Nat) (b : Bref) (bs : List Byte)
    (f : State → State) : State :=
  if b.len < bs.length then complete s m h op stBadParam []
  else match bufWrite s m b bs with
    | (s, true) => f s
    | (s, false) => bufFault s m h op

/-- The mailbox that owns a resource. -/
def ownerBox (owner : Nat) : MbxId := BitVec.ofNat 4 owner

/-- Write bytes of a feed's row table on the path of the mailbox that fed it; a failed access halts that mailbox (R347, R362). -/
def rowTableWrite (s : State) (box addr : Nat) (bs : List Byte) : State :=
  match busWrite s (s.box (ownerBox box)).path1 addr bs with
  | (s, true) => s
  | (s, false) => haltBox s (ownerBox box) 2

/-- Write the state and status of a stream row (R361, R362). -/
def rowState1 (s : State) (c : Chunk) (state status : Nat) : State :=
  rowTableWrite s c.box (c.rowAddr + 0x0A) (leBytes 1 state ++ leBytes 1 status)

/-- Write the state and status of a sequence row (R361, R362). -/
def rowState2 (s : State) (r : SeqRow) (state status : Nat) : State :=
  rowTableWrite s r.box (r.rowAddr + 0x06) (leBytes 1 state ++ leBytes 1 status)

end Sys2Proof.Machine
end

