-- ==== Sys2Proof/Machine/Publish.lean ====
section
/-! DEFINITION. What a commit publishes beside pages and streams: solver, plan and fusion records, the field buffers, the halt word and the RESTING pin (R266, R267, R271, R284 to R311, R334, R335). -/

namespace Sys2Proof.Machine

/-! ### Instances and objects -/

/-- The instances of one function of an image. -/
def Image.insts? (im : Image) (f : Nat) : List InstEntry := im.insts.filter (fun i => i.function == f)

/-- The instances of one function and variant of an image. -/
def Image.variant? (im : Image) (f v : Nat) : List InstEntry :=
  im.insts.filter (fun i => i.function == f && i.variant == v)

/-- A 4-byte field of an object. -/
def objWord (s : State) (o : Obj) (off : Nat) : Nat := ofLe (objBytes s o off 4)

/-- Write a 4-byte field of an object, and of its twin. -/
def objSetWord (s : State) (o : Obj) (off v : Nat) : State := objWriteBytes s o off (leBytes 4 v)

/-- The commit switches a current index of 0 or 1 to the record just written (R267). -/
def switchIndex (s : State) (oid off : Nat) : State :=
  match s.obj? oid with
  | none => s
  | some o => objSetWord s o off (if objWord s o off = 0 then 1 else 0)

/-- A number read as FP32 bits. -/
def f32 (w : Nat) : Num := fp32.decode w

/-! ### Solver records (R266, R271, R275) -/

/-- Bytes of a solution record (R266). -/
def solBytes (n m : Nat) : Nat := (64 + 4 * (n + 2 * m) + 255) / 256 * 256

/-- The current record of a solution object. -/
def solRecord (s : State) (o : Obj) (n m : Nat) : List Byte :=
  objBytes s o (0x100 + objWord s o 0 % 2 * solBytes n m) 64

/-- n and m of the problem an instance solves: the structure object's in variant 0, the instance's otherwise (R261, R262). -/
def qpShape (s : State) (j : Job) (i : InstEntry) : Nat × Nat :=
  if i.variant = 0 then match boundObj s j i.weightSlot with
    | some o => let h := objBytes s o 0 16; (fld h 6 2, fld h 8 2)
    | none => (i.dim 0, i.dim 1)
  else (i.dim 0, i.dim 1)

/-- The commit of a `QP` job: index switch, then the detectors of the record (R267, R271, R275). A shift copies the status of another record and has computed no pinf or dinf (R270, R283). -/
def publishQp (s : State) (jid : Nat) (j : Job) (im : Image) : State :=
  let insts := im.insts? 0x0C
  let s := forEach (distinct (insts.filterMap (fun i => j.slotObj i.outSlot))) s (fun s o => switchIndex s o 0)
  forEach insts s (fun s i => match boundObj s j i.outSlot with
    | none => s
    | some o =>
      let nm := qpShape s j i
      let r := solRecord s o nm.1 nm.2
      let status := fld r 0x10 2
      let a1 := takeInjection s 0xA1 (fun q => q.param.toNat == jid)
      let s := a1.2
      let s := if status = 4 ∨ fld r 0x16 2 ≠ 0 ∨ a1.1.isSome = true then
          raiseAs s 1 (injFlags a1.1) (mkEvent 0xA1 0xFF jid 0 jid status) else s
      let a2 := takeInjection s 0xA2 (fun q => q.param.toNat == jid)
      let s := a2.2
      if (i.variant ≠ 2 ∧ (status = 2 ∨ status = 3)) ∨ a2.1.isSome = true then
        raiseAs s 0 (injFlags a2.1) (mkEvent 0xA2 0xFF jid 0 jid status) else s)

/-- R278: the firmware's view of a warm start at an invocation start: a valid record of another fingerprint is rejected with detector 0xA0; the flag tells. -/
def warmStart (s : State) (jid : Nat) (j : Job) (im : Image) : State × Bool :=
  (im.insts? 0x0C).foldl (fun acc i =>
    if i.variant = 2 then acc
    else match boundObj acc.1 j i.outSlot, boundObj acc.1 j i.weightSlot with
    | some o, some q =>
      let nm := qpShape acc.1 j i
      let r := solRecord acc.1 o nm.1 nm.2
      let mine := fld r 0 8
      let theirs := ofLe (objBytes acc.1 q 0x20 8)
      let inj := takeInjection acc.1 0xA0 (fun x => x.param.toNat == jid)
      let s := inj.2
      if (fld r 0x12 2 % 2 = 1 ∧ mine ≠ theirs) ∨ inj.1.isSome = true then
        (raiseAs s 0 (injFlags inj.1)
          (mkEvent 0xA0 0xFF jid 0 jid (mine % 2 ^ 32 + theirs % 2 ^ 32 * 2 ^ 32)), true)
      else (s, acc.2)
    | _, _ => acc) (s, false)

/-! ### The planner (R284, R285, R306, R311) -/

/-- The gate instance of a planner's image (R284). -/
def Image.gate? (im : Image) : Option InstEntry := (im.variant? 0x0D 1).head?

/-- The Rest-issue fallback instance of an image (R307). -/
def Image.restIssue? (im : Image) : Option InstEntry := (im.variant? 0x0D 2).head?

/-- The planner job, when one exists (R285). -/
def plannerJob (s : State) : Option (Nat × Job × InstEntry) :=
  s.jobs.findSome? (fun e => ((s.image? e.2.image).bind Image.gate?).map (fun g => (e.1, e.2, g)))

/-- Bytes of a plan record for J axes and Ns samples (R306). -/
def planBytes (g : InstEntry) : Nat := (64 + 16 * g.dim 1 * g.dim 0 + 255) / 256 * 256

/-- The first 64 bytes of the plan record that index `k` names. -/
def planRecord (s : State) (o : Obj) (g : InstEntry) (k : Nat) : List Byte :=
  objBytes s o (0x100 + k % 2 * planBytes g) 64

/-- The job has published a record: an invocation of it committed (R311). -/
def Job.published (j : Job) : Bool := decide (j.misses + j.faults < j.ended)

/-- R311: the conditions under which `RESTING` is asserted. A planner runs while it is READY, RUNNING or ENDING; one that loads, is saved or recovers does not (R384). -/
def restWanted (s : State) : Bool :=
  match plannerJob s with
  | none => true
  | some (_, j, g) =>
    !j.published || !([2, 3, 8].contains j.lease) ||
    (match j.invocation with
      | some i => i.faulted
      | none => false) ||
    (match boundObj s j g.outSlot with
      | none => true
      | some o =>
        let r := planRecord s o g (objWord s o 0)
        decide (2 ^ 31 ≤ objWord s o 4) || fld r 0x19 1 != 0 || fld r 0x1E 2 % 2 == 0)

/-- The `RESTING` pin follows its condition (R311). -/
def updateResting (s : State) : State := { s with resting := restWanted s }

/-- R309: the halt word is written with bit 31 and the halt sequence. -/
def writeHaltWord (s : State) (v : Nat) : State :=
  match plannerJob s with
  | none => s
  | some (_, j, g) => match boundObj s j g.outSlot with
    | none => s
    | some o => objSetWord s o 4 v

/-- R305: the detectors of a plan record; `before` tells that the record before it was a Rest or halt record. -/
def planDetectors (s : State) (jid : Nat) (r : List Byte) (before : Bool) (flags : Nat) : State :=
  let kind := fld r 0x19 1
  let reason := fld r 0x1A 1
  let rank := fld r 0x1B 1
  let ev := fun d => mkEvent d 0xFF jid 0 jid (fld r 0 8)
  let s := if decide (1 < rank) || (kind != 0 && reason == 1) then raiseAs s 0 flags (ev 0x80) else s
  let s := if kind != 0 && !before then raiseAs s 1 flags (ev 0x81) else s
  let s := if kind != 0 && fld r 0x18 1 == stNoPath then raiseAs s 1 flags (ev 0x82) else s
  if kind == 2 then raiseAs s 3 flags (ev 0x86) else s

/-- The commit of a planner's gate pass or of its fallback: current index, then bit 31 once the latch is cleared, then the detectors (R305, R306, R310); the record's status is answered. -/
def publishPlan (s : State) (jid : Nat) (j : Job) (g : InstEntry) (flags : Nat) : State × Nat :=
  match j.slotObj g.outSlot with
  | none => (s, stOk)
  | some oid => match s.obj? oid with
    | none => (s, stOk)
    | some o =>
      let old := planRecord s o g (objWord s o 0)
      let before := fld old 0x19 1 != 0
      let s := switchIndex s oid 0
      let new := planRecord s o g (objWord s o 0)
      let hw := objWord s o 4
      let s := if !s.haltLatched && decide (2 ^ 31 ≤ hw) then objSetWord s o 4 (hw - 2 ^ 31) else s
      (planDetectors s jid new before flags, fld new 0x18 1)

/-- The commit switches the validity half of a roadmap object (R301). -/
def publishRoadmap (s : State) (j : Job) (im : Image) : State :=
  forEach (distinct ((im.insts? 0x0F).filterMap (fun i => j.slotObj (i.dim 5)))) s (fun s o => switchIndex s o 0x20)

/-! ### Field buffers (R286 to R290) -/

/-- The field header of a planner's instance, with its object (R297). -/
def plannerHeader (s : State) (j : Job) (g : InstEntry) : Option Obj := boundObj s j (bits (g.dim 7) 8 8)

/-- The runs of a job: its own, and its warm shadow's (R400). -/
def Job.runs (j : Job) : List Invocation := j.invocation.toList ++ (j.shadow.bind (fun sh => sh.run)).toList

/-- The buffers of a field that reader invocations hold, those of a planner's warm shadow among them (R288, R289, R400). -/
def heldBuffers (s : State) (h : Obj) : List Nat :=
  (s.jobs.map (fun e => match (s.image? e.2.image).bind Image.gate? with
    | some g => if plannerHeader s e.2 g = some h then e.2.runs.filterMap Invocation.buffer else []
    | none => [])).flatten

/-- Entry b of a field header (R287). -/
def fieldEntry (s : State) (h : Obj) (b : Nat) : List Byte := objBytes s h (0x10 + 48 * b) 48

/-- The lowest-numbered buffer that is neither current nor held (R288). -/
def freeBuffer (s : State) (h : Obj) (n : Nat) : Option Nat :=
  (List.range n).find? (fun b =>
    !(heldBuffers s h).contains b &&
      !(objWord s h 0 == b && fld (fieldEntry s h b) 0x1A 2 == 1))

/-- Set the state of a buffer in the header. -/
def setBufferState (s : State) (h : Obj) (b v : Nat) : State := objWriteBytes s h (0x10 + 48 * b + 0x1A) (leBytes 2 v)

/-- R288: a field writer commits: the buffer is published under the next epoch. -/
def publishField (s : State) (j : Job) (buffer : Option Nat) : State :=
  match Config.fieldWriter j.image, buffer with
  | some (hs, _), some b => match boundObj s j hs with
    | none => s
    | some h =>
      let e := (objWord s h 4 + 1) % 2 ^ 32
      let s := setBufferState s h b 1
      let s := objSetWord s h (0x10 + 48 * b) e
      objSetWord (objSetWord s h 4 e) h 0 b
  | _, _ => s

/-- R288: a field writer faults or is abandoned: the buffer is empty. -/
def emptyField (s : State) (j : Job) (buffer : Option Nat) : State :=
  match Config.fieldWriter j.image, buffer with
  | some (hs, _), some b => match boundObj s j hs with
    | none => s
    | some h => setBufferState s h b 0
  | _, _ => s

/-- The current buffer and its epoch, `none` before the first publication (R289). -/
def currentBuffer (s : State) (h : Obj) : Option (Nat × Nat) :=
  let b := objWord s h 0
  if fld (fieldEntry s h b) 0x1A 2 = 1 then some (b, objWord s h 4) else none

/-! ### Fusion records (R334, R335) -/

/-- Bytes of one half of a fusion state object (R334). -/
def fuseHalf (i : InstEntry) : Nat := (i.dim 1 * i.dim 2 * 4 + 255) / 256 * 256

/-- Bytes of a fusion record (R335). -/
def fuseBytes (i : InstEntry) : Nat := (64 + 32 * i.dim 1 + 255) / 256 * 256

/-- A slot is live: its existence is at least τ (R335). -/
def fuseLive (i : InstEntry) (existence : Nat) : Bool :=
  let t := f32 (i.dim 5); let e := f32 existence
  !e.isNan && !t.isNan && decide (0 ≤ e.cmp t)

/-- The next track ID after one, skipping 0 (R335). -/
def nextTrack (v : Nat) : Nat := if (v + 1) % 2 ^ 32 = 0 then 1 else (v + 1) % 2 ^ 32

/-- Give the slots of the record at `new` their IDs: a live slot keeps its ID, a newly live one takes the next, others have 0; answers the live count and the next ID (R335). -/
def giveTracks (s : State) (i : InstEntry) (o : Obj) (old new next : Nat) : State × Nat × Nat :=
  (List.range (i.dim 1)).foldl (fun acc k =>
    let s := acc.1
    let at_ := 0x40 + 32 * k
    if fuseLive i (objWord s o (new + at_ + 4)) then
      let was := if fuseLive i (objWord s o (old + at_ + 4)) then objWord s o (old + at_) else 0
      if was ≠ 0 then (objSetWord s o (new + at_) was, acc.2.1 + 1, acc.2.2)
      else
        let id := if acc.2.2 = 0 then 1 else acc.2.2
        (objSetWord s o (new + at_) id, acc.2.1 + 1, nextTrack id)
    else (objSetWord s o (new + at_) 0, acc.2.1, acc.2.2)) (s, 0, next)

/-- The firmware's fields of a fusion record (R335): `discarded` rows came too late since the record before. -/
def fuseHeader (number : Nat) (f : EpochData) (te t0 live discarded : Nat) (variant1 : Bool) : List Byte :=
  let k := f.epoch
  let flags := 1 + (if variant1 then 2 else 0) + (if f.conflict ≠ 0 then 4 else 0) +
    (if f.masked ≠ 0 then 8 else 0) + (if f.dropped ≠ 0 then 16 else 0)
  let used := if variant1 then 0 else f.rows.length
  let unused := f.rowsDropped + (if variant1 then f.rows.length else 0)
  layout 0x34
    [(0x00, leBytes 8 k), (0x08, leBytes 8 (t0 + (k + 1) * te)), (0x10, leBytes 8 number),
     (0x18, leBytes 2 flags), (0x1A, leBytes 2 live), (0x1C, leBytes 2 f.lateAbsorbed),
     (0x1E, leBytes 2 discarded), (0x20, leBytes 2 used), (0x22, leBytes 2 unused),
     (0x24, leBytes 4 f.masked), (0x28, leBytes 4 f.conflict), (0x2C, leBytes 4 f.dropped),
     (0x30, leBytes 4 (min 0xFFFFFFFF f.poseWait))]

/-- The commit of a `FUSE` job: the state half (variant 0 only), the record's firmware fields and track IDs, then the current index (R334, R335, R336). -/
def publishFuse (s : State) (jid : Nat) (j : Job) (im : Image) (inv : Invocation) : State :=
  match (im.insts? 0x12).head?, j.fuse, inv.fuse with
  | some i, some f, some e => match boundObj s j i.outSlot, boundObj s j (bits (i.dim 4) 8 8) with
    | some o, some st =>
      let v1 := i.variant == 1
      let te := match boundObj s j i.inSlot with
        | some t => objWord s t 8
        | none => 0
      let s := if v1 then s else objSetWord s st 0 (if objWord s st 0 = 0 then 1 else 0)
      let cur := objWord s o 0
      let old := 0x100 + cur % 2 * fuseBytes i
      let new := 0x100 + (1 - cur % 2) * fuseBytes i
      let r := giveTracks s i o old new (objWord s st 4)
      let s := if v1 then r.1 else objSetWord r.1 st 4 r.2.2
      let s := objWriteBytes s o new (fuseHeader inv.number e te f.firstEdge r.2.1 e.lateDiscarded v1)
      let s := objSetWord s o 0 (if cur = 0 then 1 else 0)
      match s.job? jid with
      | some j => s.setJob jid { j with fuse := some { f with lateDiscarded := f.lateDiscarded - e.lateDiscarded } }
      | none => s
    | _, _ => s
  | _, _, _ => s

/-- The steps an `EGO` invocation at time `start` processes: from the next unprocessed one up to the answer, exclusive (R318). -/
def egoUpTo (i : InstEntry) (next start : Nat) : Nat :=
  let de := max 1 (i.dim 0)
  let last := if start < i.dim 2 then 0 else (start - i.dim 2) / de
  max next (min last (next + i.dim 3))

/-- The newest committed step of a pose ring is written at an `EGO` commit; the invocation holds the step after it (R318, R320). -/
def publishEgo (s : State) (jid : Nat) (j : Job) (im : Image) (inv : Invocation) : State :=
  match (im.insts? 0x10).head? with
  | none => s
  | some i => match boundObj s j i.outSlot with
    | none => s
    | some o =>
      if inv.epoch ≤ inv.egoFrom then s
      else
        let s := objWriteBytes s o 0 (leBytes 8 (inv.epoch - 1))
        match s.job? jid with
        | some j => s.setJob jid { j with egoStep := inv.epoch }
        | none => s

end Sys2Proof.Machine
end

