-- ==== Sys2Proof/Machine/JobBase.lean ====
section
/-! DEFINITION. The life of invocations and jobs: passes, fallbacks, invocation ends, job ends and the commands that wait for them (R284, R290, R363, R391 to R405). -/

namespace Sys2Proof.Machine

/-! ### Planner passes (R284, R289, R290) -/

/-- The largest integer not above a number; a NaN has no stated floor and gives a free value (R290). -/
def floorNum (s : State) : Num → Int
  | .nan => Config.freeNat s.freeCount
  | .inf neg => if neg then -(2 ^ 40) else 2 ^ 40
  | .fin neg m e =>
    let v : Int := if neg then -(m : Int) else m
    if e ≥ 0 then v * 2 ^ e.toNat else v / 2 ^ (-e).toNat

/-- One coordinate of the window origin (R290). -/
def originOf (s : State) (q o v : Num) (w nb : Nat) : Nat :=
  let t := (q.add o.neg).toFp32
  let r := (t.div ((Num.ofInt 8 0).mul v).toFp32).toFp32
  (min (max (floorNum s r - (w / 2 : Nat)) 0) ((nb : Int) - w)).toNat

/-- What a planner pass aims at: buffer, its epoch, window origin, and whether the window is empty (R290). -/
structure PassAim where
  buffer : Nat
  epoch : Nat
  bx : Nat
  byy : Nat
  bz : Nat
  nbx : Nat
  nby : Nat
  empty : Bool
deriving DecidableEq, Repr

/-- The aim of a pass of a planner's instance at the buffer that is current (R289, R290). -/
def passAim (s : State) (j : Job) (g : InstEntry) : Option PassAim :=
  match plannerHeader s j g with
  | none => none
  | some h => (currentBuffer s h).map (fun c =>
    let e := fieldEntry s h c.1
    let win := g.dim 4
    let wx := bits win 0 8; let wy := bits win 8 8; let wz := bits win 16 8
    let nbx := fld e 0x14 2; let nby := fld e 0x16 2; let nbz := fld e 0x18 2
    let input := (boundObj s j g.inSlot).map (fun o => objBytes s o 0x10 8)
    let model := (boundObj s j g.weightSlot).map (fun o => objBytes s o 0 0x18)
    let mb := model.getD []
    let q := if fld mb 7 1 = 1 then input.getD [] else mb.drop 0x10
    let v := f32 (fld e 0x10 4)
    { buffer := c.1, epoch := c.2
      bx := originOf s (f32 (fld q 0 4)) (f32 (fld e 4 4)) v wx nbx
      byy := originOf s (f32 (fld q 4 4)) (f32 (fld e 8 4)) v wy nby
      bz := min (bits win 24 8) (nbz - wz), nbx := nbx, nby := nby
      empty := nbx < wx || nby < wy || nbz < wz })

/-- The instance of a plan pass that a tile's marked descriptor serves, or (slot 256) that its pass header is for: any planning instance but the gate (R284, R290, R297). -/
def planInst (im : Image) (image vt slot : Nat) : Option InstEntry :=
  (im.insts[Config.planInstance image vt slot]?).filter (fun i =>
    (i.function == 0x0D && i.variant != 1) || i.function == 0x0E || i.function == 0x0F)

/-- The slot that stands for a tile's pass header. -/
def headerSlot : Nat := 256

/-- What the pass header of a tile carries: the aim of the instance it is for, the halt latch and sequence, an injected gate outcome (R284, R310, R410). -/
def headerOf (s : State) (a : PassAim) (inject : Nat) : List Nat :=
  [a.buffer, a.epoch, a.bx, a.byy, a.bz, if a.empty then 1 else 0, if s.haltLatched then 1 else 0, s.haltSeq, inject]

/-- Write pass headers into bytes 0xF_FF00 to 0xF_FFFF of their tiles (R284). -/
def writeHeaders (s : State) (hs : Tab (List Nat)) : State :=
  forEach hs s (fun s h => scratchWrite s (BitVec.ofNat 9 h.1) 0xFFF00 ((List.range 256).map (Config.planHeader h.2)))

/-- Rewrite the descriptors of some clusters: the function takes virtual tile, slot and descriptor. -/
def mapDescs (s : State) (cs : List Nat) (f : Nat → Nat → Descriptor → Descriptor) : State :=
  forEach (leaseTiles cs) s (fun s e =>
    updTile s e.2 (fun x => { x with descs := x.descs.zipIdx.map (fun d => f e.1 d.2 d.1) }))

/-- Rewrite the slot and offset fields of the marked field descriptors, each at the window of the instance it serves (R290, R297). -/
def aimField (s : State) (j : Job) (cs : List Nat) (image : Nat) (pick : Nat → Nat → Option InstEntry) : State :=
  mapDescs s cs (fun vt slot d =>
    if Config.markedSlot image vt slot = 3 then
      match pick vt slot with
      | none => d
      | some i => match passAim s j i with
        | none => d
        | some a =>
          let r := Config.markedRow image vt slot
          let wy := max 1 (bits (i.dim 4) 8 8)
          { d with
            slot := bits (i.dim 7) 16 8 + a.buffer
            offset := 512 * (((a.bz + r / wy) * a.nby + a.byy + r % wy) * a.nbx + a.bx) }
    else d)

/-- Acquire the current buffer of a planner's field, aim the marked descriptors and write the pass headers; `pick` tells the instance that a tile's slot serves in the pass, the gate's aim standing for a header without one (R284, R289, R290). -/
def preparePass (s : State) (jid : Nat) (j : Job) (g : InstEntry) (pick : Nat → Nat → Option InstEntry) (cs : List Nat) (image inject : Nat) :
    Option State :=
  (passAim s j g).map (fun a =>
    let hs := (leaseTiles cs).map (fun e => (e.2.toNat, headerOf s (((pick e.1 headerSlot).bind (passAim s j)).getD a) inject))
    updInv (writeHeaders (aimField s j cs image pick) hs) jid (fun i => { i with buffer := some a.buffer, passAt := s.now, headers := hs }))

/-- A halt accepted on the tick on which a pass was prepared counts for it: its headers carry the latch (R309, R310). -/
def latchHeaders (s : State) : State :=
  let turn := fun (hs : Tab (List Nat)) => hs.map (fun h => (h.1, (h.2.set 6 1).set 7 s.haltSeq))
  let mine := ((s.jobs.map (fun e => e.2.runs)).flatten).filter (fun i => i.passAt == s.now)
  forEach mine s (fun s i => writeHeaders s (turn i.headers))

/-! ### Milestones and starts (R375, R394) -/

/-- The due times of an image's milestones from a start, in index order (R394). -/
def dueTimes (im : Image) (start : Nat) : List (Nat × Nat) :=
  (sortBy (fun a b => a.index < b.index) im.milestones).map (fun m => (m.index, start + m.budget))

/-- The final milestone of an image (R82). -/
def Image.final? (im : Image) : Option Nat := (im.milestones.find? (fun m => m.final)).map (fun m => m.index)

/-- The monitor watches Held and Prompt invocations of images with milestones (R394). -/
def watched (cls : Nat) (im : Image) : Bool := cls != 2 && !im.milestones.isEmpty

/-- The fallback image of a job is loaded and intact (R433). -/
def fallbackImage (s : State) (j : Job) : Option Image :=
  if j.cls = 2 ∨ j.fallback = 0 ∨ j.fbClusters.isEmpty = true then none
  else match s.image? j.fallback with
    | none => none
    | some im => match s.obj? im.object with
      | some o => if o.lost then none else some im
      | none => some im

/-- The fallback can run now: intact, and its clusters lie outside every partition in reset (R433); after a power-fail detect nothing starts (R437). -/
def fallbackReady (s : State) (j : Job) : Option Image :=
  if !s.power.failRunning && j.fbClusters.all (fun c => (s.part (c / 8)).state == 0) then fallbackImage s j else none

/-! ### Invocation ends (R99, R138, R363) -/

/-- The sum of the cycle fields of a stall record (R363). -/
def StallRec.cycles (r : StallRec) : Nat :=
  r.q1 + r.t1 + r.r1 + r.q2 + r.t2 + r.r2 + r.q3 + r.t3 + r.r3 + r.absent

/-- Rows of an invocation (R363). -/
def Invocation.rowCount (i : Invocation) : Nat := i.rows.length + (i.calls.map (fun c => c.rows.length)).sum

/-- The clusters an invocation runs on. -/
def runClusters (j : Job) (i : Invocation) : List Nat :=
  sortBy (fun a b => a < b) (if i.isFallback then j.fbClusters else j.clusters)

/-- The image an invocation runs. -/
def runImage (j : Job) (i : Invocation) : Nat := if i.isFallback then j.fallback else j.image

/-- The 112 bytes of an invocation record (R363). -/
def invRecord (s : State) (jid : Nat) (j : Job) (i : Invocation) (sat anom : Nat) (shadow : Bool) : List Byte :=
  let flags := (if shadow then 1 else 0) + (if j.stallNow.lateRuns ≠ 0 then 2 else 0) +
    (if i.warmRejected then 4 else 0)
  layout 112
    [(0x00, leBytes 2 jid), (0x02, leBytes 2 (runImage j i)), (0x04, leBytes 1 j.cls), (0x05, leBytes 1 flags),
     (0x06, leBytes 2 i.missed), (0x08, leBytes 8 i.number), (0x10, leBytes 8 i.start), (0x18, leBytes 8 s.now),
     (0x20, leBytes 4 (sat32n sat)), (0x24, leBytes 4 (sat32n anom)), (0x28, leBytes 4 (sat32n j.stallNow.cycles)),
     (0x2C, leBytes 4 i.feedFirst), (0x30, leBytes 4 i.feedLast), (0x34, leBytes 2 i.rowCount),
     (0x36, leBytes 1 i.faultDetector), (0x37, leBytes 1 i.faultPartition)]

/-- The invocation-end entry on the job's home mailbox (R350, R363). -/
def postEnd (s : State) (owner status : Nat) (record : List Byte) : State :=
  postEntry s (ownerBox owner) { opcode := 0xFFFF, tag := 0, status := status, kind := 1, payload := record }

/-- Sum the saturation and anomaly counts of a lease, an injected saturation included, and raise detector 0x13 once when the first is not 0 (R99). -/
def sumCounts (s : State) (jid : Nat) (cs : List Nat) : State × Nat × Nat :=
  let inj := takeInjection s 0x13 (fun i => cs.contains (clusterOfTile (injTile i.target)))
  let s := inj.2
  let sat := satSum s cs + (if inj.1.isSome then 1 else 0)
  let s := if sat = 0 then s else raiseAs s 1 (injFlags inj.1) (mkEvent 0x13 0xFF jid 0 jid sat)
  (s, sat, anomSum s cs)

/-- Write the final state and status of every row of an invocation (R361, R362). -/
def finishRows (s : State) (i : Invocation) (state status : Nat) : State :=
  let s := forEach i.rows s (fun s r => rowState1 s r.chunk state status)
  forEach i.calls s (fun s c => forEach c.rows s (fun s r => rowState2 s r state status))

/-- Add the KV counters of an invocation to its record. -/
def KvRec.sat (r : KvRec) : KvRec :=
  { r with pagesRead := sat32n r.pagesRead, tokensAppended := sat32n r.tokensAppended
           framesAllocated := sat32n r.framesAllocated, cowCopies := sat32n r.cowCopies
           tokensMatched := sat32n r.tokensMatched, falseMatches := sat16n r.falseMatches
           refSaturations := sat16n r.refSaturations, spills := sat32n r.spills, recalls := sat32n r.recalls
           inPlaceReads := sat32n r.inPlaceReads, indexReplacements := sat16n r.indexReplacements
           passes := sat32n r.passes }

/-- The job's counts and records after an invocation's end (R363, R364). An invocation that the job has already announced, run again by a shadow that was behind, leaves them (R401). -/
def Job.afterInv (j : Job) (i : Invocation) (lease status : Nat) : Job :=
  let j := { j with invocation := none, lease := lease, rerun := false }
  if i.number ≤ j.last then { j with stallNow := StallRec.zero, strmNow := StreamRec.zero }
  else { j with
    ended := j.ended + 1, last := i.number
    fallbacks := j.fallbacks + (if status = stFallback then 1 else 0)
    faults := j.faults + (if status = stFaulted then 1 else 0)
    misses := j.misses + (if status = stLate then 1 else 0)
    stall := j.stallNow, stallNow := StallRec.zero, kv := i.kv.sat, strm := j.strmNow, strmNow := StreamRec.zero }

/-- After a fallback run its clusters are loaded again, and so are those of a lease whose invocation faulted (R396, R433). -/
def reloadFallback (s : State) (j : Job) (i : Invocation) : State :=
  if i.isFallback then
    let s := match s.image? j.fallback with
      | some im => loadImage s (j.roleClusters .fallback) im
      | none => s
    match s.image? j.image with
    | some im => if i.faulted && j.clusters.all (fun c => (s.part (c / 8)).state == 0) then loadImage s (j.roleClusters .primary) im else s
    | none => s
  else s

/-- With no invocation started, the image that `JOB_SET_FALLBACK` named becomes the job's fallback and is loaded onto its fallback clusters and its shadow's (R396, R397). -/
def takeFallback (s : State) (jid : Nat) : State :=
  match s.job? jid with
  | none => s
  | some j =>
    if j.invocation.any Invocation.begun then s
    else match j.nextFallback.bind (fun k => (s.image? k).map (fun im => (k, im))) with
      | none => s
      | some (k, im) =>
        let s := s.setJob jid { j with fallback := k, nextFallback := none }
        loadImage (loadImage s (j.roleClusters .fallback) im) (j.roleClusters .shadowFallback) im

/-- The invocation in progress ends with a status: its rows take their final state where `rows` gives one, its records are kept for `JOB_QUERY`, the counts advance, the entry is posted (R362 to R364, R396). -/
def endInvocation (s : State) (jid status : Nat) (rows : Option Nat := none) : State :=
  match s.job? jid with
  | none => s
  | some j => match j.invocation with
    | none => s
    | some i =>
      let sums := sumCounts s jid (j.clusters ++ j.fbClusters)
      let s := sums.1
      let fresh := decide (j.last < i.number)
      let s := match rows with
        | some st => if fresh then finishRows s i st status else s
        | none => s
      let record := invRecord s jid j i sums.2.1 sums.2.2 i.shadowServed
      let lost := j.clusters.any (fun c => (s.part (c / 8)).state != 0)
      let lease := if lost && j.lease != 8 then 7 else if j.lease = 3 then 2 else j.lease
      let s := s.setJob jid (j.afterInv i lease status)
      takeFallback (reloadFallback (if fresh then postEnd s j.owner status record else s) j i) jid

/-! ### Ends of jobs (R404, R405) -/

/-- A status code for a row that a cancel takes to state 3: the spec states none (assumption 18). -/
def anyStatus (s : State) : Nat × State := (Config.freeNat s.freeCount % 14, s.fresh.2)

/-- Every queued row of a job takes state 3 (R404). -/
def refuseQueued (s : State) (jid : Nat) (j : Job) : State :=
  let st := anyStatus s
  let s := forEach (queuedRows st.2 jid) st.2 (fun s c => rowState1 s c.2 3 st.1)
  let s := forEach (j.owed.filter (fun i => decide (j.last < i.number))) s (fun s i => finishRows s i 3 st.1)
  forEach j.calls s (fun s c => forEach c.rows s (fun s r => rowState2 s r 3 st.1))

/-- The clusters of a job in every role. -/
def Job.allClusters (j : Job) : List Nat :=
  j.clusters ++ j.fbClusters ++ (match j.shadow with
    | some sh => sh.clusters ++ sh.fallbackClusters
    | none => [])

/-- The twins of the objects a job binds, and of its images' objects, are released (R405). -/
def dropTwins (s : State) : State :=
  { s with objects := s.objects.map (fun e =>
      let keep := s.jobs.any (fun x => x.2.shadow.isSome && (x.2.bindings.any (fun b => b.object == e.1) ||
        (s.images.any (fun m => (m.1 == x.2.image || m.1 == x.2.fallback) && m.2.object == e.1))))
      if keep then e else (e.1, { e.2 with twin := none })) }

/-- The sequences that a job's fallback kept are released (R206, R223). -/
def dropOwn (s : State) (jid : Nat) : State :=
  forEach (s.kv.sequences.keys.filter (fun k => k / 2 ^ 32 == jid + 1)) s releaseSequence

/-- The job ends: rows, streams, twins, save object, clusters, ID; freed clusters go to queued jobs; its cancels complete (R404, R405). -/
def endJob (s : State) (jid : Nat) : State :=
  match s.job? jid with
  | none => s
  | some j =>
    let s := refuseQueued s jid j
    let s := match j.invocation with
      | some i => emptyField (abortSpans s i.newSpans) j i.buffer
      | none => s
    let s := dropOwn (dropStreams s jid) jid
    let s := stopClusters s j.allClusters
    let s := freeClusters s j.allClusters
    let s := { s with jobs := s.jobs.erase jid }
    let s := if j.saveObject = 0 then s else { s with objects := s.objects.erase j.saveObject }
    let s := dropTwins s
    let s := forEach (waiters s) s (fun s w => match w.2.2.2 with
      | .cancel k => if k = jid then complete s w.1 w.2.2.1 w.2.1 stOk [] else s
      | _ => s)
    updateResting (grantQueue 64 s)

/-- Withdraw the invocation in progress without publication or entry (R392, R404). -/
def withdraw (s : State) (jid status : Nat) : State :=
  match s.job? jid with
  | none => s
  | some j => match j.invocation with
    | none => s
    | some i =>
      let s := finishRows s i 3 status
      let s := emptyField (abortSpans s i.newSpans) j i.buffer
      match s.job? jid with
      | some j => s.setJob jid { j with invocation := none }
      | none => s

/-- `JOB_CANCEL` mode 1, and the ends that go as by it (R404, R428). -/
def cancelNow (s : State) (jid : Nat) : State :=
  let st := anyStatus s
  endJob (withdraw st.2 jid st.1) jid

/-- After an invocation's end: a job that is ENDING ends (R384, R404). -/
def afterEnd (s : State) (jid : Nat) : State :=
  match s.job? jid with
  | some j => if (j.lease = 8 ∨ j.cancelled = true) ∧ j.invocation.isNone = true then endJob s jid else s
  | none => s

/-! ### Waiting commands (R222, R223, R253, R277, R383, R404, R432) -/

/-- Each element is below the next. -/
def ascending : List Nat → Bool
  | [] => true
  | [_] => true
  | x :: y :: r => decide (x < y) && ascending (y :: r)

/-- A number greater than 0. -/
def Num.positive (x : Num) : Bool := !x.isNan && decide (0 < x.cmp .zero)

/-- The FP32 word is finite. -/
def finite32 (w : Nat) : Bool := match f32 w with
  | .fin _ _ _ => true
  | _ => false

/-- The FP32 word is finite and greater than 0. -/
def positive32 (w : Nat) : Bool := finite32 w && (f32 w).positive

/-- An invocation counts as in progress up to its commit, abandonment or fault; a fault's re-run is in progress again once it has started (R277). -/
def Invocation.inProgress (i : Invocation) : Bool := !i.isFallback && (i.started || !i.faulted)

/-- An invocation of a job bound to the object is in progress (R277). -/
def inUse (s : State) (oid : Nat) : Bool :=
  s.jobs.any (fun e => e.2.invocation.any Invocation.inProgress && e.2.bindings.any (fun b => b.object == oid))

/-- The entries of a delta list. -/
def deltaEntries (bs : List Byte) (n : Nat) : List (Nat × Nat) :=
  (List.range n).map (fun e => (fld bs (0x10 + 8 * e) 4, fld bs (0x14 + 8 * e) 4))

/-- R277: indices in range and ascending, values finite, each ρ greater than 0. -/
def deltaOk (s : State) (o : Obj) (es : List (Nat × Nat)) : Bool :=
  let rho := objWord s o 0x10 + objWord s o 0x14
  let total := rho + fld (objBytes s o 8 2) 0 2
  ascending (es.map (fun e => e.1)) &&
  es.all (fun e => decide (e.1 < total) && (if rho ≤ e.1 then positive32 e.2 else finite32 e.2))

/-- The status that a delta list meets on the object as it stands: `STRUCTURE_MISMATCH` for another fingerprint, `BAD_PARAM` for a bad list (R277). -/
def deltaStatus (s : State) (oid fingerprint : Nat) (es : List (Nat × Nat)) : Nat := match s.obj? oid with
  | none => stBadParam
  | some o =>
    if ofLe (objBytes s o 0x20 8) ≠ fingerprint then stMismatch
    else if deltaOk s o es then stOk
    else stBadParam

/-- Apply a delta list to a structure object, and to its twin (R277, R399). -/
def applyDelta (s : State) (oid : Nat) (entries : List (Nat × Nat)) : State :=
  forEach entries s (fun s e => match s.obj? oid with
    | some o => objWriteBoth s o (objWord s o 0x5C + 4 * e.1) (leBytes 4 e.2)
    | none => s)

/-- The reply of `JOB_SUBMIT`: the lease includes the fallback clusters (R356, R378). -/
def submitReply (s : State) (jid : Nat) : List Byte :=
  match s.job? jid with
  | none => []
  | some j =>
    let cs := j.clusters ++ j.fbClusters
    let mask := (List.range 8).foldl (fun a p => a + if cs.any (fun c => c / 8 == p) then 2 ^ p else 0) 0
    leBytes 2 jid ++ leBytes 1 cs.length ++
      leBytes 1 (match j.shadow with
        | some sh => sh.partition
        | none => 0xFF) ++ leBytes 1 mask

/-- The status of a stream ID that names a stream of another job: `DENIED` where that job is another client's (R351). -/
def otherStream (s : State) (m : MbxId) (x : Stream) : Nat := match s.job? x.job with
  | some j => if mayUse m j.owner then stBadParam else stDenied
  | none => stBadParam

/-- The status of one ID of a `STREAM_PARK` (R253). -/
def parkStatus (s : State) (m : MbxId) (jid id : Nat) : Nat :=
  match findStream s id with
  | none => stBadParam
  | some e =>
    if e.2.job ≠ jid then otherStream s m e.2
    else if e.2.held then stDenied
    else if e.2.parkSlot = 0xFFFF then stNoResource
    else stOk

/-- A park of the list still waits for a commit. -/
def parkWaits (s : State) (ids : List Nat) : Bool :=
  ids.any (fun id => match findStream s id with
    | some e => e.2.parkAsked
    | none => false)

/-- The next job ID: the counter skips 0 and IDs in use (R373). -/
def nextJobId (s : State) : Nat :=
  (((List.range 600).map (fun i => (s.jobCounter + 1 + i) % 65536)).find? (fun k => k != 0 && (s.job? k).isNone)).getD 1

/-- The key under which a Prompt submit that waits for clusters holds its job, beyond the IDs that jobs have (R373, R383). -/
def waitKey (m : MbxId) : Nat := 0x10000 + m.toNat

/-- Jobs of the job table; a submit that still waits for clusters is none (R373). -/
def jobCount (s : State) : Nat := (s.jobs.filter (fun e => decide (e.1 < 0x10000))).length

/-- A waiting submit is accepted: its job takes the next ID and its clusters; the command goes on waiting for the load (R373, R383). -/
def acceptJob (s : State) (m : MbxId) (op : Nat) (h : CmdHdr) (key : Nat) (cs fb : List Nat) : State :=
  match s.job? key with
  | none => s
  | some j =>
    if 512 ≤ jobCount s then complete { s with jobs := s.jobs.erase key } m h op stNoResource []
    else
      let id := nextJobId s
      await (grantTo { s with jobs := (s.jobs.erase key).put id j, jobCounter := id } id cs fb 1) m h op (.submit id)

/-- Try to carry out one waiting command; a wait that has not ended changes nothing. -/
def serveWaiter (s : State) (w : MbxId × Nat × CmdHdr × Waiting) : State :=
  let m := w.1; let op := w.2.1; let h := w.2.2.1
  match w.2.2.2 with
  | .pin seq count key =>
    if appending s seq then s
    else match pinCheck s seq count key with
      | 0 => complete (pinApply s m.toNat seq count key) m h op stOk []
      | st => complete s m h op st []
  | .release kind key =>
    if kind = 1 then complete (releasePrefix s key) m h op stOk []
    else if appending s key then s
    else complete (releaseSequence s key) m h op stOk []
  | .delta oid fp entries =>
    if inUse s oid then s
    else match deltaStatus s oid fp entries with
      | 0 => complete (applyDelta s oid entries) m h op stOk (leBytes 4 entries.length)
      | st => complete s m h op st []
  | .cancel jid => if (s.job? jid).isSome then s else complete s m h op stOk []
  | .submit jid => match s.job? jid with
    | none => complete s m h op stNoResource []
    | some j =>
      if j.lease = 1 ∨ j.lease = 7 then s
      else if j.lease ≠ 0 then complete s m h op stOk (submitReply s jid)
      else
        let fits := if roomFor s (leaseCap s) (j.wantsClusters + j.wantsFallback) then
            place s (onePartition s j) j.wantsClusters j.wantsFallback (eligible s 1) none else none
        match fits with
        | some (cs, fb) => acceptJob s m op h jid cs fb
        | none =>
          if saving s then s
          else match choosePreempt s (onePartition s j) j.wantsClusters j.wantsFallback with
            | some ks => preemptFirst s ks
            | none => complete { s with jobs := s.jobs.erase jid } m h op stNoResource []
  | .place _ _ => s
  | .reset p => if (s.part p).state = 0 then complete s m h op stOk [] else s
  | .force => s
  | .park jid ids _ =>
    if parkWaits s ids then s
    else complete s m h op stOk (ids.map (fun id => BitVec.ofNat 8 (parkStatus s m jid id)))
  | .cap watts begun =>
    if leasedCount s ≤ budgetOf watts then
      let s := noteCap { s with boot := { s.boot with runtime := s.boot.runtime.put 0x0050 watts } }
      complete s m h op stOk (leBytes 2 (capInForce s))
    else
      let t := enforceCap s watts
      await t m h op (.cap watts (begun || (savingJobs t).any (fun k => !(savingJobs s).contains k)))

/-- Carry out the waiting commands that can be, in mailbox order. -/
def serveWaiting (s : State) : State := forEach (waiters s) s serveWaiter

end Sys2Proof.Machine
end

