-- ==== Sys2Proof/Machine/Passes.lean ====
section
/-! DEFINITION. What an invocation's run needs before its tiles start: prefetchers, the passes of `ATTN`, chunk slots, frames and recalls, and the start of a fallback (R148, R149, R202, R206 to R210, R220, R224 to R228, R238, R240, R307, R394, R395). -/

namespace Sys2Proof.Machine

/-! ### Prefetchers (R148, R149) -/

/-- A slot that an indexed `TMOVE` of a program names. -/
def indexedSlot (program : List Word) (slot : Nat) : Bool :=
  program.any (fun w => match decodeSeq w with
    | some (.tmove sl _ _ _ ix) => ix && sl.toNat == slot
    | _ => false)

/-- The lines of T2 that a non-indexed descriptor's run reads (R149). -/
def runLines (d : Descriptor) (place len : Nat) : List Nat :=
  distinct (((d.allPieces d.offset d.scaleOffset).filter (fun p => decide (p.off + p.bytes ≤ len))).map (fun p =>
    (burstsOf (place + p.off) p.bytes).map Prod.fst)).flatten

/-- The inward, prefetched T2 descriptors of a tile whose data lies in partition `p`: job, tile, slot, and the lines to stage at once (R148, R149). -/
def tilePrefetch (s : State) (p jid : Nat) (t : TileId) : List Prefetcher :=
  let x := s.tile t
  x.descs.zipIdx.filterMap (fun d =>
    if d.1.prefetch && !d.1.outward then
      match (descObject s t d.1).bind s.obj? with
      | none => none
      | some o => match runPlace o (tileShadow s t) with
        | none => none
        | some pl =>
          if pl.tier = 2 ∧ pl.partition = p then
            some { job := jid, tile := t, slot := d.2
                   wanted := if indexedSlot x.words d.2 then [] else runLines d.1 pl.offset o.length }
          else none
    else none)

/-- The tiles of a job's leases, fallback and shadow clusters among them, by virtual tile. -/
def Job.leasedTiles (j : Job) : List (Nat × TileId) :=
  sortBy (fun a b => a.1 < b.1) (leaseTiles (j.roleClusters .primary) ++ leaseTiles (j.roleClusters .fallback) ++
    leaseTiles (j.roleClusters .shadow) ++ leaseTiles (j.roleClusters .shadowFallback))

/-- Every candidate of a partition, in order of class, job, virtual tile and slot (R148). -/
def prefetchCandidates (s : State) (p : Nat) : List Prefetcher :=
  let jobs := sortBy (fun a b => a.2.cls < b.2.cls || (a.2.cls == b.2.cls && a.1 < b.1)) s.jobs
  (jobs.map (fun e => (e.2.leasedTiles.filter (fun v => partOfTile v.2 == p)).map (fun v => tilePrefetch s p e.1 v.2))).flatten.flatten

/-- Assign the 16 prefetchers of a partition at an invocation start of job `jid`, and count the descriptors left without one (R148); only the starting job's non-indexed runs are staged (R149). -/
def assignPrefetchers (s : State) (p jid : Nat) : State :=
  let x := s.part p
  let all := prefetchCandidates s p
  let keep := fun (f : Prefetcher) =>
    let was := match x.prefetchers.find? (fun g => g.tile == f.tile && g.slot == f.slot) with
      | some g => g.wanted
      | none => []
    if f.job = jid then { f with wanted := distinct (was ++ f.wanted.filter (fun l => (findLine x l).isNone)) }
    else { f with wanted := was }
  s.setPart p { x with prefetchers := (all.take 16).map keep, prefetchMisses := sat32n (x.prefetchMisses + (all.length - 16)) }

/-- Assign the prefetchers of every partition that some clusters lie in. -/
def assignFor (s : State) (jid : Nat) (cs : List Nat) : State :=
  forEach ((List.range 8).filter (fun p => cs.any (fun c => c / 8 == p))) s (fun s p => assignPrefetchers s p jid)

/-! ### `ATTN` passes (R208 to R210, R220, R226) -/

/-- A work item: row, head, page index, the page's directory entry where it has one, and the row's lengths (R208, R209). -/
structure Item where
  row : Nat
  head : Nat
  index : Nat
  entry : Option Nat
  len : Nat
  new : Nat

/-- The committed length of a sequence. -/
def seqLen (kv : Kv) (seq : Nat) : Nat := match kv.sequences.get? seq with
  | some q => q.length
  | none => 0

/-- First directory entries of a sequence's spans as the invocation sees them. -/
def spansSeen (kv : Kv) (ns : List NewSpan) (seq : Nat) : List Nat :=
  match kv.sequences.get? seq with
  | none => []
  | some q => (ns.filter (fun n => n.sequence == seq)).foldl (fun sp n => sp.take n.index ++ [n.first]) q.spans

/-- The items of one row whose page index passes a test (R208). -/
def rowItems (kv : Kv) (a : Attn) (ns : List NewSpan) (b : Nat) (r : SeqRow) (keep : Nat → Nat → Bool) : List Item :=
  let len := seqLen kv r.sequence
  let nb := r.tokens.length
  let spans := spansSeen kv ns r.sequence
  ((List.range (pagesFor (len + nb))).filter (keep len)).flatMap (fun i =>
    (List.range a.hkv).map (fun h =>
      { row := b, head := h, index := i, entry := spans[i]?.map (fun f => f + a.layer), len := len, new := nb }))

/-- The work list of the score passes (R208). -/
def scoreItems (kv : Kv) (a : Attn) (ns : List NewSpan) (rows : List SeqRow) : List Item :=
  (rows.zipIdx.map (fun r => rowItems kv a ns r.2 r.1 (fun _ _ => true))).flatten

/-- The pages an append pass writes (R208). -/
def appendItems (kv : Kv) (a : Attn) (ns : List NewSpan) (rows : List SeqRow) : List Item :=
  (rows.zipIdx.map (fun r => rowItems kv a ns r.2 r.1 (fun len i => !r.1.tokens.isEmpty && decide (len / 256 ≤ i)))).flatten

/-- The entry of a pass header (R209). -/
def Item.bytes (x : Item) : List Byte :=
  leBytes 2 x.row ++ leBytes 2 x.head ++ leBytes 4 (256 * x.index) ++ leBytes 4 x.len ++ leBytes 2 x.new ++
  leBytes 2 (min 256 (x.len + x.new - 256 * x.index))

/-- The entry of an empty page slot (R209). -/
def emptyEntry : List Byte := leBytes 2 0xFFFF ++ List.replicate 14 0

/-- Give an item to the first tile that may take it and has room. -/
def giveItem (room : Nat) (ok : Nat → Bool) (x : Item) (as : List (Nat × List Item)) : Option (List (Nat × List Item)) :=
  match as.findIdx? (fun e => ok e.1 && decide (e.2.length < room)) with
  | none => none
  | some k => some (as.zipIdx.map (fun e => if e.2 = k then (e.1.1, e.1.2 ++ [x]) else e.1))

/-- R210: items go to tiles in the partition of their pool, the rest to the remaining tiles in tile order. -/
def assignItems (home : Item → Nat → Bool) (room : Nat) (tiles : List Nat) (items : List Item) : List (Nat × List Item) :=
  let first := items.foldl (fun acc x => match giveItem room (home x) x acc.1 with
    | some a => (a, acc.2)
    | none => (acc.1, acc.2 ++ [x])) (tiles.map (fun v => (v, ([] : List Item))), ([] : List Item))
  first.2.foldl (fun a x => (giveItem room (fun _ => true) x a).getD a) first.1

/-- The partition of an item's pool (R210). -/
def itemPart (s : State) (x : Item) : Option Nat := (x.entry.bind s.kv.dir.get?).bind (fun e => objPart s e.poolObject)

/-- The object and the frame that a page is read from and written to: a page under recall in the frame it is recalled to, where its moves wait for it, a spilled one in its spill slot (R224, R226). -/
def PageEntry.place (e : PageEntry) : Nat × Nat := if e.moving = 2 then (e.poolObject, e.target) else (e.home, e.location)

/-- A page slot's descriptor for an item: at the head's part of the item's page, wherever the page lies; without one at the null frame of the slot's own pool (R202, R209, R214, assumption 148). -/
def aimPage (s : State) (a : Attn) (base : Nat) (x : Option Item) (d : Descriptor) : Descriptor :=
  match x.bind (fun x => (x.entry.bind s.kv.dir.get?).map (fun e => (x, e))) with
  | some (x, e) => { d with
    via := some e.place.1, offset := e.place.2 * a.frameBytes + x.head * 256 * a.dim * a.elem + base }
  | none => { d with via := none, offset := base }

/-- Write the headers of a pass and aim the marked page slots (R209). -/
def writePass (s : State) (cs : List Nat) (image : Nat) (a : Attn) (as : List (Nat × List Item)) : State :=
  let itemsOf := fun (vt : Nat) => match as.find? (fun e => e.1 == vt) with
    | some e => e.2
    | none => []
  let s := forEach (leaseTiles cs) s (fun s e =>
    let xs := itemsOf e.1
    scratchWrite s e.2 0xFFF00 ((List.range a.pageSlots).flatMap (fun k => match xs[k]? with
      | some x => x.bytes
      | none => emptyEntry)))
  mapDescs s cs (fun vt slot d =>
    if Config.markedSlot image vt slot = 1 then
      aimPage s a (Config.markedRowOffset image vt slot) (itemsOf vt)[Config.markedRow image vt slot]? d
    else d)

/-- The copies of shared pages of one layer, made before its append pass (R208, R220). -/
def copyShared (s : State) (a : Attn) (ns : List NewSpan) : State :=
  forEach ns s (fun s n => match n.copyOf with
    | none => s
    | some old => match s.kv.dir.get? (old + a.layer), s.kv.dir.get? (n.first + a.layer) with
      | some src, some dst => match s.obj? dst.poolObject with
        | some o => objWriteBytes (objMove (pageTouch s src 0 src.frame) dst.poolObject src.frame) o (dst.location * a.frameBytes) (frameData s src)
        | none => s
      | _, _ => s)

/-- The token IDs of a call are in the layer-0 pages' token lists before the append pass of layer 0: the firmware writes them, for no rule says how they reach the tiles (R202, R208, assumption 155). -/
def writeTokens (s : State) (a : Attn) (ns : List NewSpan) (rows : List SeqRow) : State :=
  if a.layer ≠ 0 then s
  else forEach rows s (fun s r =>
    let len := seqLen s.kv r.sequence
    let spans := spansSeen s.kv ns r.sequence
    forEach spans.zipIdx s (fun s f =>
      let lo := max len (256 * f.2); let hi := min (len + r.tokens.length) (256 * f.2 + 256)
      match s.kv.dir.get? f.1 with
      | some e => match s.obj? e.home with
        | some o =>
          if hi ≤ lo then s
          else objWriteBytes s o (e.location * e.frame + (e.frame - 1024) + 4 * (lo - 256 * f.2))
            (((r.tokens.drop (lo - len)).take (hi - lo)).flatMap (leBytes 4))
        | none => s
      | none => s))

/-- Add to the KV counters of an invocation (R228). -/
def countKv (s : State) (jid : Nat) (f : KvRec → KvRec) : State := updInv s jid (fun i => { i with kv := f i.kv })

/-- Items in a pass read from a spilled page (R226). -/
def inPlace (s : State) (items : List Item) : Nat :=
  (items.filter (fun x => match x.entry.bind s.kv.dir.get? with
    | some e => e.state == 2 && e.moving != 2
    | none => false)).length

/-- Items per pass over pages, at least 1. -/
def Attn.perPass (a : Attn) : Nat := max 1 (a.tiles * a.pageSlots)

/-- The items of the `n`-th pass over some items. -/
def Attn.round (a : Attn) (n : Nat) (items : List Item) : List Item := (items.drop (n * a.perPass)).take a.perPass

/-- The pairs (b, h) of a merge pass: those of one round over the tiles, of every row of the instance (R208). -/
def mergeItems (a : Attn) (rows : List SeqRow) (kv : Kv) (n : Nat) : List (Nat × List Item) :=
  let t := max 1 a.tiles
  (List.range t).map (fun v =>
    let pair := n * t + v
    let b := pair / max 1 a.hkv
    if a.rows ≤ b then (v, [])
    else
      let row := match rows[b]? with
        | some r => (seqLen kv r.sequence, r.tokens.length)
        | none => (0, 0)
      (v, [{ row := b, head := pair % max 1 a.hkv, index := 0, entry := none, len := row.1, new := row.2 }]))

/-- Rounds of a number of items, at least one. -/
def Attn.rounds (a : Attn) (items : List Item) : Nat := max 1 ((items.length + a.perPass - 1) / a.perPass)

/-- Number of merge passes of a call (R208). -/
def mergePasses (a : Attn) : Nat := max 1 ((a.rows * a.hkv + max 1 a.tiles - 1) / max 1 a.tiles)

/-- The pass after one, `none` after the last merge pass of the last instance (R208, assumption 154). -/
def nextPass (s : State) (im : Image) (inv : Invocation) (rows : List SeqRow) : Option Pass :=
  let attns := im.attns
  match inv.pass with
  | .append i n => attns[i]?.map (fun a =>
      if n + 1 < a.rounds (appendItems s.kv a inv.newSpans rows) then .append i (n + 1) else .score i 0)
  | .score i n => attns[i]?.map (fun a =>
      if n + 1 < a.rounds (scoreItems s.kv a inv.newSpans rows) then .score i (n + 1) else .merge i 0)
  | .merge i n => match attns[i]? with
    | some a =>
      if n + 1 < mergePasses a then some (.merge i (n + 1))
      else if i + 1 < attns.length then some (.append (i + 1) 0)
      else none
    | none => none
  | _ => none

/-- Give the items of a pass to the tiles and write the pass (R209, R210). -/
def writeItems (s : State) (cs : List Nat) (image : Nat) (a : Attn) (items : List Item) : State :=
  writePass s cs image a
    (assignItems (fun x vt => (physTile cs vt).map partOfTile == itemPart s x) a.pageSlots (List.range a.tiles) items)

/-- Recall the spilled pages of one layer that a call's instance reads, the spills this takes counted (R226, R228). -/
def recallFor (s : State) (jid : Nat) (rows : List SeqRow) (layer : Nat) : State :=
  let t := recallLayer s rows layer
  countKv t jid (fun k => { k with spills := k.spills + (spilling t.kv - spilling s.kv) })

/-- Prepare one pass of an `ATTN` call: copies, token lists, recalls, headers, descriptors and counts (R208 to R210, R220, R226, R228). -/
def preparePassOf (s : State) (jid : Nat) (cs : List Nat) (image : Nat) (im : Image) (inv : Invocation) (rows : List SeqRow)
    (p : Pass) : State :=
  match p with
  | .append i n => match im.attns[i]? with
    | none => s
    | some a =>
      let s := if n = 0 then writeTokens (copyShared s a inv.newSpans) a inv.newSpans rows else s
      let s := writeItems s cs image a (a.round n (appendItems s.kv a inv.newSpans rows))
      let new := if n = 0 then (rows.map (fun r => r.tokens.length)).sum else 0
      countKv s jid (fun k => { k with tokensAppended := k.tokensAppended + new, passes := k.passes + 1 })
  | .score i n => match im.attns[i]? with
    | none => s
    | some a =>
      let s := match im.attns[i + 1]? with
        | some b => if n = 0 then recallFor s jid rows b.layer else s
        | none => s
      let items := a.round n (scoreItems s.kv a inv.newSpans rows)
      let s := writeItems s cs image a items
      countKv s jid (fun k => { k with
        pagesRead := k.pagesRead + items.length, inPlaceReads := k.inPlaceReads + inPlace s items, passes := k.passes + 1 })
  | .merge i n => match im.attns[i]? with
    | none => s
    | some a =>
      let s := writePass s cs image a (mergeItems a rows s.kv n)
      countKv s jid (fun k => { k with passes := k.passes + 1 })
  | _ => s

/-! ### Chunk slots (R238, R240) -/

/-- The marked chunk slots of a stream job are aimed at their rows' buffers; those of an idle row move nothing out and read the null state (R238, R240, assumption 158). -/
def aimChunks (s : State) (cs : List Nat) (image : Nat) (j : Job) (rows : List RowTaken) : State :=
  mapDescs s cs (fun vt slot d =>
    if Config.markedSlot image vt slot = 2 then
      match rows[Config.markedRow image vt slot]? with
      | none => { d with idle := true }
      | some r =>
        let buf := if d.outward then r.chunk.outBuf else r.chunk.inBuf
        { d with idle := false, offset := buf * Config.chunkStride ((j.slotObj d.slot).getD 0) + Config.markedRowOffset image vt slot }
    else d)

/-! ### The start of a call (R206, R208, R224, R226) -/

/-- A step of preparation: done with a state, or the start waits in a state. -/
abbrev Prep := Option State × State

/-- Go on only when the step before is done. -/
def Prep.andThen (p : Prep) (f : State → Prep) : Prep := match p.1 with
  | some s => f s
  | none => p

/-- The sequences that a fallback keeps for itself come into being, empty, when a call first names them (R206, assumption 150). -/
def openOwn (s : State) (j : Job) (a : Attn) (rows : List SeqRow) : State :=
  let q : Sequence :=
    { owner := j.owner, family := a.fam, pools := poolObjects j a, length := 0, spans := [], layers := a.layers
      frameBytes := a.frameBytes, broken := false }
  forEach rows s (fun s r =>
    if (s.kv.sequences.get? r.sequence).isSome then s
    else { s with kv := { s.kv with sequences := s.kv.sequences.put r.sequence q } })

/-- The memory a call needs is there: frames are allocated and the spilled pages of the first two layers are recalled; otherwise the spills that the start waits on begin (R208, R224, R226). -/
def takeFrames (s : State) (jid : Nat) (j : Job) (im : Image) (a : Attn) (rows : List SeqRow) : Prep :=
  let needs := callNeeds s.kv rows
  let pools := poolObjects j a
  let short := pools.zipIdx.any (fun p => decide (freeFrames s p.1 a.frameBytes < framesNeeded needs a.layers a.pools p.2))
  if short then
    let t := startSpills s j a rows
    (none, countKv t jid (fun k => { k with spills := k.spills + (spilling t.kv - spilling s.kv) }))
  else match allocCall s pools a needs [] with
    | none => (none, s)
    | some (t, ns) =>
      let t := updInv t jid (fun i => { i with newSpans := ns })
      let t := countKv t jid (fun k => { k with
        framesAllocated := k.framesAllocated + ((ns.filter (fun n => n.copyOf.isNone)).length) * a.layers
        cowCopies := k.cowCopies + ((ns.filter (fun n => n.copyOf.isSome)).length) * a.layers })
      let u := forEach (distinct ((im.attns.take 2).map Attn.layer)) t (fun s l => recallFor s jid rows l)
      (some u, u)

/-- An `ATTN` call's part of the start of a run on some clusters (R206, R208, R224). -/
def prepareCall (s : State) (jid : Nat) (cs : List Nat) (im : Image) : Prep :=
  match im.attns, s.job? jid with
  | a :: _, some j => match j.invocation with
    | none => (some s, s)
    | some i =>
      if i.calls.isEmpty then (some s, s)
      else
        let rows := runRows s jid j i
        Prep.andThen (takeFrames (if i.isFallback then openOwn s j a rows else s) jid j im a rows) (fun s =>
          match (s.job? jid).bind Job.invocation with
          | none => (some s, s)
          | some i =>
            let t := preparePassOf s jid cs (runImage j i) im i rows (.append 0 0)
            let t := updInv t jid (fun i => { i with pass := .append 0 0 })
            (some t, t))
  | _, _ => (some s, s)

/-! ### Fallback runs (R238, R307, R395) -/

/-- A Rest-issue fallback acquires the current buffer (R307). -/
def prepareRestIssue (s : State) (jid : Nat) (cs : List Nat) (im : Image) : State :=
  match s.job? jid, im.restIssue? with
  | some j, some g => (preparePass s jid j g (fun _ _ => some g) cs j.fallback 0).getD s
  | _, _ => s

/-- Begin the run of a fallback whose invocation stands, or leave it waiting for the frames of its call: descriptors aimed, deadlines counted from this start, the tiles started (R238, R307, R394, R395). -/
def beginFallback (s : State) (jid : Nat) (im : Image) : State :=
  match s.job? jid with
  | none => s
  | some j =>
    let cs := j.roleClusters .fallback
    let p := prepareCall s jid cs im
    match p.1 with
    | none => p.2
    | some s =>
      let s := prepareRestIssue s jid cs im
      let s := match (s.job? jid).bind Job.invocation with
        | some i => aimChunks s cs j.fallback j i.rows
        | none => s
      let s := assignFor s jid cs
      let s := updInv s jid (fun i => { i with started := true, due := dueTimes im s.now, watching := watched j.cls im })
      match (s.job? jid).bind Job.invocation with
      | some i => startClusters s cs i.number
      | none => s

/-- The fallback takes over an invocation, under its number and with its rows (R395); an ENDING job stays so (R384). -/
def startFallback (s : State) (jid : Nat) (im : Image) : State :=
  let s := updJob s jid (fun j => { j with lease := if j.lease == 8 || j.cancelled then 8 else 3 })
  let s := updInv s jid (fun i => { i with
    isFallback := true, started := false, due := [], met := [], watching := false, pass := .single, newSpans := [], buffer := none })
  beginFallback s jid im

end Sys2Proof.Machine
end

