-- ==== Sys2Proof/Machine/Response.lean ====
section
/-! DEFINITION. The module's responses to its detectors: invocation faults, shadow takeover and loss, partition resets with their Casts, lost objects, the Atelier restart and the power-fail sequence (R401 to R403, R418 to R437). -/

namespace Sys2Proof.Machine

/-! ### Shadows (R398 to R403) -/

/-- The objects whose twins a shadowed job uses: those it binds and those of its images (R399, R428). -/
def shadowedObjects (s : State) (j : Job) : List Nat :=
  (j.bindings.map (fun b => b.object)) ++
  ([j.image, j.fallback].filterMap (fun k => (s.image? k).map (fun m => m.object)))

/-- Redirect each twinned object to its twin (R401). -/
def redirectTwins (s : State) (j : Job) : State :=
  let ids := shadowedObjects s j
  { s with objects := s.objects.map (fun e =>
      match e.2.twin with
      | some t => if ids.contains e.1 then (e.1, { e.2 with place := some t, twin := none }) else e
      | none => e) }

/-- The first start instant at or after a time (R375). -/
def firstInstant (ready period : Nat) : Nat := if period = 0 then 0 else (ready + period - 1) / period * period

/-- The job's lease is loaded; the first time sets its start instants. An ENDING job stays so (R375, R384). -/
def Job.ready (j : Job) (now : Nat) : Job :=
  { j with
    lease := if j.lease == 8 || j.cancelled then 8 else 2, readyAt := some (j.readyAt.getD now)
    nextStart := if j.readyAt.isNone then firstInstant now j.period else j.nextStart }

/-- The clusters of a list take another role. -/
def setRoles (s : State) (cs : List Nat) (r : Role) : State :=
  forEach cs s (fun s c => s.setCluster c { s.cluster c with role := r })

/-- Announce one shadow commit as the job's (R401). -/
def announce (s : State) (jid : Nat) (c : ShadowCommit) : State :=
  match s.job? jid with
  | none => s
  | some j =>
    let late := c.status = stLate
    let s := forEach c.rows s (fun s r => rowState1 s r.chunk (if late then 3 else 2) c.status)
    let j' := { j with
      ended := j.ended + 1, last := c.number
      fallbacks := j.fallbacks + (if c.status = stFallback then 1 else 0)
      misses := j.misses + (if late then 1 else 0), egoStep := max j.egoStep c.step
      fuse := j.fuse.map (fun f => { f with lateDiscarded := f.lateDiscarded - c.discarded }) }
    postEnd (s.setJob jid j') j.owner c.status c.record

/-- The second entries of the shadow become the streams' entries (R256). -/
def adoptStreams (s : State) (jid : Nat) (sh : Shadow) : State :=
  let s := dropStreams s jid
  s.setPart sh.partition { s.part sh.partition with
    streams := (s.part sh.partition).streams ++ sh.streams }

/-- R401: the warm shadow becomes the job's lease. With `keep` no reset followed and the old lease becomes the next shadow's (R433). Taking over is a loss of the shadow: detector 0x33 (R402). -/
def takeover (s : State) (jid : Nat) (keep : Bool) : State :=
  match s.job? jid with
  | none => s
  | some j => match j.shadow with
    | none => s
    | some sh =>
      let oldPart := (j.clusters.head?.getD 0) / 8
      let s := stopClusters s (j.clusters ++ j.fbClusters)
      let s := match j.invocation with
        | some i => emptyField (abortSpans s i.newSpans) j i.buffer
        | none => s
      let s := redirectTwins s j
      let news := sortBy (fun a b => a.number < b.number) (sh.commits.filter (fun c => decide (j.last < c.number)))
      let s := forEach news s (fun s c => announce s jid c)
      let s := adoptStreams s jid sh
      let s := setRoles (setRoles s sh.clusters .primary) sh.fallbackClusters .fallback
      let left := (sh.run.toList ++ sh.queued).map (fun r => { r with shadowServed := true })
      let next := left.head?
      let kept : Shadow :=
        { partition := oldPart, clusters := j.clusters, fallbackClusters := j.fbClusters, state := 0
          run := none, queued := [], commits := [], streams := [] }
      let s := if keep then setRoles (setRoles s j.clusters .shadow) j.fbClusters .shadowFallback
        else freeClusters s (j.clusters ++ j.fbClusters)
      let s := match s.job? jid with
        | some k =>
          let k := k.ready s.now
          s.setJob jid { k with
            clusters := sh.clusters, fbClusters := sh.fallbackClusters, invocation := next, owed := left.tail
            lease := if k.lease = 2 ∧ (next.map Invocation.started).getD false = true then 3 else k.lease
            shadow := if keep then some kept else none, shadowPart := some oldPart, rerun := false }
        | none => s
      let number := match next with
        | some r => r.number
        | none => j.last
      afterEnd (raise (takeFallback s jid) (mkEvent 0x33 oldPart jid 0 jid number)) jid

/-- R402: the shadow is lost: its lease is freed, its twins released, detector 0x33 raised; the job continues unprotected. -/
def loseShadow (s : State) (jid flags : Nat) : State :=
  match s.job? jid with
  | none => s
  | some j => match j.shadow with
    | none => s
    | some sh =>
      let cs := sh.clusters ++ sh.fallbackClusters
      let s := freeClusters (stopClusters s cs) cs
      let s := s.setJob jid { j with shadow := none, shadowPart := some sh.partition }
      let s := dropTwins s
      let number := match j.invocation with
        | some i => i.number
        | none => j.last
      raiseAs s 1 flags (mkEvent 0x33 sh.partition jid 0 jid number)

/-- The shadow of a job can take over now (R401, R403). -/
def shadowReady (s : State) (j : Job) : Bool :=
  match j.shadow with
  | some sh => sh.state == 1 && (s.part sh.partition).state == 0
  | none => false

/-! ### Faults of invocations (R392, R433) -/

/-- The calls of a faulted invocation return to the head of the queue (R392). -/
def requeueCalls (s : State) (jid : Nat) (i : Invocation) : State :=
  match s.job? jid with
  | some j => s.setJob jid { j with calls := i.calls ++ j.calls }
  | none => s

/-- End the invocation with `FAULTED`: rows keep state 1 and run again (R255, R392). -/
def endFaulted (s : State) (jid : Nat) : State :=
  match s.job? jid with
  | none => s
  | some j => match j.invocation with
    | none => s
    | some i => afterEnd (endInvocation (requeueCalls (requeueRows s i.rows) jid i) jid stFaulted) jid

/-- A job whose lease is lost, or whose saved run has faulted, has nothing saved (R392). -/
def Job.unsaved (j : Job) : Job := { j with saved := [], savedMem := [], savedRuns := [], resumeRunning := false }

/-- R433: the invocation of a job's own lease faults. `reset` tells that the lease's partition goes into reset. Without one the lease state stays, the lease is loaded again before the re-run, and what a pre-emption was saving is dropped (R384, R392). -/
def faultPrimary (s : State) (jid det part : Nat) (reset : Bool) : State :=
  match s.job? jid with
  | none => s
  | some j =>
    if shadowReady s j then takeover s jid (!reset)
    else match j.invocation with
    | none => if reset then (stopClusters s (j.clusters ++ j.fbClusters)).setJob jid { j with lease := 7 } else s
    | some i =>
      let s := stopClusters s (j.clusters ++ j.fbClusters)
      let s := emptyField (abortSpans s i.newSpans) j i.buffer
      if i.isFallback then
        let i' := { i with newSpans := [], buffer := none, faulted := true, faultDetector := det, faultPartition := part }
        let s := endFaulted (s.setJob jid { j with invocation := some i' }) jid
        match s.job? jid with
        | some k => if reset then s.setJob jid { k with lease := 7 } else s
        | none => s
      else
        let i' := { i with
          newSpans := [], buffer := none, faulted := true, started := false, pass := .single, waitPart := 8
          faultDetector := if i.faulted then i.faultDetector else det
          faultPartition := if i.faulted then i.faultPartition else part }
        let s := s.setJob jid { j.unsaved with invocation := some i', lease := if reset then 7 else j.lease, rerun := true }
        match fallbackReady s j with
        | none => s
        | some fi => startFallback s jid fi

/-- An invocation response: the invocation to whose lease a tile belongs faults (R410, R433); a fault of the shadow's own run loses the shadow (R402). -/
def faultRole (s : State) (jid : Nat) (role : Role) (det part : Nat) : State :=
  let s := match role with
    | .primary | .fallback => faultPrimary s jid det part false
    | .shadow | .shadowFallback => loseShadow s jid 0
    | .none => s
  updateResting (serveWaiting s)

/-- Fault the invocation that a tile runs. -/
def faultTile (s : State) (t : TileId) (det : Nat) : State :=
  match ownerOf s t with
  | some (j, r) => faultRole s j r det (partOfTile t)
  | none => s

/-- The job ID and partition of a tile for an event's fields. -/
def tileJob (s : State) (t : TileId) : Nat := match ownerOf s t with
  | some (j, _) => j
  | none => 0

/-- Raise a tile's detector with the cause, unit and value of R408, and fault its invocation. -/
def tileFault (s : State) (t : TileId) (det cause value flags : Nat) : State :=
  let e := mkEvent det (partOfTile t) (tileJob s t) cause t.toNat value
  faultTile (raiseAs s (severityOf e) flags e) t det

/-! ### Lost objects (R426, R428, R430) -/

/-- A job reads an object through a binding, or runs or falls back on an image that lies in it (R428). -/
def needsObject (s : State) (j : Job) (isLost : Nat → Bool) : Bool :=
  let reads := fun (b : BindEntry) => match s.image? j.image with
    | some im => im.bindings.any (fun x => x.slot == b.slot && x.access % 2 == 1)
    | none => true
  j.bindings.any (fun b => isLost b.object && reads b) ||
  [j.image, j.fallback].any (fun k => match s.image? k with
    | some im => isLost im.object
    | none => false)

/-- A job ends for a lost object: `FAULTED` with fault_detector 0x21 for the invocation in progress, then as by mode 1 (R428). -/
def endLost (s : State) (jid part : Nat) : State :=
  match s.job? jid with
  | none => s
  | some j =>
    let s := stopClusters s j.allClusters
    let s := match j.invocation with
      | none => s
      | some i =>
        let s := emptyField (abortSpans s i.newSpans) j i.buffer
        let s := finishRows s i 3 stFaulted
        let i' := { i with faultDetector := 0x21, faultPartition := part, newSpans := [] }
        endInvocation (s.setJob jid { j with invocation := some i' }) jid stFaulted
    cancelNow s jid

/-- A SAVED job whose save object is lost is loaded afresh and continues with its next invocation (R433). -/
def loseSaves (s : State) (isLost : Nat → Bool) (part : Nat) : State :=
  forEach s.jobs.keys s (fun s jid => match s.job? jid with
    | none => s
    | some j =>
      if j.saveObject ≠ 0 ∧ isLost j.saveObject = true ∧ (j.lease = 5 ∨ j.lease = 6) then
        let s := match j.invocation with
          | none => s
          | some i => endFaulted (s.setJob jid { j with
              invocation := some { i with faultDetector := 0x21, faultPartition := part } }) jid
        match s.job? jid with
        | some k => s.setJob jid k.unsaved
        | none => s
      else s)

/-- Objects become lost: marks, jobs, images, pages, streams (R227, R255, R428). -/
def loseObjects (s : State) (isLost : Nat → Bool) (part : Nat) : State :=
  let s := { s with objects := s.objects.map (fun e => if isLost e.1 then (e.1, { e.2 with lost := true }) else e) }
  let s := losePages s isLost
  let s := breakStreams s isLost
  let s := loseSaves s isLost part
  let ending := s.jobs.filter (fun e => needsObject s e.2 isLost)
  let s := forEach ending s (fun s e => endLost s e.1 part)
  let gone := s.images.filter (fun e => isLost e.2.object)
  forEach gone s (fun s e =>
    let s := { s with images := s.images.erase e.1 }
    match s.obj? e.2.object with
    | some o => s.setObj e.2.object { o with sealed := false }
    | none => s)

/-- The object lies in T1 or T2 of a partition; port objects are never lost (R428, R540). -/
def lies (s : State) (p : Nat) (o : Nat) : Bool :=
  match (s.obj? o).bind Obj.place with
  | some x => x.tier != 3 && x.partition == p && decide (o < 0xFFFF0000)
  | none => false

/-- R485: reservations granted in a partition that takes the full path (cause 0) or goes down (cause 1) are reclaimed, and their holders noticed. -/
def reclaimPartition (s : State) (p cause : Nat) : State :=
  let gone := s.fab.granted.filter (fun r => r.partition == p)
  let s := { s with fab := { s.fab with
    granted := s.fab.granted.filter (fun r => r.partition != p), resvFailures := min 0xFFFFFFFF (s.fab.resvFailures + gone.length) } }
  forEach gone s (fun s r =>
    let seq := s.fab.nextSeq
    sendMgmt { s with fab := { s.fab with nextSeq := (seq + 1) % 2 ^ 32 } } 0x22 0 r.node 0 seq (leBytes 4 r.id ++ leBytes 1 cause ++ leBytes 3 0))

/-- Every object placed in T1 or T2 of a partition is lost, and twins there are gone (R428). -/
def losePartition (s : State) (p : Nat) : State :=
  let s := { s with objects := s.objects.map (fun e => match e.2.twin with
    | some t => if t.partition = p then (e.1, { e.2 with twin := none }) else e
    | none => e) }
  loseObjects s (lies s p) p

/-! ### Casts (R419 to R423) -/

/-- A Cast record captured in full. -/
def castRecord (kind unit : Nat) (data : List Byte) : CastRecord :=
  { kind := kind, status := stOk, unit := unit, offset := 0, data := data }

/-- Free data of a record whose content the spec names without a layout (R422). -/
def freeRecord (s : State) (kind unit n : Nat) : State × CastRecord :=
  let r := s.freeBytes n
  (r.2, castRecord kind unit r.1)

/-- The wait-for graph record: up to 64 nodes of the cycle, each ID with up to 3 edges in 8 bytes (R422). -/
def graphRecord (s : State) (p det : Nat) : CastRecord :=
  let nodes := if det = 0x14 then s.hangCycle.take 64 else []
  castRecord 7 p (padTo 512 (nodes.map (fun n => padTo 8 (n.map (leBytes 2)).flatten)).flatten)

/-- The records of a Cast, in the order of R421. -/
def castRecords (s : State) (p det : Nat) : State × List CastRecord :=
  let l := freeRecord s 8 p 1024
  let a := freeRecord l.1 4 p 512
  let c := freeRecord a.1 5 p 768
  let m := freeRecord c.1 6 p 256
  let head := [graphRecord s p det, l.2, a.2, c.2, m.2]
  (List.range 8).foldl (fun acc k =>
    let mv := freeRecord acc.1 3 k 1280
    (List.range 8).foldl (fun acc i =>
      let t := tileId (p * 8 + k) i
      let q := freeRecord acc.1 1 t.toNat 768
      let pad := castRecord 2 t.toNat (scratchRead s t 0 0x1000 ++ scratchRead s t 0xFFF00 0x100)
      (q.1, acc.2 ++ [q.2, pad])) (mv.1, acc.2 ++ [mv.2])) (m.1, head)

/-- The bytes of a Cast record (R422). -/
def CastRecord.bytes (r : CastRecord) : List Byte :=
  leBytes 1 r.kind ++ leBytes 1 r.status ++ leBytes 2 r.unit ++ leBytes 4 r.offset ++
  leBytes 4 r.data.length ++ leBytes 4 0 ++ padUp 16 r.data

/-- The 64-byte header of a Cast (R421). -/
def Cast.header (c : Cast) : List Byte :=
  let body := (c.records.map (fun r => 16 + (r.data.length + 15) / 16 * 16)).sum
  [0x53, 0x4D, 0x43, 0x41] ++ leBytes 2 1 ++ leBytes 1 c.partition ++ leBytes 1 c.path ++ leBytes 4 c.seq ++
  leBytes 4 c.records.length ++ leBytes 8 c.eventTime ++ leBytes 8 c.captureStart ++ leBytes 8 c.captureEnd ++
  leBytes 1 c.detector ++ leBytes 1 c.cause ++ leBytes 2 c.unit ++
  leBytes 2 (c.records.filter (fun r => r.status == stAbsent)).length ++ leBytes 2 0 ++
  leBytes 4 (64 + body) ++ leBytes 4 c.eventSeq ++ leBytes 8 0

/-- The bytes of a Cast. -/
def Cast.bytes (c : Cast) : List Byte := c.header ++ (c.records.map CastRecord.bytes).flatten

/-- Start to capture a Cast of a partition for the event of a sequence number (R419). -/
def startCast (s : State) (p path det cause unit eventSeq : Nat) : State :=
  let seq := s.flt.castSeq + 1
  let r := castRecords s p det
  let c : Cast :=
    { partition := p, path := path, seq := seq, eventTime := s.now, captureStart := s.now, captureEnd := 0
      detector := det, cause := cause, unit := unit, eventSeq := eventSeq, records := r.2 }
  let s := { r.1 with flt := { s.flt with castSeq := seq } }
  s.setPart p { s.part p with casting := some c }

/-! ### Partition resets (R424 to R432) -/

/-- A job holds a cluster of the partition in one of some roles. -/
def holdsIn (cs : List Nat) (p : Nat) : Bool := cs.any (fun c => c / 8 == p)

/-- The job's response to a reset of partition `p` (R402, R425, R433). -/
def resetJob (s : State) (p det jid : Nat) : State :=
  match s.job? jid with
  | none => s
  | some j =>
    let inShadow := match j.shadow with
      | some sh => holdsIn (sh.clusters ++ sh.fallbackClusters) p
      | none => false
    let s := if inShadow then loseShadow s jid 0 else s
    match s.job? jid with
    | none => s
    | some j =>
      if holdsIn (j.clusters ++ j.fbClusters) p then
        faultPrimary (s.setJob jid (if j.lease = 4 ∨ j.lease = 6 then j.unsaved else j)) jid det p true
      else s

/-- A move of a cluster has a transfer in progress with a partition (R140). -/
def movesInto (s : State) (p c : Nat) : List Run :=
  (s.cluster c).runs.filter (fun r => r.partition == p && r.xfers.any (fun x => x.state == .granted))

/-- The virtual tile of a run for an event's value. -/
def runTile (s : State) (r : Run) : Nat := virtTile (leaseOf s r.tile) r.tile

/-- Detector 0x21 for a run: its tier, its state, its job and its virtual tile (R141, R408). -/
def failEvent (s : State) (r : Run) : DetEvent :=
  mkEvent 0x21 (partOfTile r.tile) r.job (r.tier * 16 + r.cause) r.job (runTile s r)

/-- A job faulted by a move into a partition out of service waits for that partition before its re-run (R433). -/
def awaitPartition (s : State) (jid p : Nat) : State :=
  if (s.part p).state = 0 then s
  else match s.job? jid with
    | none => s
    | some j => match j.invocation with
      | none => s
      | some i => if i.faulted then s.setJob jid { j with invocation := some { i with waitPart := p } } else s

/-- Some transfers of a run fail: their destination bytes are undefined, and detector 0x21 is raised (R141). -/
def spoilRun (s : State) (r : Run) (is : List Nat) (flags : Nat) : State :=
  raiseAs (forEach is s (fun s i => spoilTransfer s r i)) 2 flags (failEvent s r)

/-- The invocation of a failed run's cluster faults (R140). -/
def faultRun (s : State) (c : Nat) (r : Run) : State :=
  match (s.cluster c).job with
  | 0 => s
  | j =>
    let s := faultRole s j (s.cluster c).role 0x21 (partOfTile r.tile)
    if r.tier = 3 then s else awaitPartition s j r.partition

/-- Fail transfers of a run: destination bytes undefined, detector 0x21, the invocation faults (R140, R141). -/
def failRun (s : State) (c : Nat) (r : Run) (is : List Nat) (flags : Nat) : State := faultRun (spoilRun s r is flags) c r

/-- The transfers of a run in progress. -/
def Run.inProgress (r : Run) : List Nat := (List.range r.xfers.length).filter (fun i => (r.xfers[i]?.map Xfer.state) == some .granted)

/-- The transfers in progress of some runs fail, each run with its event (R140, R141). -/
def spoilRuns (s : State) (rs : List (Nat × Run)) : State := forEach rs s (fun s m => spoilRun s m.2 m.2.inProgress 0)

/-- The invocations of those failed runs that still stand fault, each once (R140). -/
def faultRuns (s : State) (rs : List (Nat × Run)) : State :=
  forEach rs s (fun s m => if (s.cluster m.1).runs.any (fun r => r.id == m.2.id) then faultRun s m.1 m.2 else s)

/-- The transfers in progress of some runs fail, and their invocations fault (R140, R141). -/
def failRuns (s : State) (rs : List (Nat × Run)) : State := faultRuns (spoilRuns s rs) rs

/-- Every request and grant of a partition's arbiter is dropped and its requesters are masked, as its reset is asserted; the mover of a dropped request presents it again (R163). -/
def clearArbiter (s : State) (p : Nat) : State :=
  let a := (s.part p).arb
  let qs := a.waiting ++ a.heldBack ++ a.engines.toList.filterMap (fun g => g.map Grant.req)
  let s := forEach qs s (fun s q => setXfer s q (fun x => { x with state := .unpresented }))
  s.setPart p { s.part p with arb := { Arbiter.reset with masked := List.range 11 } }

/-- The moves of other partitions' clusters with a transfer in progress with a partition (R140). -/
def movesWith (s : State) (p : Nat) : List (Nat × Run) :=
  ((allClusters.filter (fun c => c / 8 != p)).map (fun c => (movesInto s p c).map (fun r => (c, r)))).flatten

/-- A pending injection whose target partition leaves service is withdrawn (R413, R431, R564). -/
def withdrawInjection (s : State) (p : Nat) : State :=
  match s.flt.pending with
  | some i => if injPart i.target = p ∧ [0x01, 0x02, 0x03, 0x04, 0x05, 0x06, 0x07, 0x10, 0x11, 0x12, 0x13, 0x14,
        0x20, 0x21, 0x22, 0x23, 0x32, 0x60, 0x61, 0x62, 0x63, 0x64, 0x66].contains i.detector = true then
      { s with flt := { s.flt with pending := none } } else s
  | none => s

/-- The sequence number of the event raised last. -/
def lastSeq (s : State) : Nat := (s.evt.seq + 2 ^ 32 - 1) % 2 ^ 32

/-- The clusters, in every partition, of the leases that a reset of a partition stops (R425). -/
def stoppedBy (s : State) (p : Nat) : List Nat :=
  let hit := fun (cs : List Nat) => if holdsIn cs p then cs else []
  (s.jobs.map (fun e => hit (e.2.clusters ++ e.2.fbClusters) ++ (match e.2.shadow with
    | some sh => hit (sh.clusters ++ sh.fallbackClusters)
    | none => []))).flatten

/-- Begin a reset of a partition on a path: the tiles stop, the Cast starts, then the jobs and moves that it touches (R419, R424, R425, R427). -/
def beginReset (s : State) (p path det cause unit : Nat) : State :=
  let x := s.part p
  let s := patCount s ((if path = 0 then 0x1A00 else 0x1A04) + 128 * p) 1
  let s := s.setPart p { x with
    state := path + 1, step := .casting, lastPath := path
    fastResets := x.fastResets + (if path = 0 then 1 else 0)
    fullResets := x.fullResets + (if path = 1 then 1 else 0)
    lastDetector := det, lastReset := s.now }
  let s := withdrawInjection s p
  let into := movesWith s p
  let seq := if det = 0 then 0 else lastSeq s
  let s := spoilRuns s into
  let s := startCast (stopClusters s (stoppedBy s p)) p path det cause unit seq
  let s := faultRuns (forEach s.jobs.keys s (fun s j => resetJob s p det j)) into
  updateResting (serveWaiting (if path = 1 then reclaimPartition s p 0 else s))

/-- The command that waits for a partition's reset completes (R432). -/
def finishReset (s : State) (p status : Nat) : State :=
  match (s.part p).resetMbx with
  | none => s
  | some (m, h) => complete (s.setPart p { s.part p with resetMbx := none }) m h 0x93 status []

/-- R430: the partition is down: masked, without leases, its jobs ended under R428; a `PARTITION_RESET` that waits for it completes with `FAULTED`. -/
def takeDown (s : State) (p : Nat) : State :=
  let x := s.part p
  let s := withdrawInjection (s.setPart p { x with state := 3, step := .none, casting := none, railOn := x.railOn }) p
  let into := movesWith s p
  let holders := s.jobs.filter (fun e => holdsIn e.2.allClusters p)
  let s := failRuns s into
  let s := forEach holders s (fun s e =>
    let s := resetJob s p 0x21 e.1
    match s.job? e.1 with
    | some j => if holdsIn (j.clusters ++ j.fbClusters) p then endLost s e.1 p else s
    | none => s)
  updateResting (finishReset (clearArbiter (reclaimPartition (losePartition s p) p 1) p) p stFaulted)

/-- Whether a reset cause escalates: within 100 ms of a fast path's return the full path, within 1 s of a full path's return the partition goes down (R430). -/
inductive Escalation where
  | none | toFull | down
deriving DecidableEq, Repr

/-- The escalation that applies to a reset cause in a partition in service (R430). -/
def escalation (s : State) (p : Nat) : Escalation :=
  let x := s.part p
  let soon := fun (b : Option Nat) (ns : Nat) => match b with
    | some t => decide (s.now < t + ns)
    | none => false
  if soon x.backFull 1000000000 then .down
  else if soon x.backFast 100000000 then .toFull
  else .none

/-- A full-path cause escalates a fast path whose reset is not yet released (R430). -/
def escalates (x : Part) (path : Nat) : Bool :=
  x.state == 1 && path == 1 && (x.step == .casting || x.step == .writeBack || x.step == .asserted)

/-- A detector event that resets a partition: raised with the flags of R430, then the reset, its escalation, or nothing more while one runs (R424, R430, R431). -/
def resetCause (s : State) (p path flags : Nat) (e : DetEvent) : State :=
  let x := s.part p
  if x.state = 0 then
    match escalation s p with
    | .none => beginReset (raiseAs s (severityOf e) flags e) p path e.detector e.cause e.unit
    | .toFull => beginReset (raiseAs s (severityOf e) (if path = 0 then flags + 2 else flags) e) p 1 e.detector e.cause e.unit
    | .down => takeDown (raiseAs (raiseAs s (severityOf e) flags e) 3 (flags + 2) e) p
  else if escalates x path then
    let s := raiseAs s (severityOf e) (flags + 2) e
    let s := patCount s (0x1A04 + 128 * p) 1
    reclaimPartition (s.setPart p { s.part p with state := 2, lastPath := 1, fullResets := x.fullResets + 1 }) p 0
  else raiseAs s (severityOf e) flags e

/-- `PARTITION_RESET` resets as if a detector had caused it, and raises none (R432). -/
def resetCommanded (s : State) (p path : Nat) : State :=
  match if (s.part p).state = 0 then escalation s p else .none with
  | .none => beginReset s p path 0 0 0
  | .toFull => beginReset s p 1 0 0 0
  | .down => takeDown s p

/-! ### Atelier restart and power (R434, R437, R532) -/

/-- Every tile of the module stops (R434, R437). -/
def stopAll (s : State) : State := stopClusters s (allClusters.filter (fun c => (s.cluster c).leased))

/-- The `FLT_` state that survives an Atelier restart (R434). -/
def Flt.restarted (f : Flt) : Flt :=
  { f with castNew := 0, armed := false, armedUntil := 0, injTarget := 0, injParam := 0, injCount := 0
           injRefused := false, injDone := 0, pending := none }

/-- R434: the Atelier restarts: every tile stops, every partition takes the fast path, and what the firmware held is gone. -/
def atelierRestart (s : State) (watchdog : Bool) : State :=
  let s := stopAll s
  let s := { s with
    resting := true
    boot := { s.boot with mailboxReady := false, atelierOk := s.boot.atelierOk && !watchdog, runtime := [] } }
  let s := forEach (List.range 8) s (fun s p =>
    let x := s.part p
    let s := if x.state = 0 then patCount s (0x1A00 + 128 * p) 1 else s
    let x := if x.state = 0 then
        { x with state := 1, step := .casting, lastPath := 0
                 fastResets := x.fastResets + 1, lastDetector := if watchdog then 0x91 else 0x92, lastReset := s.now }
      else x
    s.setPart p { x with casts := [], casting := none, streams := [], resetMbx := none })
  let s := forEach (allClusters.filter (fun c => (s.cluster c).leased)) s powerOffCluster
  let evt := { Evt.reset with seq := s.evt.seq, recent := s.evt.recent, status := if watchdog then 1#32 <<< 18 else 0 }
  { s with
    evt := evt, flt := s.flt.restarted, objects := [], images := [], jobs := [], mbx := []
    kv := { dir := [], sequences := [], pinned := [], index := [], cleared := [] }
    lows := [], hangCycle := [], hangSets := [], hangSeen := [], jobCounter := 0 }

/-- R437: power-fail detect: 0x67, fetches stop, every tile stops, `RESTING` is asserted. -/
def powerFail (s : State) (cause : Nat) : State :=
  if s.power.failRunning then s
  else
    let s := stopAll s
    { s with
      resting := true, boot := { s.boot with fetchStopped := true }
      power := { s.power with failRunning := true, failAt := s.now, stopCause := cause } }

/-! ### Responses by detector (R410) -/

/-- The object lies in the pinned window of a partition's T1 over a window offset: what an uncorrectable pinned-way codeword at the check after a fast path makes lost (R408, R426). -/
def pinnedAt (s : State) (p offset o : Nat) : Bool :=
  match (s.obj? o).bind Obj.place with
  | some x => x.tier == 1 && x.partition == p && decide (x.offset ≤ offset) &&
      decide (offset < x.offset + ((s.obj? o).map Obj.length).getD 0)
  | none => false

/-- Raise an event and carry out the response of the detector table; link, port and mailbox responses belong to their own commands (R410). -/
def detect (s : State) (flags : Nat) (e : DetEvent) : State :=
  let plain := fun (s : State) => raiseAs s (severityOf e) flags e
  let tile : TileId := BitVec.ofNat 9 e.unit
  match e.detector with
  | 0x02 | 0x11 | 0x32 => faultTile (plain s) tile e.detector
  | 0x10 => faultTile (plain s) (BitVec.ofNat 9 e.value) 0x10
  | 0x04 | 0x21 =>
    if e.detector = 0x04 ∧ e.mild = true then plain s
    else if e.detector = 0x04 ∧ (s.part e.partition).step = .restoring then loseObjects (plain s) (pinnedAt s e.partition e.value) e.partition
    else faultRole (plain s) e.job .primary e.detector e.partition
  | 0x06 => if e.cause = 0 then faultRole (plain s) e.job .primary 0x06 e.partition else resetCause s e.partition 1 flags e
  | 0x14 => resetCause s e.partition 0 flags e
  | 0x22 => if e.mild then plain s else resetCause s e.partition 0 flags e
  | 0x33 => loseShadow s e.job flags
  | 0x60 => if e.cause = 1 then resetCause s e.partition 0 flags e else plain s
  | 0x61 =>
    if e.cause = 1 then
      let s := takeDown (plain s) e.partition
      s.setPart e.partition { s.part e.partition with railOn := false }
    else powerFail (plain s) 1
  | 0x64 => powerFail (plain s) 1
  | 0x65 => if e.cause = 1 ∨ e.cause = 2 then plain s else powerFail (plain s) 1
  | 0x67 => powerFail (plain s) 0
  | 0x91 => atelierRestart (plain (setEvt s 18)) true
  | 0x92 => atelierRestart (plain s) false
  | _ => plain s

end Sys2Proof.Machine
end

