-- ==== Sys2Proof/Machine/SeqBase.lean ====
section
/-! DEFINITION. What every sequencer word shares: issue, the program counter and loops, unit queues, illegal words, SC4-guarded scratchpad reads and bytes a word reads of its own writes (R35, R40 to R44, R53, R567). -/

namespace Sys2Proof.Machine

/-- The tile issues words: it runs, is not stalled and is not frozen by an injection (R40, R410). -/
def TileState.issues (x : TileState) : Bool := x.phase == .running && x.stall == .free && !x.frozen

/-- Program counter and loops after the word at `pc`, from the open loops, innermost first (R44, R56). -/
def branchBack (pc : BitVec 12) : List LoopFrame → Vector (BitVec 13) 8 →
    BitVec 12 × List LoopFrame × Vector (BitVec 13) 8
  | [], k => (pc + 1, [], k)
  | f :: fs, k =>
    if pc = f.last then
      let n := k[f.k.toNat] - 1
      let k := k.set f.k.toNat n
      if n = 0 then branchBack pc fs k else (f.first, f :: fs, k)
    else (pc + 1, f :: fs, k)

/-- The word at the program counter has been issued: the sequencer moves to the next one (R40, R44). -/
def TileState.advance (x : TileState) : TileState :=
  let r := branchBack x.pc x.loops x.counters
  { x with pc := r.1, loops := r.2.1, counters := r.2.2, issued := x.issued + 1 }

/-- Issue ends: the program counter moves on (R40). -/
def goOn (s : State) (t : TileId) : State := updTile s t TileState.advance

/-- R53: the sequencer stops, detector 0x11 is raised with the address of a program word and the invocation faults; `flags` bit 0 for an injection. -/
def illegalAt (s : State) (t : TileId) (pc : BitVec 12) (flags : Nat) : State :=
  tileFault (updTile s t (fun x => { x with phase := .stopped })) t 0x11 0 pc.toNat flags

/-- Detector 0x11 for the word that the tile has reached. -/
def illegal (s : State) (t : TileId) (flags : Nat) : State := illegalAt s t (s.tile t).pc flags

/-- R73: a virtual cluster without a map entry: detector 0x32 with the word's address, and the invocation faults. -/
def unmapped (s : State) (t : TileId) (flags : Nat) : State :=
  let pc := (s.tile t).pc.toNat
  tileFault (updTile s t (fun x => { x with phase := .stopped })) t 0x32 0 pc flags

/-- Perform a word that a tile's sequencer has reached: nothing when the tile issues nothing (assumption 1); an injection of detector 0x11 makes it illegal (R410). -/
def word (s : State) (t : TileId) (f : State → State) : Out :=
  .next (onlyIf (s.tile t).issues s
    (let i := takeInjection s 0x11 (fun q => injTile q.target == t)
     if i.1.isSome then illegal i.2 t 1 else f i.2))

/-- Add an increment to a semaphore; past 65,535 it is discarded with detector 0x11 (R45). No rule says whether the event names the tile that signals or the target, nor which word: it names the target tile and its present pc (DESIGN CHOICE, assumption 161). -/
def addSem (s : State) (t : TileId) (m : BitVec 4) (n : Nat) : State :=
  let v := ((s.tile t).sems[m.toNat]).toNat + n
  if 65535 < v then illegal s t 0
  else updTile s t (fun x => { x with sems := x.sems.set m.toNat (BitVec.ofNat 16 v) })

/-! ### Units (R40, R43) -/

/-- The queue of the cell array, with the executing word at its head. -/
def unitQ (x : TileState) : UnitId → List SeqWord
  | .cellArray => x.cellQ
  | .drain => x.drainQ
  | .vector => x.vectorQ
  | .transpose => x.transQ
  | .scalar => x.scalarQ
  | .sendDir _ => []

/-- Replace the queue of a unit. -/
def setUnitQ (x : TileState) (u : UnitId) (q : List SeqWord) : TileState :=
  match u with
  | .cellArray => { x with cellQ := q }
  | .drain => { x with drainQ := q }
  | .vector => { x with vectorQ := q }
  | .transpose => { x with transQ := q }
  | .scalar => { x with scalarQ := q }
  | .sendDir _ => x

/-- A unit holds the word it executes and 4 words behind it (R40). -/
def unitFull (x : TileState) (u : UnitId) : Bool := decide (5 ≤ (unitQ x u).length)

/-- Pass a word to a unit: a full queue stalls the sequencer before the word; else the unit accepts it, its effect in program order is `f`, and the sequencer goes on (R40, R41, assumption 19). -/
def toUnit (s : State) (t : TileId) (u : UnitId) (w : SeqWord) (f : State → State) : State :=
  let x := s.tile t
  if unitFull x u then s.setTile t { x with stall := .queueFull w }
  else f (goOn (s.setTile t (setUnitQ x u (unitQ x u ++ [w]))) t)

/-! ### SC4-guarded reads (R35) -/

/-- A range of scratchpad bytes a word reads. -/
structure Span where
  start : Nat
  bytes : Nat
deriving DecidableEq, Repr

/-- The codewords of a range, in order (R33). -/
def Span.codewords (r : Span) : List Nat :=
  if r.bytes = 0 then []
  else
    let a := r.start / 16
    (List.range ((r.start + r.bytes - 1) / 16 - a + 1)).map (fun i => (a + i) * 16 % 0x100000)

/-- One codeword read: an injected symbol error is corrected with detector 0x01, two are detector 0x02 and fault the invocation; the flag tells that one did (R35, R410). -/
def eccWord (acc : State × Bool) (t : TileId) (a : Nat) : State × Bool :=
  if acc.2 then acc
  else
    let one := takeInjection acc.1 0x01 (fun q => injTile q.target == t)
    match one.1 with
    | some q =>
      let e := mkEvent 0x01 (partOfTile t) (tileJob acc.1 t) (bits q.param.toNat 0 6) t.toNat a
      (raiseAs one.2 0 1 e, false)
    | none =>
      let two := takeInjection acc.1 0x02 (fun q => injTile q.target == t)
      if two.1.isSome then (tileFault two.2 t 0x02 0xFF a 1, true) else acc

/-- Read the codewords of some ranges; without a pending injection nothing happens (R35). -/
def eccReads (s : State) (t : TileId) (rs : List Span) : State × Bool :=
  if s.flt.pending.isNone then (s, false)
  else ((rs.map Span.codewords).flatten).foldl (fun acc a => eccWord acc t a) (s, false)

/-- Go on only when every codeword read could be corrected. -/
def withReads (s : State) (t : TileId) (rs : List Span) (f : State → State) : State :=
  let r := eccReads s t rs
  if r.2 then r.1 else f r.1

/-! ### A word that reads bytes it writes (R567) -/

/-- A byte offset lies in the first `n` bytes from `d`, modulo 1 MiB. -/
def inDest (d n a : Nat) : Bool := decide ((a + 0x100000 - d % 0x100000) % 0x100000 < n)

/-- `n` bytes from `a`, where the word has already written `w` bytes from `d`: each such byte as it stood before the word or as written, a free choice (R567). `key` names the row. -/
def readOver (old new : State) (t : TileId) (d w a n key : Nat) : List Byte :=
  (List.range n).map (fun i =>
    let at_ := (a + i) % 0x100000
    let stale := inDest d w at_ && !Config.overlapReadsNew old.freeCount (key * 0x100000 + at_)
    (if stale then old else new).mem.byte (t0Base t + at_))

/-- Two byte ranges of a scratchpad meet. -/
def meets (d n a m : Nat) : Bool :=
  inDest d n (a % 0x100000) || inDest a m (d % 0x100000)

/-- A word whose ranges overlap draws one free value (R567). -/
def drawIf (c : Bool) (s : State) : State := if c then s.fresh.2 else s

end Sys2Proof.Machine
end

