-- ==== Sys2Proof/Machine/MoveBase.lean ====
section
/-! DEFINITION. Tile moves: runs, completion in issue order and `TMOVE` (R65, R124 to R133, R136 to R141, R149). -/

namespace Sys2Proof.Machine

/-! ### Runs (R129 to R132) -/

/-- Every tile of the run has been written (R132). -/
def Run.written (r : Run) : Bool := r.xfers.all (fun x => x.state == .written)

/-- The tier that a run's cycles fall under (R138). -/
def Run.chargeTier (r : Run) : Nat := if r.tier = 2 then (if r.missed then 2 else 1) else r.tier

/-- Add a completed run's cycles to a stall record (R138). -/
def StallRec.charge (k : StallRec) (r : Run) : StallRec :=
  match r.chargeTier with
  | 1 => { k with q1 := stallAdd k.q1 r.queuedCycles, t1 := stallAdd k.t1 r.transferCycles, r1 := stallAdd k.r1 r.restartCycles }
  | 2 => { k with q2 := stallAdd k.q2 r.queuedCycles, t2 := stallAdd k.t2 r.transferCycles, r2 := stallAdd k.r2 r.restartCycles }
  | _ => { k with q3 := stallAdd k.q3 r.queuedCycles, t3 := stallAdd k.t3 r.transferCycles, r3 := stallAdd k.r3 r.restartCycles }

/-- Signal the runs of a tile that are written, in issue order, up to the first that is not; each leaves its mover (R132, R138). -/
def signalRuns : Nat → State → TileId → State
  | 0, s, _ => s
  | n + 1, s, t =>
    let c := clusterOfTile t
    match (s.cluster c).runs.find? (fun r => r.tile == t) with
    | some r =>
      if r.written then
        let s := s.setCluster c { s.cluster c with runs := (s.cluster c).runs.filter (fun x => x.id != r.id) }
        let s := updStall s r (fun k => k.charge r)
        let s := updTile s t (fun x => { x with openRuns := x.openRuns - 1 })
        signalRuns n (addSem s t r.sem 1) t
      else s
    | none => s

/-! ### TMOVE (R65, R127, R129, R130, R139, R149) -/

/-- Runs the cluster mover holds (R129). -/
def accepted (s : State) (c : Nat) : List Run := (s.cluster c).runs.take 16

/-- Words of a tile in its mover-interface queue: runs its cluster mover has no room for (R129). -/
def moverQueue (s : State) (t : TileId) : Nat :=
  (((s.cluster (clusterOfTile t)).runs.drop 16).filter (fun r => r.tile == t)).length

/-- The class default of the late threshold (R139, R369). -/
def lateDefault (s : State) (cls : Nat) : Nat :=
  if cls = 0 then setting s 0x0010 2048 else if cls = 1 then setting s 0x0011 16384 else 0

/-- Lines of T2 that the runs K + 1 to K + lead of a prefetched descriptor touch, within the object (R149). -/
def leadLines (d : Descriptor) (place len k lead : Nat) : List Nat :=
  distinct ((List.range lead).map (fun i =>
    let o := d.indexed (k + 1 + i)
    ((d.allPieces o.1 o.2).filter (fun p => decide (p.off + p.bytes ≤ len))).map (fun p =>
      (burstsOf (place + p.off) p.bytes).map Prod.fst))).flatten.flatten

/-- Request the lines of the coming runs from the prefetcher of a tile's descriptor (R149). -/
def prefetchRuns (s : State) (t : TileId) (slot k : Nat) (d : Descriptor) (o : Obj) (p : Placement) : State :=
  let q := partOfTile t
  if p.tier = 2 ∧ p.partition = q then
    let x := s.part q
    let lines := (leadLines d p.offset o.length k d.prefetchLead).filter (fun l => (findLine x l).isNone)
    s.setPart q { x with prefetchers := x.prefetchers.map (fun f =>
      if f.tile = t ∧ f.slot = slot then { f with wanted := distinct (f.wanted ++ lines) } else f) }
  else s

/-- The detector of the underlying cause of a peer transfer that cannot start: its reservation is gone or its node unreachable (R141, R485, assumption 144). -/
def peerCause (s : State) (r : Run) : State := match runObj s r with
  | some (_, pl) => raise s (mkEvent 0x52 0xFF r.job 2 r.job (pl.rid + pl.node * 2 ^ 32))
  | none => s

/-- The reservation of a placement in another node's memory is held (R130). -/
def resHeld (s : State) (p : Placement) : Bool := s.fab.heldRes.any (fun h => h.id == p.rid && h.node == p.node)

/-- The tier end and the partition whose arbiter a run enters: those of its placement, of the addressed region for a T3 base on this node itself, of the issuing tile for a peer (R17, R136). -/
def runEnd (s : State) (t : TileId) (p : Placement) : Nat × Nat :=
  if p.tier ≠ 3 then (p.tier, p.partition)
  else match p.home s 0 with
    | .inr _ => (3, partOfTile t)
    | .inl a => match regionOf a with
      | .t1 q _ => (1, q)
      | .t2 q _ => (2, q)
      | _ => (3, partOfTile t)

/-- The run of a `TMOVE` word, with the late threshold of its descriptor or of its class (R65, R127, R129, R139); `inj` tells that an injection of 0x20 acts on it (R410). -/
def newRun (s : State) (t : TileId) (d : Descriptor) (oid : Nat) (p : Placement) (at_ : Nat × Nat) (sem loc : BitVec 4) (inj : Bool) : Run :=
  let owner := (ownerOf s t).getD (0, .none)
  let cls := match s.job? owner.1 with
    | some j => j.cls
    | none => 2
  { id := s.runIds, tile := t, job := owner.1, shadow := tileShadow s t, sem := sem
    desc := d, object := oid, offset := at_.1, scaleOff := at_.2, localAddr := (s.tile t).addr loc, tier := (runEnd s t p).1
    partition := (runEnd s t p).2, issueTick := s.time.ticks
    threshold := if inj then 1 else if d.lateThreshold ≠ 0 then d.lateThreshold else lateDefault s cls
    lateRaised := false, xfers := List.replicate d.run { state := .unpresented, revocations := 0 }
    missed := false, injected := inj, queuedCycles := 0, transferCycles := 0, restartCycles := 0 }

/-- A run joins its cluster mover, and the sequencer goes on (R129). -/
def joinMover (s : State) (t : TileId) (r : Run) : State :=
  let c := clusterOfTile t
  let s := { s with runIds := s.runIds + 1 }
  let s := s.setCluster c { s.cluster c with runs := (s.cluster c).runs ++ [r] }
  updTile s t (fun x => { x.advance with openRuns := x.openRuns + 1 })

/-- Issue `TMOVE`: a full mover interface stalls; an indexed span outside its object raises 0x32, and an indexed move to a peer whose reservation is not held fails before its first transfer; else the run joins the cluster mover (R65, R129, R130). A slot without a descriptor is handled as an illegal word (assumption 27). -/
def issueTmove (s : State) (t : TileId) (slot : BitVec 6) (sem loc : BitVec 4) (k : BitVec 3) (indexed : Bool) : State :=
  let x := s.tile t
  let c := clusterOfTile t
  match x.descs[slot.toNat]? with
  | none => illegal s t 0
  | some d =>
    if 5 ≤ moverQueue s t then s.setTile t { x with stall := .queueFull (.tmove slot sem loc k indexed) }
    else
      let kv := (x.counters[k.toNat]).toNat
      let at_ := if indexed then d.indexed kv else (d.offset, d.scaleOffset)
      match descObject s t d with
      | none => unmapped s t 0
      | some oid => match s.obj? oid with
        | none => unmapped s t 0
        | some o => match runPlace o (tileShadow s t) with
          | none => unmapped s t 0
          | some p =>
            if indexed && !d.fitsIn at_.1 at_.2 o.length then unmapped s t 0
            else
              let inj := takeInjection s 0x20 (fun q => injCluster q.target == c)
              let r := newRun inj.2 t d oid p at_ sem loc inj.1.isSome
              let s := joinMover inj.2 t r
              if indexed && p.tier == 3 && !resHeld s p then failRun (peerCause s r) c r [] 0
              else if indexed && d.prefetch && !d.outward then prefetchRuns s t slot.toNat kv d o p else s

/-- `TMOVE`. -/
def execTmove (t : TileId) (slot : BitVec 6) (sem loc : BitVec 4) (k : BitVec 3) (indexed : Bool) (s : State) : Out :=
  word s t (fun s => issueTmove s t slot sem loc k indexed)

end Sys2Proof.Machine
end

