-- ==== Sys2Proof/Machine/FriezeBase.lean ====
section
/-! DEFINITION. The Frieze requests of a T3 transfer (R132, R460, R468, R484). -/

namespace Sys2Proof.Machine

/-! ### T3 requests (R132, R460, R468, R484) -/

/-- Cut a byte range into requests of at most 4,096 bytes in whole 64-byte blocks (R460). -/
def requestSpans (addr bytes : Nat) : List (Nat × Nat) :=
  let lo := addr / 64 * 64
  let hi := (addr + bytes + 63) / 64 * 64
  (List.range ((hi - lo + 4095) / 4096)).map (fun i => (lo + 4096 * i, min 4096 (hi - lo - 4096 * i)))

/-- Send one T3 request and remember it; an invalid route fails the move (R140, R468). -/
def sendT3 (s : State) (r : T3Req) (vc : Nat) : State × Bool :=
  let tag := r.tag.toNat + r.attempt.toNat * 2 ^ 28
  let body := if r.isRead then [] else s.hostMem.read (peerKey r.address) r.bytes
  let q := sendFrame s (if r.isRead then 1 else 0) r.node vc r.address tag r.bytes body
  ({ q.1 with fab := { q.1.fab with t3 := q.1.fab.t3 ++ [r] } }, q.2)

/-- A fresh transaction tag. -/
def newTag (s : State) : BitVec 28 × State :=
  (BitVec.ofNat 28 s.fab.nextTag, { s with fab := { s.fab with nextTag := (s.fab.nextTag + 1) % 2 ^ 28 } })

/-- The link of the route to a node carries frames, or the route is being changed and its frames wait (R140, R472, R480). -/
def linkCarries (s : State) (node : Nat) : Bool :=
  match routeTo s node with
  | some r => r.held || r.isLocal || (fport s r.port).state == 3 || (fport s r.port).state == 5
  | none => false

/-- Start a T3 transfer on an engine: every request of its pieces is sent; outward data is laid into the peer's view first, whose other bytes fill whole blocks (R131, R460, assumption 28). False when the link is down or the reservation gone (R140). -/
def startPeer (s : State) (p engine : Nat) (r : Run) (i vc : Nat) : State × Bool :=
  match runObj s r with
  | none => (s, false)
  | some (_, pl) =>
    if !resHeld s pl || !linkCarries s pl.node then (s, false)
    else
      let ps := r.desc.pieces r.offset r.scaleOff i
      let s := if r.desc.outward then forEach ps s (fun s x => copyPiece s r pl [] x) else s
      let spans := (ps.map (fun x => requestSpans (pl.addr + x.off) x.bytes)).flatten
      spans.foldl (fun acc a =>
        let t := newTag acc.1
        let q := sendT3 t.2 { tag := t.1, node := nodeOf a.1, attempt := 0, isRead := !r.desc.outward, address := a.1
                              bytes := a.2, job := r.job, partition := p, engine := engine } vc
        (q.1, acc.2 && q.2)) (s, true)

end Sys2Proof.Machine
end

