-- ==== Sys2Proof/Machine/FriezeRoute.lean ====
section
/-! DEFINITION. The registrar's work and a node's part in it: the tree and its routes, node IDs, route updates in two phases, and the failure of reservations (R473 to R476, R479, R480, R485). -/

namespace Sys2Proof.Machine

/-! ### The topology that reports describe (R474, R479) -/

/-- What a node reports of itself (R474). -/
def ownReport (s : State) : Report :=
  { identity := s.boot.identity, bootCount := s.boot.bootCount, nodeId := if s.fab.joined then s.fab.node else 0xFFFF
    preferred := setting s 0x0001 0x3FF, assigned := s.fab.assigned
    ports := s.fab.ports.toList.map (fun p => { state := p.state, partnerPort := p.partnerPort, partnerNode := p.partnerNode }) }

/-- A report names an UP port to a node. -/
def reportsLink (r : Report) (node : Nat) : Bool := r.ports.any (fun p => p.state == 3 && p.partnerNode == node)

/-- The UP links of a set of reports: node, port, neighbour. A link whose two ends have reported counts while both name it; the far end of one that has not reported is seen from the near end. -/
def links (rs : List Report) : List (Nat × Nat × Nat) :=
  let one := fun (r : Report) => (r.ports.zipIdx.map (fun e =>
    if e.1.state = 3 ∧ e.1.partnerNode < 1024 ∧ r.nodeId < 1024 then
      match rs.find? (fun q => q.nodeId == e.1.partnerNode) with
      | some q => if reportsLink q r.nodeId then [(r.nodeId, e.2, e.1.partnerNode)] else []
      | none => [(r.nodeId, e.2, e.1.partnerNode), (e.1.partnerNode, e.1.partnerPort, r.nodeId)]
    else [])).flatten
  ((rs.map one).flatten).eraseDups

/-- The neighbours of a node, each once. -/
def neighbours (ls : List (Nat × Nat × Nat)) (x : Nat) : List Nat := ((ls.filter (fun l => l.1 == x)).map (fun l => l.2.2)).eraseDups

/-- One more level of the tree: nodes next to the last level that have none yet. -/
def nextLevel (ls : List (Nat × Nat × Nat)) (acc : List (Nat × Nat)) (last : List Nat) : List Nat :=
  (((last.map (neighbours ls)).flatten).eraseDups).filter (fun x => !acc.any (fun e => e.1 == x))

/-- The levels of the nodes that the root reaches (R479). -/
def levels (ls : List (Nat × Nat × Nat)) : Nat → Nat → List (Nat × Nat) → List Nat → List (Nat × Nat)
  | 0, _, acc, _ => acc
  | n + 1, l, acc, last =>
    let new := nextLevel ls acc last
    if new.isEmpty then acc else levels ls n (l + 1) (acc ++ new.map (fun x => (x, l + 1))) new

/-- The level of a node. -/
def levelOf (lv : List (Nat × Nat)) (x : Nat) : Option Nat := (lv.find? (fun e => e.1 == x)).map (fun e => e.2)

/-- The lowest of some numbers. -/
def lowest (xs : List Nat) : Option Nat := (sortBy (fun a b => a < b) xs).head?

/-- The parent of a node: its neighbour one level up with the lowest ID (R479). -/
def parentOf (ls : List (Nat × Nat × Nat)) (lv : List (Nat × Nat)) (x : Nat) : Option Nat :=
  match levelOf lv x with
  | some (l + 1) => lowest ((neighbours ls x).filter (fun y => levelOf lv y == some l))
  | _ => none

/-- Whether the chain of parents of `d` passes through `a` (R479). -/
def inSubtree (ls : List (Nat × Nat × Nat)) (lv : List (Nat × Nat)) (a : Nat) : Nat → Nat → Bool
  | 0, _ => false
  | n + 1, d => d == a || (match parentOf ls lv d with
    | some p => inSubtree ls lv a n p
    | none => false)

/-- The neighbour that a route from `x` to `d` takes (R479, step 4). -/
def nextHop (ls : List (Nat × Nat × Nat)) (lv : List (Nat × Nat)) (x d : Nat) : Option Nat :=
  let ns := neighbours ls x
  if ns.contains d then some d
  else
    let down := ns.filter (fun y => levelOf lv y == (levelOf lv x).map (· + 1) && inSubtree ls lv y lv.length d)
    match lowest down with
    | some y => some y
    | none => parentOf ls lv x

/-- The output port towards a neighbour: the (d mod k)-th lowest of the k that lead there (R479, step 5). -/
def outPort (ls : List (Nat × Nat × Nat)) (x y d : Nat) : Nat :=
  let ps := sortBy (fun a b => a < b) ((ls.filter (fun l => l.1 == x && l.2.2 == y)).map (fun l => l.2.1))
  ps.getD (d % ps.length) 0

/-- The hops of a route. -/
def hopCount (ls : List (Nat × Nat × Nat)) (lv : List (Nat × Nat)) (d : Nat) : Nat → Nat → Nat
  | 0, _ => 0
  | n + 1, x =>
    if x = d then 0
    else match nextHop ls lv x d with
      | some y => 1 + hopCount ls lv d n y
      | none => 0

/-- The route table of node `x` (R479). -/
def tableOf (ls : List (Nat × Nat × Nat)) (lv : List (Nat × Nat)) (x : Nat) : List RouteEntry :=
  lv.filterMap (fun e =>
    if e.1 = x then some { dest := x, port := 0, valid := true, hops := 0 }
    else (nextHop ls lv x e.1).map (fun y =>
      { dest := e.1, port := outPort ls x y e.1, valid := true, hops := hopCount ls lv e.1 lv.length x }))

/-- The entries of a node that change (R480). -/
def changed (old new : List RouteEntry) : List RouteEntry :=
  new.filter (fun e => !old.contains e) ++
  (old.filter (fun e => !new.any (fun f => f.dest == e.dest))).map (fun e => { dest := e.dest, port := 0xFF, valid := false, hops := 0 })

/-- The links and levels of an island under its registrar. -/
def tree (rs : List Report) (root : Nat) : List (Nat × Nat × Nat) × List (Nat × Nat) :=
  let ls := links rs
  (ls, levels ls 1024 0 [(root, 0)] [root])

/-! ### Reservations that fail (R485) -/

/-- The object is a spill or a park object: its jobs continue when it is lost (R485). -/
def spillOrPark (s : State) (oid : Nat) : Bool :=
  s.kv.dir.any (fun e => e.2.spillObject == oid) ||
  s.jobs.any (fun e => jobPark s e.2 == some oid || (match s.image? e.2.image with
    | some im => im.attns.any (fun a => a.spill.bind e.2.slotObj == some oid)
    | none => false))

/-- The runs of the clusters with transfers in progress to an object. -/
def runsTo (s : State) (oid : Nat) : List (Nat × Run) :=
  (allClusters.map (fun c => ((s.cluster c).runs.filter (fun r => r.object == oid && !r.inProgress.isEmpty)).map (fun r => (c, r)))).flatten

/-- Moves in progress to an object fail (R140, R485). -/
def failMoves (s : State) (oid : Nat) : State := failRuns s (runsTo s oid)

/-- The job of an object's binding, 0 without one (R486). -/
def bindingJob (s : State) (oid : Nat) : Nat :=
  match s.jobs.find? (fun e => e.2.bindings.any (fun b => b.object == oid)) with
  | some e => e.1
  | none => 0

/-- A reservation fails at its holder: its moves, detector 0x52 with cause 2, and the loss of its object (R485, R486). -/
def failReservation (s : State) (r : Reservation) : State :=
  let s := { s with fab := { s.fab with
    heldRes := s.fab.heldRes.erase r, resvFailures := min 0xFFFFFFFF (s.fab.resvFailures + 1) } }
  let job := bindingJob s r.object
  let s := failMoves s r.object
  let s := raise s (mkEvent 0x52 0xFF job 2 job (r.id + r.node * 2 ^ 32))
  if spillOrPark s r.object then
    let s := { s with objects := s.objects.map (fun e => if e.1 = r.object then (e.1, { e.2 with lost := true }) else e) }
    breakStreams (losePages s (fun o => o == r.object)) (fun o => o == r.object)
  else loseObjects s (fun o => o == r.object) 0xFF

/-- A grantor reclaims and counts a range, and raises nothing (R485). -/
def reclaim (s : State) (gone : Reservation → Bool) : State :=
  let n := (s.fab.granted.filter gone).length
  { s with fab := { s.fab with
    granted := s.fab.granted.filter (fun r => !gone r), resvFailures := min 0xFFFFFFFF (s.fab.resvFailures + n) } }

/-- Every reservation with a node fails, as holder and as grantor (R485). -/
def loseNode (s : State) (node : Nat) : State :=
  let s := forEach (s.fab.heldRes.filter (fun r => r.node == node)) s failReservation
  reclaim s (fun r => r.node == node)

/-! ### T3 requests that fail (R140, R141, R461, R468) -/

/-- The cluster, run and transfer that a T3 request serves. -/
def runOfT3 (s : State) (r : T3Req) : Option (Nat × Run × Nat) :=
  ((s.part r.partition).arb.engines.toList.getD r.engine none).bind (fun g => g.req.move.bind (fun m =>
    ((s.cluster m.1.toNat).runs.find? (fun x => x.id == m.2.1)).map (fun x => (m.1.toNat, x, m.2.2))))

/-- A T3 request fails its move (R140). -/
def failT3 (s : State) (r : T3Req) : State :=
  let run := runOfT3 s r
  let s := { s with fab := { s.fab with t3 := s.fab.t3.erase r } }
  match run with
  | some (c, x, i) => failRun s c x [i] 0
  | none => s

/-! ### Phases of a route update (R480) -/

/-- Install or replace a route, its destination kept once. -/
def putRoute (rs : List Route) (r : Route) : List Route := rs.filter (fun x => x.dest != r.dest) ++ [r]

/-- A frame of a route, not a link-local message. -/
def TxFrame.routed (f : TxFrame) : Bool := !(f.ty == 4 && f.body.getD 2 0 &&& 1 == 1)

/-- Frames that wait for destinations leave their ports and follow the routes in force; those without a route are dropped (R480). -/
def rerouteWaiting (s : State) (dests : List Nat) : State :=
  let mine := fun (f : TxFrame) => f.routed && dests.contains f.dest.toNat
  let fs := (s.fab.ports.toList.map (fun p => p.waiting.filter mine)).flatten
  let s := { s with fab := { s.fab with ports := s.fab.ports.map (fun p => { p with waiting := p.waiting.filter (fun f => !mine f) }) } }
  forEach fs s (fun s f => (forward s f).1)

/-- An entry that an update makes invalid: at once, with the frames that wait for it and the moves and reservations that need it (R480, R485). -/
def invalidate (s : State) (dest : Nat) : State :=
  let s := { s with fab := { s.fab with routes := s.fab.routes.map (fun r => if r.dest = dest then { r with valid := false, held := false } else r) } }
  let s := rerouteWaiting s [dest]
  let s := forEach (s.fab.t3.filter (fun r => r.node == dest)) s (fun s r => if s.fab.t3.contains r then failT3 s r else s)
  loseNode s dest

/-- A destination whose entry changes is held (R480). -/
def holdDest (rs : List Route) (dest : Nat) : List Route :=
  match rs.find? (fun r => r.dest == dest) with
  | some r => putRoute rs { r with held := true }
  | none => putRoute rs { dest := dest, valid := false, isLocal := false, port := 0, hops := 0, held := true }

/-- The nodes of the island: the destinations this node can reach, itself among them (R482). -/
def nodesReached (rs : List Route) : Nat := (rs.filter (fun r => r.valid)).length

/-- A released update takes effect (R480). -/
def install (s : State) : State :=
  let es := s.fab.pendingRoutes
  let dests := es.map (fun e => e.dest)
  let rs := es.foldl (fun rs e => putRoute rs
    { dest := e.dest, valid := true, isLocal := e.dest == s.fab.node, port := e.port, hops := e.hops, held := false }) s.fab.routes
  let rs := rs.filter (fun r => r.valid)
  let s := { s with fab := { s.fab with
    routes := rs, pendingRoutes := [], updating := 0, routeUpdates := min 0xFFFFFFFF (s.fab.routeUpdates + 1), joined := true
    nodes := nodesReached rs } }
  forEach (List.range 6) (rerouteWaiting s dests) pumpPort

/-- A fresh sequence number for a management request (R461). -/
def mgmtSeq (s : State) : Nat × State :=
  (s.fab.nextSeq, { s with fab := { s.fab with nextSeq := (s.fab.nextSeq + 1) % 2 ^ 32 } })

/-- Send a routed management request with its own sequence number. -/
def ask (s : State) (kind flags node : Nat) (body : List Byte) : State :=
  let q := mgmtSeq s
  sendMgmt q.2 kind flags node 0 q.1 body

/-- Every node has reported: the registrar releases the entries (R480). -/
def releaseAll (s : State) : State :=
  let others := (s.fab.topo.map (fun r => r.nodeId)).filter (fun n => n != s.fab.node && decide (n < 1024))
  let s := forEach others s (fun s n => ask s 0x15 0 n (leBytes 4 s.fab.generation))
  install { s with fab := { s.fab with installed := s.fab.topo } }

/-- The registrar notes that a node has done phase 1 (R480). -/
def phaseDoneBy (s : State) (node : Nat) : State :=
  let left := s.fab.phaseWait.filter (fun n => n != node)
  let s' := { s with fab := { s.fab with phaseWait := left } }
  if left.isEmpty ∧ s.fab.phaseWait.isEmpty = false then releaseAll s' else s'

/-- This node reports its phase 1 done (R480). -/
def reportPhaseDone (s : State) : State :=
  let s := { s with fab := { s.fab with updating := 0 } }
  if s.fab.registrar then phaseDoneBy s s.fab.node
  else ask s 0x14 0 s.fab.registrarNode (leBytes 4 s.fab.generation)

/-- T3 requests outstanding to held destinations. -/
def openToHeld (s : State) : List T3Req := s.fab.t3.filter (fun r => heldDest s r.node)

/-- Phase 1 ends once no transfer to a held destination is outstanding (R480). -/
def checkPhase (s : State) : State :=
  if s.fab.updating ≠ 0 ∧ (openToHeld s).isEmpty = true then reportPhaseDone s else s

/-- An entry is the route in force: it changes nothing, and its destination is not held (R480). -/
def inForce (s : State) (e : RouteEntry) : Bool :=
  s.fab.routes.any (fun r => r.dest == e.dest && r.valid && !r.held && r.hops == e.hops &&
    (if r.isLocal then e.dest == s.fab.node else r.port == e.port))

/-- Phase 1 of an update at this node: only the destinations whose entries change are held (R480). -/
def phaseOne (s : State) (gen : Nat) (es : List RouteEntry) (final : Bool) : State :=
  let bad := es.filter (fun e => !e.valid)
  let good := es.filter (fun e => e.valid && !inForce s e)
  let split := bad.any (fun e => (routeTo s e.dest).isSome)
  let s := { s with fab := { s.fab with
    generation := gen, splits := if split then min 0xFFFFFFFF (s.fab.splits + 1) else s.fab.splits
    routes := good.foldl (fun rs e => holdDest rs e.dest) s.fab.routes
    pendingRoutes := s.fab.pendingRoutes.filter (fun p => !es.any (fun e => e.dest == p.dest)) ++ good } }
  let s := forEach bad s (fun s e => invalidate s e.dest)
  let s := { s with fab := { s.fab with nodes := nodesReached s.fab.routes } }
  if final then checkPhase { s with fab := { s.fab with updating := gen } } else s

/-! ### The registrar recomputes (R480) -/

/-- Pieces of at most `n` entries. -/
def piecesOf {α : Type} (n : Nat) : Nat → List α → List (List α)
  | 0, _ => []
  | k + 1, xs => if xs.isEmpty then [] else xs.take n :: piecesOf n k (xs.drop n)

/-- A route entry of a message (R461, kind 0x0013). -/
def routeBytes (e : RouteEntry) : List Byte :=
  leBytes 2 e.dest ++ leBytes 1 (if e.valid then e.port else 0xFF) ++ leBytes 1 (if e.valid then 1 else 0) ++ leBytes 2 e.hops ++ leBytes 2 0

/-- Send a node its changed entries, at most 500 in a message, the last marked (R461, R480). -/
def sendRoutes (s : State) (gen node : Nat) (es : List RouteEntry) : State :=
  let ps := piecesOf 500 es.length es
  forEach ps.zipIdx s (fun s p => ask s 0x13 (if p.2 + 1 = ps.length then 4 else 0) node
    (leBytes 4 gen ++ leBytes 2 p.1.length ++ leBytes 2 0 ++ (p.1.map routeBytes).flatten))

/-- The table that a set of reports gave a node: empty where the node was not among them, so a newcomer or a new registrar's node is sent its whole table (R474, R480). -/
def tableFrom (s : State) (rs : List Report) (x : Nat) : List RouteEntry :=
  match rs.find? (fun r => r.identity == s.boot.identity) with
  | some r => let t := tree rs r.nodeId; if rs.any (fun q => q.nodeId == x) then tableOf t.1 t.2 x else []
  | none => []

/-- This node's own table as it stands. -/
def ownTable (s : State) : List RouteEntry :=
  (s.fab.routes.filter (fun r => r.valid)).map (fun r => { dest := r.dest, port := if r.isLocal then 0 else r.port, valid := true, hops := r.hops })

/-- The entries that differ for this node: from its table and from an update in progress; what the last trees reached and the new one does not becomes invalid (R480). -/
def ownChanges (s : State) (new : List RouteEntry) : List RouteEntry :=
  let had := tableFrom s s.fab.topo s.fab.node ++ tableFrom s s.fab.installed s.fab.node
  let mine := (ownTable s).filter (fun e => new.any (fun f => f.dest == e.dest) || had.any (fun f => f.dest == e.dest))
  changed mine new ++ new.filter (fun e => mine.contains e && s.fab.pendingRoutes.any (fun q => q.dest == e.dest && q != e))

/-- The entries that differ for another node: from the table it holds and from the last it was sent. -/
def peerChanges (s : State) (x : Nat) (new : List RouteEntry) : List RouteEntry :=
  (changed (tableFrom s s.fab.installed x) new ++ changed (tableFrom s s.fab.topo x) new).eraseDups

/-- The registrar recomputes the routes from the reports it holds and sends each node the entries that differ; nodes it no longer reaches free their IDs (R475, R479, R480). -/
def recompute (s : State) : State :=
  if !s.fab.registrar then s
  else
    let rs := ownReport s :: s.fab.reports
    let new := tree rs s.fab.node
    let reached := rs.filter (fun r => (levelOf new.2 r.nodeId).isSome)
    let diff := fun (x : Nat) =>
      let t := tableOf new.1 new.2 x
      if x = s.fab.node then ownChanges s t else peerChanges s x t
    let diffs := (reached.map (fun r => (r.nodeId, diff r.nodeId))).filter (fun d => !d.2.isEmpty)
    let s := { s with fab := { s.fab with
      topo := reached, reports := s.fab.reports.filter (fun r => reached.contains r) } }
    if diffs.isEmpty then s
    else
      let gen := (s.fab.generation + 1) % 2 ^ 32
      let s := { s with fab := { s.fab with generation := gen, phaseWait := (diffs.map (fun d => d.1)).eraseDups } }
      let s := forEach (diffs.filter (fun d => d.1 != s.fab.node)) s (fun s d => sendRoutes s gen d.1 d.2)
      match diffs.find? (fun d => d.1 == s.fab.node) with
      | some d => phaseOne s gen d.2 true
      | none => s

/-! ### Reports and IDs (R474 to R476) -/

/-- The bytes of a report (R461, kind 0x0011). -/
def reportBytes (r : Report) : List Byte :=
  leBytes 16 r.identity ++ leBytes 4 r.bootCount ++ leBytes 2 r.nodeId ++ leBytes 2 r.preferred ++ leBytes 8 r.assigned ++
  ((List.range 6).map (fun i => match r.ports[i]? with
    | some p => leBytes 1 p.state ++ leBytes 1 p.partnerPort ++ leBytes 2 p.partnerNode ++ leBytes 4 0
    | none => List.replicate 8 0)).flatten

/-- This node's report changes: it reports to its registrar, or recomputes as registrar (R474, R480). -/
def reportOwn (s : State) : State :=
  if s.fab.registrar then recompute s else ask s 0x11 0 s.fab.registrarNode (reportBytes (ownReport s))

/-- The ID a node without one receives (R475). -/
def freeId (used prefs : List Nat) (preferred : Nat) : Option Nat :=
  if preferred ≠ 0x3FF ∧ preferred < 1024 ∧ used.contains preferred = false then some preferred
  else
    let free := (List.range 1024).filter (fun n => !used.contains n)
    match free.find? (fun n => !prefs.contains n) with
    | some n => some n
    | none => free.head?

/-- IDs in use and preferred IDs of the joined nodes, one identity left out. -/
def idsExcept (s : State) (identity : Nat) : List Nat × List Nat :=
  let rs := (ownReport s :: s.fab.reports).filter (fun r => r.identity != identity && decide (r.nodeId < 1024))
  (rs.map (fun r => r.nodeId), (rs.map (fun r => r.preferred)).filter (fun n => n != 0x3FF))

/-- Mailboxes that a Frieze node of the old ID owns halt with halt_cause 2 (R476). -/
def haltNode (s : State) (old : Nat) : State :=
  forEach (List.range 16) s (fun s k =>
    let b := s.box (BitVec.ofNat 4 k)
    if b.path1 && b.node.toNat == old then haltBox s (BitVec.ofNat 4 k) 2 else s)

/-- This node takes an ID; one that held another is renumbered with its effects (R475, R476, R486). -/
def takeId (s : State) (new assigned : Nat) : State :=
  let old := s.fab.node
  if s.fab.joined ∧ old ≠ new then
    let s := forEach s.fab.heldRes s failReservation
    let s := reclaim s (fun _ => true)
    let s := haltNode s old
    let s := raise s (mkEvent 0x54 0xFF 0 0 0 (old + new * 2 ^ 16))
    { s with fab := { s.fab with
      node := new, assigned := assigned, renumberings := min 0xFFFF (s.fab.renumberings + 1)
      routes := (s.fab.routes.filter (fun r => !r.isLocal)) } }
  else { s with fab := { s.fab with node := new, assigned := assigned, joined := true } }

/-- The registrar tells a node its ID (R461, kind 0x0012). -/
def sendId (s : State) (node identity new assigned : Nat) : State :=
  ask s 0x12 0 node (leBytes 16 identity ++ leBytes 2 new ++ leBytes 6 0 ++ leBytes 8 assigned)

/-- Give a node a new ID: this node, or one that has reported, whose old ID no mailbox here may name any more (R475, R476). -/
def renumber (s : State) (r : Report) : State × Nat :=
  let u := idsExcept s r.identity
  let used := if r.nodeId < 1024 then r.nodeId :: u.1 else u.1
  match freeId used u.2 r.preferred with
  | none => (s, r.nodeId)
  | some id => if r.identity = s.boot.identity then (takeId s id s.now, id) else (sendId (haltNode s r.nodeId) r.nodeId r.identity id s.now, id)

/-- Keep one report per identity. -/
def putReport (s : State) (r : Report) : State :=
  { s with fab := { s.fab with reports := s.fab.reports.filter (fun x => x.identity != r.identity) ++ [r] } }

/-- A node whose boot count has changed keeps none of its reservations (R485). -/
def noteBoot (s : State) (r : Report) : State :=
  match s.fab.reports.find? (fun x => x.identity == r.identity) with
  | some x => if x.bootCount = r.bootCount then s else loseNode s x.nodeId
  | none => s

/-- The registrar takes a report: IDs, conflicts, routes (R474 to R476, R480). -/
def takeReport (s : State) (r : Report) : State :=
  let s := noteBoot s r
  let s :=
    if 1024 ≤ r.nodeId then
      let q := renumber s r
      putReport q.1 { r with nodeId := q.2, assigned := s.now }
    else match (ownReport s :: s.fab.reports).find? (fun x => x.identity != r.identity && x.nodeId == r.nodeId) with
      | none => putReport s r
      | some x =>
        let rLoses := decide (x.assigned < r.assigned) || (x.assigned == r.assigned && decide (x.identity < r.identity))
        if rLoses then
          let q := renumber s r
          putReport q.1 { r with nodeId := q.2, assigned := s.now }
        else
          let q := renumber (putReport s r) x
          if x.identity = s.boot.identity then q.1 else putReport (loseNode q.1 x.nodeId) { x with nodeId := q.2, assigned := s.now }
  recompute s

/-- This node is its own registrar, with the ID it holds or the one R475 gives it (R473). -/
def standAlone (s : State) : State :=
  let s := { s with fab := { s.fab with
    registrar := true, registrarIdentity := s.boot.identity, registrarBoot := s.boot.bootCount, hearPort := none
    reports := [], topo := [], installed := [], phaseWait := [] } }
  let s := if s.fab.joined then s
    else match freeId [] [] (setting s 0x0001 0x3FF) with
      | some id => takeId s id s.now
      | none => s
  recompute { s with fab := { s.fab with registrarNode := s.fab.node } }

end Sys2Proof.Machine
end

