-- ==== Sys2Proof/Machine/Crypto.lean ====
section
/-! DEFINITION. SHA-256, HMAC and HKDF, ECDSA on P-256 with the nonce of RFC 6979, CRC-32: the standards that chapters 10, 14 and 15 name (R84, R460, R491, R492, R505). -/

namespace Sys2Proof.Machine

/-! ### SHA-256 (FIPS 180-4) -/

/-- The round constants. -/
def shaK : List Word :=
  [0x428a2f98, 0x71374491, 0xb5c0fbcf, 0xe9b5dba5, 0x3956c25b, 0x59f111f1, 0x923f82a4, 0xab1c5ed5,
   0xd807aa98, 0x12835b01, 0x243185be, 0x550c7dc3, 0x72be5d74, 0x80deb1fe, 0x9bdc06a7, 0xc19bf174] ++
  [0xe49b69c1, 0xefbe4786, 0x0fc19dc6, 0x240ca1cc, 0x2de92c6f, 0x4a7484aa, 0x5cb0a9dc, 0x76f988da,
   0x983e5152, 0xa831c66d, 0xb00327c8, 0xbf597fc7, 0xc6e00bf3, 0xd5a79147, 0x06ca6351, 0x14292967] ++
  [0x27b70a85, 0x2e1b2138, 0x4d2c6dfc, 0x53380d13, 0x650a7354, 0x766a0abb, 0x81c2c92e, 0x92722c85,
   0xa2bfe8a1, 0xa81a664b, 0xc24b8b70, 0xc76c51a3, 0xd192e819, 0xd6990624, 0xf40e3585, 0x106aa070] ++
  [0x19a4c116, 0x1e376c08, 0x2748774c, 0x34b0bcb5, 0x391c0cb3, 0x4ed8aa4a, 0x5b9cca4f, 0x682e6ff3,
   0x748f82ee, 0x78a5636f, 0x84c87814, 0x8cc70208, 0x90befffa, 0xa4506ceb, 0xbef9a3f7, 0xc67178f2]

/-- The initial hash value. -/
def shaInit : List Word :=
  [0x6a09e667, 0xbb67ae85, 0x3c6ef372, 0xa54ff53a, 0x510e527f, 0x9b05688c, 0x1f83d9ab, 0x5be0cd19]

/-- Rotate right. -/
def ror (x : Word) (n : Nat) : Word := x.rotateRight n

/-- Extend the message schedule by one word; the newest word is first. -/
def shaExtend (ws : List Word) : List Word :=
  let w15 := ws.getD 14 0; let w2 := ws.getD 1 0
  let s0 := ror w15 7 ^^^ ror w15 18 ^^^ (w15 >>> 3)
  let s1 := ror w2 17 ^^^ ror w2 19 ^^^ (w2 >>> 10)
  (ws.getD 15 0 + s0 + ws.getD 6 0 + s1) :: ws

/-- The 64 words of the schedule of a block. -/
def shaSchedule (block : List Word) : List Word :=
  ((List.range 48).foldl (fun ws _ => shaExtend ws) block.reverse).reverse

/-- One round. -/
def shaRound (v : List Word) (kw : Word × Word) : List Word :=
  match v with
  | [a, b, c, d, e, f, g, h] =>
    let t1 := h + (ror e 6 ^^^ ror e 11 ^^^ ror e 25) + ((e &&& f) ^^^ (~~~e &&& g)) + kw.1 + kw.2
    let t2 := (ror a 2 ^^^ ror a 13 ^^^ ror a 22) + ((a &&& b) ^^^ (a &&& c) ^^^ (b &&& c))
    [t1 + t2, a, b, c, d + t1, e, f, g]
  | _ => v

/-- One block. -/
def shaBlock (h : List Word) (block : List Word) : List Word :=
  (h.zip ((shaK.zip (shaSchedule block)).foldl shaRound h)).map (fun p => p.1 + p.2)

/-- Groups of `n` bytes. -/
def groupsOf (n : Nat) (bs : List Byte) : List (List Byte) :=
  (List.range ((bs.length + n - 1) / n)).map (fun i => slice bs (n * i) n)

/-- SHA-256 of a byte sequence: 32 bytes. -/
def sha256 (bs : List Byte) : List Byte :=
  let pad := bs ++ [0x80] ++ List.replicate ((119 - bs.length % 64) % 64) 0 ++ beBytes 8 (8 * bs.length)
  let blocks := (groupsOf 64 pad).map (fun b => (groupsOf 4 b).map (fun w => BitVec.ofNat 32 (ofBe w)))
  ((blocks.foldl shaBlock shaInit).map (fun w => beBytes 4 w.toNat)).flatten

/-- HMAC-SHA-256 (FIPS 198-1). -/
def hmac (key msg : List Byte) : List Byte :=
  let k := padTo 64 (if 64 < key.length then sha256 key else key)
  sha256 (k.map (fun b => b ^^^ 0x5C) ++ sha256 (k.map (fun b => b ^^^ 0x36) ++ msg))

/-- HKDF-SHA-256 (RFC 5869): extract with a salt, expand with an info string. -/
def hkdf (salt ikm info : List Byte) (len : Nat) : List Byte :=
  let prk := hmac salt ikm
  let r := (List.range ((len + 31) / 32)).foldl (fun (acc : List Byte × List Byte) i =>
    let t := hmac prk (acc.1 ++ info ++ [BitVec.ofNat 8 (i + 1)])
    (t, acc.2 ++ t)) ([], [])
  r.2.take len

/-! ### P-256 (FIPS 186-5, SP 800-186) -/

/-- The field prime. -/
def p256p : Nat := 0xffffffff00000001000000000000000000000000ffffffffffffffffffffffff
/-- The order of the base point. -/
def p256n : Nat := 0xffffffff00000000ffffffffffffffffbce6faada7179e84f3b9cac2fc632551
/-- The coefficient b. -/
def p256b : Nat := 0x5ac635d8aa3a93e7b3ebbd55769886bc651d06b0cc53b0f63bce3c3e27d2604b
/-- The base point. -/
def p256g : Nat × Nat :=
  (0x6b17d1f2e12c4247f8bce6e563a440f277037d812deb33a0f4a13945d898c296,
   0x4fe342e2fe1a7f9b8ee7eb4a7c0f9e162bce33576b315ececbb6406837bf51f5)

/-- Modular power, from the exponent's low bit up. -/
def powMod (m : Nat) : Nat → Nat → Nat → Nat → Nat
  | 0, _, _, acc => acc
  | fuel + 1, b, e, acc => powMod m fuel (b * b % m) (e / 2) (if e % 2 = 1 then acc * b % m else acc)

/-- Modular inverse for a prime modulus. -/
def invMod (m a : Nat) : Nat := powMod m 256 (a % m) (m - 2) 1

/-- Subtraction modulo the field prime. -/
def subP (a b : Nat) : Nat := (a + p256p - b % p256p) % p256p

/-- Sum of two points; `none` is the point at infinity. -/
def ptAdd : Option (Nat × Nat) → Option (Nat × Nat) → Option (Nat × Nat)
  | none, q => q
  | p, none => p
  | some (x1, y1), some (x2, y2) =>
    if x1 = x2 ∧ (y1 + y2) % p256p = 0 then none
    else
      let lam := if x1 = x2 then (3 * x1 * x1 + p256p - 3) * invMod p256p (2 * y1) % p256p
        else subP y2 y1 * invMod p256p (subP x2 x1) % p256p
      let x3 := subP (lam * lam) (x1 + x2)
      some (x3, subP (lam * subP x1 x3) y1)

/-- Scalar multiple, from the scalar's low bit up. -/
def ptMul : Nat → Nat → Option (Nat × Nat) → Option (Nat × Nat) → Option (Nat × Nat)
  | 0, _, _, acc => acc
  | fuel + 1, k, p, acc => ptMul fuel (k / 2) (ptAdd p p) (if k % 2 = 1 then ptAdd acc p else acc)

/-- k · P. -/
def scalarMul (k : Nat) (p : Nat × Nat) : Option (Nat × Nat) := ptMul 256 k (some p) none

/-- A point of the curve. -/
def onCurve (q : Nat × Nat) : Bool :=
  decide (q.1 < p256p) && decide (q.2 < p256p) &&
  decide (q.2 * q.2 % p256p = (q.1 * q.1 * q.1 + (p256p - 3) * q.1 + p256b) % p256p)

/-- The public key of a private key. -/
def publicKey (d : Nat) : Nat × Nat := (scalarMul d p256g).getD (0, 0)

/-- ECDSA verification of a hash (FIPS 186-5). -/
def ecdsaVerify (q : Nat × Nat) (hash : List Byte) (r s : Nat) : Bool :=
  if r = 0 ∨ p256n ≤ r ∨ s = 0 ∨ p256n ≤ s ∨ onCurve q = false then false
  else
    let w := invMod p256n s
    let u1 := ofBe hash * w % p256n
    let u2 := r * w % p256n
    match ptAdd (scalarMul u1 p256g) (scalarMul u2 q) with
    | some (x, _) => x % p256n == r
    | none => false

/-- Candidate nonces of RFC 6979 section 3.2: the first in range whose signature is valid. -/
def rfc6979 (d e : Nat) : Nat → List Byte → List Byte → Nat × Nat
  | 0, _, _ => (0, 0)
  | fuel + 1, k, v =>
    let v := hmac k v
    let c := ofBe v
    let r := if 0 < c ∧ c < p256n then ((scalarMul c p256g).map Prod.fst).getD 0 % p256n else 0
    let s := if r = 0 then 0 else invMod p256n c * (e + r * d) % p256n
    if r ≠ 0 ∧ s ≠ 0 then (r, s)
    else
      let k := hmac k (v ++ [0])
      rfc6979 d e fuel k (hmac k v)

/-- Deterministic ECDSA signature of a hash (R492). -/
def ecdsaSign (d : Nat) (hash : List Byte) : Nat × Nat :=
  let x := beBytes 32 d
  let h := beBytes 32 (ofBe hash % p256n)
  let v0 := List.replicate 32 (1 : Byte)
  let k1 := hmac (List.replicate 32 0) (v0 ++ [0] ++ x ++ h)
  let v1 := hmac k1 v0
  let k2 := hmac k1 (v1 ++ [1] ++ x ++ h)
  rfc6979 d (ofBe hash % p256n) 16 k2 (hmac k2 v1)

/-- The uncompressed encoding of a key (R491). -/
def keyBytes (q : Nat × Nat) : List Byte := [0x04] ++ beBytes 32 q.1 ++ beBytes 32 q.2

/-- key_id: bytes 0 to 7 of the SHA-256 hash of the key's encoding, as the little-endian field of a block (R84, R492). -/
def keyId (q : Nat × Nat) : Nat := ofLe ((sha256 (keyBytes q)).take 8)

/-- The key of an uncompressed encoding of 65 bytes (R491, R493). -/
def keyOfBytes (bs : List Byte) : Option (Nat × Nat) :=
  if bs.length = 65 ∧ fld bs 0 1 = 4 then some (ofBe (slice bs 1 32), ofBe (slice bs 33 32)) else none

/-! ### CRC-32 (R460) -/

/-- One bit of the reflected CRC-32 of IEEE 802.3. -/
def crcBit (c : Word) : Word := if c.getLsbD 0 then (c >>> 1) ^^^ 0xEDB88320 else c >>> 1

/-- CRC-32 of a byte sequence. -/
def crc32 (bs : List Byte) : Word :=
  ~~~(bs.foldl (fun c b => (List.range 8).foldl (fun c _ => crcBit c) (c ^^^ b.setWidth 32)) 0xFFFFFFFF)

/-! ### The identity key (R505) -/

/-- The first derived value from counter byte `c` on that is a private scalar. -/
def identityScalar : Nat → Nat → Nat
  | 0, _ => 1
  | n + 1, c =>
    let v := ofBe (hkdf [] (beBytes 32 Config.pufSeed) ([0x53, 0x4D, 0x2D, 0x49, 0x44] ++ leBytes 1 c) 32)
    if v = 0 ∨ p256n ≤ v then identityScalar n (c + 1) else v

/-- The private scalar of the identity key. -/
def identityKey : Nat := identityScalar 256 0

/-- The identity that a public key gives: bytes 0 to 15 of the hash of its uncompressed encoding, taken big-endian. -/
def identityOf (q : Nat × Nat) : Nat := ofBe ((sha256 (keyBytes q)).take 16)

/-- The counter key. -/
def counterKey : List Byte := hkdf [] (beBytes 32 Config.pufSeed) [0x53, 0x4D, 0x2D, 0x52, 0x42] 32

/-! ### The counter block (R503, R504) -/

/-- Bytes 0x00 to 0x1F of a counter block. -/
def CounterBlock.bytes (c : CounterBlock) : List Byte :=
  leBytes 4 c.generation ++ leBytes 4 c.fwFloor ++ leBytes 4 c.plinthFloor ++ leBytes 4 c.bootCount ++ leBytes 16 0

/-- The MAC of a counter block: bytes 0 to 15 of the HMAC over its bytes, under the counter key. -/
def CounterBlock.macOf (c : CounterBlock) : Nat := ofLe ((hmac counterKey c.bytes).take 16)

/-- A copy is valid when its MAC holds. -/
def CounterBlock.valid (c : CounterBlock) : Bool := c.mac == c.macOf

/-- The copy that a start reads: the valid one with the higher generation; without the counter key the one with the higher generation, its MAC not asked (R503, R504). -/
def Boot.counterCopy (b : Boot) (key : Bool) : Option CounterBlock :=
  let two := [b.counterA, b.counterB].filter (fun c => !key || c.valid)
  two.foldl (fun best c => match best with
    | some x => if x.generation < c.generation then some c else some x
    | none => some c) none

/-- The counter block as the running firmware holds it, with its MAC and the next generation. -/
def Boot.counterBlock (b : Boot) : CounterBlock :=
  let c : CounterBlock :=
    { generation := (b.counterGen + 1) % 2 ^ 32, fwFloor := b.fwFloor, plinthFloor := b.plinthFloor, bootCount := b.bootCount, mac := 0 }
  { c with mac := c.macOf }

/-- An update writes the older copy, one whose MAC does not hold first; without the counter key none is written (R503, R504). -/
def Boot.writeCounters (b : Boot) : Boot :=
  let c := b.counterBlock
  if !b.identityOk then b
  else if b.counterA.valid && (!b.counterB.valid || decide (b.counterB.generation ≤ b.counterA.generation)) then
    { b with counterB := c, counterGen := c.generation }
  else { b with counterA := c, counterGen := c.generation }

end Sys2Proof.Machine
end

