-- ==== Sys2Proof/Machine/FuseBase.lean ====
section
/-! DEFINITION. Fusion epochs: the sensor table, placing rows, freezing an epoch, poses, gating and row assembly (R312 to R333). -/

namespace Sys2Proof.Machine

/-! ### FP32 operations, one rounding each (R109, R318) -/

/-- FP32 sum. -/
def fadd (x y : Num) : Num := (x.add y).toFp32
/-- FP32 difference. -/
def fsub (x y : Num) : Num := (x.add y.neg).toFp32
/-- FP32 product. -/
def fmul (x y : Num) : Num := (x.mul y).toFp32
/-- FP32 fused multiply-add. -/
def ffma (x y z : Num) : Num := ((x.mul y).add z).toFp32
/-- RNE(n ÷ d) in FP32 (R321, R327). -/
def fquot (n d : Int) : Num := ((Num.ofInt n 0).div (Num.ofInt d 0)).toFp32
/-- The FP32 word of a number. -/
def fword (x : Num) : Word := BitVec.ofNat 32 (fp32.encode .rne x)
/-- The number of an FP32 word. -/
def fnum (w : Word) : Num := f32 w.toNat
/-- An integer as an FP32 word. -/
def fint (v : Int) : Word := fword (.ofInt v 0)

/-! ### The sensor table (R315) -/

/-- One sensor of a table. -/
structure Sensor where
  group : Nat
  enabled : Bool
  gated : Bool
  offset : Int
  sigma : List Num
  gate : Num
  conflict : Num
  cNom : Num
  dropEpochs : Nat
  maxRows : Nat

/-- Decode the 64 bytes of a sensor. -/
def Sensor.ofBytes (b : List Byte) : Sensor :=
  { group := fld b 1 1, enabled := fld b 2 1 % 2 == 1, gated := bits (fld b 2 1) 1 1 == 1
    offset := signed 32 (fld b 4 4), sigma := (List.range 6).map (fun i => f32 (fld b (8 + 4 * i) 4))
    gate := f32 (fld b 0x20 4), conflict := f32 (fld b 0x24 4), cNom := f32 (fld b 0x28 4)
    dropEpochs := fld b 0x2C 2, maxRows := fld b 0x2E 2 }

/-- R315: every value of a sensor lies in its range; reserved bytes are 0. -/
def sensorOk (b : List Byte) : Bool :=
  let x := Sensor.ofBytes b
  decide (fld b 0 1 ≤ 3) && (decide (x.group ≤ 7) || x.group == 0xFF) && decide (fld b 2 1 < 4) && fld b 3 1 == 0 &&
  x.sigma.all Num.positive && x.gate.positive && x.conflict.positive && x.cNom.positive &&
  decide (x.cNom.cmp (.ofInt 1 0) ≤ 0) && decide (1 ≤ x.dropEpochs) && decide (1 ≤ x.maxRows) &&
  decide (x.maxRows ≤ 64) && (slice b 0x30 16).all (fun c => c == 0)

/-- R315: the sensor table is within its stated ranges. -/
def sensorTableOk (b : List Byte) : Bool :=
  let n := fld b 6 1
  let te := fld b 8 4
  slice b 0 4 == [0x53, 0x4D, 0x46, 0x54] && fld b 4 2 == 1 && decide (1 ≤ n) && decide (n ≤ 32) &&
  decide (1 ≤ fld b 7 1) && decide (fld b 7 1 ≤ 4) && decide (250000 ≤ te) && decide (te ≤ 1000000000) && te % 8 == 0 &&
  decide (fld b 0xC 4 ≤ te) && fld b 0xC 4 % 8 == 0 && decide (0x10 + 64 * n ≤ b.length) &&
  (List.range n).all (fun i => sensorOk (slice b (0x10 + 64 * i) 64))

/-- What a fusion job's epochs rest on: its instance and its sensor table. -/
structure FuseEnv where
  inst : InstEntry
  te : Nat
  grace : Nat
  maxLate : Nat
  sensors : List Sensor
  ring : Option Obj
  step : Nat

/-- The `FUSE` instance of an image (R332). -/
def Image.fuse? (im : Image) : Option InstEntry := (im.insts? 0x12).head?

/-- The `EGO` instance of an image (R317). -/
def Image.ego? (im : Image) : Option InstEntry := (im.insts? 0x10).head?

/-- The newest committed step of a pose ring (R320). -/
def newestStep (s : State) (ring : Obj) : Nat := ofLe (objBytes s ring 0 8)

/-- The step length of a pose ring: that of the `EGO` job that writes it; without one, that of its newest entry, whose t_end is (s + 1) × Δe (R317, R320). -/
def poseStep (s : State) (ring : Nat) : Option Nat :=
  let living := s.jobs.findSome? (fun e => match (s.image? e.2.image).bind Image.ego? with
    | some i => if e.2.slotObj i.outSlot = some ring then some (i.dim 0) else none
    | none => none)
  match living with
  | some d => some d
  | none => (s.obj? ring).bind (fun o =>
      let k := newestStep s o
      let d := ofLe (objBytes s o (64 + 80 * (k % 8192)) 8) / (k + 1)
      if d = 0 then none else some d)

/-- The environment of a fusion job. -/
def fuseEnv (s : State) (j : Job) : Option FuseEnv :=
  match (s.image? j.image).bind Image.fuse? with
  | none => none
  | some i => (boundObj s j i.inSlot).map (fun t =>
    let b := objBytes s t 0 t.length
    let ring := bits (i.dim 4) 0 8
    { inst := i, te := max 1 (fld b 8 4), grace := fld b 0xC 4, maxLate := fld b 7 1
      sensors := (List.range (fld b 6 1)).map (fun k => Sensor.ofBytes (slice b (0x10 + 64 * k) 64))
      ring := boundObj s j ring
      step := max 1 (((j.slotObj ring).bind (poseStep s)).getD 1) })

/-- Start of epoch `k` (R323). -/
def epochEdge (f : FuseState) (env : FuseEnv) (k : Nat) : Nat := f.firstEdge + k * env.te

/-- Cutoff of epoch `k` (R323). -/
def epochCutoff (f : FuseState) (env : FuseEnv) (k : Nat) : Nat := epochEdge f env (k + 1) + env.grace

/-- The lowest epoch whose cutoff is at or after a tick (R324). -/
def openEpoch (f : FuseState) (env : FuseEnv) (ta : Nat) : Nat :=
  let c := f.firstEdge + env.grace
  if ta ≤ c + env.te then 0 else (ta - c + env.te - 1) / env.te - 1

/-! ### Placing rows (R313, R314, R316, R324) -/

/-- Bytes of an observation row (R316). -/
def obsBytes (env : FuseEnv) : Nat := 64 + 4 * env.inst.dim 0

/-- Place one arriving row of sensor `k` (R324); an injection of 0x85 delays its arrival by one epoch (R410). -/
def placeRow (s : State) (jid k : Nat) (env : FuseEnv) (f : FuseState) (row : List Byte) (ix : Nat) : State × FuseState :=
  match env.sensors[k]? with
  | none => (s, f)
  | some x =>
    if !x.enabled then (s, f)
    else
      let inj := takeInjection s 0x85 (fun q => injIndex q.target == k && q.param.toNat == jid)
      let s := inj.2
      let ta := s.now + (if inj.1.isSome then env.te else 0)
      let ti : Int := (fld row 0 8 : Int) + x.offset
      if ti > ta + 1000 ∨ ti < f.firstEdge then (s, { f with rejected := f.rejected + 1 })
      else
        let ki := (ti - f.firstEdge).toNat / env.te
        let open_ := openEpoch f env ta
        let r : ObsRow :=
          { sensor := k, epoch := max ki open_, late := decide (ki < open_), instant := ti, ringIndex := ix
            mask := fld row 0x11 1, motion := (List.range 6).map (fun i => BitVec.ofNat 32 (fld row (0x18 + 4 * i) 4))
            features := (List.range (env.inst.dim 0)).map (fun i => BitVec.ofNat 32 (fld row (0x40 + 4 * i) 4)) }
        if open_ ≤ ki then (s, { f with rows := f.rows ++ [r] })
        else
          let s := raiseAs s 0 (injFlags inj.1) (mkEvent 0x85 0xFF jid 0 jid 0)
          if open_ - ki ≤ env.maxLate then (s, { f with rows := f.rows ++ [r] })
          else (s, { f with lateDiscarded := f.lateDiscarded + 1 })

/-- Place the rows of sensor `k`'s ring that the firmware index has not passed, for one fusion job; each takes its arrival (R314, R316). -/
def takeRing (s : State) (jid k : Nat) (env : FuseEnv) (o : Obj) : State :=
  let prod := objWord s o 0
  let cap := max 1 (objWord s o 8)
  let n := min cap ((prod + 2 ^ 32 - objWord s o 4) % 2 ^ 32)
  forEach (List.range n) s (fun s i =>
    match (s.job? jid).bind Job.fuse with
    | none => s
    | some f =>
      let ix := (prod + 2 ^ 32 - n + i) % 2 ^ 32
      let at_ := 64 + ix % cap * obsBytes env
      let s := objWriteBytes s o (at_ + 8) (leBytes 8 s.now)
      let r := placeRow s jid k env f (objBytes s o at_ (obsBytes env)) ix
      match r.1.job? jid with
      | some j => r.1.setJob jid { j with fuse := some r.2 }
      | none => r.1)

/-- Rows have arrived in an object: every fusion job that binds it as an observation ring places them, then the firmware index passes them (R314, R316, R324). -/
def arriveRows (s : State) (oid : Nat) : State :=
  let users := (s.jobs.map (fun e => match fuseEnv s e.2 with
    | some env => (List.range env.sensors.length).filterMap (fun k =>
        if e.2.slotObj (bits (env.inst.dim 4) 16 8 + k) = some oid then some (e.1, k, env) else none)
    | none => [])).flatten
  if users.isEmpty then s
  else match s.obj? oid with
    | none => s
    | some o =>
      let s := forEach users s (fun s u => takeRing s u.1 u.2.1 u.2.2 o)
      objSetWord s o 4 (objWord s o 0)

/-- The rings that an `EGO` job reads: inertial, and encoder unless its slot is 0xFF (R317). -/
def egoRings (im : Image) (j : Job) : List Nat :=
  match im.ego? with
  | none => []
  | some i => (j.slotObj i.inSlot).toList ++ (if bits (i.dim 1) 0 8 = 0xFF then [] else (j.slotObj (bits (i.dim 1) 0 8)).toList)

/-- The stamps of the entries that a ring has taken since its producer index stood at `seen` (R541). -/
def newStamps (s : State) (o : Obj) (seen : Nat) : List Nat :=
  let prod := objWord s o 0; let cap := max 1 (objWord s o 8)
  let n := min cap ((prod + 2 ^ 32 - seen) % 2 ^ 32)
  (List.range n).map (fun i => ofLe (objBytes s o (64 + ((prod + 2 ^ 32 - n + i) % 2 ^ 32) % cap * objWord s o 0xC) 8))

/-- Samples have arrived in an object: an `EGO` job that reads it counts those whose step was processed before (R319). -/
def arriveEgo (s : State) (oid : Nat) : State :=
  match s.obj? oid with
  | none => s
  | some o => { s with jobs := s.jobs.map (fun e => match s.image? e.2.image with
    | none => e
    | some im => match im.ego? with
      | none => e
      | some i =>
        if (egoRings im e.2).contains oid then
          let done := match e.2.invocation with
            | some inv => max inv.epoch e.2.egoStep
            | none => e.2.egoStep
          let late := ((newStamps s o ((e.2.egoSeen.get? oid).getD 0)).filter (fun t => decide (t / max 1 (i.dim 0) < done))).length
          (e.1, { e.2 with egoLate := e.2.egoLate + late, egoLateNew := e.2.egoLateNew || decide (0 < late)
                           egoSeen := e.2.egoSeen.put oid (objWord s o 0) })
        else e) }

/-- An object has taken new contents: its rows and samples arrive (R314, R319). -/
def arrive (s : State) (oid : Nat) : State := arriveRows (arriveEgo s oid) oid

/-! ### Freezing an epoch (R325, R330) -/

/-- R325: the better rank of two rows of one sensor. -/
def rankBefore (a b : ObsRow) : Bool :=
  if a.late != b.late then b.late
  else if a.instant != b.instant then decide (b.instant < a.instant)
  else decide (a.ringIndex < b.ringIndex)

/-- The rows of an epoch within the limits, in sensor order (R325). -/
def keptRows (env : FuseEnv) (rows : List ObsRow) : List ObsRow :=
  ((env.sensors.zipIdx.map (fun x => (sortBy rankBefore (rows.filter (fun r => r.sensor == x.2))).take x.1.maxRows)).flatten).take
    (env.inst.dim 3)

/-- R330 for one sensor: a dropped epoch, and detector 0x83 with cause 1 on the last one allowed. -/
def dropSensor (jid : Nat) (rows : List ObsRow) (acc : State × FuseState × Nat) (x : Sensor × Nat) : State × FuseState × Nat :=
  let (s, f, mask) := acc
  if !x.1.enabled then acc
  else if rows.any (fun r => r.sensor == x.2) then
    (s, { f with dropped := f.dropped.put x.2 0, droppedRaised := f.droppedRaised.filter (fun k => k != x.2) }, mask)
  else
    let n := f.dropped.count x.2 + 1
    let f := { f with dropped := f.dropped.put x.2 n }
    if n = x.1.dropEpochs ∧ f.droppedRaised.contains x.2 = false then
      (raise s (mkEvent 0x83 0xFF jid 1 jid 0), { f with droppedRaised := f.droppedRaised ++ [x.2] }, mask + 2 ^ x.2)
    else (s, f, mask + 2 ^ x.2)

/-- Freeze the next epoch of a fusion job (R323, R325, R330). -/
def freezeEpoch (s : State) (jid : Nat) (env : FuseEnv) (f : FuseState) : State :=
  let k := f.nextEpoch
  let rows := f.rows.filter (fun r => r.epoch == k)
  let kept := keptRows env rows
  let d := env.sensors.zipIdx.foldl (dropSensor jid rows) (s, f, 0)
  let s := d.1; let f := d.2.1
  let e : EpochData :=
    { epoch := k, rows := kept, lateDiscarded := 0, lateAbsorbed := (rows.filter (fun r => r.late)).length
      rowsDropped := rows.length - kept.length, masked := 0, conflict := 0, dropped := d.2.2, poseWait := 0, assembled := [] }
  let f := { f with nextEpoch := k + 1, rows := f.rows.filter (fun r => decide (k < r.epoch)), frozen := some e, cutting := false, waitSince := 0 }
  match s.job? jid with
  | some j => s.setJob jid { j with fuse := some f }
  | none => s

/-! ### Poses (R320, R321) -/

/-- One entry of a pose ring. -/
structure Pose where
  p : List Num
  v : List Num
  q : List Num
  w : List Num
  a : List Num

/-- Entry of step `k` of a pose ring (R320). -/
def poseEntry (s : State) (ring : Obj) (k : Nat) : Pose :=
  let b := objBytes s ring (64 + 80 * (k % 8192)) 80
  let v := fun (off n : Nat) => (List.range n).map (fun i => f32 (fld b (off + 4 * i) 4))
  { p := v 0x10 3, v := v 0x1C 3, q := v 0x28 4, w := v 0x38 3, a := v 0x44 3 }

/-- The entry of a step stands in the ring: committed, not yet overwritten, its valid flag set (R320). -/
def entryHeld (s : State) (ring : Obj) (k : Nat) : Bool :=
  decide (k ≤ newestStep s ring) && decide (newestStep s ring < k + 8192) && fld (objBytes s ring (64 + 80 * (k % 8192) + 8) 1) 0 1 % 2 == 1

/-- The ring holds both entries around an instant (R321). -/
def poseHeld (s : State) (env : FuseEnv) (t : Nat) : Bool :=
  match env.ring with
  | some r => entryHeld s r (t / env.step) && (t / env.step == 0 || entryHeld s r (t / env.step - 1))
  | none => false

/-- An ordered dot product of FP32 numbers. -/
def dotChain (xs ys : List Num) (start : Num) : Num := (xs.zip ys).foldl (fun acc p => ffma p.1 p.2 acc) start

/-- Normalise a quaternion as R318 computes it: each square rounded, their ordered sum, its `RSQRT`, one product a component (R61, R63, R321). -/
def unitOf (q : List Num) : List Num :=
  let sum : Num := match q.map (fun x => fmul x x) with
    | [] => .zero
    | y :: ys => ys.foldl fadd y
  let r := sum.rsqrt.toFp32
  q.map (fun x => fmul x r)

/-- The rotation matrix R(q) of a quaternion w, x, y, z, row-major: each entry an ordered `FMA` chain of the terms of the usual formula, from 1 on the diagonal (R333; DEDUCED, assumption 58). -/
def rotation (q : List Num) : List Num :=
  let c := fun (i : Nat) => q[i]?.getD .zero
  let twice := fun (x : Num) => fmul (.ofInt 2 0) x
  let diag := fun (a b : Num) => ffma (twice b).neg b (ffma (twice a).neg a (.ofInt 1 0))
  let off := fun (a b u v : Num) => ffma (twice u) v (fmul (twice a) b)
  let w := c 0; let x := c 1; let y := c 2; let z := c 3
  [diag y z, off x y w.neg z, off x z w y,
   off x y w z, diag x z, off y z w.neg x,
   off x z w.neg y, off y z w x, diag x y]

/-- The pose at an instant: position and orientation (R321). -/
def poseAt (s : State) (env : FuseEnv) (ring : Obj) (t : Int) : List Num × List Num :=
  let k1 := t.toNat / env.step
  let a := poseEntry s ring (k1 - 1)
  let b := poseEntry s ring k1
  let lam := fmul (Num.ofInt (t - (k1 * env.step : Nat)) 0).toFp32 (fquot 1 env.step)
  let d := dotChain a.q b.q .zero
  let b1 := if d.lt .zero then b.q.map Num.neg else b.q
  ((a.p.zip b.p).map (fun x => ffma lam (fsub x.2 x.1) x.1),
   unitOf ((a.q.zip b1).map (fun x => ffma lam (fsub x.2 x.1) x.1)))

/-- R(q)·x, or its transpose, as ordered chains from a start vector (R333). -/
def rotateBy (q x start : List Num) (transpose : Bool) : List Num :=
  let m := fun (i : Nat) => (rotation q)[i]?.getD .zero
  (List.range 3).map (fun r =>
    dotChain ((List.range 3).map (fun c => if transpose then m (3 * c + r) else m (3 * r + c))) x (start[r]?.getD .zero))

/-! ### Gating, masking, conflicts (R327 to R329) -/

/-- The predicted motion of a row (R327). -/
def predicted (s : State) (env : FuseEnv) (f : FuseState) (ring : Obj) (k : Nat) (ti : Int) : List Num :=
  let last := min (newestStep s ring) (epochEdge f env k / env.step - 1)
  let e := poseEntry s ring last
  let dt := fquot (ti - ((last + 1) * env.step : Nat)) 1000000000
  let v := (e.v.zip e.a).map (fun x => ffma x.2 dt x.1)
  rotateBy e.q v [] true ++ e.w

/-- A component of a row is present (R316). -/
def ObsRow.has (r : ObsRow) (c : Nat) : Bool := r.mask / 2 ^ c % 2 == 1

/-- A component of a row. -/
def ObsRow.comp (r : ObsRow) (c : Nat) : Num := fnum (r.motion[c]?.getD 0)

/-- R328: the sensor is outside its gate in the epoch. -/
def outsideGate (s : State) (env : FuseEnv) (f : FuseState) (ring : Obj) (k : Nat) (x : Sensor) (rows : List ObsRow) : Bool :=
  x.gated && rows.any (fun r =>
    let z := predicted s env f ring k r.instant
    (List.range 6).any (fun c => r.has c &&
      (fmul x.gate (x.sigma[c]?.getD .zero)).lt (fsub (r.comp c) (z[c]?.getD .zero)).abs))

/-- R329 step 3: two sensors contradict each other on a component both have, in their newest rows. -/
def contradicts (env : FuseEnv) (rows : List ObsRow) (i j : Nat) : Bool :=
  let newest := fun (k : Nat) => (sortBy (fun a b => decide (b.instant < a.instant)) (rows.filter (fun r => r.sensor == k))).head?
  match newest i, newest j, env.sensors[i]?, env.sensors[j]? with
  | some a, some b, some x, some y =>
    let kappa := if Config.pairFactorSecond i j then y.conflict else x.conflict
    (List.range 6).any (fun c => a.has c && b.has c &&
      (let sx := x.sigma[c]?.getD .zero; let sy := y.sigma[c]?.getD .zero
       (fmul kappa ((fadd (fmul sx sx) (fmul sy sy)).sqrt).toFp32).lt (fsub (a.comp c) (b.comp c)).abs))
  | _, _, _, _ => false

/-- Masked and lowered sensors of an epoch, and which events its groups raise: 0x83, 0x84. -/
structure GateOut where
  masked : List Nat
  lowered : List Nat
  e83 : Bool
  e84 : Bool

/-- Resolve one agreement group, its sensors with rows, and those outside their gates (R329). -/
def gateGroup (env : FuseEnv) (rows : List ObsRow) (outside : List Nat) (acc : GateOut) (members : List Nat) : GateOut :=
  let out := members.filter (fun k => outside.contains k)
  if members.isEmpty then acc
  else if out.length = members.length then { acc with lowered := acc.lowered ++ members, e84 := true }
  else
    let inside := members.filter (fun k => !outside.contains k)
    let pairs := (inside.map (fun i => (inside.filter (fun j => decide (i < j))).map (fun j => (i, j)))).flatten
    let bad := pairs.filter (fun p => contradicts env rows p.1 p.2)
    { masked := acc.masked ++ out, lowered := acc.lowered ++ (bad.map (fun p => [p.1, p.2])).flatten
      e83 := acc.e83 || !out.isEmpty, e84 := acc.e84 || !bad.isEmpty }

/-- A bit mask of some numbers. -/
def maskOf (ks : List Nat) : Nat := (distinct ks).foldl (fun a k => a + 2 ^ k) 0

/-- The sensors outside their gates in an epoch, with injections of 0x83 and 0x84 (R328, R410). -/
def outsideSet (s : State) (jid : Nat) (env : FuseEnv) (f : FuseState) (ring : Obj) (e : EpochData) : State × List Nat × Bool :=
  let a := takeInjection s 0x83 (fun q => q.param.toNat == jid)
  let b := takeInjection a.2 0x84 (fun q => q.param.toNat == jid)
  let hit := fun (k : Nat) (x : Sensor) =>
    (match a.1 with
      | some q => injIndex q.target == k
      | none => false) ||
    (match b.1 with
      | some q => injIndex q.target == x.group
      | none => false)
  let ks := env.sensors.zipIdx.filterMap (fun x =>
    let rows := e.rows.filter (fun r => r.sensor == x.2)
    if !rows.isEmpty && (hit x.2 x.1 || outsideGate s env f ring e.epoch x.1 rows) then some x.2 else none)
  (b.2, ks, a.1.isSome || b.1.isSome)

/-- Gate an epoch: masked and lowered sensors, with their detectors at most once (R327 to R329). -/
def gateEpoch (s : State) (jid : Nat) (env : FuseEnv) (f : FuseState) (ring : Obj) (e : EpochData) : State × EpochData :=
  let o := outsideSet s jid env f ring e
  let s := o.1
  let withRows := env.sensors.zipIdx.filter (fun x => e.rows.any (fun r => r.sensor == x.2))
  let group := fun (g : Nat) => (withRows.filter (fun x => x.1.group == g)).map (fun x => x.2)
  let g := ((List.range 8).map group).foldl (gateGroup env e.rows o.2.1) { masked := [], lowered := [], e83 := false, e84 := false }
  let alone := (group 0xFF).filter (fun k => o.2.1.contains k)
  let g := { g with masked := g.masked ++ alone, e83 := g.e83 || !alone.isEmpty }
  let fl := if o.2.2 then 1 else 0
  let s := if g.e83 then raiseAs s 1 fl (mkEvent 0x83 0xFF jid 0 jid 0) else s
  let s := if g.e84 then raiseAs s 1 fl (mkEvent 0x84 0xFF jid 0 jid 0) else s
  (s, { e with masked := maskOf g.masked, conflict := maskOf g.lowered })

/-! ### Assembly (R331, R333) -/

/-- One row brought to the output instant (R333). -/
def bringRow (s : State) (env : FuseEnv) (ring : Obj) (pe qe : List Num) (r : ObsRow) : ObsRow :=
  let pi := poseAt s env ring r.instant
  let x := (r.features.take 3).map fnum
  let y := rotateBy pi.2 x pi.1 false
  let d := (y.zip pe).map (fun a => fsub a.1 a.2)
  let turn := fun (z : List Num) => rotateBy qe (rotateBy pi.2 z [] false) [] true
  { r with
    features := (rotateBy qe d [] true).map fword ++ r.features.drop 3
    motion := (turn ((r.motion.take 3).map fnum) ++ turn ((r.motion.drop 3).map fnum)).map fword }

/-- The features and the 8 appended values of a row (R331). -/
def networkRow (env : FuseEnv) (f : FuseState) (e : EpochData) (r : ObsRow) : List Word :=
  let masked := e.masked / 2 ^ r.sensor % 2 == 1
  let lowered := e.conflict / 2 ^ r.sensor % 2 == 1
  let c := (env.sensors[r.sensor]?.map Sensor.cNom).getD .zero
  let c := if masked then Num.zero else if lowered then fmul (.ofInt 1 (-1)) c else c
  let age := if r.late then fquot ((epochEdge f env (e.epoch + 1) : Nat) - r.instant) 1000000000 else .zero
  (if masked then r.features.map (fun _ => 0) else r.features) ++
    [fword c, fword age, fint r.sensor, fint (if r.late then 1 else 0), fint (if masked then 1 else 0), 0, 0, 0]

/-- Gate and assemble a frozen epoch whose poses are held (R327 to R333). -/
def assembleEpoch (s : State) (jid : Nat) (env : FuseEnv) (f : FuseState) (ring : Obj) (e : EpochData) : State × EpochData :=
  let g := gateEpoch s jid env f ring e
  let out := poseAt s env ring (epochEdge f env (e.epoch + 1) : Nat)
  let rows := g.2.rows.map (bringRow s env ring out.1 out.2)
  let full := rows.map (networkRow env f g.2)
  let blank := List.replicate (env.inst.dim 0) (0 : Word) ++ [0, 0, 0, 0, fint 1, 0, 0, 0]
  let wait := if f.waitSince = 0 then 0 else s.now - f.waitSince
  (g.1, { g.2 with rows := rows, poseWait := wait, assembled := full ++ List.replicate (env.inst.dim 3 - full.length) blank })

end Sys2Proof.Machine
end

