-- ==== Sys2Proof/Machine/CellArray.lean ====
section
/-! DEFINITION. The cell array and the drain path: `ACCZ`, `MMA` and `ACCRD` (R25, R57 to R59, R95, R98, R102 to R104, R112, R566). -/

namespace Sys2Proof.Machine

/-! ### Accumulator elements (R57, R566) -/

/-- The accumulator types of the cell-array modes (R25). -/
inductive AccType where
  | int32 | fp32 | fx48
deriving DecidableEq, Repr

/-- The accumulator type of a mode (R25). -/
def accType (a : Fmt) : AccType :=
  match a with
  | .int8 | .int4b => .int32
  | .fx16 | .fx32 => .fx48
  | _ => .fp32

/-- A mode with block sums in units of 2^−12 (R102). -/
def blockInt (a b : Fmt) : Bool := a == .int4b || b == .trib

/-- An element of set 0 or 1: row M `i`, column N `j` (assumption 21). -/
def TileState.acc (x : TileState) (set : BitVec 1) (i j : Nat) : BitVec 48 :=
  (if set = 0 then x.acc0 else x.acc1).getD (64 * i + j) 0

/-- The set is marked cleared (R57). -/
def TileState.cleared? (x : TileState) (set : BitVec 1) : Bool := if set = 0 then x.cleared0 else x.cleared1

/-- Replace the contents of a set; it is no longer marked cleared (R57). -/
def TileState.setAcc (x : TileState) (set : BitVec 1) (v : List (BitVec 48)) : TileState :=
  if set = 0 then { x with acc0 := v, cleared0 := false } else { x with acc1 := v, cleared1 := false }

/-- Bits [31:0] written, bits [47:32] copies of bit 31 (R566). -/
def acc32 (v : BitVec 32) : BitVec 48 := v.signExtend 48

/-- A contribution of one step to an element. -/
inductive Contrib where
  | int (v : Int)
  | num (x : Num)
deriving DecidableEq, Repr

/-- Add a contribution to an element, or write it when the set is cleared and this is its first step; true when it saturated (R57, R102, R104). -/
def accumulate (ty : AccType) (first : Bool) (a : BitVec 48) (c : Contrib) : BitVec 48 × Bool :=
  match ty, c with
  | .int32, .int v =>
    let r := sat32 (if first then v else (a.setWidth 32).toInt + v)
    (acc32 (BitVec.ofInt 32 r.1), r.2)
  | .fx48, .int v =>
    let r := sat48 (if first then v else a.toInt + v)
    (BitVec.ofInt 48 r.1, r.2)
  | .fp32, .num x =>
    let old := fp32.decode (a.setWidth 32).toNat
    (acc32 (BitVec.ofNat 32 (fp32.encode .rne (if first then x else old.add x))), false)
  | _, _ => (a, false)

/-! ### Operands (R58, R95, R97, R98) -/

/-- Bytes of one K step of a format without block scales (R58). -/
def stepBytes (f : Fmt) : Nat := 8 * f.elemBits

/-- The granules an A or B pointer advances over `k` K steps (R58, R95). -/
def advanceBy (f : Fmt) (k : Nat) : Nat :=
  match f with
  | .int4b | .fp4b => 68 * (k / 32)
  | .trib => 72 * (k / 64)
  | f => k * stepBytes f / 16

/-- Element `i` of K step `q` of an operand (R58, R95). -/
def operand (f : Fmt) (bs : List Byte) (q i : Nat) : Nat :=
  match f with
  | .int4b | .fp4b => element 4 (slice bs (1088 * (q / 32) + 32 * (q % 32)) 32) i
  | .trib => element 2 (slice bs (16 * q) 16) i
  | f => element f.elemBits (slice bs (stepBytes f * q) (stepBytes f)) i

/-- The E8M0 scale of lane `i` of block group `g` (R95). -/
def blockE8 (bs : List Byte) (g i : Nat) : Nat := fld bs (1088 * g + 1024 + i) 1

/-- The BF16 scale of lane `i` of a TRIB group (R95). -/
def tribScale (bs : List Byte) (i : Nat) : Nat := fld bs (1024 + 2 * i) 2

/-- The value of a TRIB code; the reserved code reads as 0 (R89, R98). -/
def tribValue (c : Nat) : Int := if c = 1 then 1 else if c = 3 then -1 else 0

/-- An E2M1 element in halves. -/
def e2m1Halves (c : Nat) : Int :=
  match e2m1.decode c with
  | .fin neg m e => scaledInt neg m e (-1)
  | _ => 0

/-- The contributions of an element in K order (R102, R103). -/
def contribs (fa fb : Fmt) (b0 : Nat) (abs bbs : List Byte) (k i j : Nat) : List Contrib :=
  let el := fun f bs q l => operand f bs q l
  match fa, fb with
  | .int4b, _ =>
    (List.range (k / 32)).map (fun g =>
      let ea := blockE8 abs g i; let eb := blockE8 bbs g j
      if ea = 0xFF ∨ eb = 0xFF then .int 0
      else
        let p := (List.range 32).foldl (fun a q =>
          a + signed 4 (el .int4b abs (32 * g + q) i) * signed 4 (el .int4b bbs (32 * g + q) j)) 0
        .int (rneInt p ((ea : Int) - 127 + ((eb : Int) - 127) + 12)))
  | .fp4b, _ =>
    (List.range (k / 32)).map (fun g =>
      let ea := blockE8 abs g i; let eb := blockE8 bbs g j
      if ea = 0xFF ∨ eb = 0xFF then .num .nan
      else
        let p := (List.range 32).foldl (fun a q =>
          a + e2m1Halves (el .fp4b abs (32 * g + q) i) * e2m1Halves (el .fp4b bbs (32 * g + q) j)) 0
        .num (.ofInt p ((ea : Int) - 127 + ((eb : Int) - 127) - 2)))
  | _, .trib =>
    let p := (List.range 64).foldl (fun a q =>
      a + signed 8 (el .int8 abs q i) * tribValue (el .trib bbs q j)) 0
    match bf16.decode (tribScale bbs j) with
    | .fin neg m e => [.int (rneInt (if neg then -(p * m) else p * m) (e + 12))]
    | _ => [.int 0]
  | .int8, _ =>
    (List.range k).map (fun q => .int (signed 8 (el .int8 abs q i) * signed 8 (el .int8 bbs q j)))
  | .fx16, _ =>
    (List.range k).map (fun q => .int (signed 16 (el .fx16 abs q i) * signed 16 (el .fx16 bbs q j)))
  | .fx32, _ =>
    (List.range k).map (fun q =>
      .int (rneInt (signed 32 (el .fx32 abs q i) * signed 32 (el .fx32 bbs q j)) (-(b0 : Int))))
  | fa, fb => match fa.float?, fb.float? with
    | some x, some y =>
      (List.range k).map (fun q => .num ((x.decode (el fa abs q i)).mul (y.decode (el fb bbs q j))))
    | _, _ => []

/-- R99: an operand holds a reserved TRIB code or a reserved or non-finite scale. -/
def operandAnomaly (f : Fmt) (bs : List Byte) (k : Nat) : Bool :=
  match f with
  | .int4b => (List.range (k / 32)).any (fun g => (List.range 64).any (fun i => blockE8 bs g i == 0xFF))
  | .trib => (List.range 64).any (fun i => (bf16.decode (tribScale bs i)).special) ||
      (List.range 64).any (fun q => (List.range 64).any (fun i => operand .trib bs q i == 2))
  | _ => false

/-- The allowed values of k (R58). -/
def kOk (fa fb : Fmt) (k : Nat) : Bool :=
  match fa, fb with
  | .int4b, _ | .fp4b, _ => k == 32 || k == 64
  | _, .trib => k == 64
  | _, _ => decide (1 ≤ k) && decide (k ≤ 64)

/-- One element after all its contributions; true when one addition saturated (R102, R104). -/
def runElement (ty : AccType) (first : Bool) (a : BitVec 48) (cs : List Contrib) : BitVec 48 × Bool :=
  let r := cs.foldl (fun (r : (BitVec 48 × Bool) × Bool) c =>
    let x := accumulate ty r.2 r.1.1 c
    ((x.1, r.1.2 || x.2), false)) ((a, false), first)
  r.1

/-- Run `k` K steps into a set (R57, R58, R99, R102). -/
def mmaTile (x : TileState) (abs bbs : List Byte) (set : BitVec 1) (k : Nat) : TileState :=
  let fa := modeA x.mode; let fb := modeB x.mode
  let ty := accType fa
  let first := x.cleared? set
  let rs := (List.range 4096).map (fun n =>
    runElement ty first (x.acc set (n / 64) (n % 64))
      (contribs fa fb (modeB0 x.mode) abs bbs k (n / 64) (n % 64)))
  (x.setAcc set (rs.map Prod.fst)).count (rs.any Prod.snd) (operandAnomaly fa abs k || operandAnomaly fb bbs k)

/-- Issue `ACCZ`: the set is marked cleared (R57). -/
def issueAccz (s : State) (t : TileId) (set : BitVec 1) : State :=
  toUnit s t .cellArray (.accz set) (fun s =>
    updTile s t (fun x => if set = 0 then { x with cleared0 := true } else { x with cleared1 := true }))

/-- Issue `MMA` (R58); a k the mode does not allow makes it illegal. Where `pa` and `pb` name one pointer, post-increment adds both advances to it, on which R58 and R95 are silent (DESIGN CHOICE, assumption 162). -/
def issueMma (s : State) (t : TileId) (pa pb : BitVec 4) (kM1 : BitVec 6) (set : BitVec 1) (post : Bool) : State :=
  let x := s.tile t
  let fa := modeA x.mode; let fb := modeB x.mode
  let k := kM1.toNat + 1
  if !kOk fa fb k then illegal s t 0
  else
    let ga := advanceBy fa k; let gb := advanceBy fb k
    let ra : Span := ⟨x.addr pa, 16 * ga⟩
    let rb : Span := ⟨x.addr pb, 16 * gb⟩
    toUnit s t .cellArray (.mma pa pb kM1 set post) (fun s => withReads s t [ra, rb] (fun s =>
      let abs := scratchRead s t ra.start ra.bytes
      let bbs := scratchRead s t rb.start rb.bytes
      updTile s t (fun x =>
        let x := mmaTile x abs bbs set k
        if post then
          let x := { x with ptrs := x.ptrs.set pa.toNat (x.ptrs[pa.toNat] + BitVec.ofNat 16 ga) }
          { x with ptrs := x.ptrs.set pb.toNat (x.ptrs[pb.toNat] + BitVec.ofNat 16 gb) }
        else x)))

/-! ### The drain path (R59, R112) -/

/-- The exact value of an accumulator element, in the accumulator's type (R57, R566). -/
def accInt (x : TileState) (set : BitVec 1) (i j : Nat) (w : Nat) : Int :=
  if x.cleared? set then 0 else ((x.acc set i j).setWidth w).toInt

/-- Convert one element to the lane that is narrowed (R112). -/
def drainLane (x : TileState) (set : BitVec 1) (i j : Nat) (scaleEn : Bool) (scale : Num) : Lane :=
  let fa := modeA x.mode; let out := modeOut x.mode; let b0 := modeB0 x.mode
  match accType fa with
  | .fp32 =>
    let a := if x.cleared? set then .zero else fp32.decode ((x.acc set i j).setWidth 32).toNat
    .num (if scaleEn then (a.mul scale).toFp32 else a)
  | .int32 =>
    let v := Num.ofInt (accInt x set i j 32) (if blockInt fa (modeB x.mode) then -12 else 0)
    match out with
    | .int8 | .int4b | .fx16 | .fx32 => if scaleEn then .num (v.mul scale).toFp32 else .num v
    | _ => .num (v.mul scale).toFp32
  | .fx48 =>
    let v := Num.ofInt (accInt x set i j 48) 0
    match out with
    | .fx16 | .fx32 => match v.mul scale with
      | .fin neg m e => .fx (rneInt (if neg then -(m : Int) else m) e)
      | n => .num n
    | .int8 | .int4b => .num (v.mul scale)
    | _ => .num ((v.mul scale).mul (.ofInt 1 (-(b0 : Int)))).toFp32

/-- Issue `ACCRD`: 64 rows in row order at the destination pointer (R59, R99, R105, R112). A scale byte the word itself has overwritten is read under R567's freedom (assumption 22). -/
def issueAccrd (s : State) (t : TileId) (dst : BitVec 4) (set : BitVec 1) (scale : BitVec 4) (scaleEn : Bool) : State :=
  let x := s.tile t
  let out := modeOut x.mode
  let rb := out.rowBytes
  let d := x.addr dst; let sa := x.addr scale
  toUnit s t .drain (.accrd dst set scale scaleEn) (fun s =>
    withReads s t (if scaleEn then [⟨sa, 256⟩] else []) (fun old =>
      let go := fun (acc : State × List Word × Bool × Bool) (r : Nat) =>
        let bs := if scaleEn then readOver old acc.1 t d (rb * r) sa 256 r else []
        let lanes := (List.range 64).map (fun j =>
          drainLane x set r j scaleEn (if scaleEn then fp32.decode (fld bs (4 * j) 4) else .ofInt 1 0))
        let o := writeRow out (modeB0 x.mode) (modeSr x.mode) acc.2.1 lanes
        (scratchWrite acc.1 t (d + rb * r) o.bytes, o.gens, acc.2.2.1 || o.sat, acc.2.2.2 || o.anom)
      let r := (List.range 64).foldl go (old, (old.tile t).gens, false, false)
      let s := drawIf (scaleEn && meets d (64 * rb) sa 256) r.1
      updTile s t (fun y => { y with gens := r.2.1 }.count r.2.2.1 r.2.2.2)))

/-! ### The commands -/

/-- `ACCZ`. -/
def execAccz (t : TileId) (set : BitVec 1) (s : State) : Out := word s t (fun s => issueAccz s t set)

/-- `MMA`. -/
def execMma (t : TileId) (pa pb : BitVec 4) (kM1 : BitVec 6) (set : BitVec 1) (post : Bool) (s : State) : Out :=
  word s t (fun s => issueMma s t pa pb kM1 set post)

/-- `ACCRD`. -/
def execAccrd (t : TileId) (dst : BitVec 4) (set : BitVec 1) (scale : BitVec 4) (scaleEn : Bool) (s : State) : Out :=
  word s t (fun s => issueAccrd s t dst set scale scaleEn)

end Sys2Proof.Machine
end

