-- ==== Sys2Proof/Machine/Scalar.lean ====
section
/-! DEFINITION. The cluster scalar pipe: `SPOP` and `SLS` (R36 to R39, R63, R64). -/

namespace Sys2Proof.Machine

/-- A scalar result and whether it overflowed (R39). -/
abbrev ScalarOut := Word × Bool

/-- An FP32 result: a finite exact value beyond the largest finite FP32 saturates to it and overflows (R39). -/
def fpResult (x : Num) : ScalarOut :=
  let code := fp32.encode .rne x
  match x, fp32.decode code with
  | .fin neg _ _, .inf _ => (BitVec.ofNat 32 ((if neg then fp32.signBit else 0) + fp32.maxCode), true)
  | _, _ => (BitVec.ofNat 32 code, false)

/-- An FX32 result saturated to 32 bits (R39). -/
def fxResult (v : Int) : ScalarOut :=
  let r := sat32 v
  (BitVec.ofInt 32 r.1, r.2)

/-- 1.0 or 0.0: the truth values of an FP32 `CMPLT` (R63, R109, assumption 23). -/
def fpTruth (b : Bool) : Word := BitVec.ofNat 32 (fp32.encode .rne (.ofInt (if b then 1 else 0) 0))

/-- `SPOP` in format 0 (R63). -/
def spopFp (sub : Nat) (x y z : Num) : ScalarOut :=
  match sub with
  | 0 => fpResult (x.add y)
  | 1 => fpResult (x.add y.neg)
  | 2 => fpResult (x.mul y)
  | 3 => fpResult ((x.mul y).add z)
  | 4 => fpResult (x.div y)
  | 5 => fpResult x.sqrt
  | 6 => fpResult x.rsqrt
  | 7 => (fpTruth (x.lt y), false)
  | 8 => fpResult (x.minOf y)
  | _ => fpResult (x.maxOf y)

/-- RNE of an integer quotient (R63). -/
def rneQuot (a b : Int) : Int :=
  let q : Int := rneDiv a.natAbs b.natAbs
  if (a < 0) != (b < 0) then -q else q

/-- RNE(√n) (R63). -/
def rneSqrt (n : Nat) : Nat :=
  let r := isqrt n
  if r * r + r < n then r + 1 else r

/-- RNE(√(n ÷ d)) for d > 0 (R63). -/
def rneSqrtQuot (n d : Nat) : Nat :=
  let r := isqrt (n / d)
  let mid := (2 * r + 1) * (2 * r + 1) * d
  if mid < 4 * n then r + 1
  else if mid = 4 * n then r + r % 2
  else r

/-- `SPOP` in format 1 at binary point b, with its special cases (R63). -/
def spopFx (sub b : Nat) (x y z : Int) : ScalarOut :=
  match sub with
  | 0 => fxResult (x + y)
  | 1 => fxResult (x - y)
  | 2 => fxResult (rneInt (x * y) (-(b : Int)))
  | 3 => fxResult (rneInt (x * y + z * 2 ^ b) (-(b : Int)))
  | 4 =>
    if y = 0 then (if x = 0 then (0, true) else (if x < 0 then 0x80000000#32 else 0x7FFFFFFF#32, true))
    else fxResult (rneQuot (x * 2 ^ b) y)
  | 5 => if x < 0 then (0, true) else fxResult (rneSqrt (x.toNat * 2 ^ b))
  | 6 =>
    if x = 0 then (0x7FFFFFFF#32, true)
    else if x < 0 then (0, true)
    else fxResult (rneSqrtQuot (2 ^ (3 * b)) x.toNat)
  | 7 => fxResult (if x < y then 2 ^ b else 0)
  | 8 => fxResult (min x y)
  | _ => fxResult (max x y)

/-- The result of a scalar operation (R63). -/
def spopResult (sub fmt b : Nat) (x y z : Word) : ScalarOut :=
  if fmt = 0 then spopFp sub (fp32.decode x.toNat) (fp32.decode y.toNat) (fp32.decode z.toNat)
  else spopFx sub b x.toInt y.toInt z.toInt

/-- The largest value of a result's sign (R39, R410). -/
def saturated (fmt : Nat) (r : Word) : Word :=
  if fmt = 0 then (if r.getLsbD 31 then 0xFF7FFFFF#32 else 0x7F7FFFFF#32)
  else (if r.getLsbD 31 then 0x80000000#32 else 0x7FFFFFFF#32)

/-- Detector 0x12 of a tile's job (R39, R408). -/
def scalarEvent (s : State) (t : TileId) : DetEvent :=
  mkEvent 0x12 (partOfTile t) (tileJob s t) 0 (tileJob s t) 0

/-- Issue `SPOP`: the result is written, an overflow or an injected one saturates it and raises detector 0x12 (R39, R63, R410). -/
def issueSpop (s : State) (t : TileId) (sub : BitVec 4) (fmt : BitVec 1) (d s1 s2 s3 : BitVec 5) : State :=
  if 9 < sub.toNat then illegal s t 0
  else
    toUnit s t .scalar (.spop sub fmt d s1 s2 s3) (fun s =>
      let x := s.tile t
      let r := spopResult sub.toNat fmt.toNat (modeB0 x.mode) x.sregs[s1.toNat] x.sregs[s2.toNat] x.sregs[s3.toNat]
      let i := takeInjection s 0x12 (fun q => injCluster q.target == clusterOfTile t)
      let v := if i.1.isSome then saturated fmt.toNat r.1 else r.1
      let s := updTile i.2 t (fun x => { x with sregs := x.sregs.set d.toNat v })
      if r.2 || i.1.isSome then raiseAs s 1 (injFlags i.1) (scalarEvent s t) else s)

/-- Issue `SLS`: load or store 32 bits at a word of a granule (R64). -/
def issueSls (s : State) (t : TileId) (dir : BitVec 1) (sreg : BitVec 5) (base : BitVec 4) (sel : BitVec 2) : State :=
  let a := (s.tile t).addr base + 4 * sel.toNat
  toUnit s t .scalar (.sls dir sreg base sel) (fun s =>
    if dir = 0 then
      withReads s t [⟨a, 4⟩] (fun s =>
        let v := BitVec.ofNat 32 (ofLe (scratchRead s t a 4))
        updTile s t (fun x => { x with sregs := x.sregs.set sreg.toNat v }))
    else scratchWrite s t a (leBytes 4 ((s.tile t).sregs[sreg.toNat]).toNat))

/-- `SPOP`. -/
def execSpop (t : TileId) (sub : BitVec 4) (fmt : BitVec 1) (d s1 s2 s3 : BitVec 5) (s : State) : Out :=
  word s t (fun s => issueSpop s t sub fmt d s1 s2 s3)

/-- `SLS`. -/
def execSls (t : TileId) (dir : BitVec 1) (sreg : BitVec 5) (base : BitVec 4) (sel : BitVec 2) (s : State) : Out :=
  word s t (fun s => issueSls s t dir sreg base sel)

end Sys2Proof.Machine
end

