-- ==== Sys2Proof/Machine/StreamPorts.lean ====
section
/-! DEFINITION. The stream ports: `SEND`, `RECV`, their matching and the signals that wait for sends (R36, R43, R46, R49, R50, R66, R72, R73). -/

namespace Sys2Proof.Machine

/-- The head `SEND` of a port. -/
def headSend (x : TileState) (p : Nat) : Option SendOp := x.sendQ.toList[p]?.bind List.head?

/-- The posted `RECV` of a port (R43). -/
def headRecv (x : TileState) (p : Nat) : Option RecvOp := x.recvQ.toList[p]?.bind List.head?

/-- Append to one queue of four. -/
def pushAt {α : Type} (q : Vector (List α) 4) (p : Nat) (a : α) : Vector (List α) 4 :=
  Vector.ofFn (fun i => if i.val = p then q[i] ++ [a] else q[i])

/-- The head `SEND` of a port starts to flow. -/
def TileState.flow (x : TileState) (p : Nat) : TileState :=
  { x with sendQ := Vector.ofFn (fun i => if i.val = p then (match x.sendQ[i] with
      | o :: os => { o with flowing := true } :: os
      | [] => []) else x.sendQ[i]) }

/-- A flit leaves the tile: an injected parity error raises detector 0x10 at its first router and the destination's invocation faults (R24, R410). -/
def leave (s : State) (t d : TileId) : State :=
  let i := takeInjection s 0x10 (fun q => injTile q.target == t)
  if i.1.isSome then
    let e := mkEvent 0x10 (partOfTile t) (tileJob s d) 0 t.toNat d.toNat
    faultTile (raiseAs i.2 2 1 e) d 0x10
  else s

/-- Match the head `SEND` of a tile's port with the posted `RECV` of its destination that names the tile: equal flit counts flow, others raise detector 0x11 on the receiver (R49). -/
def matchSend (s : State) (t : TileId) (p : Nat) : State :=
  let cs := leaseOf s t
  match headSend (s.tile t) p with
  | none => s
  | some o =>
    if o.flowing then s
    else match physTile cs o.vt.toNat with
      | none => s
      | some d => match headRecv (s.tile d) p with
        | none => s
        | some r =>
          if r.vt.toNat ≠ virtTile cs t then s
          else if r.flits ≠ o.flits then illegalAt s d r.pc 0
          else leave (updTile s t (fun x => x.flow p)) t d

/-- Match the sender that a tile's posted `RECV` names (R49). -/
def matchRecv (s : State) (d : TileId) (p : Nat) : State :=
  match headRecv (s.tile d) p with
  | none => s
  | some r => match physTile (leaseOf s d) r.vt.toNat with
    | none => s
    | some t => matchSend s t p

/-- Issue `SEND`: an unmapped virtual cluster raises 0x32; a full queue stalls; else the word is queued and released when matched (R40, R49, R66, R73, R410). -/
def issueSend (s : State) (t : TileId) (port : BitVec 2) (vt : BitVec 9) (src : BitVec 4) (flitsM1 : BitVec 12) : State :=
  let inj := takeInjection s 0x32 (fun q => injTile q.target == t)
  let s := inj.2
  let x := s.tile t
  if inj.1.isSome then unmapped s t 1
  else match physTile (leaseOf s t) vt.toNat with
    | none => unmapped s t 0
    | some _ =>
      if 5 ≤ (x.sendQ.toList.getD port.toNat []).length then
        s.setTile t { x with stall := .queueFull (.send port vt src flitsM1) }
      else
        let o : SendOp := { vt := vt, src := x.addr src, flits := flitsM1.toNat + 1, flowing := false }
        matchSend (updTile s t (fun x => { x.advance with sendQ := pushAt x.sendQ port.toNat o })) t port.toNat

/-- Issue `RECV`: as `SEND`, with the source tile named (R40, R66, R73). -/
def issueRecv (s : State) (t : TileId) (port : BitVec 2) (dst : BitVec 4) (vt : BitVec 9) (flitsM1 : BitVec 12) : State :=
  let x := s.tile t
  match physTile (leaseOf s t) vt.toNat with
  | none => unmapped s t 0
  | some _ =>
    if 5 ≤ (x.recvQ.toList.getD port.toNat []).length then
      s.setTile t { x with stall := .queueFull (.recv port dst vt flitsM1) }
    else
      let r : RecvOp := { vt := vt, dst := x.addr dst, flits := flitsM1.toNat + 1, pc := x.pc }
      matchRecv (updTile s t (fun x => { x.advance with recvQ := pushAt x.recvQ port.toNat r })) t port.toNat

/-- Send the signals of a tile whose earlier `SEND`s are written (R46). -/
def releaseSignals (s : State) (t : TileId) : State :=
  let cs := leaseOf s t
  let ready := fun (g : SignalOp) => g.ahead.all (fun n => n == 0)
  let go := (s.tile t).signals.filter ready
  let s := updTile s t (fun x => { x with signals := x.signals.filter (fun g => !ready g) })
  forEach go s (fun s g => match physTile cs g.vt.toNat with
    | some d => addSem s d g.sem g.inc.toNat
    | none => s)

/-- Per port, how many queued `SEND`s reach up to the last one to a virtual tile. -/
def sendsTo (x : TileState) (vt : BitVec 9) : List Nat :=
  x.sendQ.toList.map (fun q => match q.zipIdx.filter (fun o => o.1.vt == vt) with
    | [] => 0
    | os => (os.getLast?.map (fun o => o.2 + 1)).getD 0)

/-- Issue `SIGNAL`: an unmapped target raises 0x32; a signal to another tile waits for earlier `SEND`s to it (R45, R46, R67, R73). -/
def issueSignal (s : State) (t : TileId) (sem : BitVec 4) (vt : BitVec 9) (inc : BitVec 8) : State :=
  if inc = 0 then illegal s t 0
  else match physTile (leaseOf s t) vt.toNat with
    | none => unmapped s t 0
    | some d =>
      let ahead := if d = t then [] else sendsTo (s.tile t) vt
      let s := goOn s t
      if ahead.all (fun n => n == 0) then addSem s d sem inc.toNat
      else updTile s t (fun x => { x with signals := x.signals ++ [{ sem := sem, vt := vt, inc := inc, ahead := ahead }] })

/-- `SEND`. -/
def execSend (t : TileId) (port : BitVec 2) (vt : BitVec 9) (src : BitVec 4) (flitsM1 : BitVec 12) (s : State) : Out :=
  word s t (fun s => issueSend s t port vt src flitsM1)

/-- `RECV`. -/
def execRecv (t : TileId) (port : BitVec 2) (dst : BitVec 4) (vt : BitVec 9) (flitsM1 : BitVec 12) (s : State) : Out :=
  word s t (fun s => issueRecv s t port dst vt flitsM1)

/-- `SIGNAL`. -/
def execSignal (t : TileId) (sem : BitVec 4) (vt : BitVec 9) (inc : BitVec 8) (s : State) : Out :=
  word s t (fun s => issueSignal s t sem vt inc)

end Sys2Proof.Machine
end

