-- ==== Sys2Proof/Machine/VectorUnit.lean ====
section
/-! DEFINITION. The vector unit and the transpose and shuffle unit: `VOP`, `VPOLY`, `VRED`, `XPOSE` and `SHUF` (R28 to R31, R52, R60 to R62, R93, R108 to R111, R567). -/

namespace Sys2Proof.Machine

/-! ### Lanes -/

/-- The raw integer of an INT32 or FX32 lane (R108). -/
def Lane.int : Lane → Int
  | .fx q => q
  | .num (.fin neg m e) => scaledInt neg m e 0
  | .num _ => 0

/-- The number of an FP32 lane. -/
def Lane.fp : Lane → Num
  | .num x => x
  | .fx q => .ofInt q 0

/-- A lane result and whether it saturated (R109). -/
abbrev LaneOut := Lane × Bool

/-- A lane of an integer type from an exact result, saturated to 32 bits (R109). -/
def intLane (ty : LaneType) (v : Int) : LaneOut :=
  let r := sat32 v
  (match ty with
   | .fx32 => .fx r.1
   | _ => .num (.ofInt r.1 0), r.2)

/-- The shift count: the raw lane limited to 0 to 31 (R109). -/
def shiftCount (l : Lane) : Nat := (clampInt 0 31 l.int).toNat

/-- The value k of a lane type: k as FP32, k, or k × 2^b as raw q (R61, R109). -/
def laneK (ty : LaneType) (b k : Nat) : LaneOut :=
  match ty with
  | .fp32 => (.num (.ofInt k 0), false)
  | .int32 => intLane .int32 k
  | .fx32 => intLane .fx32 ((k : Int) * 2 ^ b)

/-- The numeric order of two lanes of one type; false with a NaN (R93). -/
def laneLt (ty : LaneType) (x y : Lane) : Bool :=
  match ty with
  | .fp32 => x.fp.lt y.fp
  | _ => decide (x.int < y.int)

/-- Equality of two lanes of one type; false with a NaN (R93). -/
def laneEq (ty : LaneType) (x y : Lane) : Bool :=
  match ty with
  | .fp32 => x.fp.eq y.fp
  | _ => decide (x.int = y.int)

/-- A lane differs from 0; a NaN differs. -/
def laneNonzero (ty : LaneType) (x : Lane) : Bool :=
  match ty with
  | .fp32 => !x.fp.isZero
  | _ => decide (x.int ≠ 0)

/-- One result of `VOP` (R60, R109). -/
def vopLane (sub : Nat) (ty : LaneType) (b : Nat) (s1 s2 d : Lane) : LaneOut :=
  let x := s1.int; let y := s2.int; let z := d.int
  let q := fun (n : Num) => ((.num n.toFp32 : Lane), false)
  let bool := fun (c : Bool) => if c then laneK ty b 1 else laneK ty b 0
  match sub with
  | 0x00 => if ty = .fp32 then q (s1.fp.add s2.fp) else intLane ty (x + y)
  | 0x01 => if ty = .fp32 then q (s1.fp.add s2.fp.neg) else intLane ty (x - y)
  | 0x02 => match ty with
    | .fp32 => q (s1.fp.mul s2.fp)
    | .int32 => intLane ty (x * y)
    | .fx32 => intLane ty (rneInt (x * y) (-(b : Int)))
  | 0x03 => match ty with
    | .fp32 => q ((s1.fp.mul s2.fp).add d.fp)
    | .int32 => intLane ty (x * y + z)
    | .fx32 => intLane ty (rneInt (x * y + z * 2 ^ b) (-(b : Int)))
  | 0x04 => if ty = .fp32 then (.num (s1.fp.maxOf s2.fp), false) else intLane ty (max x y)
  | 0x05 => if ty = .fp32 then (.num (s1.fp.minOf s2.fp), false) else intLane ty (min x y)
  | 0x06 => if ty = .fp32 then (.num s1.fp.abs, false) else intLane ty x.natAbs
  | 0x07 => if ty = .fp32 then (.num s1.fp.neg, false) else intLane ty (-x)
  | 0x08 => intLane ty (x * 2 ^ shiftCount s2)
  | 0x09 => intLane ty (x / 2 ^ shiftCount s2)
  | 0x0B => bool (laneLt ty s1 s2)
  | 0x0C => bool (laneEq ty s1 s2)
  | 0x0D => (if laneNonzero ty d then s1 else s2, false)
  | _ => (s1, false)

/-- `VOP` reads s2. -/
def vopReadsS2 (sub : Nat) : Bool := [0x00, 0x01, 0x02, 0x03, 0x04, 0x05, 0x08, 0x09, 0x0B, 0x0C, 0x0D].contains sub

/-- `VOP` reads its destination row (R60). -/
def vopReadsD (sub : Nat) : Bool := sub == 0x03 || sub == 0x0D

/-! ### Rows -/

/-- What a word over rows has written and counted so far. -/
structure RowRun where
  s : State
  gens : List Word
  sat : Bool
  anom : Bool

/-- Row `r` of a source, where the rows before it have been written at the destination (R567). -/
def sourceRow (old : State) (run : RowRun) (t : TileId) (f : Fmt) (dst db src r key : Nat) : List Byte :=
  readOver old run.s t dst (db * r) (src + f.rowBytes * r) f.rowBytes key

/-- Write row `r` of the destination (R96, R105, R111). -/
def putRow (run : RowRun) (t : TileId) (f : Fmt) (mode : Word) (dst r : Nat) (lanes : List LaneOut) (anom : Bool) : RowRun :=
  let o := writeRow f (modeB0 mode) (modeSr mode) run.gens (lanes.map Prod.fst)
  { s := scratchWrite run.s t (dst + f.rowBytes * r) o.bytes, gens := o.gens
    sat := run.sat || o.sat || lanes.any Prod.snd, anom := run.anom || o.anom || anom }

/-- End a word over rows: generators and counts (R99, R106). -/
def endRows (run : RowRun) (t : TileId) : State :=
  updTile run.s t (fun x => { x with gens := run.gens }.count run.sat run.anom)

/-- Start a word over rows. -/
def startRows (s : State) (t : TileId) : RowRun := { s := s, gens := (s.tile t).gens, sat := false, anom := false }

/-- A row-wise overlap that R567 leaves open: the destination meets a source whose rows are not the same bytes. -/
def rowsMeet (d n src m : Nat) : Bool := meets d n src m && !(d % 0x100000 == src % 0x100000 && n == m)

/-- Issue `VOP` (R60); a shift on FP32 lanes is illegal (R53). -/
def issueVop (s : State) (t : TileId) (sub : BitVec 6) (dst s1 s2 : BitVec 4) (rowsM1 : BitVec 9) : State :=
  let x := s.tile t
  let mode := x.mode
  let out := modeOut mode
  let n := sub.toNat
  if 0x0D < n ∨ ((n = 8 ∨ n = 9) ∧ out.laneType = .fp32) then illegal s t 0
  else
    let f1 := if n = 0x0A then modeA mode else out
    let rows := rowsM1.toNat + 1
    let d := x.addr dst; let a1 := x.addr s1; let a2 := x.addr s2
    let db := out.rowBytes
    let reads := [⟨a1, f1.rowBytes * rows⟩] ++ (if vopReadsS2 n then [⟨a2, db * rows⟩] else []) ++
      (if vopReadsD n then [⟨d, db * rows⟩] else [])
    toUnit s t .vector (.vop sub dst s1 s2 rowsM1) (fun s => withReads s t reads (fun old =>
      let go := fun (run : RowRun) (r : Nat) =>
        let r1 := sourceRow old run t f1 d db a1 r (3 * r)
        let r2 := if vopReadsS2 n then sourceRow old run t out d db a2 r (3 * r + 1) else []
        let rd := if vopReadsD n then sourceRow old run t out d db d r (3 * r + 2) else []
        let lanes := (List.range 64).map (fun i =>
          vopLane n (if n = 0x0A then f1.laneType else out.laneType) (modeB0 mode) (readLane f1 r1 i)
            (if vopReadsS2 n then readLane out r2 i else .fx 0) (if vopReadsD n then readLane out rd i else .fx 0))
        putRow run t out mode d r lanes
          (rowAnomaly f1 r1 || (vopReadsS2 n && rowAnomaly out r2) || (vopReadsD n && rowAnomaly out rd))
      let run := (List.range rows).foldl go (startRows old t)
      let ovl := rowsMeet d (db * rows) a1 (f1.rowBytes * rows) || (vopReadsS2 n && rowsMeet d (db * rows) a2 (db * rows))
      drawIf ovl (endRows run t)))

/-! ### VPOLY (R29, R52) -/

/-- The segment of an input: the first whose breakpoint exceeds it, else the last (R29). -/
def polySegment (segs : List (List Num)) (x : Num) : List Num :=
  match segs.find? (fun g => x.lt (g.getD 0 .nan)) with
  | some g => g
  | none => segs.getLast?.getD []

/-- ((c3·x + c2)·x + c1)·x + c0, rounded at each operation (R29). -/
def polyValue (g : List Num) (x : Num) : Num :=
  let c := fun i => g.getD i .nan
  let y := ((c 4).mul x).toFp32
  let y := (((y.add (c 3)).toFp32).mul x).toFp32
  let y := (((y.add (c 2)).toFp32).mul x).toFp32
  (y.add (c 1)).toFp32

/-- Issue `VPOLY`: a segment count of 0 or above 32 raises detector 0x11 (R52). -/
def issueVpoly (s : State) (t : TileId) (table dst src : BitVec 4) (rowsM1 : BitVec 9) : State :=
  let x := s.tile t
  let mode := x.mode
  let out := modeOut mode
  let rows := rowsM1.toNat + 1
  let d := x.addr dst; let a := x.addr src; let ta := x.addr table
  let db := out.rowBytes
  let n := ofLe (scratchRead s t ta 4)
  if n = 0 ∨ 32 < n then illegal s t 0
  else
    toUnit s t .vector (.vpoly table dst src rowsM1) (fun s =>
      withReads s t [⟨ta, 4 + 20 * n⟩, ⟨a, db * rows⟩] (fun old =>
        let go := fun (run : RowRun) (r : Nat) =>
          let tb := readOver old run.s t d (db * r) (ta + 4) (20 * n) (2 * r + 1)
          let segs := (List.range n).map (fun g => (List.range 5).map (fun k => fp32.decode (fld tb (20 * g + 4 * k) 4)))
          let row := sourceRow old run t out d db a r (2 * r)
          let lanes := (List.range 64).map (fun i =>
            let v := ((readLane out row i).value (modeB0 mode)).toFp32
            ((.num (if v.isNan then .nan else polyValue (polySegment segs v) v) : Lane), false))
          putRow run t out mode d r lanes (rowAnomaly out row)
        let run := (List.range rows).foldl go (startRows old t)
        let ovl := rowsMeet d (db * rows) a (db * rows) || meets d (db * rows) ta (4 + 20 * n)
        drawIf ovl (endRows run t)))

/-! ### VRED (R61, R93) -/

/-- One step of SUM, MAX or MIN over lanes of a type (R61, R93). -/
def redStep (sub : Nat) (ty : LaneType) (acc : LaneOut) (x : Lane) : LaneOut :=
  match sub with
  | 0 => let r := vopLane 0 ty 0 acc.1 x (.fx 0); (r.1, acc.2 || r.2)
  | 1 => ((vopLane 4 ty 0 acc.1 x (.fx 0)).1, acc.2)
  | _ => ((vopLane 5 ty 0 acc.1 x (.fx 0)).1, acc.2)

/-- The index of the first NaN, else the lowest index among equal maxima (R61, R93). -/
def argMax (ty : LaneType) (xs : List Lane) : Nat :=
  let isNan := fun (l : Lane) => match ty with
    | .fp32 => l.fp.isNan
    | _ => false
  if xs.any isNan then xs.findIdx isNan
  else xs.findIdx (fun x => xs.all (fun y => !laneLt ty x y))

/-- Reduce lanes in order (R61). -/
def reduce (sub : Nat) (ty : LaneType) (b : Nat) (xs : List Lane) : LaneOut :=
  if sub = 3 then laneK ty b (argMax ty xs)
  else match xs with
    | [] => (.fx 0, false)
    | x :: rest => rest.foldl (redStep sub ty) (x, false)

/-- A lane of value 0. -/
def laneZero (ty : LaneType) : LaneOut := laneK ty 0 0

/-- Issue `VRED` (R61). -/
def issueVred (s : State) (t : TileId) (sub : BitVec 3) (axis : BitVec 1) (dst src : BitVec 4) (rowsM1 : BitVec 9) : State :=
  let x := s.tile t
  let mode := x.mode
  let out := modeOut mode
  let ty := out.laneType
  let rows := rowsM1.toNat + 1
  let d := x.addr dst; let a := x.addr src
  let db := out.rowBytes
  if 3 < sub.toNat then illegal s t 0
  else
    toUnit s t .vector (.vred sub axis dst src rowsM1) (fun s => withReads s t [⟨a, db * rows⟩] (fun old =>
      if axis = 0 then
        let go := fun (run : RowRun) (r : Nat) =>
          let row := sourceRow old run t out d db a r r
          let v := reduce sub.toNat ty (modeB0 mode) (readRow out row)
          putRow run t out mode d r (v :: List.replicate 63 (laneZero ty)) (rowAnomaly out row)
        drawIf (rowsMeet d (db * rows) a (db * rows)) (endRows ((List.range rows).foldl go (startRows old t)) t)
      else
        let rs := (List.range rows).map (fun r => scratchRead old t (a + db * r) db)
        let ls := rs.map (readRow out)
        let lanes := (List.range 64).map (fun i =>
          reduce sub.toNat ty (modeB0 mode) (ls.map (fun l => l.getD i (laneZero ty).1)))
        endRows (putRow (startRows old t) t out mode d 0 lanes (rs.any (rowAnomaly out))) t))

/-! ### XPOSE and SHUF (R30, R31, R62) -/

/-- Issue `XPOSE`: the word reads every source byte before it writes (R30, R62, R567). -/
def issueXpose (s : State) (t : TileId) (size : BitVec 2) (dst src : BitVec 4) : State :=
  let x := s.tile t
  let d := x.addr dst; let a := x.addr src
  let w := 4 * 2 ^ size.toNat
  let cols := if size = 0 then 128 else 64
  let rb := cols * w / 8
  toUnit s t .transpose (.xpose size dst src) (fun s => withReads s t [⟨a, 64 * rb⟩] (fun s =>
    let rows := (List.range 64).map (fun i => scratchRead s t (a + rb * i) rb)
    let out := (List.range cols).map (fun j => packElems w (rows.map (fun r => element w r j)))
    scratchWrite s t d out.flatten))

/-- Permute the elements of a row as raw bits; the scales and padding of a block format are copied (R31). -/
def shuffleRow (f : Fmt) (table row : List Byte) : List Byte :=
  let els := (List.range 64).map (fun i => element f.elemBits row ((table.getD i 0).toNat % 64))
  packElems f.elemBits els ++ row.drop (8 * f.elemBits)

/-- Issue `SHUF` (R31). -/
def issueShuf (s : State) (t : TileId) (table dst src : BitVec 4) (rowsM1 : BitVec 9) : State :=
  let x := s.tile t
  let out := modeOut x.mode
  let rows := rowsM1.toNat + 1
  let d := x.addr dst; let a := x.addr src; let ta := x.addr table
  let db := out.rowBytes
  toUnit s t .transpose (.shuf table dst src rowsM1) (fun s =>
    withReads s t [⟨ta, 64⟩, ⟨a, db * rows⟩] (fun old =>
      let go := fun (run : RowRun) (r : Nat) =>
        let tb := readOver old run.s t d (db * r) ta 64 (2 * r + 1)
        let row := sourceRow old run t out d db a r (2 * r)
        { run with s := scratchWrite run.s t (d + db * r) (shuffleRow out tb row) }
      let run := (List.range rows).foldl go (startRows old t)
      drawIf (rowsMeet d (db * rows) a (db * rows) || meets d (db * rows) ta 64) run.s))

/-! ### The commands -/

/-- `VOP`. -/
def execVop (t : TileId) (sub : BitVec 6) (dst s1 s2 : BitVec 4) (rowsM1 : BitVec 9) (s : State) : Out :=
  word s t (fun s => issueVop s t sub dst s1 s2 rowsM1)

/-- `VPOLY`. -/
def execVpoly (t : TileId) (table dst src : BitVec 4) (rowsM1 : BitVec 9) (s : State) : Out :=
  word s t (fun s => issueVpoly s t table dst src rowsM1)

/-- `VRED`. -/
def execVred (t : TileId) (sub : BitVec 3) (axis : BitVec 1) (dst src : BitVec 4) (rowsM1 : BitVec 9) (s : State) : Out :=
  word s t (fun s => issueVred s t sub axis dst src rowsM1)

/-- `XPOSE`. -/
def execXpose (t : TileId) (size : BitVec 2) (dst src : BitVec 4) (s : State) : Out :=
  word s t (fun s => issueXpose s t size dst src)

/-- `SHUF`. -/
def execShuf (t : TileId) (table dst src : BitVec 4) (rowsM1 : BitVec 9) (s : State) : Out :=
  word s t (fun s => issueShuf s t table dst src rowsM1)

end Sys2Proof.Machine
end

