-- ==== Sys2Proof/Machine/Sequencer.lean ====
section
/-! DEFINITION. The words the sequencer executes itself, waits and barriers, and what happens when a unit, a port or a wait completes (R40 to R56, R67 to R71). -/

namespace Sys2Proof.Machine

/-! ### Completion of earlier words (R48, R68) -/

/-- Every earlier stream-port word of the tile has completed. -/
def TileState.portsIdle (x : TileState) : Bool :=
  x.sendQ.toList.all List.isEmpty && x.recvQ.toList.all List.isEmpty

/-- Every earlier word of the local units has completed. -/
def TileState.unitsIdle (x : TileState) : Bool :=
  x.cellQ.isEmpty && x.drainQ.isEmpty && x.vectorQ.isEmpty && x.transQ.isEmpty && x.scalarQ.isEmpty

/-- Every earlier word that a barrier word waits for has completed (R48, R68). -/
def TileState.barrierOpen (x : TileState) : SeqWord → Bool
  | .fence st mv loc =>
    (!st || x.portsIdle) && (!mv || x.openRuns == 0) && (!loc || x.unitsIdle)
  | _ => x.portsIdle && x.unitsIdle && x.openRuns == 0

/-! ### Reports to the firmware (R69, R70, R394) -/

/-- Change the invocation a tile takes part in: the job's, or the shadow's own run. -/
def updInvocation (s : State) (t : TileId) (f : Invocation → Invocation) : State :=
  match ownerOf s t with
  | none => s
  | some (jid, role) => match s.job? jid with
    | none => s
    | some j => match role with
      | .shadow | .shadowFallback => match j.shadow with
        | some sh => s.setJob jid { j with shadow := some { sh with run := sh.run.map f } }
        | none => s
      | _ => s.setJob jid { j with invocation := j.invocation.map f }

/-- A `MARK` reports its milestone, declared for that tile, to the deadline monitor, with the time-base value at which it took effect (R69, R394). -/
def reportMark (s : State) (t : TileId) (index : Nat) : State :=
  match ownerOf s t with
  | none => s
  | some (jid, role) => match s.job? jid with
    | none => s
    | some j =>
      let image := if role = .fallback ∨ role = .shadowFallback then j.fallback else j.image
      let vt := virtTile (leaseOf s t) t
      let declared := match s.image? image with
        | some im => im.milestones.any (fun m => m.index == index && m.tile == vt)
        | none => false
      if declared then
        updInvocation s t (fun i => if i.met.any (fun r => r.1 == index) then i else { i with met := i.met ++ [(index, s.now)] })
      else s

/-- A barrier word takes effect (R48, R68 to R71). -/
def takeBarrier (s : State) (t : TileId) (w : SeqWord) : State :=
  match w with
  | .mark ix => goOn (reportMark s t ix.toNat) t
  | .commit g => goOn (updTile s t (fun x =>
      { x with groups := if x.groups.contains g.toNat then x.groups else x.groups ++ [g.toNat] })) t
  | .endWord => updTile s t (fun x => { x with phase := .ended, issued := x.issued + 1 })
  | _ => goOn s t

/-- A barrier word: it takes effect once every word it waits for has completed, and stalls until then (R48, R68). -/
def barrier (s : State) (t : TileId) (w : SeqWord) : State :=
  if (s.tile t).barrierOpen w then takeBarrier s t w
  else updTile s t (fun x => { x with stall := .barrier w })

/-! ### Words of the sequencer itself -/

/-- Issue `SETMODE`; an illegal pairing or binary point makes it illegal (R53, R55). -/
def issueSetmode (s : State) (t : TileId) (a b out : BitVec 4) (bp : BitVec 5) (sr : Bool) : State :=
  if setmodeOk a b out bp then
    goOn (updTile s t (fun x => { x with mode := 0#5 ++ a ++ b ++ out ++ bp ++ bit1 sr ++ 0#9 })) t
  else illegal s t 0

/-- R56: the `LOOP` at the program counter keeps the field-range rules of the program. -/
def loopOk (x : TileState) (k : BitVec 3) (e : BitVec 12) : Bool :=
  decide (x.pc.toNat < e.toNat) && decide (e.toNat < x.progLen) && decide (x.loops.length < 8) &&
  x.loops.all (fun f => decide (e.toNat ≤ f.last.toNat) && f.k != k)

/-- Issue `LOOP`: the counter takes the count and the body begins (R44, R56). -/
def issueLoop (s : State) (t : TileId) (k : BitVec 3) (countM1 endAddr : BitVec 12) : State :=
  let x := s.tile t
  if loopOk x k endAddr then
    s.setTile t { x with
      loops := { k := k, first := x.pc + 1, last := endAddr } :: x.loops
      counters := x.counters.set k.toNat (BitVec.ofNat 13 (countM1.toNat + 1)), pc := x.pc + 1, issued := x.issued + 1 }
  else illegal s t 0

/-- Issue `WAIT`: subtract the count, or stall until the semaphore holds it (R45). -/
def issueWait (s : State) (t : TileId) (sem : BitVec 4) (count : BitVec 16) : State :=
  let x := s.tile t
  if count = 0 then illegal s t 0
  else if count.toNat ≤ (x.sems[sem.toNat]).toNat then
    goOn (s.setTile t { x with sems := x.sems.set sem.toNat (x.sems[sem.toNat] - count) }) t
  else s.setTile t { x with stall := .waitSem sem count }

/-- Issue `FENCE`; no bit set is illegal (R68). -/
def issueFence (s : State) (t : TileId) (stream moves loc : Bool) : State :=
  if stream || moves || loc then barrier s t (.fence stream moves loc) else illegal s t 0

/-- Issue a word that stalled on a full queue again (R40). -/
def issueWord (s : State) (t : TileId) : SeqWord → State
  | .nop => goOn s t
  | .setp p a => goOn (updTile s t (fun x => { x with ptrs := x.ptrs.set p.toNat a })) t
  | .addp p i => goOn (updTile s t (fun x => { x with ptrs := x.ptrs.set p.toNat (x.ptrs[p.toNat] + i) })) t
  | .setmode a b o bp sr => issueSetmode s t a b o bp sr
  | .loop k c e => issueLoop s t k c e
  | .accz set => issueAccz s t set
  | .mma pa pb k set post => issueMma s t pa pb k set post
  | .accrd d set sc en => issueAccrd s t d set sc en
  | .vop sub d s1 s2 r => issueVop s t sub d s1 s2 r
  | .vpoly tb d src r => issueVpoly s t tb d src r
  | .vred sub ax d src r => issueVred s t sub ax d src r
  | .xpose sz d src => issueXpose s t sz d src
  | .shuf tb d src r => issueShuf s t tb d src r
  | .spop sub f d a b c => issueSpop s t sub f d a b c
  | .sls dir r b w => issueSls s t dir r b w
  | .tmove sl sem l k ix => issueTmove s t sl sem l k ix
  | .send p vt src f => issueSend s t p vt src f
  | .recv p d vt f => issueRecv s t p d vt f
  | .wait sem c => issueWait s t sem c
  | .signal sem vt inc => issueSignal s t sem vt inc
  | .fence st mv loc => issueFence s t st mv loc
  | .mark ix => barrier s t (.mark ix)
  | .commit g => barrier s t (.commit g)
  | .endWord => barrier s t .endWord

/-- Let a tile that stalls on a barrier or on a full queue try again (R40, R48, R68). -/
def progress (s : State) (t : TileId) : State :=
  let x := s.tile t
  if x.phase != .running || x.frozen then s
  else match x.stall with
    | .barrier w => if x.barrierOpen w then takeBarrier (s.setTile t { x with stall := .free }) t w else s
    | .queueFull w => issueWord (s.setTile t { x with stall := .free }) t w
    | _ => s

/-! ### The commands -/

/-- `NOP` (R40). -/
def execNop (t : TileId) (s : State) : Out := word s t (fun s => goOn s t)

/-- `SETP` (R54). -/
def execSetp (t : TileId) (p : BitVec 4) (addr : BitVec 16) (s : State) : Out :=
  word s t (fun s => goOn (updTile s t (fun x => { x with ptrs := x.ptrs.set p.toNat addr })) t)

/-- `ADDP`: modulo 65,536 (R54). -/
def execAddp (t : TileId) (p : BitVec 4) (inc : BitVec 16) (s : State) : Out :=
  word s t (fun s => goOn (updTile s t (fun x => { x with ptrs := x.ptrs.set p.toNat (x.ptrs[p.toNat] + inc) })) t)

/-- `SETMODE` (R55). -/
def execSetmode (t : TileId) (a b out : BitVec 4) (bp : BitVec 5) (sr : Bool) (s : State) : Out :=
  word s t (fun s => issueSetmode s t a b out bp sr)

/-- `LOOP` (R44, R56). -/
def execLoop (t : TileId) (k : BitVec 3) (countM1 endAddr : BitVec 12) (s : State) : Out :=
  word s t (fun s => issueLoop s t k countM1 endAddr)

/-- `WAIT` (R45). -/
def execWait (t : TileId) (sem : BitVec 4) (count : BitVec 16) (s : State) : Out :=
  word s t (fun s => issueWait s t sem count)

/-- WAIT_SATISFIED: a stalled `WAIT` whose semaphore holds its count subtracts it and completes (R45). -/
def execWaitSatisfied (t : TileId) (s : State) : Out :=
  let x := s.tile t
  .next (match x.stall with
    | .waitSem sem count =>
      if x.phase == .running && decide (count.toNat ≤ (x.sems[sem.toNat]).toNat) then
        goOn (s.setTile t { x with stall := .free, gated := false, sems := x.sems.set sem.toNat (x.sems[sem.toNat] - count) }) t
      else s
    | _ => s)

/-- `FENCE` (R68). -/
def execFence (t : TileId) (stream moves loc : Bool) (s : State) : Out :=
  word s t (fun s => issueFence s t stream moves loc)

/-- `MARK` (R48, R69). -/
def execMark (t : TileId) (index : BitVec 8) (s : State) : Out := word s t (fun s => barrier s t (.mark index))

/-- `COMMIT` (R48, R70). -/
def execCommitWord (t : TileId) (group : BitVec 4) (s : State) : Out := word s t (fun s => barrier s t (.commit group))

/-- `END` (R48, R71). -/
def execEndWord (t : TileId) (s : State) : Out := word s t (fun s => barrier s t .endWord)

/-- A word is illegal in the state in which a tile reaches it (R53, R56, R58, R60). -/
def illegalHere (x : TileState) (w : Word) : Bool :=
  match decodeSeq w with
  | none => true
  | some (.mma _ _ k _ _) => !kOk (modeA x.mode) (modeB x.mode) (k.toNat + 1)
  | some (.vop sub _ _ _ _) => (sub.toNat == 8 || sub.toNat == 9) && decide ((modeOut x.mode).laneType = .fp32)
  | some (.loop k _ e) => !loopOk x k e
  | some _ => false

/-- ILLEGAL_WORD: the sequencer reaches an illegal word and stops before it (R53). -/
def execIllegalWord (t : TileId) (w : Word) (s : State) : Out :=
  .next (onlyIf ((s.tile t).issues && illegalHere (s.tile t) w) s (illegal s t 0))

/-- FLIT_PARITY_ERROR: the router discards the flit with detector 0x10; the invocation that owns the destination tile faults (R24). -/
def execFlitParityError (router dest : TileId) (s : State) : Out :=
  .next (faultTile (raise s (mkEvent 0x10 (partOfTile router) (tileJob s dest) 0 router.toNat dest.toNat)) dest 0x10)

/-- UNIT_WORD_COMPLETE: the oldest word of a unit completes; a stalled sequencer may go on (R40, R43, R48). -/
def execUnitWordComplete (t : TileId) (u : UnitId) (s : State) : Out :=
  .next (onlyIf (!(unitQ (s.tile t) u).isEmpty) s
    (progress (updTile s t (fun x => setUnitQ x u (unitQ x u).tail)) t))

/-- A filled buffer: the source bytes, read under SC4, are written, `SEND` and `RECV` complete, signals that waited go and the next words of the port are matched (R35, R43, R46, R49, R66). -/
def landSend (s : State) (d t : TileId) (p : Nat) (o : SendOp) (r : RecvOp) : State :=
  withReads s t [⟨o.src, 64 * o.flits⟩] (fun s =>
    let s := deliver s t o d r
    let s := updTile s t (fun x => x.popSend p)
    let s := updTile s d (fun x => x.popRecv p)
    matchSend (matchRecv (releaseSignals s t) d p) t p)

/-- After a filled buffer both tiles may go on (R48). -/
def fillRecv (s : State) (d t : TileId) (p : Nat) (o : SendOp) (r : RecvOp) : State :=
  progress (progress (landSend s d t p o r) t) d

/-- The flowing `SEND` of a tile's port and the posted `RECV` it fills: source, `SEND`, destination and `RECV` (R49). -/
def flowing? (s : State) (t : TileId) (p : Nat) : Option (SendOp × TileId × RecvOp) :=
  match headSend (s.tile t) p with
  | none => none
  | some o => match physTile (leaseOf s t) o.vt.toNat with
    | none => none
    | some d => match headRecv (s.tile d) p with
      | none => none
      | some r => if o.flowing && physTile (leaseOf s d) r.vt.toNat == some t then some (o, d, r) else none

/-- Flits in flight of a tile at a stop are written into their posted buffers, and a `SEND` that a landed one held back flows no further (R77, R387). -/
def landFlits (s : State) (t : TileId) : State :=
  forEach (List.range 4) s (fun s p => match flowing? s t p with
    | some (o, d, r) => landSend s d t p o r
    | none => s)

/-- Land the flits of some tiles until none is in flight: a landed `SEND` may let the next one flow (R77, R387). -/
def landAll : Nat → State → List TileId → State
  | 0, s, _ => s
  | n + 1, s, ts =>
    if ts.any (fun t => (List.range 4).any (fun p => (flowing? s t p).isSome)) then landAll n (forEach ts s landFlits) ts
    else s

/-- RECV_FILLED: every flit of a flowing transfer into the tile's posted `RECV` has arrived (R49, R66). -/
def execRecvFilled (t : TileId) (port : BitVec 2) (s : State) : Out :=
  .next (match (headRecv (s.tile t) port.toNat).bind (fun r => physTile (leaseOf s t) r.vt.toNat) with
    | none => s
    | some src => match flowing? s src port.toNat with
      | some (o, d, r) => if d = t then fillRecv s t src port.toNat o r else s
      | none => s)

end Sys2Proof.Machine
end

