-- ==== Sys2Proof/Machine/StartBase.lean ====
section
/-! DEFINITION. Starting an invocation: rows and calls taken, buffers and descriptors aimed, passes of `ATTN`, prefetchers, the shadow's runs (R148, R149, R208 to R210, R224 to R228, R238 to R242, R278, R284 to R290, R318, R323, R374 to R376, R394, R400). -/

namespace Sys2Proof.Machine

/-! ### Taking an invocation (R240, R374, R375) -/

/-- Rows of one invocation of a stream job: B (R230). -/
def streamB (s : State) (j : Job) : Nat := match jobStreamGeo s j with
  | some g => g.rows
  | none => 0

/-- A new invocation under a number (R374, R394). -/
def newInvocation (number start : Nat) : Invocation :=
  { number := number, egoFrom := 0, started := false, begun := false, gateInjected := false, passAt := 0, headers := [], start := start, due := [], met := [], watching := false, pass := .single, rows := []
    calls := [], feedFirst := 0, feedLast := 0, isFallback := false, missed := 0xFFFF, faulted := false, faultDetector := 0
    faultPartition := 0xFF, waitPart := 8, shadowServed := false, newSpans := [], buffer := none
    warmRejected := false, absentRows := 0, epoch := 0, fuse := none, kv := KvRec.zero }

/-- Lowest and highest of the feeds an invocation serves (R363). -/
def feedsOf (rows : List RowTaken) (calls : List SeqCall) (trigger : List Nat) : Nat × Nat :=
  let fs := rows.map (fun r => r.chunk.feed) ++ calls.map SeqCall.feed ++ trigger
  match fs with
  | [] => (0, 0)
  | f :: rest => (rest.foldl min f, rest.foldl max f)

/-- Take the inputs of the next invocation: chunks, one call, or one trigger (R240, R374, R375). -/
def takeInvocation (s : State) (jid : Nat) : State :=
  match s.job? jid with
  | none => s
  | some j =>
    let r := takeRows s jid (streamB s j)
    let s := r.1
    match s.job? jid with
    | none => s
    | some j =>
      let calls := j.calls.take 1
      let trig := j.triggers.take 1
      let f := feedsOf r.2 calls trig
      let ego := (s.image? j.image).bind Image.ego?
      let inv := { newInvocation j.nextNumber s.now with
        rows := r.2, calls := calls, feedFirst := f.1, feedLast := f.2, absentRows := j.strmNow.absentRows, kv := j.kvNow
        egoFrom := j.egoStep, epoch := (ego.map (fun e => egoUpTo e j.egoStep s.now)).getD 0
        fuse := j.fuse.bind (fun f => f.frozen.map (fun e => { e with lateDiscarded := f.lateDiscarded })) }
      let fuse := j.fuse.map (fun f => { f with frozen := none })
      s.setJob jid { j with
        invocation := some inv, calls := j.calls.drop 1, triggers := j.triggers.drop 1, nextNumber := (j.nextNumber + 1) % 2 ^ 64
        startWaiting := false, fuse := fuse, kvNow := KvRec.zero }

/-! ### Preparing a run (R278, R284 to R290, R318, R241) -/

/-- A field writer takes a free buffer: its state is writing and its marked descriptors are aimed at it; without one the start waits, counted once in writer_waits (R287, R288, R289). -/
def takeBuffer (s : State) (jid : Nat) (cs : List Nat) (image headerSlot : Nat) (bufs : List Nat) : Option State × State :=
  match s.job? jid with
  | none => (none, s)
  | some j => match boundObj s j headerSlot with
    | none => (some s, s)
    | some h => match freeBuffer s h bufs.length with
      | none =>
        if j.bufferWait then (none, s)
        else (none, (objSetWord s h 8 (min 0xFFFFFFFF (objWord s h 8 + 1))).setJob jid { j with bufferWait := true })
      | some b =>
        let s := setBufferState s h b 2
        let s := mapDescs s cs (fun vt slot d => if Config.markedSlot image vt slot = 3 then { d with slot := bufs[b]?.getD d.slot } else d)
        (some (updJob s jid (fun j => { j with bufferWait := false, invocation := j.invocation.map (fun i => { i with buffer := some b }) })), s)

/-- The assembled rows of an epoch are laid into the tiles' scratchpads, where the toolchain expects them (R331; DESIGN CHOICE, assumption 163). -/
def layRows (s : State) (cs : List Nat) (image : Nat) (rows : List (List Word)) : State :=
  forEach (leaseTiles cs) s (fun s e => forEach rows.zipIdx s (fun s r => match Config.rowPlace image e.1 r.2 with
    | some a => scratchWrite s e.2 a ((r.1.map (fun w => leBytes 4 w.toNat)).flatten)
    | none => s))

/-- The frozen epoch of a fusion invocation is gated and assembled once its poses are held, and its rows reach the tiles; until then the start waits (R321, R327 to R333). -/
def prepareFuse (s : State) (jid : Nat) (cs : List Nat) : Prep :=
  match s.job? jid with
  | none => (none, s)
  | some j => match fuseEnv s j, j.fuse, j.invocation.bind Invocation.fuse with
    | some env, some f, some e =>
      if !e.assembled.isEmpty then let t := layRows s cs j.image e.assembled; (some t, t)
      else if poseHeld s env (epochEdge f env (e.epoch + 1)) then
        match env.ring with
        | none => (none, s)
        | some ring =>
          let r := assembleEpoch s jid env f ring e
          let t := updJob r.1 jid (fun j => { j with
            fuse := j.fuse.map (fun f => { f with waitSince := 0 })
            invocation := j.invocation.map (fun i => { i with fuse := some r.2, epoch := e.epoch }) })
          let t := layRows t cs j.image r.2.assembled
          (some t, t)
      else
        let t := if f.waitSince = 0 then s.setJob jid { j with fuse := some { f with waitSince := s.now } } else s
        (none, t)
    | _, _, _ => (some s, s)

/-- The plan pass of a planner acquires the current buffer, aims and writes headers; before the first publication it waits (R284, R289). -/
def preparePlan (s : State) (jid : Nat) (cs : List Nat) (im : Image) : Prep :=
  match s.job? jid, im.gate? with
  | some j, some g => match preparePass s jid j g (planInst im j.image) cs j.image 0 with
    | none => (none, s)
    | some t =>
      let t := updInv t jid (fun i => { i with pass := .plan })
      (some t, t)
  | _, _ => (some s, s)

/-- A field writer's part of a start (R288). -/
def prepareWriter (s : State) (jid : Nat) (cs : List Nat) (image : Nat) : Prep :=
  match Config.fieldWriter image with
  | some (hs, bufs) => takeBuffer s jid cs image hs bufs
  | none => (some s, s)

/-- What a start always can do: control blocks, chunk slots, the warm start of solvers, the steps of `EGO` (R238, R241, R278, R318, R319). -/
def prepareRest (s : State) (jid : Nat) (cs : List Nat) (im : Image) : State :=
  match s.job? jid with
  | none => s
  | some j => match j.invocation with
    | none => s
    | some i =>
      let s := match jobStreamGeo s j with
        | some g => aimChunks (writeCtl s j g i.rows) cs j.image j i.rows
        | none => s
      let w := warmStart s jid j im
      let s := updInv w.1 jid (fun i => { i with warmRejected := w.2 })
      match im.ego? with
      | none => s
      | some _ =>
        let s := if j.egoLateNew then raise s (mkEvent 0x85 0xFF jid 0 jid 0) else s
        updJob s jid (fun j => { j with egoLateNew := false })

/-- The invocation has been started before and runs again after a fault (R433). -/
def Invocation.again (i : Invocation) : Bool := i.faulted && i.begun

/-- Prepare and start the run of the invocation a job has taken, or leave it waiting (R75, R99, R148, R284, R289, R321, R394). The start and the deadlines of a re-run stay those of its first start (R433). -/
def startRun (s : State) (jid : Nat) : State :=
  match s.job? jid with
  | none => s
  | some j => match s.image? j.image with
    | none => s
    | some im =>
      let cs := j.roleClusters .primary
      let s := clearCounts s (j.roleClusters .fallback)
      let p := Prep.andThen (prepareFuse s jid cs) (fun s => Prep.andThen (preparePlan s jid cs im) (fun s =>
        Prep.andThen (prepareWriter s jid cs j.image) (fun s => prepareCall s jid cs im)))
      match p.1 with
      | none => p.2
      | some s =>
        let s := prepareRest s jid cs im
        let s := assignFor s jid cs
        let s := updJob s jid (fun j => { j with
          lease := if j.lease == 8 || j.cancelled then 8 else 3, rerun := false
          invocation := j.invocation.map (fun i => if i.again then { i with started := true, watching := watched j.cls im }
            else { i with started := true, begun := true, start := s.now, due := dueTimes im s.now, watching := watched j.cls im }) })
        match (s.job? jid).bind Job.invocation with
        | some i => startClusters s cs i.number
        | none => s

/-! ### The warm shadow's own runs (R399, R400) -/

/-- Exchange the primary and the shadow sides of a job: clusters, invocation, streams and the placements of twinned objects. Done twice it changes nothing. -/
def flipShadow (s : State) (jid : Nat) : State :=
  match s.job? jid with
  | none => s
  | some j => match j.shadow with
    | none => s
    | some sh =>
      let here := (j.clusters.head?.getD 0) / 8
      let mine := (s.part here).streams.filter (fun x => x.job == jid)
      let ids := shadowedObjects s j
      let s := dropStreams s jid
      let s := s.setPart sh.partition { s.part sh.partition with streams := (s.part sh.partition).streams ++ sh.streams }
      let turn := fun (e : Nat × Obj) => match e.2.twin with
        | some t => if ids.contains e.1 then (e.1, { e.2 with place := some t, twin := e.2.place }) else e
        | none => e
      let s := { s with objects := s.objects.map turn }
      s.setJob jid { j with
        clusters := sh.clusters, fbClusters := sh.fallbackClusters, invocation := sh.run
        shadow := some { sh with
          partition := here, clusters := j.clusters, fallbackClusters := j.fbClusters, run := j.invocation, streams := mine } }

/-- Do something with the shadow in the primary's place; what is the job's alone stays as it was. -/
def onShadow (s : State) (jid : Nat) (f : State → State) : State :=
  match s.job? jid with
  | none => s
  | some j =>
    let s := f (flipShadow s jid)
    updJob (flipShadow s jid) jid (fun k => { k with
      lease := j.lease, rerun := j.rerun, fuse := j.fuse, egoStep := j.egoStep, egoLateNew := j.egoLateNew, egoLate := j.egoLate, egoSeen := j.egoSeen, stallNow := j.stallNow
      strmNow := j.strmNow, stall := j.stall, strm := j.strm, kv := j.kv, kvNow := j.kvNow, nextNumber := j.nextNumber, ended := j.ended
      fallbacks := j.fallbacks, faults := j.faults, misses := j.misses, last := j.last, bufferWait := j.bufferWait })

/-- The shadow starts the oldest invocation that the primary has started and it has not, or goes on with one whose start waits (R400). -/
def startShadow (s : State) (jid : Nat) : State :=
  match (s.job? jid).bind Job.shadow with
  | none => s
  | some sh => match sh.run, sh.queued with
    | none, i :: rest =>
      if sh.state ≠ 1 then s
      else
        let s := updJob s jid (fun j => { j with shadow := some { sh with run := some i, queued := rest } })
        assignFor (onShadow s jid (fun s => startRun s jid)) jid sh.clusters
    | some i, _ => if i.started || i.isFallback then s else onShadow s jid (fun s => startRun s jid)
    | _, _ => s

/-- The invocation just started is the shadow's to run as well: its chunks leave the shadow's queues (R400). -/
def queueShadow (s : State) (jid : Nat) : State :=
  updJob s jid (fun j => match j.shadow, j.invocation with
    | some sh, some i =>
      if sh.state ≠ 1 then j
      else
        let gone := fun (x : Stream) => i.rows.any (fun r => r.stream == x.id)
        { j with shadow := some { sh with
            queued := sh.queued ++ [{ i with started := false, begun := false, due := [], met := [], watching := false, pass := .single, newSpans := [], buffer := none }]
            streams := sh.streams.map (fun x => if gone x then { x with queue := x.queue.tail, selected := true } else x) } }
    | _, _ => j)

/-! ### When a job may start (R375, R376) -/

/-- Instances fed by rows (R361). -/
def rowFed (im : Image) : Bool := !im.streamInsts.isEmpty || !im.attns.isEmpty

/-- Rows queued for a job. -/
def queuedCount (s : State) (jid : Nat) (j : Job) : Nat := (readyStreams s jid).length + j.calls.length

/-- Queued rows fill every row of an invocation (R375). -/
def rowsFill (s : State) (jid : Nat) (j : Job) : Bool :=
  match jobStreamGeo s j with
  | some g => decide (g.rows ≤ (readyStreams s jid).length)
  | none => !j.calls.isEmpty

/-- An input or start instant that lets the job start (R375, R376, R323). -/
def mayStart (s : State) (jid : Nat) (j : Job) (im : Image) : Bool :=
  if im.fuse?.isSome then (match j.fuse with
    | some f => f.frozen.isSome
    | none => false)
  else if j.period ≠ 0 then j.startWaiting || (rowFed im && rowsFill s jid j)
  else if rowFed im then decide (0 < queuedCount s jid j)
  else !j.triggers.isEmpty

/-- Every cluster of a lease lies in a partition in service. -/
def leaseInService (s : State) (cs : List Nat) : Bool :=
  !s.power.failRunning && cs.all (fun c => (s.part (c / 8)).state == 0)

/-- Start the job's next invocation, or go on with one whose start waits (R375). -/
def tryStart (s : State) (jid : Nat) : State :=
  match s.job? jid with
  | none => s
  | some j => match s.image? j.image with
    | none => s
    | some im =>
      match j.invocation with
      | some i =>
        if i.started || j.rerun || !([2, 3, 8].contains j.lease) then s
        else if i.isFallback then match fallbackReady s j with
          | some fi => beginFallback s jid fi
          | none => s
        else if leaseInService s j.clusters then startRun s jid
        else s
      | none =>
        if j.lease ≠ 2 ∨ leaseInService s j.clusters = false then s
        else match j.owed with
          | i :: rest => startRun (s.setJob jid { j with invocation := some i, owed := rest }) jid
          | [] => if mayStart s jid j im then queueShadow (startRun (takeInvocation s jid) jid) jid else s

/-- Start whatever a job may start, and its shadow's next run. -/
def startJob (s : State) (jid : Nat) : State := startShadow (tryStart s jid) jid

end Sys2Proof.Machine
end

