-- ==== Sys2Proof/Machine/Invocation.lean ====
section
/-! DEFINITION. The commands of invocations and leases: starts, passes, commits, deadlines, loads, the switch and the warm shadow (R208, R284, R289, R374 to R376, R384 to R403, R433). -/

namespace Sys2Proof.Machine

/-! ### Starts (R375, R376) -/

/-- INVOCATION_START. -/
def execInvocationStart (job : Nat) (s : State) : Out := .next (startJob s job)

/-- Detector 0x30 with cause 1: a waiting start is skipped; its value is not stated (R376). -/
def skipStart (s : State) (jid : Nat) : State :=
  let f := s.fresh
  raise f.2 (mkEvent 0x30 0xFF jid 1 jid (Config.freeNat f.1 % 2 ^ 64))

/-- PERIODIC_START_INSTANT: a start instant that has fallen due waits until the job is READY; one that still waits is skipped (R375, R376). -/
def execPeriodicStartInstant (job : Nat) (s : State) : Out :=
  .next (match s.job? job with
    | none => s
    | some j =>
      if j.period = 0 ∨ j.readyAt.isNone = true ∨ s.now < j.nextStart ∨ j.fuse.isSome = true then s
      else
        let s := if j.startWaiting then skipStart s job else s
        updJob s job (fun j => { j with nextStart := j.nextStart + j.period, startWaiting := true }))

/-! ### Passes (R208, R284, R289, R310) -/

/-- The invocation that a job runs, on its lease or on its fallback clusters, when its tiles have ended the pass (R208). -/
def passEnded (s : State) (j : Job) : Option Invocation :=
  match j.invocation with
  | some i => if i.started && !s.power.failRunning && (j.lease == 3 || j.lease == 8) && allEnded s (runClusters j i) then some i else none
  | none => none

/-- ATTN_PASS_START: the next pass of the call starts once every tile has ended the last (R208). -/
def execAttnPassStart (job : Nat) (s : State) : Out :=
  .next (match s.job? job with
    | none => s
    | some j => match passEnded s j with
      | none => s
      | some i => match s.image? (runImage j i) with
        | none => s
        | some im =>
          let rows := runRows s job j i
          match nextPass s im i rows with
          | none => s
          | some p =>
            let cs := runClusters j i
            let s := updInv s job (fun i => { i with pass := p })
            startPass (preparePassOf s job cs (runImage j i) im { i with pass := p } rows p) cs)

/-- An injection on the next gate pass: 0x80 fails rank 1, 0x81 and 0x82 every candidate, 0x86 the Rest pose too (R410). -/
def gateInjection (s : State) : State × Nat :=
  [0x80, 0x81, 0x82, 0x86].foldl (fun acc d =>
    if acc.2 ≠ 0 then acc
    else
      let r := takeInjection acc.1 d (fun _ => true)
      (r.2, if r.1.isSome then d else 0)) (s, 0)

/-- The halt latch clears when `HALT_REQ` has been deasserted on 32 consecutive ticks: not before 32 ticks after its last acceptance, and from then on a free value, since no command carries the input's level; and the plan input's resume equals halt_seq (R310). -/
def clearLatch (s : State) (j : Job) (g : InstEntry) : State :=
  let f := s.fresh
  let released := decide (s.haltAt + 32 ≤ s.time.ticks) && Config.freeNat f.1 % 2 == 1
  let resume := match boundObj s j g.inSlot with
    | some o => objWord s o 8
    | none => 0
  { f.2 with haltLatched := s.haltLatched && !(released && resume == s.haltSeq) }

/-- Prepare and start the gate pass of a planner (R284, R289, R290, R310). -/
def gatePass (s : State) (jid : Nat) (j : Job) (g : InstEntry) : State :=
  let cs := j.roleClusters .primary
  let s := if s.haltLatched then clearLatch s j g else s
  let inj := gateInjection s
  let s := updInv inj.1 jid (fun i => { i with buffer := none })
  match preparePass s jid j g (fun _ _ => some g) cs j.image inj.2 with
  | none => s
  | some s => startPass (updInv s jid (fun i => { i with pass := .gate, gateInjected := inj.2 != 0 })) cs

/-- The gate pass of the run of a job's clusters, when the plan pass has ended. -/
def tryGate (s : State) (jid : Nat) : State :=
  match s.job? jid with
  | none => s
  | some j => match passEnded s j, (s.image? j.image).bind Image.gate? with
    | some i, some g => if i.pass = .plan ∧ i.isFallback = false then gatePass s jid j g else s
    | _, _ => s

/-- GATE_PASS_PREPARE: the job's own run, else its shadow's (R289, R400). -/
def execGatePassPrepare (job : Nat) (s : State) : Out :=
  .next (match (s.job? job).bind (fun j => (passEnded s j).bind (fun i => if i.pass = .plan ∧ i.isFallback = false then some i else none)) with
    | some _ => tryGate s job
    | none => match (s.job? job).bind Job.shadow with
      | some _ => onShadow s job (fun s => tryGate (updJob s job (fun j => { j with lease := 3 })) job)
      | none => s)

/-! ### Commits (R391) -/

/-- Every pass of the invocation has run (R208, R284). -/
def passesDone (s : State) (im : Image) (i : Invocation) (rows : List SeqRow) : Bool :=
  match i.pass with
  | .single => true
  | .plan => im.gate?.isNone
  | .gate => true
  | .merge _ _ => (nextPass s im i rows).isNone
  | _ => false

/-- The invocation of a job's lease commits now: tiles ended, groups reached, passes run (R391); one whose lease is being saved, saved or being reloaded waits (R384, R390). -/
def mayCommit (s : State) (jid : Nat) (j : Job) : Option (Invocation × Image) :=
  match j.invocation with
  | none => none
  | some i => match s.image? (runImage j i) with
    | none => none
    | some im =>
      let cs := runClusters j i
      if i.started && (!s.power.failRunning || s.power.failAt == s.now) && (j.lease < 4 || 6 < j.lease) && !cs.isEmpty && allEnded s cs && groupsReached s cs && passesDone s im i (runRows s jid j i) then some (i, im) else none

/-- Objects a job binds with write access (R81). -/
def writtenObjects (im : Image) (j : Job) : List Nat :=
  (im.bindings.filter (fun b => bits b.access 1 1 == 1)).filterMap (fun b => j.slotObj b.slot)

/-- The producer index of a transmit ring is read (R541). -/
def readProducer (s : State) (oid : Nat) : State :=
  match s.obj? oid with
  | none => s
  | some o =>
    let v := objWord s o 0
    if oid = 0xFFFF0110 then { s with ports := { s.ports with eth0 := { s.ports.eth0 with txProd := v } } }
    else if oid = 0xFFFF0111 then { s with ports := { s.ports with eth1 := { s.ports.eth1 with txProd := v } } }
    else if 0xFFFF0410 ≤ oid ∧ oid < 0xFFFF0414 then
      { s with ports := { s.ports with cans := Vector.ofFn (fun i =>
          if i.val + 0xFFFF0410 = oid then
            { s.ports.cans[i] with txProd := v, headAt := if s.ports.cans[i].txProd = objWord s o 4 then s.now else s.ports.cans[i].headAt }
          else s.ports.cans[i]) } }
    else s

/-- Rows that the commit made visible reach the fusion jobs, and transmit rings are read (R314, R541). -/
def arrivals (s : State) (im : Image) (j : Job) : State :=
  forEach (writtenObjects im j) s (fun s o => readProducer (arrive s o) o)

/-- The sequences of a call grow at the commit; a fallback run leaves the job's own as they were, and only those that it keeps for itself grow (R206, assumption 150). -/
def commitCall (s : State) (jid : Nat) (j : Job) (i : Invocation) : State :=
  if i.isFallback && !ownSequences s j then abortSpans s i.newSpans
  else
    let r := (runRows s jid j i).foldl (fun acc row =>
      let x := commitRow acc.1 i.newSpans row
      (x.1, acc.2 + x.2)) (s, 0)
    countKv r.1 jid (fun k => { k with indexReplacements := k.indexReplacements + r.2 })

/-- Publish what an invocation wrote: sequences, streams, records, buffers (R206, R255, R267, R301, R306, R334, R391). The status of the end is answered. -/
def publish (s : State) (jid : Nat) (j : Job) (i : Invocation) (im : Image) : State × Nat :=
  let s := commitCall s jid j i
  let s := if i.isFallback then abandonRows s jid i.rows else commitRows s jid i.rows
  let s := publishQp s jid j im
  let fl := if i.gateInjected then 1 else 0
  let p := match im.gate?.orElse (fun _ => im.restIssue?) with
    | some g => publishPlan s jid j g fl
    | none => (s, stOk)
  let s := publishRoadmap p.1 j im
  let s := publishFuse s jid j im i
  let s := publishEgo s jid j im i
  let s := if i.isFallback then s else publishField s j i.buffer
  (arrivals s im j, if i.isFallback then stFallback else p.2)

/-- What may go on after an invocation's end: streams, waiting commands, queued jobs, the `RESTING` pin (R236, R383, R311). -/
def afterwards (s : State) : State := updateResting (grantQueue 64 (serveWaiting (serveStreams s)))

/-- The job's own lease commits (R391, R395). -/
def commitJob (s : State) (jid : Nat) : State :=
  match s.job? jid with
  | none => s
  | some j => match mayCommit s jid j with
    | none => s
    | some (i, im) =>
      let p := publish s jid j i im
      let s := if i.isFallback && decide (j.last < i.number) then raise p.1 (mkEvent 0x31 0xFF jid 0 jid i.number) else p.1
      afterwards (afterEnd (endInvocation s jid p.2 (some 2)) jid)

/-- Shadow commits not later than the job's last are no longer needed (R401). -/
def pruneCommits (s : State) (jid : Nat) : State :=
  updJob s jid (fun j => { j with shadow := j.shadow.map (fun sh =>
    { sh with commits := sh.commits.filter (fun c => decide (j.last < c.number)) }) })

/-- With the shadow in the primary's place: its run ends and is kept for a takeover (R400, R401). -/
def keepCommit (s : State) (jid : Nat) (i : Invocation) (status : Nat) : State :=
  match s.job? jid with
  | none => s
  | some j =>
    let sums := sumCounts s jid (j.clusters ++ j.fbClusters)
    let done := status != stLate
    let c : ShadowCommit :=
      { number := i.number, status := status, record := invRecord sums.1 jid j i sums.2.1 sums.2.2 true, rows := i.rows
        step := if done then i.epoch else 0, discarded := if done then (i.fuse.map EpochData.lateDiscarded).getD 0 else 0 }
    let s := updJob sums.1 jid (fun j => { j with
      invocation := none, shadow := j.shadow.map (fun sh => { sh with commits := sh.commits ++ [c] }) })
    reloadFallback s j i

/-- The shadow's own run commits into the twins; it posts nothing and raises neither 0x30 nor 0x31 (R400). -/
def commitShadow (s : State) (jid : Nat) : State :=
  let s := onShadow s jid (fun s =>
    match s.job? jid with
    | none => s
    | some j => match mayCommit s jid j with
      | none => s
      | some (i, im) =>
        let p := publish s jid j i im
        keepCommit p.1 jid i p.2)
  pruneCommits (startShadow s jid) jid

/-! ### Deadlines (R394, R395) -/

/-- A milestone was met on or before the tick of a time, ticks being 8 ns (R394, R440). -/
def Invocation.metBy (i : Invocation) (m t : Nat) : Bool := i.met.any (fun r => r.1 == m && decide (r.2 < t + 8))

/-- The milestones that were not met on their due tick, the final one not met by then either, earliest first, in index order among equals (R394). -/
def unmet (im : Image) (i : Invocation) : List (Nat × Nat) :=
  if !i.watching then []
  else sortBy (fun a b => decide (a.2 < b.2)) (i.due.filter (fun d => !i.metBy d.1 d.2 && !(im.final?.any (fun m => i.metBy m d.2))))

/-- The milestone that abandons an invocation now, with its due time; with `hurry` the next unmet one at once (R394, R410). -/
def missedMilestone (s : State) (im : Image) (i : Invocation) (hurry : Bool) : Option (Nat × Nat) :=
  match (unmet im i).head? with
  | some d => if decide (d.2 ≤ s.now) || (hurry && !(im.final?.any (fun m => i.metBy m s.now))) then some d else none
  | none => none

/-- Stop an invocation's tiles and give back what it took (R395). -/
def dropWork (s : State) (j : Job) (i : Invocation) : State :=
  let s := stopClusters s (runClusters j i)
  emptyField (abortSpans s i.newSpans) j (if i.isFallback then none else i.buffer)

/-- The fallback starts, when the job has one and this was not it: the state after, or none (R395). -/
def fallbackAfter (s : State) (jid : Nat) (j : Job) (i : Invocation) : Option State :=
  if i.isFallback then none else (fallbackReady s j).map (startFallback s jid)

/-- An invocation abandoned at milestone `m`: its record carries the milestone that it missed itself, also when its fallback is abandoned too (R395). -/
def Invocation.missing (m : Nat) (i : Invocation) : Invocation :=
  { i with missed := if i.missed = 0xFFFF then m else i.missed, newSpans := [], buffer := none, watching := false }

/-- Abandon the invocation of a job at milestone `m` (R394, R395). -/
def abandon (s : State) (jid : Nat) (j : Job) (i : Invocation) (m flags : Nat) : State :=
  let s := dropWork s j i
  let s := raiseAs s 1 flags (mkEvent 0x30 0xFF jid 0 jid (m * 2 ^ 56 + i.number % 2 ^ 56))
  let s := updInv s jid (Invocation.missing m)
  match s.job? jid with
  | none => s
  | some j => match fallbackAfter s jid j i with
    | some s => serveWaiting s
    | none => afterwards (afterEnd (endInvocation (abandonRows s jid i.rows) jid stLate (some 3)) jid)

/-- With the shadow in the primary's place: abandon its run, quietly (R400). -/
def abandonShadow (s : State) (jid : Nat) (j : Job) (i : Invocation) (m : Nat) : State :=
  let s := dropWork s j i
  let s := updInv s jid (Invocation.missing m)
  match s.job? jid with
  | none => s
  | some j => match fallbackAfter s jid j i with
    | some s => s
    | none => keepCommit (abandonRows s jid i.rows) jid (i.missing m) stLate

/-- The missed milestone of the run of a job's clusters: invocation, milestone and due time. -/
def missedNow (s : State) (j : Job) (hurry : Bool) : Option (Invocation × Nat × Nat) :=
  match j.invocation with
  | none => none
  | some i => match s.image? (runImage j i) with
    | none => none
    | some im => (missedMilestone s im i hurry).map (fun m => (i, m))

/-- The milestone that abandons the run of a job's clusters now: one that is due, unless the run commits on that very tick (R394, R395). -/
def dueNow (s : State) (jid : Nat) (j : Job) (hurry : Bool) : Option (Invocation × Nat) :=
  match missedNow s j hurry with
  | some (i, m, t) => if (mayCommit s jid j).isSome && decide (s.now < t + 8) then none else some (i, m)
  | none => none

/-- With the shadow in the primary's place: abandon its run when a milestone of it is due (R400). -/
def abandonDue (s : State) (jid : Nat) : State := match s.job? jid with
  | none => s
  | some k => match dueNow s jid k false with
    | some (i, m) => abandonShadow s jid k i m
    | none => s

/-- MILESTONE_DUE: the monitor abandons the job's run, else the shadow's (R394, R395, R400); an injection of 0x30 makes the next milestone due (R410). -/
def execMilestoneDue (job : Nat) (s : State) : Out :=
  .next (match s.job? job with
    | none => s
    | some j =>
      let inj := if (dueNow s job j true).isSome then takeInjection s 0x30 (fun q => q.param.toNat == job) else (none, s)
      match dueNow inj.2 job j inj.1.isSome with
      | some (i, m) => abandon inj.2 job j i m (injFlags inj.1)
      | none => match j.shadow with
        | none => s
        | some _ => startShadow (onShadow s job (fun s => abandonDue s job)) job)

/-- INVOCATION_COMMIT: the job's own run where it is ready, else its shadow's; a run of which a milestone fell due on an earlier tick has been abandoned on that tick (R391, R394, R400). -/
def execInvocationCommit (job : Nat) (s : State) : Out :=
  .next (match s.job? job with
    | none => s
    | some j => match mayCommit s job j, j.shadow with
      | some _, _ => match dueNow s job j false with
        | some (i, m) => abandon s job j i m 0
        | none => pruneCommits (commitJob s job) job
      | none, some _ => commitShadow (onShadow s job (fun s => abandonDue s job)) job
      | none, none => s)

/-! ### Loading a lease (R74, R384, R433) -/

/-- Load a job's image, and its fallback image, onto its clusters (R74, R396). -/
def loadLease (s : State) (j : Job) : State :=
  let s := match s.image? j.image with
    | some im => loadImage s (j.roleClusters .primary) im
    | none => s
  match s.image? j.fallback with
  | some im => loadImage s (j.roleClusters .fallback) im
  | none => s

/-- A faulted invocation's final milestone is due (R433). -/
def finalDue (s : State) (j : Job) (i : Invocation) : Bool :=
  match (s.image? j.image).bind Image.final? with
  | none => false
  | some m => match i.due.find? (fun d => d.1 == m) with
    | some d => decide (d.2 ≤ s.now)
    | none => false

/-- After the lease is loaded: a faulted invocation that is due is abandoned, or ends with `LATE` when its final milestone is due, else runs again (R394, R433). -/
def recover (s : State) (jid : Nat) : State :=
  match s.job? jid with
  | none => s
  | some j => match j.invocation with
    | none => s
    | some i =>
      match dueNow s jid j false with
      | some (i, m) => abandon s jid j i m 0
      | none =>
        if j.cls ≠ 2 ∧ finalDue s j i = true then
          afterwards (afterEnd (endInvocation (abandonRows s jid i.rows) jid stLate (some 3)) jid)
        else startRun s jid

/-- The lease can be loaded: its clusters, and the partition of the fault that it waits for, are in service (R433). -/
def mayLoad (s : State) (j : Job) : Bool :=
  (j.lease == 1 || j.lease == 7 || (j.rerun && (j.lease == 3 || j.lease == 8) && !j.invocation.any Invocation.isFallback)) && !j.clusters.isEmpty && leaseInService s (j.clusters ++ j.fbClusters) &&
  (!j.rerun || (match j.invocation with
    | some i => (decide (8 ≤ i.faultPartition) || (s.part i.faultPartition).state == 0) &&
        (decide (8 ≤ i.waitPart) || (s.part i.waitPart).state == 0)
    | none => true))

/-- LEASE_LOAD_COMPLETE: the programs, descriptors and initial data are in the tiles; the job is READY, and a faulted invocation goes on (R74, R384, R433). -/
def execLeaseLoadComplete (job : Nat) (s : State) : Out :=
  .next (match s.job? job with
    | none => s
    | some j =>
      if mayLoad s j then
        let s := loadLease s j
        let s := updJob s job (fun j => { (if j.lease = 3 then j else j.ready s.now) with rerun := false })
        let s := serveWaiting (recover s job)
        enforceCap s (capInForce s)
      else s)

/-! ### The switch (R77, R387 to R390) -/

/-- The stop of a pre-empted job is complete: flits in flight are in their buffers, and its contexts and live bytes are what the save holds; a job that faulted since keeps none (R77, R387, R389, R392). -/
def landStopped (s : State) (jid : Nat) : State :=
  match s.job? jid with
  | none => s
  | some j =>
    if j.rerun then s
    else
      let cs := j.roleClusters .primary
      let s := landAll 4096 s ((leaseTiles cs).map Prod.snd)
      let im := s.image? j.image
      updJob s jid (fun k => if k.rerun then k else { k with
        saved := savedContexts s cs im
        savedMem := match im with
          | some im => liveBytes s cs im
          | none => [] })

/-- SWITCH_SAVE_WRITTEN: the live state is in the save object, whose inner layout is not stated; the clusters are free (R77, R384, R389). -/
def execSwitchSaveWritten (job : Nat) (s : State) : Out :=
  .next (match s.job? job with
    | none => s
    | some j =>
      if j.lease ≠ 4 then s
      else
        let s := landStopped s job
        match s.job? job with
        | none => s
        | some j =>
          let s := match s.obj? j.saveObject with
            | some o =>
              let f := s.freeBytes o.length
              objWriteBytes f.2 o 0 f.1
            | none => s
          let s := s.setJob job { j with lease := 5, clusters := [], queuedSince := s.now }
          let s := freeClusters s j.clusters
          afterwards (enforceCap s (capInForce s)))

/-- A saved run presented again: one that is not wholly written starts from its beginning (R77, R390). -/
def renewRun (t : TileId) (r : Run) : Run :=
  { r with tile := t, xfers := if r.written then r.xfers else r.xfers.map (fun x => { x with state := .unpresented }) }

/-- Put the saved runs, contexts and live bytes of a job back (R390). -/
def restore (s : State) (j : Job) (cs : List Nat) : State :=
  let s := forEach j.savedMem s (fun s e => match physTile cs (e.1 / 0x100000) with
    | some t => scratchWrite s t (e.1 % 0x100000) e.2
    | none => s)
  let s := forEach j.saved s (fun s e => match physTile cs e.1 with
    | some t => s.setTile t e.2
    | none => s)
  let s := forEach j.savedRuns s (fun s e => match physTile cs e.1 with
    | some t =>
      let c := clusterOfTile t
      s.setCluster c { s.cluster c with runs := (s.cluster c).runs ++ [renewRun t e.2] }
    | none => s)
  forEach (leaseTiles cs) s (fun s e => progress (forEach (List.range 4) s (fun s p => matchSend s e.2 p)) e.2)

/-- SWITCH_RELOAD_COMPLETE: the image, then the saved state; the tiles resume where they stopped (R384, R390). -/
def execSwitchReloadComplete (job : Nat) (s : State) : Out :=
  .next (match s.job? job with
    | none => s
    | some j =>
      if j.lease ≠ 6 ∨ leaseInService s j.clusters = false then s
      else
        let cs := j.roleClusters .primary
        let s := loadLease s j
        let s := restore s j cs
        let resume := j.resumeRunning && !j.saved.isEmpty
        let s := updJob s job (fun j => { j.unsaved with lease := if j.cancelled then 8 else if resume then 3 else 2, rerun := false })
        let s := serveWaiting (if j.rerun then recover s job else s)
        enforceCap s (capInForce s))

/-! ### Establishing a shadow (R398 to R402) -/

/-- The clusters of a shadow lease: kept ones, or reserved ones of the partition (R380, R402). -/
def shadowClusters (s : State) (j : Job) : Option (Nat × List Nat × List Nat) :=
  match j.shadow with
  | some sh => if sh.state = 0 then some (sh.partition, sh.clusters, sh.fallbackClusters) else none
  | none => match j.shadowPart with
    | none => none
    | some p => (placeOne s j.clusters.length j.fbClusters.length ((eligible s 0).filter (fun c => c / 8 == p)) none).map
        (fun x => (p, x.1, x.2))

/-- The objects of a job that need twins: those in its lease's partition (R399). -/
def needTwins (s : State) (j : Job) (p : Nat) : List Nat :=
  (distinct (shadowedObjects s j)).filter (fun o => match (s.obj? o).bind Obj.place with
    | some x => x.tier != 3 && x.partition == p
    | none => false)

/-- Every twin's range at its original's offset is free in the shadow's partition (R399, R402). -/
def twinsFit (s : State) (ids : List Nat) (p : Nat) : Bool :=
  ids.all (fun o => match s.obj? o with
    | some x => match x.place, x.twin with
      | some pl, none => decide (pl.offset + x.length ≤ tierSize s pl.tier p) && rangeFree s pl.tier p pl.offset x.length
      | _, some t => t.partition == p
      | none, none => true
    | none => true)

/-- Place the twins and copy the originals (R399). -/
def makeTwins (s : State) (ids : List Nat) (p : Nat) : State :=
  forEach ids s (fun s o => match s.obj? o with
    | none => s
    | some x => match x.place with
      | none => s
      | some pl =>
        let t := { pl with partition := p }
        (firmwareWrite (objTouch (s.setObj o { x with twin := some t }) x 0 x.length) t 0 (objBytes s x 0 x.length)).1)

/-- The second entries of a job's streams keep the limits of the shadow's partition (R234, R239, R256). -/
def secondsFit (s : State) (p : Nat) (xs : List Stream) : Bool :=
  decide (activeStreams s p + (xs.filter Stream.active).length ≤ 1024) && decide (tableStreams s p + xs.length ≤ 8192) &&
  decide ((((s.part p).streams ++ shadowStreams s p ++ xs).map (fun x => x.queue.length)).sum ≤ 4096)

/-- SHADOW_ESTABLISH: between a commit and the next start, the shadow's clusters are held and loaded, the twins placed and copied, and the shadow runs from the next invocation (R256, R398, R399, R402). -/
def execShadowEstablish (job : Nat) (s : State) : Out :=
  .next (match s.job? job with
    | none => s
    | some j => match shadowClusters s j with
      | none => s
      | some (p, cs, fb) =>
        let here := (j.clusters.head?.getD 0) / 8
        let ids := needTwins s j here
        let mine := (s.part here).streams.filter (fun x => x.job == job)
        if !j.wantShadow || j.invocation.isSome || j.lease != 2 || (s.part p).state != 0 || p == here || !twinsFit s ids p ||
            !secondsFit s p mine || !roomFor s (leaseCap s) ((cs ++ fb).filter (fun c => !(s.cluster c).leased)).length then s
        else
          let s := forEach cs s (fun s c => powerOnCluster s job .shadow c)
          let s := forEach fb s (fun s c => powerOnCluster s job .shadowFallback c)
          let s := makeTwins s ids p
          let s := match s.image? j.image with
            | some im => loadImage s (sortBy (fun a b => a < b) cs) im
            | none => s
          let s := match s.image? j.fallback with
            | some im => loadImage s (sortBy (fun a b => a < b) fb) im
            | none => s
          let sh : Shadow :=
            { partition := p, clusters := cs, fallbackClusters := fb, state := 1, run := none, queued := [], commits := []
              streams := mine }
          noteCap (updJob s job (fun j => { j with shadow := some sh, shadowPart := none })))

end Sys2Proof.Machine
end

