-- ==== Sys2Proof/Machine/Checks.lean ====
section
/-! DEFINITION. The firmware's checks of images, descriptors and of the objects a job binds (R52 to R58, R78 to R86, R124 to R128, R260 to R264, R291, R301, R315). -/

namespace Sys2Proof.Machine

/-! ### Reading arrays -/

/-- `n` fields of `w` bytes from an offset. -/
def fieldsAt (b : List Byte) (off w n : Nat) : List Nat := (List.range n).map (fun i => fld b (off + w * i) w)

/-- All bytes of a range are 0 (R13, R16). -/
def zeros (b : List Byte) (off n : Nat) : Bool := (slice b off n).all (fun x => x == 0)

/-- No element is above the next. -/
def rising : List Nat → Bool
  | [] => true
  | [_] => true
  | x :: y :: r => decide (x ≤ y) && rising (y :: r)

/-! ### Signatures (R84, R492, R493) -/

/-- The signature block of R84 at the end of signed bytes verifies under the accepted key of its key_id. -/
def signedBy (bytes : List Byte) (keys : Nat → Option (Nat × Nat)) : Bool :=
  let n := bytes.length - 80
  let blk := bytes.drop n
  if bytes.length < 80 ∨ fld blk 0 4 ≠ 1 ∨ fld blk 4 4 ≠ 0 then false
  else match keys (fld blk 8 8) with
    | none => false
    | some q => ecdsaVerify q (sha256 (bytes.take n)) (ofBe (slice blk 0x10 32)) (ofBe (slice blk 0x30 32))

/-- The key_id of a signature block. -/
def blockKeyId (bytes : List Byte) : Nat := fld (bytes.drop (bytes.length - 80)) 8 8

/-- The measurement of an object: the hash of its signed bytes (R509). -/
def measure (bytes : List Byte) : Nat := ofBe (sha256 (bytes.take (bytes.length - 80)))

/-- The integrator image key of a key_id: Plinth settings 0x0300 to 0x030F (R493). -/
def imageKey (s : State) (id : Nat) : Option (Nat × Nat) :=
  (((List.range 16).filterMap (fun i =>
    ((s.boot.plinth.settings.find? (fun x => x.key == 0x0300 + i)).bind (fun x => keyOfBytes x.value)))).find?
      (fun q => keyId q == id))

/-- The Slorek configuration key of a key_id (R493). -/
def configKey (id : Nat) : Option (Nat × Nat) := (Config.configKeys.find? (fun e => e.1 == id)).map (fun e => e.2)

/-- Detector 0x70 for an object kind and key_id (R493). -/
def signatureFail (s : State) (kind key flags : Nat) : State := raiseAs s 1 flags (mkEvent 0x70 0xFF 0 kind 0 key)

/-- A signature check that an injection of 0x70 may fail (R410, R413). -/
def checkSigned (s : State) (ok : Bool) (kind key : Nat) : State × Bool :=
  let inj := takeInjection s 0x70 (fun _ => true)
  if ok && inj.1.isNone then (inj.2, true) else (signatureFail inj.2 kind key (injFlags inj.1), false)

/-! ### Descriptors (R124 to R126) -/

/-- The shape rules of a layout (R125, R126). -/
def layoutOk (f : Fmt) (layout rows cols : Nat) (separate : Bool) : Bool :=
  match layout with
  | 0 => f != .fp4b && f != .int4b && f != .trib && cols * f.elemBits % 128 == 0 && !separate
  | 1 => (f == .fp4b || f == .int4b || f == .trib) && cols == 64 && rows % blockLen f == 0
  | 2 => (f == .fp4b || f == .int4b) && cols == 64
  | _ => false

/-- R124 to R126 on the 64 bytes of a descriptor. -/
def descriptorOk (b : List Byte) : Bool :=
  let flags := fld b 5 1
  let separate := bits flags 1 1 == 1
  let prefetched := bits flags 3 1 == 1
  (match Fmt.ofCode (fld b 0 1) with
    | some f => layoutOk f (fld b 1 1) (fld b 2 1 + 1) (fld b 3 1 + 1) separate
    | none => false) &&
  decide (fld b 2 1 ≤ 63) && decide (fld b 3 1 ≤ 63) && decide (fld b 4 1 ≤ 15) && decide (flags < 16) &&
  (if prefetched then decide (1 ≤ fld b 6 1) && decide (fld b 6 1 ≤ 15) else fld b 6 1 == 0) &&
  fld b 8 8 % 16 == 0 && fld b 0x10 4 % 16 == 0 && fld b 0x14 4 % 16 == 0 &&
  (separate || (fld b 0x18 8 == 0 && fld b 0x20 4 == 0)) && zeros b 0x28 24

/-- Decode the 64 bytes of a descriptor (R124). -/
def Descriptor.ofBytes (b : List Byte) : Descriptor :=
  { format := fld b 0 1, layout := fld b 1 1, rowsM1 := fld b 2 1, colsM1 := fld b 3 1, runM1 := fld b 4 1
    flags := fld b 5 1, prefetchLead := fld b 6 1, slot := fld b 7 1, offset := fld b 8 8
    rowStride := fld b 0x10 4, runStride := fld b 0x14 4, scaleOffset := fld b 0x18 8
    scaleStride := fld b 0x20 4, lateThreshold := fld b 0x24 4, via := none, idle := false }

/-! ### Image containers (R78 to R85) -/

/-- One entry of a section table (R79). -/
structure Section where
  type : Nat
  flags : Nat
  offset : Nat
  length : Nat
  target : Nat
deriving DecidableEq, Repr

/-- The section table of an image (R79). -/
def imageSections (b : List Byte) : List Section :=
  (List.range (fld b 0x10 2)).map (fun i =>
    let e := slice b (fld b 0x18 4 + 16 * i) 16
    { type := fld e 0 2, flags := fld e 2 2, offset := fld e 4 4, length := fld e 8 4, target := fld e 0xC 4 })

/-- The body of a section. -/
def Section.body (x : Section) (b : List Byte) : List Byte := slice b x.offset x.length

/-- The virtual tile a section names. -/
def Section.tile (x : Section) : Nat := x.target % 512

/-- The sections of a type. -/
def sectionsOf (b : List Byte) (type : Nat) : List Section := (imageSections b).filter (fun x => x.type == type)

/-- No two ranges of a list overlap. -/
def apart : List (Nat × Nat) → Bool
  | [] => true
  | x :: r => r.all (fun y => decide (x.1 + x.2 ≤ y.1) || decide (y.1 + y.2 ≤ x.1)) && apart r

/-- The words of a program section (R80). -/
def programWords (bs : List Byte) : List Word := (fieldsAt bs 0 4 (bs.length / 4)).map (BitVec.ofNat 32)

/-- R85 step 1: magic, header_length and total_length, which lies within the object. -/
def imageHeadOk (b : List Byte) (objLength : Nat) : Bool :=
  slice b 0 4 == [0x53, 0x4D, 0x57, 0x49] && fld b 6 2 == 0x80 && fld b 0x1C 4 % 16 == 0 &&
  decide (0x80 + 80 ≤ fld b 0x1C 4) && decide (fld b 0x1C 4 ≤ 0x4000000) && decide (fld b 0x1C 4 ≤ objLength)

/-- The header rules of R78. -/
def imageHeaderOk (b : List Byte) : Bool :=
  let fb := fld b 0x12 2
  fld b 4 2 == 1 && fld b 8 2 != 0 && decide (1 ≤ fld b 0xC 1) && decide (fld b 0xC 1 ≤ 7) &&
  decide (1 ≤ fld b 0xD 1) && decide (fld b 0xD 1 ≤ 64) && decide (fld b 0xE 2 ≤ 3) &&
  decide (1 ≤ fld b 0x10 2) && decide (fld b 0x10 2 ≤ 256) &&
  (if fb = 0 then fld b 0x14 1 == 0 else decide (1 ≤ fld b 0x14 1) && decide (fld b 0x14 1 ≤ 8)) &&
  zeros b 0x15 1 && decide (fld b 0x16 2 ≤ 256) && fld b 0x18 4 % 16 == 0 && decide (0x80 ≤ fld b 0x18 4) &&
  decide (fld b 0x18 4 + 16 * fld b 0x10 2 ≤ b.length - 80) && zeros b 0x24 28 && zeros b 0x60 32

/-- A binding entry (R81). -/
def bindingOk (e : List Byte) : Bool :=
  decide (fld e 0 2 ≤ 255) && decide (1 ≤ fld e 2 1) && decide (fld e 2 1 ≤ 3) &&
  (decide (fld e 3 1 ≤ 0xA) || fld e 3 1 == 0xFF) && zeros e 4 4

/-- A milestone entry (R82). -/
def milestoneOk (e : List Byte) : Bool :=
  decide (fld e 1 1 ≤ 1) && decide (1000 ≤ fld e 4 4) && zeros e 8 8

/-- A live-region entry (R83). -/
def liveOk (e : List Byte) : Bool :=
  zeros e 0xC 4 && (if fld e 2 2 = 0 then
      fld e 4 4 % 16 == 0 && fld e 8 4 % 16 == 0 && decide (fld e 4 4 + fld e 8 4 ≤ 0x100000)
    else decide (fld e 2 2 ≤ 2) && fld e 4 4 == 0 && fld e 8 4 == 0)

/-- The entries of `n` bytes of a section body. -/
def entriesOf (n : Nat) (bs : List Byte) : List (List Byte) := groupsOf n bs

/-- The rules of a section by its type, its tile included (R80 to R83). -/
def sectionOk (b : List Byte) (tiles : Nat) (x : Section) : Bool :=
  let body := x.body b
  let tileTarget := decide (x.target < 512) && decide (x.tile < tiles)
  x.flags == 0 && x.offset % 16 == 0 &&
  match x.type with
  | 1 => tileTarget && x.length % 4 == 0 && decide (4 ≤ x.length) && decide (x.length ≤ 16384)
  | 2 => tileTarget && x.length % 64 == 0 && decide (64 ≤ x.length) && decide (x.length ≤ 4096) &&
      (entriesOf 64 body).all descriptorOk
  | 3 => decide (x.target / 512 % 128 = 0) && decide (x.tile < tiles) && x.length % 16 == 0 &&
      decide (16 * (x.target / 65536) + x.length ≤ 0x100000)
  | 4 => x.target == 0 && x.length % 16 == 0 && decide (16 ≤ x.length) && decide (x.length ≤ 4096) &&
      (entriesOf 16 body).all bindingOk && (let ks := (entriesOf 16 body).map (fun e => fld e 0 2); (distinct ks).length == ks.length)
  | 5 => x.target == 0 && x.length % 16 == 0 && x.length == 16 * fld b 0x16 2 &&
      (entriesOf 16 body).all (fun e => milestoneOk e && decide (fld e 2 2 < tiles)) &&
      (let ks := (entriesOf 16 body).map (fun e => fld e 0 1); (distinct ks).length == ks.length)
  | 6 => x.target == 0 && x.length % 16 == 0 && (entriesOf 16 body).all (fun e => liveOk e && decide (fld e 0 2 < tiles))
  | 7 => x.target == 0
  | _ => false

/-- R79, R80: table, placement of the bodies and the limits on sections of a type; a body of zero length lies nowhere and is exempt from the checks of its offset (DESIGN CHOICE, assumption 153). -/
def imageTableOk (b : List Byte) : Bool :=
  let xs := imageSections b
  let tiles := 8 * fld b 0xD 1
  let body := xs.filter (fun x => x.length != 0)
  let one := fun (t : Nat) => let ts := (sectionsOf b t).map Section.tile
    (distinct ts).length == ts.length
  let final := ((sectionsOf b 5).map (fun x => (entriesOf 16 (x.body b)).filter (fun e => fld e 1 1 == 1))).flatten
  xs.all (sectionOk b tiles) &&
  apart ((0, 0x80) :: (fld b 0x18 4, 16 * xs.length) :: body.map (fun x => (x.offset, x.length))) &&
  body.all (fun x => decide (x.offset + x.length ≤ b.length - 80)) && one 1 && one 2 &&
  decide ((sectionsOf b 4).length ≤ 1) && decide ((sectionsOf b 5).length ≤ 1) && decide ((sectionsOf b 6).length ≤ 1) &&
  (if fld b 0x16 2 = 0 then true else (sectionsOf b 5).length == 1 && final.length == 1) &&
  (List.range tiles).all (fun t => apart (((sectionsOf b 3).filter (fun x => x.tile == t)).map
    (fun x => (16 * (x.target / 65536), x.length))))

/-- The virtual tile a word names (R85 step 7). -/
def namedTile : SeqWord → Option Nat
  | .send _ vt _ _ => some vt.toNat
  | .recv _ _ vt _ => some vt.toNat
  | .signal _ vt _ => some vt.toNat
  | _ => none

/-- R85 steps 4 to 7 for one program: legal words and loops, declared milestones, existing slots, tiles in range. -/
def programFits (ws : List Word) (tile tiles slots : Nat) (marks : List (Nat × Nat)) : Bool :=
  programOk ws && ws.all (fun w => match decodeSeq w with
    | some (.mark ix) => marks.contains (ix.toNat, tile)
    | some (.tmove sl _ _ _ _) => decide (sl.toNat < slots)
    | some i => match namedTile i with
      | some v => decide (v < tiles)
      | none => true
    | none => false)

/-- R85 steps 3 to 7. -/
def imageBodyOk (b : List Byte) : Bool :=
  let tiles := 8 * fld b 0xD 1
  let marks := ((sectionsOf b 5).map (fun x => (entriesOf 16 (x.body b)).map (fun e => (fld e 0 1, fld e 2 2)))).flatten
  let slots := ((sectionsOf b 4).map (fun x => (entriesOf 16 (x.body b)).map (fun e => fld e 0 2))).flatten
  let descs := fun (t : Nat) => match (sectionsOf b 2).find? (fun x => x.tile == t) with
    | some x => x.length / 64
    | none => 0
  imageHeaderOk b && imageTableOk b &&
  (sectionsOf b 1).all (fun x => programFits (programWords (x.body b)) x.tile tiles (descs x.tile) marks) &&
  (sectionsOf b 2).all (fun x => (entriesOf 64 (x.body b)).all (fun e => slots.contains (fld e 7 1)))

/-- A function instance entry (R171). -/
def InstEntry.ofBytes (b : List Byte) : InstEntry :=
  { function := fld b 0 1, variant := fld b 1 1, inFormat := fld b 2 1, weightFormat := fld b 3 1, outFormat := fld b 4 1
    flags := fld b 5 1, activation := fld b 6 2, inSlot := fld b 8 2, weightSlot := fld b 0xA 2, outSlot := fld b 0xC 2
    tiles := fld b 0xE 2, dims := fieldsAt b 0x10 4 8 }

/-- The instance entries of an INFO body (R115, R171): records of types 1 and 2 back to back, up to the first record of another type, at most 256 of them (DESIGN CHOICE, assumption 152). -/
def infoInsts : Nat → List Byte → List InstEntry
  | 0, _ => []
  | fuel + 1, b =>
    let n := fld b 2 2
    match fld b 0 2 with
    | 1 => infoInsts fuel (b.drop (4 + 16 * n))
    | 2 => (List.range n).map (fun i => InstEntry.ofBytes (slice b (4 + 64 * i) 64)) ++ infoInsts fuel (b.drop (4 + 64 * n))
    | _ => []

/-- The loaded image of checked bytes (R78 to R83). -/
def Image.ofBytes (b : List Byte) (object owner : Nat) : Image :=
  let perTile := fun (t : Nat) => (sectionsOf b t)
  let entries := fun (t : Nat) => ((perTile t).map (fun x => entriesOf 16 (x.body b))).flatten
  { version := fld b 0xA 2, classMask := fld b 0xC 1, clusters := fld b 0xD 1
    onePartition := fld b 0xE 2 % 2 == 1, shadowOk := fld b 0xE 2 / 2 % 2 == 1
    fallback := fld b 0x12 2, fallbackClusters := fld b 0x14 1
    programs := sortBy (fun x y => x.1 < y.1) ((perTile 1).map (fun x => (x.tile, programWords (x.body b))))
    descs := sortBy (fun x y => x.1 < y.1) ((perTile 2).map (fun x => (x.tile, (entriesOf 64 (x.body b)).map Descriptor.ofBytes)))
    scratch := (perTile 3).map (fun x => { tile := x.tile, granule := x.target / 65536, data := x.body b })
    bindings := (entries 4).map (fun e => { slot := fld e 0 2, access := fld e 2 1, format := fld e 3 1, minLength := fld e 8 8 })
    milestones := (entries 5).map (fun e => { index := fld e 0 1, final := fld e 1 1 == 1, tile := fld e 2 2, budget := fld e 4 4 })
    live := (entries 6).map (fun e => { tile := fld e 0 2, kind := fld e 2 2, start := fld e 4 4, length := fld e 8 4 })
    insts := ((perTile 7).map (fun x => infoInsts 256 (x.body b))).flatten
    object := object, owner := owner, measurement := measure b }

/-! ### Structure objects (R260 to R264) -/

/-- What a structure object holds. -/
structure QpStruct where
  n : Nat
  m : Nat
  stages : Nat
  stageVars : Nat
  stageRows : Nat
  nnzP : Nat
  nnzA : Nat
  nnzL : Nat
  pPtr : List Nat
  pIdx : List Nat
  aPtr : List Nat
  aIdx : List Nat
  perm : List Nat
  lPtr : List Nat
  lIdx : List Nat
  values : List Nat
deriving DecidableEq, Repr

/-- Read a structure object (R262). -/
def QpStruct.ofBytes (b : List Byte) : QpStruct :=
  let n := fld b 6 2; let m := fld b 8 2; let nk := n + m
  let nnzP := fld b 0x10 4; let nnzA := fld b 0x14 4; let nnzL := fld b 0x18 4
  { n := n, m := m, stages := fld b 0xA 1, stageVars := fld b 0xC 2, stageRows := fld b 0xE 2
    nnzP := nnzP, nnzA := nnzA, nnzL := nnzL
    pPtr := fieldsAt b (fld b 0x40 4) 4 (n + 1), pIdx := fieldsAt b (fld b 0x44 4) 2 nnzP
    aPtr := fieldsAt b (fld b 0x48 4) 4 (n + 1), aIdx := fieldsAt b (fld b 0x4C 4) 2 nnzA
    perm := fieldsAt b (fld b 0x50 4) 2 nk
    lPtr := fieldsAt b (fld b 0x54 4) 4 (nk + 1), lIdx := fieldsAt b (fld b 0x58 4) 2 nnzL
    values := fieldsAt b (fld b 0x5C 4) 4 (nnzP + nnzA + m) }

/-- The columns of a column-major pattern. -/
def columns (ptr idx : List Nat) : List (List Nat) :=
  (ptr.zip ptr.tail).map (fun p => (idx.drop p.1).take (p.2 - p.1))

/-- The pattern is well formed: pointers rise from 0 to the count, indices ascend in each column below a limit. -/
def patternOk (ptr idx : List Nat) (limit : Nat → Nat) : Bool :=
  ptr.head? == some 0 && ptr.getLast? == some idx.length && rising ptr &&
  (columns ptr idx).zipIdx.all (fun c => ascending c.1 && c.1.all (fun i => decide (i < limit c.2)))

/-- The structure fingerprint (R264). -/
def QpStruct.fingerprint (q : QpStruct) : BitVec 64 :=
  fnvHash 0xCBF29CE484222325#64 ([q.n, q.m, q.stages, q.stageVars, q.stageRows, q.nnzP, q.nnzA, q.nnzL] ++
    q.pPtr ++ q.pIdx ++ q.aPtr ++ q.aIdx ++ q.perm ++ q.lPtr ++ q.lIdx)

/-- The off-diagonal entries of K's pattern in elimination positions, the lower position first (R262). -/
def QpStruct.edges (q : QpStruct) : List (Nat × Nat) :=
  let pos := fun (k : Nat) => q.perm.idxOf k
  let order := fun (a b : Nat) => if a < b then (a, b) else (b, a)
  let p := ((columns q.pPtr q.pIdx).zipIdx.map (fun c => (c.1.filter (fun i => i != c.2)).map (fun i => order (pos i) (pos c.2)))).flatten
  let a := ((columns q.aPtr q.aIdx).zipIdx.map (fun c => c.1.map (fun i => order (pos (q.n + i)) (pos c.2)))).flatten
  p ++ a

/-- The strictly lower columns of L by symbolic factorisation: K's entries and the columns of each child (R263). -/
def QpStruct.symbolic (q : QpStruct) : List (List Nat) :=
  let es := q.edges
  (List.range (q.n + q.m)).foldl (fun cols k =>
    let own := (es.filter (fun e => e.1 == k)).map (fun e => e.2)
    let kids := (cols.filter (fun c => c.head? == some k)).flatten
    cols ++ [sortBy (fun x y => x < y) ((distinct (own ++ kids)).filter (fun i => decide (k < i)))]) []

/-- The height of an elimination tree in columns. -/
def treeHeight (cols : List (List Nat)) : Nat :=
  let depths := cols.zipIdx.foldl (fun (ds : List (Option Nat × Nat)) c =>
    let below := (ds.filter (fun d => d.1 == some c.2)).map (fun d => d.2)
    ds ++ [(c.1.head?, 1 + below.foldl max 0)]) []
  (depths.map (fun d => d.2)).foldl max 0

/-- Sections that a structure header locates: offset and bytes (R262). -/
def structSections (b : List Byte) : List (Nat × Nat) :=
  let n := fld b 6 2; let m := fld b 8 2; let nk := n + m
  let nnzP := fld b 0x10 4; let nnzA := fld b 0x14 4; let nnzL := fld b 0x18 4
  [(fld b 0x40 4, 4 * (n + 1)), (fld b 0x44 4, 2 * nnzP), (fld b 0x48 4, 4 * (n + 1)), (fld b 0x4C 4, 2 * nnzA),
   (fld b 0x50 4, 2 * nk), (fld b 0x54 4, 4 * (nk + 1)), (fld b 0x58 4, 2 * nnzL), (fld b 0x5C 4, 4 * (nnzP + nnzA + m))]

/-- The header against R260 and R262. -/
def structHeaderOk (b : List Byte) : Bool :=
  let n := fld b 6 2; let m := fld b 8 2; let st := fld b 0xA 1
  let alpha := f32 (fld b 0x2C 4)
  slice b 0 4 == [0x53, 0x51, 0x50, 0x53] && fld b 4 2 == 1 && decide (1 ≤ n) && decide (n ≤ 512) && decide (m ≤ 1024) &&
  decide (n + m ≤ 1536) && decide (fld b 0x18 4 + n + m ≤ 32768) && decide (st ≤ 64) && zeros b 0xB 1 &&
  (if st = 0 then fld b 0xC 2 == 0 && fld b 0xE 2 == 0 else n == st * fld b 0xC 2 && m == st * fld b 0xE 2) &&
  positive32 (fld b 0x28 4) && positive32 (fld b 0x2C 4) && decide (alpha.cmp (.ofInt 2 0) < 0) &&
  zeros b 0x64 28 &&
  (structSections b).all (fun x => x.1 % 16 == 0 && decide (x.1 + x.2 ≤ b.length))

/-- The pointers of columns that hold some counts: each start, and the end of the last. -/
def startsOf (counts : List Nat) : List Nat := (List.range (counts.length + 1)).map (fun k => (counts.take k).sum)

/-- R263: the whole check of a structure object. -/
def structureOk (b : List Byte) : Bool :=
  let q := QpStruct.ofBytes b
  let nk := q.n + q.m
  let cols := q.symbolic
  let counts := cols.map List.length
  structHeaderOk b &&
  patternOk q.pPtr q.pIdx (fun j => j + 1) && patternOk q.aPtr q.aIdx (fun _ => q.m) &&
  q.perm.all (fun k => decide (k < nk)) && (distinct q.perm).length == nk &&
  q.lPtr == startsOf counts && q.lIdx == cols.flatten &&
  fld b 0x1C 2 == counts.foldl max 0 && fld b 0x1E 2 == treeHeight cols &&
  fld b 0x60 4 == (counts.map (fun c => c * (c + 1) / 2)).sum && fld b 0x20 8 == q.fingerprint.toNat &&
  q.values.all finite32 && (q.values.drop (q.nnzP + q.nnzA)).all positive32

/-- The structure fits a `QP` instance: equal fingerprints in variant 1, the compiled maxima in variant 0 (R273). -/
inductive StructFit where
  | fits | mismatch | tooLarge
deriving DecidableEq, Repr

/-- R273 for one instance. -/
def structFits (b : List Byte) (i : InstEntry) : StructFit :=
  match i.variant with
  | 1 => if fld b 0x20 8 = i.dim 4 + i.dim 5 * 2 ^ 32 then .fits else .mismatch
  | 0 =>
    if fld b 6 2 ≤ i.dim 0 ∧ fld b 8 2 ≤ i.dim 1 ∧ fld b 0x18 4 + fld b 6 2 + fld b 8 2 ≤ bits (i.dim 2) 0 16 ∧
      fld b 0x1C 2 ≤ bits (i.dim 2) 16 16 then .fits else .tooLarge
  | _ => .fits

/-! ### Models and roadmaps (R291, R301) -/

/-- One axis of a model. -/
def axisOk (b : List Byte) (k : Nat) : Bool :=
  let e := slice b (64 + 80 * k) 80
  let parent := fld e 0 1
  let v := fun (o : Nat) => fld e o 4
  (parent == 0xFF || decide (parent < k)) && (fieldsAt e 4 4 16).all finite32 && finite32 (v 0x44) &&
  (f32 (v 0x34)).lt (f32 (v 0x38)) && positive32 (v 0x3C) && positive32 (v 0x40) && positive32 (v 0x44)

/-- R291: the model object against an instance. -/
def modelOk (b : List Byte) (i : InstEntry) : Bool :=
  let j := fld b 6 1; let n := fld b 8 2
  let axis := fun (k o : Nat) => fld b (64 + 80 * k + o) 1
  j == i.dim 0 && n == i.dim 2 && decide (64 + 80 * j + 32 * n ≤ b.length) &&
  finite32 (fld b 0x10 4) && finite32 (fld b 0x14 4) && (List.range j).all (axisOk b) &&
  (List.range n).all (fun k =>
    let e := slice b (64 + 80 * j + 32 * k) 32
    (fieldsAt e 4 4 3).all finite32 && positive32 (fld e 0x10 4)) &&
  (if fld b 7 1 = 1 then
    decide (3 ≤ j) && axis 0 1 == 1 && axis 1 1 == 1 && axis 0 0 == 0xFF && axis 1 0 == 0 && axis 2 1 == 0 && axis 2 0 == 1
   else true)

/-- R301: the roadmap object against an instance. -/
def roadmapOk (b : List Byte) (i : InstEntry) : Bool :=
  let j := fld b 6 1; let nn := fld b 8 4; let ne := fld b 0xC 4
  let ptr := fieldsAt b (fld b 0x14 4) 4 (nn + 1)
  let edge := fun (e : Nat) => slice b (fld b 0x18 4 + 8 * e) 8
  slice b 0 4 == [0x53, 0x4D, 0x52, 0x4D] && fld b 4 2 == 1 && j == i.dim 0 && decide (2 ≤ fld b 7 1) && decide (fld b 7 1 ≤ 16) &&
  decide (2 ≤ nn) && decide (nn ≤ 16384) && decide (1 ≤ ne) && decide (ne ≤ 65536) &&
  ptr.head? == some 0 && ptr.getLast? == some ne && rising ptr &&
  (List.range nn).all (fun n => (List.range (ptr.getD (n + 1) 0 - ptr.getD n 0)).all (fun k =>
    let t := fld (edge (ptr.getD n 0 + k)) 0 2
    decide (t < nn) && t != n)) &&
  (List.range ne).all (fun e => positive32 (fld (edge e) 4 4)) &&
  (fieldsAt b (fld b 0x10 4) 4 (nn * j)).all finite32 && decide (fld b 0x20 4 ≤ 1)

/-! ### Writes to bound objects (R263, R273, R291, R301, R315) -/

/-- What a write of new contents to a bound object meets. -/
inductive WriteCheck where
  | accept | badParam | mismatch | busy
deriving DecidableEq, Repr

/-- The worse of two results, the first refusal standing. -/
def WriteCheck.and : WriteCheck → WriteCheck → WriteCheck
  | .accept, b => b
  | a, _ => a

/-- The check of an instance of a job on the contents of the object bound to one of its slots (R263, R273, R291, R301, R315). -/
def instCheck (i : InstEntry) (slot : Nat) (b : List Byte) : WriteCheck :=
  match i.function with
  | 0x0C =>
    if i.weightSlot ≠ slot then .accept
    else if !structureOk b then .badParam
    else match structFits b i with
      | .mismatch => .mismatch
      | .tooLarge => .badParam
      | .fits => .accept
  | 0x0D | 0x0E => if i.weightSlot = slot then (if modelOk b i then .accept else .badParam) else .accept
  | 0x0F =>
    if i.dim 5 = slot then (if roadmapOk b i then .accept else .badParam)
    else if i.weightSlot = slot then (if modelOk b i then .accept else .badParam) else .accept
  | 0x12 => if i.inSlot = slot then (if sensorTableOk b then .accept else .badParam) else .accept
  | _ => .accept

/-- An invocation of the job is in progress, on its own clusters or on its shadow's (R301, R400). -/
def Job.running (j : Job) : Bool :=
  j.invocation.any (fun i => i.started) || j.shadow.any (fun sh => sh.run.any (fun i => i.started))

/-- The checks of every job that binds an object on new contents of it. -/
def boundCheck (s : State) (oid : Nat) (b : List Byte) : WriteCheck :=
  s.jobs.foldl (fun acc e => match s.image? e.2.image with
    | none => acc
    | some im => (e.2.bindings.filter (fun x => x.object == oid)).foldl (fun acc x =>
        im.insts.foldl (fun acc i =>
          let held := i.function == 0x0F && i.dim 5 == x.slot && e.2.running
          acc.and (if held then .busy else instCheck i x.slot b)) acc) acc) .accept

end Sys2Proof.Machine
end

