-- ==== Sys2Proof/Machine/Fusion.lean ====
section
/-! DEFINITION. Ring objects and the entries ports write into them; the cutoff of a fusion epoch (R316, R323, R376, R541). -/

namespace Sys2Proof.Machine

/-! ### Rings (R541) -/

/-- Capacity of a ring object. -/
def ringCap (s : State) (o : Obj) : Nat := objWord s o 8

/-- Entry size of a port object's ring. -/
def ringEntry (s : State) (o : Obj) : Nat := objWord s o 0xC

/-- Entries a held ring holds: producer minus consumer index. -/
def ringHeld (s : State) (o : Obj) : Nat := (objWord s o 0 + 2 ^ 32 - objWord s o 4) % 2 ^ 32

/-- Write an entry of `size` bytes and then advance the producer index (R541). -/
def ringPut (s : State) (o : Obj) (size : Nat) (entry : List Byte) : State :=
  let prod := objWord s o 0
  let s := objWriteBytes s o (64 + prod % max 1 (ringCap s o) * size) (padTo size entry)
  objSetWord s o 0 ((prod + 1) % 2 ^ 32)

/-- Count a dropped entry in the ring header, limited to its largest value (R541). -/
def ringDrop (s : State) (o : Obj) : State := objSetWord s o 0x10 (min 0xFFFFFFFF (objWord s o 0x10 + 1))

/-- A port object whose ring is of the Held kind (R540). -/
def heldRing (oid : Nat) : Bool :=
  decide (0xFFFF0100 ≤ oid) && decide (oid < 0xFFFF0500)

/-- A port object's entry: a full Held ring drops it, an Overwrite ring takes it over its oldest (R541); false when dropped. -/
def portIngress (s : State) (oid : Nat) (entry : List Byte) : State × Bool :=
  match s.obj? oid with
  | none => (s, false)
  | some o =>
    if ringCap s o = 0 then (s, false)
    else if heldRing oid && decide (ringCap s o ≤ ringHeld s o) then (ringDrop s o, false)
    else (ringPut s o (ringEntry s o) entry, true)

/-- The entry size of an observation ring that a fusion job binds (R316). -/
def obsEntry (s : State) (oid : Nat) : Option Nat :=
  s.jobs.findSome? (fun e => match fuseEnv s e.2 with
    | some env => if (List.range env.sensors.length).any (fun k => e.2.slotObj (bits (env.inst.dim 4) 16 8 + k) == some oid) then
        some (obsBytes env) else none
    | none => none)

/-- An entry becomes visible in a ring: port objects by their kind, observation rings by their layout; rows are placed, late `EGO` samples counted (R314, R319, R324, R541). -/
def ingress (s : State) (oid : Nat) (entry : List Byte) : State :=
  if 0xFFFF0000 ≤ oid then
    let r := portIngress s oid entry
    if r.2 then arriveEgo r.1 oid else r.1
  else match s.obj? oid, obsEntry s oid with
    | some o, some size => if ringCap s o = 0 then s else arrive (ringPut s o size entry) oid
    | _, _ => s

/-- INGRESS_WRITE. -/
def execIngressWrite (object : Nat) (entry : List Byte) (s : State) : Out := .next (ingress s object entry)

/-! ### Cutoffs (R323) -/

/-- The cutoff of a fusion job's next epoch: its rows are frozen and its invocation starts; a frozen epoch that still waits is skipped (R323, R376). -/
def cutEpoch (s : State) (job : Nat) : State :=
  match s.job? job with
  | none => s
  | some j => match fuseEnv s j, j.fuse with
    | some env, some f =>
      let s := if f.frozen.isSome then skipStart s job else s
      startJob (freezeEpoch s job env f) job
    | _, _ => s

/-- EPOCH_CUTOFF: on the tick of the cutoff the epoch is frozen at the end of the tick, for a row that arrives on it counts as before the cutoff; after it, at once (R314, R323; assumption 157). -/
def execEpochCutoff (job : Nat) (s : State) : Out :=
  .next (match s.job? job with
    | none => s
    | some j => match fuseEnv s j, j.fuse with
      | some env, some f =>
        if s.now < epochCutoff f env f.nextEpoch then s
        else if s.now = epochCutoff f env f.nextEpoch then s.setJob job { j with fuse := some { f with cutting := true } }
        else cutEpoch s job
      | _, _ => s)

/-- The end of a tick: the epochs whose cutoff fell on it are frozen (R314, R323). -/
def endTick (s : State) : State :=
  forEach (s.jobs.filterMap (fun e => if e.2.fuse.any (fun f => f.cutting) then some e.1 else none)) s cutEpoch

end Sys2Proof.Machine
end

