-- ==== Sys2Proof/Machine/Moves.lean ====
section
/-! DEFINITION. The tile-move arbiter, its engines and the transfers they carry (R129 to R141, R149, R161 to R169). -/

namespace Sys2Proof.Machine

/-! ### Requests (R129, R136, R161, R163) -/

/-- A transfer of a cluster's runs waits in some arbiter. -/
def moverWaits (s : State) (c : Nat) : Bool :=
  (List.range 8).any (fun p => (s.part p).arb.waiting.any (fun q => match q.move with
    | some m => m.1.toNat == c
    | none => false))

/-- Bytes that a run touches lie in a range of its object. -/
def Run.touches (r : Run) (lo n : Nat) : Bool :=
  (r.desc.allPieces r.offset r.scaleOff).any (fun p => decide (p.off < lo + n) && decide (lo < p.off + p.bytes))

/-- The mover holds a run on a page that is being recalled to the frame it names, until the recall is written (R226). -/
def pageHeld (s : State) (r : Run) : Bool :=
  s.kv.dir.any (fun e => e.2.moving == 2 && e.2.poolObject == r.object && r.touches (e.2.target * e.2.frame) e.2.frame)

/-- The mover holds the state move of a row selected for the invocation whose state is absent: an inward move from the pool that reads no slot of a selected row with its state there (R242). -/
def stateHeld (s : State) (r : Run) : Bool :=
  if r.desc.outward then false
  else match s.job? r.job with
    | none => false
    | some j => match jobStreamGeo s j, jobPool s j with
      | some g, some pool =>
        let mine := (allStreams s).filter (fun e => e.2.job == r.job && e.2.selected)
        r.object == pool && mine.any (fun e => e.2.absent) &&
          !mine.any (fun e => e.2.state == 0 && r.touches (e.2.slot * (2 * g.half)) (2 * g.half))
      | _, _ => false

/-- The next transfer a cluster mover presents: the first one not presented, in issue order, one at a time, held state moves passed over (R129, R242). -/
def nextTransfer (s : State) (c : Nat) : Option (Run × Nat) :=
  if moverWaits s c then none
  else (accepted s c).findSome? (fun r =>
    if stateHeld s r || pageHeld s r then none
    else match r.xfers.findIdx? (fun x => x.state == .unpresented) with
    | some i => some (r, i)
    | none => none)

/-- A request of a cluster mover's transfer. -/
def moveRequest (s : State) (req : Requester) (c : Nat) (r : Run) (i : Nat) : ArbReq :=
  { requester := req, cls := jobClass s r.job, bytes := r.bytes, job := r.job
    move := some (BitVec.ofNat 6 c, r.id, i), lines := [], prefetcher := none, revoked := false
    revocations := (r.xfers[i]?.map Xfer.revocations).getD 0, estimate := 0 }

/-- The transfers of other partitions' movers that go to a partition, as peer requests (R136). -/
def peerTransfers (s : State) (p : Nat) : List (Nat × Run × Nat) :=
  (allClusters.filter (fun c => c / 8 != p)).filterMap (fun c => match nextTransfer s c with
    | some (r, i) => if r.tier != 3 && r.partition == p then some (c, r, i) else none
    | none => none)

/-- The request that a requester presents; where no run or prefetcher stands behind it, the one the command names (R129, R136, R149, R161). -/
def requestOf (s : State) (p : Nat) (r : Requester) (cls bytes job : Nat) : ArbReq :=
  let plain := plainRequest r cls bytes job
  if r.val < 8 then
    match nextTransfer s (p * 8 + r.val) with
    | some (run, i) => if run.tier = 3 ∨ run.partition = p then moveRequest s r (p * 8 + r.val) run i else plain
    | none => plain
  else if r.val = 9 then
    let ps := peerTransfers s p
    match (ps.find? (fun x => x.2.1.job == job)).orElse (fun _ => ps.head?) with
    | some (c, run, i) => moveRequest s r c run i
    | none => plain
  else if r.val = 8 then (prefetchRequest s p bytes).getD plain
  else plain

/-! ### Presenting (R140, R163) -/

/-- The transfer of a cluster outside a partition out of service that a request would stand for: its owning partition cannot deliver the data (R140, assumption 77). -/
def remoteRun (s : State) (p : Nat) (r : Requester) (cls bytes job : Nat) : Option (Nat × Run × Nat) :=
  if (s.part p).state = 0 then none
  else match (requestOf s p r cls bytes job).move with
    | some (c, id, i) =>
      if c.toNat / 8 = p then none
      else ((s.cluster c.toNat).runs.find? (fun x => x.id == id)).map (fun x => (c.toNat, x, i))
    | none => none

/-- Present a request: a masked requester's raises 0x22, and a move into a partition out of service fails (R140); a Held request for which no engine is free revokes an Ambient transfer; every request without an engine, a revoked one among them, receives an estimate (R161, R163, R164, R167). -/
def present (s : State) (p : Nat) (r : Requester) (cls bytes job : Nat) : State :=
  let remote := remoteRun s p r cls bytes job
  let s := if masked s p r.val then raise s { mkEvent 0x22 p job r.val (0x8000 + p) job with mild := true } else s
  match remote with
  | some (c, run, i) => failRun s c run [i] 0
  | none =>
    if masked s p r.val || (s.part p).arb.waiting.any (fun q => q.requester == r) then s
    else enqueue s p (requestOf s p r cls bytes job)

/-- ARBITER_REQUEST. -/
def execArbiterRequest (p : PartId) (r : Requester) (cls bytes job : Nat) (s : State) : Out :=
  .next (present s p.toNat r cls bytes job)

/-! ### Grants (R162, R165, R140) -/

/-- The byte ranges, in order of their start, together cover the 256 bytes of a burst. -/
def coversBurst (rs : List (Nat × Nat)) (burst : Nat) : Bool :=
  decide (burst + 256 ≤ rs.foldl (fun cur r => if r.1 ≤ cur then max cur (r.1 + r.2) else cur) burst)

/-- The bursts that the byte ranges of one transfer touch, each once, with whether the transfer covers it whole (R134, R143, R158). -/
def transferBursts (rs : List (Nat × Nat)) : List (Nat × Bool) :=
  let sorted := sortBy (fun a b => a.1 < b.1) rs
  (distinct ((rs.map (fun r => (burstsOf r.1 r.2).map Prod.fst)).flatten)).map (fun b => (b, coversBurst sorted b))

/-- The byte ranges of a transfer in this node's memory: partition, whether in a pinned window, and bursts; none where it goes to a peer. -/
def transferRanges (s : State) (pl : Placement) (ps : List Piece) : Option (Nat × Bool × List (Nat × Bool)) :=
  match pl.home s 0 with
  | .inr _ => none
  | .inl a => match regionOf a with
    | .t1 p off => some (p, true, transferBursts (ps.map (fun x => (off + x.off, x.bytes))))
    | .t2 p off => some (p, false, transferBursts (ps.map (fun x => (off + x.off, x.bytes))))
    | _ => none

/-- The transfer's accesses at its tier, with the symbol errors of its first codeword-guarded read; false detector 0 when all is well (R17, R133, R134, R138, R140). -/
def accessRun (s : State) (p engine : Nat) (r : Run) (i cls : Nat) (errs : List SymErr) : RangeOut :=
  match runObj s r with
  | none => { startRange s errs with failed := true, detector := 0x21 }
  | some (_, pl) =>
    let ps := r.desc.pieces r.offset r.scaleOff i
    match transferRanges s pl ps with
    | none =>
      let q := startPeer s p engine r i cls
      { startRange q.1 errs with failed := !q.2, detector := if q.2 then 0 else if resHeld s pl then 0x21 else 0x52 }
    | some (o, true, bs) => accessPinned (startRange s errs) o bs r.job r.desc.outward
    | some (o, false, bs) => accessBursts (startRange s errs) o bs r.job r.desc.outward r.desc.noAlloc

/-- The scratchpad ranges that an outward transfer reads (R131). -/
def sourceSpans (r : Run) (i : Nat) : List Span :=
  if r.desc.outward then (r.desc.pieces r.offset r.scaleOff i).map (fun x => ⟨r.localAddr + x.loc, x.bytes⟩) else []

/-- Start the transfer of a granted request: an injected or a real failure fails the run (R140, R141, R410); bytes that the decoder delivered otherwise than stored stay with the grant (R156). -/
def startTransfer (s : State) (p e : Nat) (q : ArbReq) (errs : List SymErr) : State :=
  match q.move with
  | none => s
  | some (c, id, i) => match (s.cluster c.toNat).runs.find? (fun r => r.id == id) with
    | none => s
    | some r =>
      let inj := takeInjection s 0x21 (fun x => injCluster x.target == c.toNat)
      if inj.1.isSome then failRun inj.2 c.toNat r [i] 1
      else
        let a := accessRun inj.2 p e r i q.cls errs
        if a.failed then failRun (if a.detector = 0x52 then peerCause a.s r else a.s) c.toNat r [i] 0
        else
          let s := updRun a.s c.toNat id (fun x => { x with missed := x.missed || a.missed })
          let s := updArb s p (fun b => match b.grantOf e with
            | some g => b.setEngine e (some { g with got := a.got })
            | none => b)
          updStall s r (fun k => { k with
            merges := stallAdd k.merges a.merges
            prefetchHits := stallAdd k.prefetchHits (if a.staged && !a.missed then 1 else 0) })

/-- An injection of 0x23 sets the revocation count of the mover's next transfer to 16, which raises the detector (R410). -/
def injectStorm (s : State) (p e : Nat) (q : ArbReq) : State × ArbReq :=
  let inj := takeInjection s 0x23 (fun x => q.requester.val < 8 && injCluster x.target == p * 8 + q.requester.val)
  if inj.1.isSome then
    let q := { q with revocations := 16 }
    (raiseAs inj.2 1 1 (stormEvent p e q), q)
  else (s, q)

/-- The request of a requester that a revocation put back last: it is presented again once the revoked one is granted (R161). -/
def Arbiter.putBack (a : Arbiter) (r : Requester) : Option ArbReq := (a.heldBack.filter (fun w => w.requester == r)).getLast?

/-- A request leaves the waiting ones for an engine: the round-robin of its class moves on, and the requester's own put-back request is presented again (R161, R162). -/
def Arbiter.take (a : Arbiter) (q : ArbReq) : Arbiter :=
  let back := a.putBack q.requester
  { a with
    waiting := a.waiting.filter (fun w => w != q) ++ back.toList
    heldBack := match back with
      | some w => a.heldBack.filter (fun x => x != w)
      | none => a.heldBack
    last0 := if q.cls = 0 then q.requester.val else a.last0
    last1 := if q.cls = 1 then q.requester.val else a.last1
    last2 := if q.cls = 2 then q.requester.val else a.last2
    grants := a.grants + 1 }

/-- Grant the next waiting request to the lowest-numbered free engine; requests that now find none receive an estimate (R161, R162, R165, R167, assumption 30). -/
def grantNext (s : State) (p : Nat) (errs : List SymErr) : State :=
  match (s.part p).arb.free, (s.part p).arb.next with
  | e :: _, some q =>
    let s := updArb s p (fun a => a.take q)
    let s := s.setPart p (turnPrefetcher (s.part p) q)
    let g := injectStorm s p e { q with revoked := false }
    let s := g.1
    let order := (s.part p).arb.grants
    let s := updArb s p (fun a => a.setEngine e (some { req := g.2, order := order, got := [] }))
    let s := gateFor (setXfer s q (fun x => { x with state := .granted, revocations := g.2.revocations })) q false
    giveEstimates (revokeHeld 8 (startTransfer s p e g.2 errs) p) p
  | _, _ => s

/-- ARBITER_GRANT: `errs` are the symbol errors of the first codeword-guarded read of the transfer. -/
def execArbiterGrant (p : PartId) (errs : List SymErr) (s : State) : Out :=
  .next (onlyIf ((s.part p.toNat).state == 0) s (grantNext s p.toNat errs))

/-- TURN_ESTIMATE_UPDATE: every waiting request receives a new estimate (R167, R168). -/
def execTurnEstimateUpdate (p : PartId) (s : State) : Out :=
  let s' := forEach (s.part p.toNat).arb.waiting s (fun s q => giveEstimate s p.toNat q)
  .next { s' with freeCount := s'.freeCount + 8 }

/-- ARBITER_PROTOCOL_BREACH: detector 0x22 at FAULT, and the partition takes the fast path (R169, R408, R410). -/
def execArbiterProtocolBreach (p : PartId) (engine : BitVec 3) (r : Requester) (job : Nat) (s : State) : Out :=
  .next (detect s 0 (mkEvent 0x22 p.toNat job r.val (p.toNat * 8 + engine.toNat) job))

/-! ### Completion (R132) -/

/-- Requests of a T3 transfer on an engine are outstanding (R132). -/
def peerOpen (s : State) (p e : Nat) : Bool := s.fab.t3.any (fun r => r.partition == p && r.engine == e)

/-- The tiles of a cluster may go on. -/
def progressCluster (s : State) (c : Nat) : State := forEach (clusterTiles c) s progress

/-- The transfer of a run is written, its source bytes read under SC4: the copy, and the signals in issue order (R35, R131, R132). -/
def writeTransfer (s : State) (c : Nat) (r : Run) (i : Nat) (got : List (Nat × List Byte)) : State :=
  withReads s r.tile (sourceSpans r i) (fun s =>
    let s := copyTransfer s r i got
    let s := updRun s c r.id (fun r =>
      { r with xfers := r.xfers.zipIdx.map (fun x => if x.2 = i then { state := .written, revocations := 0 } else x.1) })
    progressCluster (signalRuns (s.cluster c).runs.length s r.tile) c)

/-- The transfer on an engine is written: its engine is free, and a run with every tile written signals in issue order (R132). -/
def finishTransfer (s : State) (p e : Nat) (g : Grant) : State :=
  let s := updArb s p (fun a => a.setEngine e none)
  match g.req.move with
  | none => if g.req.lines.isEmpty then s else stageLines s p g.req.job g.req.lines
  | some (c, id, i) => match (s.cluster c.toNat).runs.find? (fun r => r.id == id) with
    | none => s
    | some r => writeTransfer s c.toNat r i g.got

/-- A completion for an engine that holds no grant breaches the protocol: detector 0x22 at FAULT, of a requester that no grant names (R169, R408, assumption 147). -/
def breach (s : State) (p e : Nat) : State :=
  let f := s.fresh
  detect f.2 0 (mkEvent 0x22 p 0 (Config.freeNat f.1 % 11) (p * 8 + e) 0)

/-- TRANSFER_WRITTEN. -/
def execTransferWritten (p : PartId) (engine : BitVec 3) (s : State) : Out :=
  .next (match (s.part p.toNat).arb.grantOf engine.toNat with
    | some g => if peerOpen s p.toNat engine.toNat then s else finishTransfer s p.toNat engine.toNat g
    | none => onlyIf ((s.part p.toNat).state == 0) s (breach s p.toNat engine.toNat))

/-- The event of a run that is late (R139, R408). -/
def lateEvent (s : State) (r : Run) : DetEvent :=
  mkEvent 0x20 (partOfTile r.tile) r.job (r.tier * 16 + r.cause) r.job (virtTile (leaseOf s r.tile) r.tile)

/-- The tick on which a run's late threshold expires: 2 cycles to a tick, from the cycle of its issue (R139). -/
def Run.lateTick (r : Run) : Nat := (2 * r.issueTick + r.threshold) / 2

/-- LATE_THRESHOLD_EXPIRY: a run with a threshold that is not written when the tick of its expiry is over raises 0x20 once and continues; on that tick itself an arrival still wins (R139). -/
def execLateThresholdExpiry (c : ClusterId) (runId : Nat) (s : State) : Out :=
  .next (match (s.cluster c.toNat).runs.find? (fun r => r.id == runId) with
    | none => s
    | some r =>
      if r.written || r.lateRaised || r.threshold == 0 || decide (s.time.ticks ≤ r.lateTick) then s
      else
        let s := updRun s c.toNat runId (fun r => { r with lateRaised := true })
        let s := updStall s r (fun k => { k with lateRuns := min 65535 (k.lateRuns + 1) })
        raiseAs s 0 (if r.injected then 1 else 0) (lateEvent s r))

end Sys2Proof.Machine
end

