-- ==== Sys2Proof/Machine/Memory.lean ====
section
/-! DEFINITION. T2 seen from outside the arbiter: the scrubber, refresh and the BAR2 window (R120, R133, R134, R153, R158 to R160). -/

namespace Sys2Proof.Machine

/-! ### The scrubber (R159, R160) -/

/-- Detector 0x07 carries the channel and the DQ pin (R159, R408). -/
def scrubEvent (p burst : Nat) (c : Nat × Nat) : DetEvent :=
  mkEvent 0x07 p 0 (symbolPin c.1 c.2) (symbolChannel p c.2) (t2Base p + burst)

/-- The devices take a whole burst with fresh check symbols; what the slice holds over it stays (R133, R158). -/
def writeDevices (s : State) (p burst : Nat) (bytes : List Byte) : State :=
  let s := s.setPart p (unpoison (s.part p) burst)
  match findLine (s.part p) burst with
  | none => { s with mem := s.mem.write (t2Base p + burst) bytes }
  | some l =>
    let under := if l.dirty || s.mem.read (t2Base p + burst) 256 == bytes then [] else bytes
    s.setPart p { s.part p with lines := (s.part p).lines.map (fun y => if y = l then { y with under := under } else y) }

/-- The re-read after a write-back, decoded as every read: the same symbol of the same codeword in error again raises 0x07, as does an injection on its channel (R156, R159, R410). -/
def scrubReread (s : State) (p burst : Nat) (fixed : List (Nat × Nat)) (reread : List SymErr) : State :=
  let r := readT2 s p burst 0 reread
  forEach fixed r.s (fun s c =>
    let inj := takeInjection s 0x07 (fun q => injPart q.target == p && 9 * p + injIndex q.target == symbolChannel p c.2)
    if r.fixed.contains c || inj.1.isSome then raiseAs inj.2 1 (injFlags inj.1) (scrubEvent p burst c) else inj.2)

/-- Scrub one burst: one in which a symbol was corrected is written back as decoded and read again; the scrubber moves on to the next burst (R152, R159). -/
def scrub (s : State) (p : Nat) (errs reread : List SymErr) : State :=
  let burst := 256 * (s.part p).scrubBurst
  let r := readT2 s p burst 0 errs
  let s := if r.failed || r.fixed.isEmpty then r.s else scrubReread (writeDevices r.s p burst r.bytes) p burst r.fixed reread
  s.setPart p { s.part p with scrubBurst := ((s.part p).scrubBurst + 1) % 2 ^ 26 }

/-- The controller of a partition works: in service and out of self-refresh. -/
def t2Works (s : State) (p : Nat) : Bool := (s.part p).state == 0 && !(s.part p).selfRefresh

/-- SCRUB_BURST: `errs` are the symbol errors of the read, `reread` those of the re-read after a write-back. -/
def execScrubBurst (p : PartId) (errs reread : List SymErr) (s : State) : Out :=
  .next (onlyIf (t2Works s p.toNat) s (scrub s p.toNat errs reread))

/-- The scrub level at a window boundary (R160). -/
def scrubWindow (x : Part) (up down : Nat) : Part :=
  if up ≤ x.corrected then { x with scrubLevel := min 3 (x.scrubLevel + 1), quietWindows := 0, corrected := 0 }
  else if x.corrected ≤ down then
    if 6 ≤ x.quietWindows + 1 then { x with scrubLevel := x.scrubLevel - 1, quietWindows := 0, corrected := 0 }
    else { x with quietWindows := x.quietWindows + 1, corrected := 0 }
  else { x with quietWindows := 0, corrected := 0 }

/-- SCRUB_WINDOW_BOUNDARY (R160). -/
def execScrubWindowBoundary (p : PartId) (s : State) : Out :=
  .next (s.setPart p.toNat (scrubWindow (s.part p.toNat) (setting s 0x0030 16) (setting s 0x0031 2)))

/-- DRAM_REFRESH: a per-bank refresh changes no contents (R153). -/
def execDramRefresh (p : PartId) (bank : BitVec 4) (s : State) : Out :=
  .next (onlyIf (t2Works s p.toNat) s (s.setPart p.toNat { s.part p.toNat with refreshBank := bank.toNat }))

/-! ### BAR2 (R120, R343) -/

/-- The local address of a BAR2 offset (R343). -/
def bar2Addr (s : State) (offset : Nat) : Nat := (s.bar2Base.toNat % 512) * 0x10000000 + offset

/-- A BAR2 access enters the arbiter of the partition as a request of the Atelier, Prompt, and goes through the slice; its data effect is taken at arrival (R120, R133, R161, assumption 90). -/
def bar2Access (s : State) (a n : Nat) (write : Bool) : RangeOut :=
  let p := a / 0x400000000
  accessRange (startRange (present s p 10 1 n 0) []) p (a % 0x400000000) n 0 write false

/-- Read T2 through its slice; an uncorrectable burst gives undefined data (R120, R133, R156). -/
def bar2Fetch (s : State) (a n : Nat) : State × List Byte :=
  let r := bar2Access s a n false
  if r.failed then
    let f := r.s.freeBytes n
    (f.2, f.1)
  else (r.s, readGot r.s.mem r.got a n)

/-- BAR2_READ: Completer Abort where the partition is in reset or its DRAM in self-refresh (R120). -/
def execBar2Read (offset : BitVec 28) (size : Nat) (s : State) : Out :=
  let a := bar2Addr s offset.toNat
  if t2Works s (a / 0x400000000) then
    let r := bar2Fetch s a (min size (0x10000000 - offset.toNat))
    .next (r.1.emit (.bar2Data r.2))
  else .next (s.emit .bar2Abort)

/-- BAR2_WRITE: discarded where the partition is in reset or its DRAM in self-refresh, or where a partial burst cannot be read (R120, R134, R158). -/
def execBar2Write (offset : BitVec 28) (data : List Byte) (s : State) : Out :=
  let a := bar2Addr s offset.toNat
  let data := data.take (0x10000000 - offset.toNat)
  if t2Works s (a / 0x400000000) then
    let r := bar2Access s a data.length true
    .next (if r.failed then r.s else { r.s with mem := r.s.mem.write a data })
  else .next s

end Sys2Proof.Machine
end

