-- ==== Sys2Proof/Machine/Objects.lean ====
section
/-! DEFINITION. The object commands: create, place, write, read, free, delta (R121 to R123, R277, R356 to R358, R428, R483, R540, R565). -/

namespace Sys2Proof.Machine

/-! ### What object commands share -/

/-- A port object (R540). -/
def isPort (oid : Nat) : Bool := decide (0xFFFF0000 ≤ oid)

/-- An object named by a command, with the checks every object command shares (R351, R565). -/
def withObj (s : State) (m : MbxId) (h : CmdHdr) (op oid : Nat) (free : Bool) (f : Obj → State) : State :=
  match s.obj? oid with
  | none => complete s m h op stBadParam []
  | some o => if free || mayUse m o.owner then f o else complete s m h op stDenied []

/-! ### OBJ_CREATE (R121, R356) -/

/-- A new object, not placed. -/
def Obj.fresh (length owner : Nat) (shared : Bool) : Obj :=
  { length := length, owner := owner, shared := shared, place := none, lost := false, sealed := false, port := false
    twin := none }

/-- `OBJ_CREATE`. -/
def execObjCreate (m : MbxId) (h : CmdHdr) (length : Nat) (flags : BitVec 16) (s : State) : Out :=
  command s m h 0x20 0x0A (fun s =>
    if length % 256 ≠ 0 ∨ length < 256 ∨ 2 ^ 34 < length ∨ 1 < flags.toNat then complete s m h 0x20 stBadParam []
    else if 16384 ≤ s.objects.length then complete s m h 0x20 stNoResource []
    else
      let id := newObjectId s
      complete (s.fresh.2.setObj id (Obj.fresh length m.toNat (flags.getLsbD 0))) m h 0x20 stOk (leBytes 4 id))

/-! ### OBJ_PLACE (R121, R122, R358, R483) -/

/-- The reservation under a T3 placement is released; on this node itself no message is needed (R479, R483). -/
def releaseRes (s : State) (p : Placement) : State :=
  if p.tier ≠ 3 ∨ s.fab.heldRes.any (fun r => r.id == p.rid && r.node == p.node) = false then s
  else
    let s := { s with fab := { s.fab with heldRes := s.fab.heldRes.filter (fun r => !(r.id == p.rid && r.node == p.node)) } }
    if p.node = s.fab.node then
      { s with fab := { s.fab with granted := s.fab.granted.filter (fun r => !(r.id == p.rid && r.node == p.node)) } }
    else
      let seq := s.fab.nextSeq
      sendMgmt { s with fab := { s.fab with nextSeq := (seq + 1) % 2 ^ 32 } } 0x21 0 p.node 0 seq (leBytes 4 p.rid)

/-- The object takes a new location: its data is copied, or the location reads as 0; the old one is released (R122). None when the data cannot be read. -/
def movePlace (s : State) (oid : Nat) (o : Obj) (new : Placement) : State × Bool :=
  match o.place with
  | some old =>
    if o.lost then (releaseRes ((placeZero s new o.length).setObj oid { o with place := some new, lost := false }) old, true)
    else match firmwareRead s old 0 o.length with
      | (s, none) => (s, false)
      | (s, some bs) =>
        let s := (firmwareWrite (placeZero s new o.length) new 0 bs).1
        (releaseRes (s.setObj oid { o with place := some new }) old, true)
  | none => ((placeZero s new o.length).setObj oid { o with place := some new }, true)

/-- The other objects' ranges: the object itself does not overlap itself (R358). -/
def rangeFreeFor (s : State) (oid tier p off len : Nat) : Bool :=
  rangeFree { s with objects := s.objects.erase oid } tier p off len

/-- Place in T1 or T2 (R121, R356, R358). -/
def placeLocal (s : State) (m : MbxId) (h : CmdHdr) (oid : Nat) (o : Obj) (tier p : Nat) (offset : Nat) : State :=
  let size := tierSize s tier p
  if size < o.length then complete s m h 0x21 stBadParam []
  else
    let choose := offset = 2 ^ 64 - 1
    if !choose ∧ (offset % 256 ≠ 0 ∨ size < offset + o.length) then complete s m h 0x21 stBadParam []
    else if (s.part p).state ≠ 0 then complete s m h 0x21 stNoResource []
    else
      let at_ := if choose then chooseOffset s tier p o.length
        else if rangeFreeFor s oid tier p offset o.length then some offset else none
      match at_ with
      | none => complete s m h 0x21 stNoResource []
      | some off =>
        let new : Placement := { tier := tier, partition := p, node := 0, offset := off, rid := 0, base := 0 }
        match movePlace s.fresh.2 oid o new with
        | (s, true) => complete s m h 0x21 stOk (leBytes 8 new.addr)
        | (s, false) => complete s m h 0x21 stFaulted []

/-- The partition of a data address. -/
def partOfAddr (a : Nat) : Nat := match regionOf a with
  | .t2 p _ | .t1 p _ => p
  | _ => 0

/-- What a reservation request asks for: T1 and partition. -/
def resvTier (b : Byte) : Nat := if b.getLsbD 7 then 1 else 2

/-- A free reservation ID that is not 0 (R482). -/
def freshRid (s : State) : Nat := if s.fab.nextRid = 0 then 1 else s.fab.nextRid

/-- The grantor grants: the range is its own for R121 and R358, and reads as 0 (R122, R483, R484). -/
def grantRange (s : State) (node length bootCount tier p off : Nat) : State × Reservation :=
  let new : Placement := { tier := tier, partition := p, node := 0, offset := off, rid := 0, base := 0 }
  let r : Reservation := { id := freshRid s, node := node, base := s.fab.node * 2 ^ 54 + new.addr, length := length
                           t1 := tier == 1, partition := p, object := 0, boot := bootCount }
  let s := placeZero s new length
  ({ s with fab := { s.fab with granted := s.fab.granted ++ [r], nextRid := (r.id + 1) % 2 ^ 32 } }, r)

/-- Where a request can be granted, if anywhere (R483). -/
def grantAt (s : State) (length tier p offset : Nat) : Option Nat :=
  if (s.part p).state ≠ 0 ∨ 256 ≤ s.fab.granted.length then none
  else if offset = 2 ^ 64 - 1 then chooseOffset s tier p length
  else if offset % 256 = 0 ∧ offset + length ≤ tierSize s tier p ∧ rangeFree s tier p offset length = true then some offset
  else none

/-- The object takes the granted location (R122, R483). -/
def placeGranted (s : State) (m : MbxId) (h : CmdHdr) (oid node rid base : Nat) : State :=
  match s.obj? oid with
  | none => complete s m h 0x21 stFaulted []
  | some o =>
    let t1 := match regionOf (localOf base) with
      | .t1 _ _ => true
      | _ => false
    let r : Reservation := { id := rid, node := node, base := base, length := o.length, t1 := t1
                             partition := partOfAddr (localOf base), object := oid, boot := 0 }
    let new : Placement := { tier := 3, partition := r.partition, node := node, offset := 0, rid := rid, base := base }
    let s := { s with fab := { s.fab with heldRes := s.fab.heldRes ++ [r] } }
    match movePlace s oid o new with
    | (s, true) => complete s m h 0x21 stOk (leBytes 8 base)
    | (s, false) => complete (releaseRes s new) m h 0x21 stFaulted []

/-- Ask a node for a reservation and wait for its answer; this node itself grants or refuses at once (R479, R483). -/
def placePeer (s : State) (m : MbxId) (h : CmdHdr) (oid : Nat) (o : Obj) (pbyte node : Nat) (offset : Nat) : State :=
  if 256 ≤ s.fab.heldRes.length then complete s m h 0x21 stNoResource []
  else if node = s.fab.node then
    let t1 := decide (128 ≤ pbyte)
    match grantAt s o.length (if t1 then 1 else 2) (pbyte % 8) offset with
    | none => complete s m h 0x21 stNoResource []
    | some off =>
      let g := grantRange s.fresh.2 node o.length s.boot.bootCount (if t1 then 1 else 2) (pbyte % 8) off
      placeGranted g.1 m h oid node g.2.id g.2.base
  else
    let seq := s.fab.nextSeq
    let req : MgmtReq := { seq := seq, kind := 0x20, node := node, mbx := m, object := oid }
    let s := { s with fab := { s.fab with nextSeq := (seq + 1) % 2 ^ 32, mgmt := s.fab.mgmt ++ [req] } }
    let body := leBytes 8 o.length ++ leBytes 1 pbyte ++ leBytes 3 0 ++ leBytes 4 s.boot.bootCount ++ leBytes 8 offset
    await (sendMgmt s 0x20 0 node 0 seq body) m h 0x21 (.place oid seq)

/-- `OBJ_PLACE`. -/
def execObjPlace (m : MbxId) (h : CmdHdr) (object tier partition node : Nat) (offset : Word64) (s : State) : Out :=
  command s m h 0x21 0x10 (fun s =>
    withObj s m h 0x21 object (isPort object) (fun o =>
      if isPort object then complete s m h 0x21 stDenied []
      else if tier = 0 ∨ 3 < tier then complete s m h 0x21 stBadParam []
      else if tier ≠ 3 ∧ (node ≠ 0 ∨ 7 < partition) then complete s m h 0x21 stBadParam []
      else if tier = 3 ∧ (bits partition 3 4 ≠ 0 ∨ 1023 < node) then complete s m h 0x21 stBadParam []
      else if tier = 3 ∧ offset ≠ BitVec.allOnes 64 ∧ offset.toNat % 256 ≠ 0 then complete s m h 0x21 stBadParam []
      else if o.sealed || inUse s object then complete s m h 0x21 stBusy []
      else if tier = 3 then placePeer s m h object o partition node offset.toNat
      else placeLocal s m h object o tier partition offset.toNat))

/-! ### OBJ_WRITE and OBJ_READ (R399, R428, R565) -/

/-- The bytes of an object after a write, for the checks of R263 and its like. -/
def patched (s : State) (o : Obj) (off : Nat) (bs : List Byte) : List Byte :=
  let old := objBytes s o 0 o.length
  old.take off ++ bs ++ old.drop (off + bs.length)

/-- Some job binds the object. -/
def isBound (s : State) (oid : Nat) : Bool := s.jobs.any (fun e => e.2.bindings.any (fun b => b.object == oid))

/-- Write to the original and then to the twin; a whole write clears the lost mark (R399, R428). -/
def storeObj (s : State) (oid : Nat) (o : Obj) (off : Nat) (bs : List Byte) : State × Bool :=
  match o.place with
  | none => (s, false)
  | some p =>
    let r := firmwareWrite s p off bs
    if !r.2 then r
    else
      let r := match o.twin with
        | some t => firmwareWrite r.1 t off bs
        | none => r
      if r.2 && o.lost && off == 0 && bs.length == o.length then (r.1.setObj oid { o with lost := false }, true) else r

/-- `OBJ_WRITE`. -/
def execObjWrite (m : MbxId) (h : CmdHdr) (object offset : Nat) (b : Bref) (s : State) : Out :=
  command s m h 0x22 0x20 (fun s =>
    withObj s m h 0x22 object (isPort object) (fun o =>
      if o.place.isNone ∨ o.length < offset + b.len then complete s m h 0x22 stBadParam []
      else if o.sealed then complete s m h 0x22 stBusy []
      else withBuf s m h 0x22 b b.len (fun s bs =>
        match if isBound s object then boundCheck s object (patched s o offset bs) else .accept with
        | .badParam => complete s m h 0x22 stBadParam []
        | .mismatch => complete s m h 0x22 stMismatch []
        | .busy => complete s m h 0x22 stBusy []
        | .accept => match storeObj s object o offset bs with
          | (s, false) => complete s m h 0x22 stFaulted []
          | (s, true) => complete (arrive s object) m h 0x22 stOk [])))

/-- `OBJ_READ`. -/
def execObjRead (m : MbxId) (h : CmdHdr) (object offset : Nat) (b : Bref) (s : State) : Out :=
  command s m h 0x23 0x20 (fun s =>
    withObj s m h 0x23 object (isPort object) (fun o => match o.place with
      | none => complete s m h 0x23 stBadParam []
      | some p =>
        if o.length < offset + b.len then complete s m h 0x23 stBadParam []
        else if o.lost then complete s m h 0x23 stFaulted []
        else match firmwareRead s p offset b.len with
          | (s, none) => complete s m h 0x23 stFaulted []
          | (s, some bs) => replyBuf s m h 0x23 b bs (fun s => complete s m h 0x23 stOk [])))

/-! ### OBJ_FREE (R358, R483) -/

/-- The object holds a page, slot or stream state in use, or a job's save (R358, R388). -/
def holdsData (s : State) (oid : Nat) : Bool :=
  s.kv.dir.any (fun e => e.2.poolObject == oid || ((e.2.state == 2 || e.2.moving != 0) && e.2.spillObject == oid)) ||
  s.jobs.any (fun e => e.2.saveObject == oid)

/-- `OBJ_FREE`. -/
def execObjFree (m : MbxId) (h : CmdHdr) (object : Nat) (s : State) : Out :=
  command s m h 0x24 4 (fun s =>
    withObj s m h 0x24 object (isPort object) (fun o =>
      if isPort object then complete s m h 0x24 stDenied []
      else if isBound s object || o.sealed || holdsData s object then complete s m h 0x24 stBusy []
      else
        let s := { s with objects := s.objects.erase object
                          kv := { s.kv with cleared := s.kv.cleared.filter (fun k => k != object) } }
        let s := match o.place with
          | some p => releaseRes s p
          | none => s
        complete s m h 0x24 stOk []))

/-! ### OBJ_DELTA (R277) -/

/-- `OBJ_DELTA`. -/
def execObjDelta (m : MbxId) (h : CmdHdr) (object : Nat) (b : Bref) (s : State) : Out :=
  command s m h 0x25 0x20 (fun s =>
    withObj s m h 0x25 object false (fun o =>
      if o.place.isNone ∨ objBytes s o 0 4 ≠ [0x53, 0x51, 0x50, 0x53] then complete s m h 0x25 stBadParam []
      else withBuf s m h 0x25 b 16 (fun s head =>
        let n := fld head 8 4
        if n = 0 ∨ 32768 < n ∨ fld head 0xC 4 ≠ 0 then complete s m h 0x25 stBadParam []
        else withBuf s m h 0x25 b (16 + 8 * n) (fun s bs =>
          let es := deltaEntries bs n
          if deltaStatus s object (fld bs 0 8) es ≠ stOk then complete s m h 0x25 (deltaStatus s object (fld bs 0 8) es) []
          else if inUse s object then await s m h 0x25 (.delta object (fld bs 0 8) es)
          else complete (applyDelta s object es) m h 0x25 stOk (leBytes 4 n)))))

end Sys2Proof.Machine
end

