-- ==== Sys2Proof/Machine/Submit.lean ====
section
/-! DEFINITION. JOB_SUBMIT: the binding rules, the checks of the function chapters, the lease, the warm shadow (R86, R119, R128, R172, R201, R203, R231, R232, R263, R273, R281, R285, R307, R315, R332, R336, R359, R360, R373, R375, R377 to R388, R398, R399). -/

namespace Sys2Proof.Machine

/-! ### Bindings (R172, R360) -/

/-- The binding of an image's slot. -/
def Image.binding? (im : Image) (slot : Nat) : Option Binding := im.bindings.find? (fun b => b.slot == slot)

/-- R360 for one bound object. -/
def boundOk (s : State) (m : MbxId) (im : Image) (b : BindEntry) : Bool :=
  match im.binding? b.slot, s.obj? b.object with
  | some d, some o => o.place.isSome && decide (d.minLength ≤ o.length) && (o.shared || mayUse m o.owner)
  | _, _ => false

/-- R172: an object bound with write access is bound to no other slot. -/
def writersApart (im : Image) (bs : List BindEntry) : Bool :=
  bs.all (fun b => match im.binding? b.slot with
    | some d => d.access / 2 % 2 == 0 || (bs.filter (fun c => c.object == b.object)).length == 1
    | none => false)

/-- The binding rules of R360: every declared slot exactly once and no other. -/
def bindingsOk (s : State) (m : MbxId) (im : Image) (bs : List BindEntry) : Bool :=
  im.bindings.all (fun d => (bs.filter (fun b => b.slot == d.slot)).length == 1) && bs.all (boundOk s m im) && writersApart im bs

/-! ### Descriptors against the bound objects (R119, R128) -/

/-- Every `TMOVE` of a program that names a slot is indexed, and one does: the span of such a slot is checked as each word issues (R128, R130). -/
def indexedOnly (program : List Word) (slot : Nat) : Bool :=
  indexedSlot program slot && program.all (fun w => match decodeSeq w with
    | some (.tmove sl _ _ _ ix) => ix || sl.toNat != slot
    | _ => true)

/-- R128 for one descriptor of a program. -/
def descFits (s : State) (im : Image) (j : Job) (program : List Word) (d : Descriptor) (slot : Nat) : Bool :=
  match im.binding? d.slot, boundObj s j d.slot with
  | some b, some o =>
    (if d.outward then b.access / 2 % 2 == 1 else b.access % 2 == 1) && (b.format == 0xFF || b.format == d.format) &&
    (indexedOnly program slot || d.fitsIn d.offset d.scaleOffset o.length)
  | _, _ => false

/-- R128 for every descriptor of an image, and of the fallback image that runs on the same bindings, slot for slot (R396). -/
def descsFit (s : State) (im : Image) (j : Job) : Bool :=
  (im :: (s.image? j.fallback).toList).all (fun im =>
    im.descs.all (fun e => e.2.zipIdx.all (fun d => descFits s im j ((im.programs.get? e.1).getD []) d.1 d.2)))

/-! ### Function chapters -/

/-- A slot is bound with read and write access and format 0xFF, in one of some tiers (R203, R231, R232). -/
def stateSlot (s : State) (im : Image) (j : Job) (slot : Nat) (tiers : List Nat) : Bool :=
  match im.binding? slot, (boundObj s j slot).bind Obj.place with
  | some b, some p => b.access == 3 && b.format == 0xFF && tiers.contains p.tier
  | _, _ => false

/-- The pool fits the family's page geometry: its frames, those of the sequences it already serves and of the pages it holds (R201, R203). -/
def poolFits (s : State) (a : Attn) (pool : Nat) : Bool :=
  match s.obj? pool with
  | none => false
  | some o =>
    let frames := o.length / a.frameBytes
    decide (1 ≤ frames) && decide (frames ≤ 65535) &&
    s.kv.sequences.all (fun e => !e.2.pools.contains pool || e.2.frameBytes == a.frameBytes) &&
    s.kv.dir.all (fun e => e.2.poolObject != pool || e.2.frame == a.frameBytes)

/-- R201, R224, R360: the `ATTN` instances of an image, all of one family, the pools of each, and the spill object in T3. The first instance's pools and spill slot are the job's (assumption 156). -/
def attnOk (s : State) (im : Image) (j : Job) : Bool :=
  match im.attns with
  | [] => true
  | a :: rest =>
    j.cls != 0 && rest.all (fun b => b.fam == a.fam) && (a :: rest).all (fun b =>
      b.ok && (List.range b.pools).all (fun i => stateSlot s im j (b.firstPool + i) [1, 2]) && (poolObjects j b).all (poolFits s b) &&
      (match b.spill with
        | some k => ((boundObj s j k).bind Obj.place).any (fun p => p.tier == 3)
        | none => true))

/-- The same for the image and for its fallback (R206, R396). -/
def attnsOk (s : State) (im : Image) (j : Job) : Bool :=
  attnOk s im j && (s.image? j.fallback).all (fun fb => attnOk s fb j)

/-- One family, one pool in a T1 window, a park object in T2 or T3, control objects that the tiles may read (R231 to R233, R241). -/
def streamsOk (s : State) (im : Image) (j : Job) : Bool :=
  match im.streamGeo with
  | none => true
  | some g =>
    g.insts.all (fun i => i.dim 3 == g.family && bits (i.dim 6) 0 8 == g.poolSlot && i.dim 5 == g.lrec &&
      (match im.binding? (bits (i.dim 6) 16 8), boundObj s j (bits (i.dim 6) 16 8) with
       | some b, some _ => b.access % 2 == 1
       | _, _ => false)) &&
    stateSlot s im j g.poolSlot [1] && (match g.parkSlot with
      | some k => stateSlot s im j k [2, 3]
      | none => true)

/-- Two instances name the same slots. -/
def sameSlots (a b : InstEntry) : Bool := a.inSlot == b.inSlot && a.weightSlot == b.weightSlot && a.outSlot == b.outSlot

/-- The instances of an image that demand a fallback of a Held or Prompt job: `QP`, the gate of a planner, fusing `FUSE` (R281, R307, R336). -/
def demands (im : Image) : List InstEntry :=
  im.insts.filter (fun i => (i.function == 0x0C && i.variant != 2) || (i.function == 0x0D && i.variant == 1) ||
    (i.function == 0x12 && i.variant == 0))

/-- A fallback image serves an instance that demands one (R281, R307, R336). -/
def serves (fb : Image) (i : InstEntry) : Bool :=
  fb.insts.any (fun k => k.function == i.function && sameSlots i k &&
    (match i.function with
     | 0x0C => k.variant == 2 && k.dim 0 == i.dim 0 && k.dim 1 == i.dim 1
     | 0x0D => k.variant == 2 && k.dim 0 == i.dim 0 && k.dim 1 == i.dim 1 && k.dim 2 == i.dim 2 && k.dim 7 == i.dim 7 &&
         bits (k.dim 3) 8 8 == bits (i.dim 3) 8 8
     | _ => k.variant == 1 && k.dim 1 == i.dim 1 && k.dim 4 == i.dim 4))

/-- R86, R281, R307, R336: the named fallback of a Held or Prompt job is loaded, and is what the functions demand. -/
def fallbackOk (s : State) (im : Image) (j : Job) : Bool :=
  if j.cls = 2 then true
  else
    let fb := s.image? im.fallback
    (im.fallback == 0 || fb.isSome) && (demands im).all (fun i => match fb with
      | none => false
      | some k => serves k i && (i.function == 0x0C || im.fallbackClusters == 1))

/-- R332: the pose ring of an `EGO` job holds (max_late + 2) × Te. -/
def poseRingOk (s : State) (im : Image) (j : Job) : Bool :=
  match im.fuse? with
  | none => true
  | some i => match boundObj s j i.inSlot, (j.slotObj (bits (i.dim 4) 0 8)).bind (poseStep s) with
    | some t, some step => decide ((fld (objBytes s t 7 1) 0 1 + 2) * objWord s t 8 ≤ 8192 * step)
    | _, _ => true

/-- R332 seen from the pose ring's writer: every fusion job that binds the ring finds (max_late + 2) × Te in it. -/
def poseWriterOk (s : State) (im : Image) (j : Job) : Bool :=
  match im.ego? with
  | none => true
  | some i => s.jobs.all (fun e => match (s.image? e.2.image).bind Image.fuse? with
    | none => true
    | some u => match boundObj s e.2 u.inSlot, e.2.slotObj (bits (u.dim 4) 0 8) with
      | some t, some ring => j.slotObj i.outSlot != some ring || decide ((fld (objBytes s t 7 1) 0 1 + 2) * objWord s t 8 ≤ 8192 * i.dim 0)
      | _, _ => true)

/-- R301: each roadmap slot has read and write access, format 0xFF, and an object in T1 or T2. -/
def roadmapsOk (s : State) (im : Image) (j : Job) : Bool := (im.insts? 0x0F).all (fun i => stateSlot s im j (i.dim 5) [1, 2])

/-- R375: the period. -/
def periodOk (p : Nat) : Bool := p == 0 || (decide (100000 ≤ p) && decide (p ≤ 4294967288) && p % 8 == 0)

/-- The checks of the function chapters on the contents of the bound objects (R263, R273, R291, R301, R315). -/
def contentsOk (s : State) (im : Image) (j : Job) : WriteCheck :=
  j.bindings.foldl (fun acc b => match s.obj? b.object with
    | none => acc
    | some o => im.insts.foldl (fun acc i => match acc with
      | .accept => instCheck i b.slot (objBytes s o 0 o.length)
      | _ => acc) acc) .accept

/-- Every rule of a submit whose failure completes it with `BAD_PARAM`, the contents apart. -/
def submitOk (s : State) (m : MbxId) (im : Image) (j : Job) : Bool :=
  decide (j.cls ≤ 2) && im.classMask / 2 ^ j.cls % 2 == 1 && periodOk j.period && bindingsOk s m im j.bindings &&
  fallbackOk s im j && descsFit s im j && attnsOk s im j && streamsOk s im j && roadmapsOk s im j &&
  (im.gate?.isNone || (plannerJob s).isNone) && poseRingOk s im j && poseWriterOk s im j

/-! ### The job record (R373, R388) -/

/-- A job as submitted, without clusters. -/
def newJob (image cls period owner : Nat) (bs : List BindEntry) (im : Image) : Job :=
  let fb := if cls = 2 then 0 else im.fallback
  { image := image, cls := cls, period := period, owner := owner, bindings := bs, lease := 0, clusters := [], fbClusters := []
    fallback := fb, nextFallback := none, wantsClusters := im.clusters, wantsFallback := if fb = 0 then 0 else im.fallbackClusters, queuedSince := 0
    leasedAt := 0, readyAt := none, nextStart := 0, startWaiting := false, triggers := [], feeds := 0
    calls := [], invocation := none, nextNumber := 1, ended := 0, fallbacks := 0, faults := 0, misses := 0, last := 0
    stall := StallRec.zero, stallNow := StallRec.zero, kv := KvRec.zero, kvNow := KvRec.zero, strm := StreamRec.zero
    strmNow := StreamRec.zero, saveObject := 0, saved := [], savedMem := [], savedRuns := [], resumeRunning := false
    rerun := false, shadow := none, wantShadow := false, owed := [], shadowPart := none, fuse := none, egoStep := 0, egoLate := 0
    egoLateNew := false, egoSeen := [], bufferWait := false, cancelled := false }

/-- A fusion job's first epoch, and an `EGO` job's first step, from the submit's time (R318, R323). -/
def Job.epochs (j : Job) (im : Image) (s : State) : Job :=
  let te := match fuseEnv s j with
    | some env => env.te
    | none => 1
  let up := fun (d : Nat) => (s.now + d - 1) / max 1 d
  { j with
    fuse := im.fuse?.map (fun _ =>
      { firstEdge := up te * te, nextEpoch := 0, rows := [], rejected := 0, cutting := false, lateDiscarded := 0, dropped := [], droppedRaised := []
        frozen := none, waitSince := 0 })
    egoStep := match im.ego? with
      | some i => up (i.dim 0)
      | none => 0
    egoSeen := (egoRings im j).filterMap (fun o => (s.obj? o).map (fun x => (o, objWord s x 0))) }

/-- Live bytes of an Ambient job (R388). -/
def saveBytes (im : Image) : Nat :=
  (im.live.map (fun r => if r.kind = 0 then r.length else 16384)).sum + 512 * 8 * im.clusters

/-- The partition in service with the most free T2, the lower one among equals (R388). -/
def roomiest (s : State) (len : Nat) : Option (Nat × Nat) :=
  let fits := (List.range 8).filterMap (fun p =>
    if (s.part p).state = 0 then (chooseOffset s 2 p len).map (fun o => (p, o)) else none)
  fits.foldl (fun acc x => match acc with
    | none => some x
    | some y => if freeT2 s y.1 < freeT2 s x.1 then some x else some y) none

/-- Create and place the save object of an Ambient job (R388). -/
def makeSave (s : State) (owner len : Nat) : Option (State × Nat) :=
  if 16384 ≤ s.objects.length then none
  else (roomiest s len).map (fun x =>
    let id := newObjectId s
    let pl : Placement := { tier := 2, partition := x.1, node := 0, offset := x.2, rid := 0, base := 0 }
    (placeZero ((s.fresh.2).setObj id { Obj.fresh len owner false with place := some pl }) pl len, id))

/-- Frame 0 of each pool is cleared when the pool is first bound (R203). -/
def clearPools (s : State) (j : Job) (im : Image) : State :=
  match im.attns with
  | [] => s
  | a :: _ => forEach (poolObjects j a) s (fun s o =>
      if s.kv.cleared.contains o then s
      else match s.obj? o with
        | some x => objWriteBytes { s with kv := { s.kv with cleared := s.kv.cleared ++ [o] } } x 0 (List.replicate a.frameBytes 0)
        | none => s)

/-- The accepted job enters the job table under the next ID (R373). -/
def enterJob (s : State) (j : Job) (im : Image) : State × Nat :=
  let id := nextJobId s
  ({ clearPools s j im with jobs := s.jobs.put id (j.epochs im s), jobCounter := id }, id)

/-- The submit takes effect: a PENDING job's command completes, any other's once the lease is loaded (R383, R384, the example of R390). -/
def accept (s : State) (m : MbxId) (h : CmdHdr) (jid : Nat) : State :=
  let s := updateResting s
  if (s.job? jid).any (fun j => j.lease == 0) then complete s m h 0x40 stOk (submitReply s jid)
  else await s m h 0x40 (.submit jid)

/-! ### Leases by class (R383, R398, R399) -/

/-- The objects that a shadowed job binds with write access lie in the primary's partition (R399). -/
def writesIn (s : State) (j : Job) (im : Image) (p : Nat) : Bool :=
  j.bindings.all (fun b => match im.binding? b.slot, (s.obj? b.object).bind Obj.place with
    | some d, some x => d.access / 2 % 2 == 0 || (x.tier != 3 && x.partition == p)
    | _, _ => true)

/-- The shadow of a Held job, granted with its lease: clusters powered and loaded, twins placed and copied (R398, R399). -/
def grantShadow (s : State) (jid p : Nat) (cs fb ids : List Nat) : State :=
  let s := forEach cs s (fun s c => powerOnCluster s jid .shadow c)
  let s := forEach fb s (fun s c => powerOnCluster s jid .shadowFallback c)
  let s := makeTwins s ids p
  let load := fun (s : State) (image : Nat) (cs : List Nat) => match s.image? image with
    | some im => loadImage s (sortBy (fun a b => a < b) cs) im
    | none => s
  match s.job? jid with
  | none => s
  | some j =>
    let s := load (load s j.image cs) j.fallback fb
    let sh : Shadow :=
      { partition := p, clusters := cs, fallbackClusters := fb, state := 1, run := none, queued := [], commits := [], streams := [] }
    s.setJob jid { j with shadow := some sh, wantShadow := true }

/-- A Held submit (R383, R398). -/
def submitHeld (s : State) (m : MbxId) (h : CmdHdr) (j : Job) (im : Image) (shadow : Bool) : State :=
  let n := j.wantsClusters; let f := j.wantsFallback
  let refuse := fun (st : Nat) => complete s m h 0x40 st []
  match place s (im.onePartition || shadow) n f (eligible s 0) none with
  | none => refuse stNoResource
  | some (cs, fb) =>
    if !shadow then
      if roomFor s (leaseCap s) (n + f) then
        let e := enterJob s j im
        accept (grantTo e.1 e.2 cs fb 1) m h e.2
      else refuse stNoResource
    else
      let pp := (cs.head?.getD 0) / 8
      if !writesIn s j im pp then refuse stBadParam
      else match placeOne s n f (eligible s 0) (some pp) with
        | none => refuse stNoResource
        | some (cs2, fb2) =>
          let ps := (cs2.head?.getD 0) / 8
          let ids := needTwins s j pp
          if !im.shadowOk || !roomFor s (leaseCap s) (2 * (n + f)) || !twinsFit s ids ps then refuse stNoResource
          else
            let e := enterJob s j im
            accept (noteCap (grantShadow (grantTo e.1 e.2 cs fb 1) e.2 ps cs2 fb2 ids)) m h e.2

/-- A Prompt submit: free unreserved clusters, else Ambient jobs are pre-empted and the command waits for their saves (R383, R386). -/
def submitPrompt (s : State) (m : MbxId) (h : CmdHdr) (j : Job) (im : Image) : State :=
  let n := j.wantsClusters; let f := j.wantsFallback
  let one := im.onePartition
  let direct := if roomFor s (leaseCap s) (n + f) then place s one n f (eligible s 1) none else none
  match direct with
  | some (cs, fb) =>
    let e := enterJob s j im
    accept (grantTo e.1 e.2 cs fb 1) m h e.2
  | none => match choosePreempt s one n f with
    | none => complete s m h 0x40 stNoResource []
    | some ks =>
      let t := { clearPools s j im with jobs := s.jobs.put (waitKey m) (j.epochs im s) }
      await (preemptFirst t ks) m h 0x40 (.submit (waitKey m))

/-- An Ambient submit: its save object is made; without clusters the job is PENDING (R383, R388, R531). -/
def submitAmbient (s : State) (m : MbxId) (h : CmdHdr) (j : Job) (im : Image) : State :=
  let len := (saveBytes im + 255) / 256 * 256
  if 0x4000000 < saveBytes im then complete s m h 0x40 stBadParam []
  else match makeSave s m.toNat len with
    | none => complete s m h 0x40 stNoResource []
    | some (t, save) =>
      let e := enterJob t { j with saveObject := save, queuedSince := s.now } im
      accept (grantQueue 64 e.1) m h e.2

/-- The submit of a checked payload. -/
def submitJob (s : State) (m : MbxId) (h : CmdHdr) (image cls : Nat) (shadow : Bool) (period : Nat) (bs : List BindEntry) : State :=
  match s.image? image with
  | none => complete s m h 0x40 stBadParam []
  | some im =>
    let j := newJob image cls period m.toNat bs im
    if !mayUse m im.owner then complete s m h 0x40 stDenied []
    else if !submitOk s m im j then complete s m h 0x40 stBadParam []
    else match contentsOk s im j with
      | .mismatch => complete s m h 0x40 stMismatch []
      | .badParam | .busy => complete s m h 0x40 stBadParam []
      | .accept =>
        if 512 ≤ jobCount s then complete s m h 0x40 stNoResource []
        else if shadow ∧ cls ≠ 0 then complete s m h 0x40 stNoResource []
        else
          match cls with
          | 0 => submitHeld s m h j im shadow
          | 1 => submitPrompt s m h j im
          | _ => submitAmbient s m h j im

/-- The entries of a binding list. -/
def bindEntries (bs : List Byte) (n : Nat) : List BindEntry :=
  (List.range n).map (fun i => { slot := fld bs (6 * i) 2, object := fld bs (6 * i + 2) 4 })

/-- A job submitted in DROWSE first wakes the module (R523). -/
def wake (s : State) : State := if s.power.state = 1 then grantQueue 64 (changePower s 0) else s

/-- `JOB_SUBMIT` (R359, R383). The payload in hand carries the inline bindings, or the BREF to them. -/
def execJobSubmit (m : MbxId) (h : CmdHdr) (image cls : Nat) (flags : BitVec 8) (periodNs count : Nat) (bindings : List BindEntry)
    (b : Bref) (s : State) : Out :=
  command s m h 0x40 0x70 (fun s =>
    let payload := slice ((s.box m).current.getD []) 16 112
    let s := wake s
    let bad := complete s m h 0x40 stBadParam []
    if 3 < flags.toNat ∨ count = 0 ∨ 256 < count then bad
    else if flags.getLsbD 1 then
      if !zeros payload 0x1C 84 then bad
      else withBuf s m h 0x40 b (6 * count) (fun s bs =>
        submitJob s m h image cls (flags.getLsbD 0) periodNs (bindEntries bs count))
    else if 16 < count ∨ bindings.length ≠ count ∨ !zeros payload (0x10 + 6 * count) (96 - 6 * count) then bad
    else submitJob s m h image cls (flags.getLsbD 0) periodNs bindings)

end Sys2Proof.Machine
end

