-- ==== Sys2Proof/Machine/Jobs.lean ====
section
/-! DEFINITION. JOB_CANCEL, JOB_QUERY, JOB_FEED and JOB_SET_FALLBACK (R138, R205, R218, R221, R225, R227, R228, R238, R239, R257, R361, R362, R364, R375, R397, R404). -/

namespace Sys2Proof.Machine

/-- A job named by a command, with the ownership check (R351). -/
def withJob (s : State) (m : MbxId) (h : CmdHdr) (op jid : Nat) (f : Job → State) : State :=
  match s.job? jid with
  | none => complete s m h op stBadParam []
  | some j => if mayUse m j.owner then f j else complete s m h op stDenied []

/-! ### JOB_CANCEL (R384, R404) -/

/-- Mode 0: the job is ENDING while its invocation runs; the command completes when the job ends (R384, R404). -/
def cancelLater (s : State) (m : MbxId) (h : CmdHdr) (jid : Nat) (j : Job) : State :=
  let s := await s m h 0x41 (.cancel jid)
  if j.invocation.isNone then endJob s jid
  else s.setJob jid { j with cancelled := true, lease := if j.lease = 3 then 8 else j.lease }

/-- `JOB_CANCEL`. -/
def execJobCancel (m : MbxId) (h : CmdHdr) (job mode : Nat) (s : State) : Out :=
  command s m h 0x41 3 (fun s => withJob s m h 0x41 job (fun j =>
    match mode with
    | 0 => cancelLater s m h job j
    | 1 => serveWaiting (complete (cancelNow (stopClusters s j.allClusters) job) m h 0x41 stOk [])
    | _ => complete s m h 0x41 stBadParam []))

/-! ### JOB_QUERY (R138, R228, R257, R364) -/

/-- The job block (R364). -/
def jobBlock (jid : Nat) (j : Job) : List Byte :=
  layout 64
    [(0x00, leBytes 2 jid), (0x02, leBytes 2 j.image), (0x04, leBytes 1 j.lease), (0x05, leBytes 1 j.cls),
     (0x06, leBytes 1 (j.clusters.length + j.fbClusters.length)),
     (0x07, leBytes 1 (match j.shadow with
       | some sh => sh.partition
       | none => 0xFF)),
     (0x08, leBytes 8 j.ended), (0x10, leBytes 4 j.fallbacks), (0x14, leBytes 4 j.faults), (0x18, leBytes 4 j.misses),
     (0x20, leBytes 8 j.last)]

/-- The stall record (R138). -/
def StallRec.bytes (k : StallRec) : List Byte :=
  ([k.q1, k.t1, k.r1, k.q2, k.t2, k.r2, k.q3, k.t3, k.r3, k.absent].map (fun v => leBytes 4 (sat32n v))).flatten ++
  leBytes 2 (sat16n k.lateRuns) ++ leBytes 2 (sat16n k.revocations) ++ leBytes 4 (sat32n k.merges) ++
  leBytes 4 (sat32n k.prefetchHits) ++ List.replicate 12 0

/-- The KV record (R228). -/
def KvRec.bytes (k : KvRec) : List Byte :=
  ([k.pagesRead, k.tokensAppended, k.framesAllocated, k.cowCopies, k.tokensMatched].map (leBytes 4)).flatten ++
  leBytes 2 k.falseMatches ++ leBytes 2 k.refSaturations ++
  ([k.spills, k.recalls, k.inPlaceReads].map (leBytes 4)).flatten ++ leBytes 2 k.indexReplacements ++ leBytes 2 0 ++
  leBytes 4 k.passes ++ leBytes 4 0

/-- The stream record (R257). -/
def StreamRec.bytes (k : StreamRec) : List Byte :=
  ([k.chunksRun, k.stepsRun, k.resets, k.swapIns, k.swapOuts].map (fun v => leBytes 4 (sat32n v))).flatten ++
  leBytes 2 (sat16n k.absentRows) ++ leBytes 2 (sat16n k.gaps) ++ List.replicate 8 0

/-- The 208 bytes that a query writes (R364). -/
def queryBytes (jid : Nat) (j : Job) : List Byte := jobBlock jid j ++ j.stall.bytes ++ j.kv.bytes ++ j.strm.bytes

/-- `JOB_QUERY`. -/
def execJobQuery (m : MbxId) (h : CmdHdr) (job : Nat) (b : Bref) (s : State) : Out :=
  command s m h 0x42 0x20 (fun s => withJob s m h 0x42 job (fun j =>
    replyBuf s m h 0x42 b (queryBytes job j) (fun s => complete s m h 0x42 stOk (leBytes 4 208))))

/-! ### JOB_FEED (R361, R362) -/

/-- The statuses of the rows of a feed, 0 for a row that breaks nothing; the first that is not 0 refuses the whole feed. -/
def firstBad (sts : List Nat) : Nat := (sts.find? (fun x => x != 0)).getD 0

/-- The rows of a refused feed take state 4; a row that broke no rule itself takes a status the spec does not state (R362). -/
def refuseRows (s : State) (m : MbxId) (h : CmdHdr) (sts : List Nat) (write : State → Nat → Nat → Nat → State) : State :=
  let any := anyStatus s
  let s := forEach sts.zipIdx any.2 (fun s x => write s x.2 4 (if x.1 = 0 then any.1 else x.1))
  complete s m h 0x43 (firstBad sts) []

/-- An accepted feed takes the next feed number (R361). -/
def acceptFeed (s : State) (m : MbxId) (h : CmdHdr) (jid rows : Nat) : State :=
  let s := updJob s jid (fun j => { j with feeds := (j.feeds + 1) % 2 ^ 32 })
  let n := match s.job? jid with
    | some j => j.feeds
    | none => 0
  complete s m h 0x43 stOk (leBytes 4 n ++ leBytes 2 rows)

/-- The number that the next accepted feed takes. -/
def Job.nextFeed (j : Job) : Nat := (j.feeds + 1) % 2 ^ 32

/-! #### Kind 0: triggers (R361, R375) -/

/-- A kind-0 feed: its row fields are reserved. -/
def feedTrigger (s : State) (m : MbxId) (h : CmdHdr) (jid : Nat) (j : Job) (im : Image) (rowCount rowSize : Nat) (b : Bref) : State :=
  let payload := slice ((s.box m).current.getD []) 16 112
  if j.period ≠ 0 ∨ rowCount ≠ 0 ∨ rowSize ≠ 0 ∨ b.addr ≠ 0 ∨ b.len ≠ 0 ∨ zeros payload 8 24 = false ∨ rowFed im = true then
    complete s m h 0x43 stBadParam []
  else if 16 ≤ j.triggers.length then complete s m h 0x43 stNoResource []
  else acceptFeed (s.setJob jid { j with triggers := j.triggers ++ [j.nextFeed] }) m h jid 0

/-! #### Kind 1: stream rows (R236 to R239, R361) -/

/-- The status of one stream row (R239, R361): `before` are the stream IDs of the feed's earlier rows. -/
def rowStatus1 (s : State) (m : MbxId) (jid : Nat) (g : StreamGeo) (row : List Byte) (before : List Nat) : Nat :=
  let id := fld row 0 4
  if fld row 4 2 = 0 ∨ g.steps < fld row 4 2 ∨ fld row 0xC 4 ≠ 0 then stBadParam
  else match findStream s id with
    | none => stBadParam
    | some (p, x) =>
      let held := fun (q : Nat) => (((s.part q).streams ++ shadowStreams s q).map (fun y => y.queue.length)).sum + before.length
      let second := match (s.job? jid).bind Job.shadow with
        | some sh => held sh.partition
        | none => 0
      if x.job ≠ jid then otherStream s m x
      else if x.state = 4 then stFaulted
      else if 16 ≤ x.queue.length + (before.filter (fun k => k == id)).length ∨ 4096 ≤ held p ∨ 4096 ≤ second then stNoResource
      else stOk

/-- The chunk of a stream row (R238, R361). -/
def chunkOf (row : List Byte) (feed box addr now : Nat) : Chunk :=
  { feed := feed, box := box, rowAddr := addr, steps := fld row 4 2, inBuf := fld row 6 2, outBuf := fld row 8 2
    mask := row.drop 16, fedAt := now }

/-- Queue a chunk on its stream, and on the shadow's entry of it (R238, R400). -/
def queueChunk (s : State) (jid id : Nat) (c : Chunk) : State :=
  let add := fun (x : Stream) => if x.id = id then { x with queue := x.queue ++ [c] } else x
  let s := match findStream s id with
    | some (p, _) => updStream s p id add
    | none => s
  updJob s jid (fun j => { j with shadow := j.shadow.map (fun sh => { sh with streams := sh.streams.map add }) })

/-- A kind-1 feed. -/
def feedStreams (s : State) (m : MbxId) (h : CmdHdr) (jid : Nat) (j : Job) (rowCount rowSize : Nat) (b : Bref) : State :=
  match jobStreamGeo s j with
  | none => complete s m h 0x43 stBadParam []
  | some g =>
    if rowCount = 0 ∨ 256 < rowCount ∨ rowSize ≠ g.rowBytes then complete s m h 0x43 stBadParam []
    else withBuf s m h 0x43 b (rowCount * rowSize) (fun s bs =>
      let rows := (List.range rowCount).map (fun k => slice bs (k * rowSize) rowSize)
      let ids := rows.map (fun r => fld r 0 4)
      let sts := rows.zipIdx.map (fun r => rowStatus1 s m jid g r.1 (ids.take r.2))
      let chunk := fun (k : Nat) => chunkOf (rows.getD k []) j.nextFeed m.toNat (b.addr + k * rowSize) s.now
      let write := fun (s : State) (k state status : Nat) => rowState1 s (chunk k) state status
      if firstBad sts ≠ 0 then refuseRows s m h sts write
      else
        let s := forEach (List.range rowCount) s (fun s k => write (queueChunk s jid (ids.getD k 0) (chunk k)) k 1 stOk)
        serveStreams (acceptFeed s m h jid rowCount))

/-! #### Kind 2: sequence rows (R205, R218, R221, R225, R227, R361) -/

/-- One sequence row as fed. -/
structure FedRow where
  sequence : Nat
  nb : Nat
  pfx : Nat
  pfxCount : Nat
  tokens : List Nat
deriving DecidableEq, Repr

/-- Read a sequence row (R361). -/
def FedRow.ofBytes (b : List Byte) : FedRow :=
  { sequence := fld b 0 4, nb := fld b 4 2, pfx := fld b 8 4, pfxCount := fld b 0xC 4, tokens := fieldsAt b 16 4 (fld b 4 2) }

/-- The prefix object of a row that opens a sequence (R218, R351). -/
def pfxStatus (s : State) (m : MbxId) (r : FedRow) (opens : Bool) : Nat :=
  if r.pfx = 0 then stOk
  else if r.nb ≠ 0 ∨ opens = false ∨ 131072 < r.pfxCount then stBadParam
  else match s.obj? r.pfx with
    | none => stBadParam
    | some o =>
      if !(o.shared || mayUse m o.owner) then stDenied
      else if o.place.isNone ∨ o.length < 4 * r.pfxCount then stBadParam
      else if o.lost then stFaulted
      else stOk

/-- The status of one sequence row: `before` are the sequences of the call's earlier rows (R205, R227). -/
def rowStatus2 (s : State) (m : MbxId) (j : Job) (a : Attn) (r : FedRow) (before : List Nat) : Nat :=
  let fresh := (before.filter (fun k => (s.kv.sequences.get? k).isNone)).length
  if a.q < r.nb ∨ before.contains r.sequence = true then stBadParam
  else match s.kv.sequences.get? r.sequence with
    | none =>
      if 4096 ≤ (s.kv.sequences.filter (fun q => decide (q.1 < 2 ^ 32))).length + fresh then stNoResource
      else pfxStatus s m r true
    | some q =>
      if !mayUse m q.owner then stDenied
      else if q.family ≠ a.fam ∨ q.pools ≠ poolObjects j a ∨ 131072 < q.length + r.nb then stBadParam
      else if q.broken then stFaulted
      else if appending s r.sequence then stBusy
      else pfxStatus s m r false

/-- Bring a new sequence into being, its opening tokens matched against the prefix index; answers the matched count (R205, R218). -/
def openSequence (s : State) (jid : Nat) (j : Job) (a : Attn) (r : FedRow) : State × Nat :=
  let f := match s.obj? r.pfx with
    | some o => if r.pfx = 0 then (s, []) else objFetch s o 0 (4 * r.pfxCount)
    | none => (s, [])
  let s := f.1
  let none_ : MatchState := { kv := s.kv, spans := [], matched := 0, parent := familySeed a.family, falseMatches := 0, refusals := 0 }
  let m := if r.pfx = 0 then none_
    else matchSpans s ((poolObjects j a).headD 0) a.fam 513 (fieldsAt f.2 0 4 r.pfxCount) none_
  let s := forEach m.spans s tokensTouch
  let q : Sequence :=
    { owner := j.owner, family := a.fam, pools := poolObjects j a, length := m.matched, spans := m.spans, layers := a.layers
      frameBytes := a.frameBytes, broken := false }
  let s := { s with kv := { m.kv with sequences := m.kv.sequences.put r.sequence q } }
  let s := updJob s jid (fun j => { j with kvNow := { j.kvNow with
    tokensMatched := j.kvNow.tokensMatched + m.matched, falseMatches := j.kvNow.falseMatches + m.falseMatches
    refSaturations := j.kvNow.refSaturations + m.refusals } })
  (s, m.matched)

/-- Open every sequence that a call names first; answers the matched counts of the rows with a token object, by row. -/
def openSequences (s : State) (jid : Nat) (j : Job) (a : Attn) (rows : List FedRow) : State × List (Nat × Nat) :=
  rows.zipIdx.foldl (fun acc r =>
    if (acc.1.kv.sequences.get? r.1.sequence).isSome then acc
    else
      let o := openSequence acc.1 jid j a r.1
      (o.1, if r.1.pfx = 0 then acc.2 else acc.2 ++ [(r.2, o.2)])) (s, [])

/-- A kind-2 feed. -/
def feedSequences (s : State) (m : MbxId) (h : CmdHdr) (jid : Nat) (j : Job) (im : Image) (rowCount rowSize : Nat) (b : Bref) : State :=
  match im.attns with
  | [] => complete s m h 0x43 stBadParam []
  | a :: _ =>
    if rowCount = 0 ∨ a.rows < rowCount ∨ rowSize ≠ 16 + (4 * a.q + 15) / 16 * 16 then complete s m h 0x43 stBadParam []
    else withBuf s m h 0x43 b (rowCount * rowSize) (fun s bs =>
      let fed := (List.range rowCount).map (fun k => FedRow.ofBytes (slice bs (k * rowSize) rowSize))
      let seqs := fed.map FedRow.sequence
      let sts := fed.zipIdx.map (fun r => rowStatus2 s m j a r.1 (seqs.take r.2))
      let rows := fed.zipIdx.map (fun r =>
        ({ feed := j.nextFeed, box := m.toNat, rowAddr := b.addr + r.2 * rowSize, sequence := r.1.sequence
           tokens := r.1.tokens } : SeqRow))
      let write := fun (s : State) (k state status : Nat) => match rows[k]? with
        | some r => rowState2 s r state status
        | none => s
      let all := fun (s : State) (state status : Nat) => forEach (List.range rowCount) s (fun s k => write s k state status)
      if firstBad sts ≠ 0 then refuseRows s m h sts write
      else
        let o := openSequences s jid j a fed
        if !callFits o.1 j a rows then
          refuseRows s m h (List.replicate rowCount stNoResource) write
        else
          let s := forEach o.2 o.1 (fun s x => rowTableWrite s m.toNat (b.addr + x.1 * rowSize + 0xC) (leBytes 4 x.2))
          if fed.all (fun r => r.nb == 0) then acceptFeed (all s 2 stOk) m h jid rowCount
          else
            let s := updJob s jid (fun j => { j with calls := j.calls ++ [{ feed := j.nextFeed, rows := rows }] })
            acceptFeed (all s 1 stOk) m h jid rowCount)

/-- `JOB_FEED`. -/
def execJobFeed (m : MbxId) (h : CmdHdr) (job kind rowCount rowSize : Nat) (b : Bref) (s : State) : Out :=
  command s m h 0x43 0x20 (fun s => withJob s m h 0x43 job (fun j =>
    match s.image? j.image, kind with
    | some im, 0 => feedTrigger s m h job j im rowCount rowSize b
    | some _, 1 => feedStreams s m h job j rowCount rowSize b
    | some im, 2 => feedSequences s m h job j im rowCount rowSize b
    | _, _ => complete s m h 0x43 stBadParam []))

/-! ### JOB_SET_FALLBACK (R397) -/

/-- A fallback run of the job is in progress (R397). -/
def fallbackRuns (j : Job) : Bool :=
  (match j.invocation with
    | some i => i.isFallback
    | none => false) ||
  (match j.shadow.bind Shadow.run with
    | some i => i.isFallback
    | none => false)

/-- `JOB_SET_FALLBACK`: the image is the fallback of the invocations that start from here on (R396, R397). -/
def execJobSetFallback (m : MbxId) (h : CmdHdr) (job image : Nat) (s : State) : Out :=
  command s m h 0x44 4 (fun s => withJob s m h 0x44 job (fun j =>
    match s.image? image with
    | none => complete s m h 0x44 stBadParam []
    | some im =>
      if !mayUse m im.owner then complete s m h 0x44 stDenied []
      else if j.cls = 2 ∨ j.fbClusters.isEmpty = true ∨ j.fbClusters.length < im.fallbackClusters ∨
          im.bindings.any (fun d => (j.slotObj d.slot).isNone) = true then complete s m h 0x44 stBadParam []
      else if fallbackRuns j then complete s m h 0x44 stBusy []
      else
        complete (takeFallback (s.setJob job { j with nextFallback := some image }) job) m h 0x44 stOk []))

end Sys2Proof.Machine
end

