-- ==== Sys2Proof/Machine/Mailbox.lean ====
section
/-! DEFINITION. Fetching and timing out mailbox commands, undefined opcodes, IDENTIFY, GET_LIMITS, the Plinth and the Reliefs (R15, R145, R346 to R349, R353, R356, R368 to R370, R382, R402, R525, R535). -/

namespace Sys2Proof.Machine

/-! ### Fetch and expiry (R346 to R349, R353) -/

/-- The mailboxes accept commands: the firmware runs, no fetch stop is in force, and the module is ACTIVE or in DROWSE (R342, R370, R521, R522). -/
def fetchOpen (s : State) : Bool := s.boot.mailboxReady && !s.boot.fetchStopped && decide (s.power.state ≤ 1)

/-- The next command of a mailbox may be fetched (R346, R348, R349). -/
def mayFetch (s : State) (m : MbxId) : Bool :=
  let b := s.box m
  fetchOpen s && b.active && b.current.isNone && b.dblCmd != b.cmdCons && decide (b.cplHeld < 64)

/-- COMMAND_FETCH: the 128 bytes of the next command are in hand, and cmd_cons passes it; a ring access that fails halts the mailbox with halt_cause 2 (R346, R347, R349, R353). -/
def execCommandFetch (m : MbxId) (s : State) : Out :=
  .next (onlyIf (mayFetch s m) s
    (let b := s.box m
     match busRead s b.path1 (b.ringCmd.toNat + 128 * (b.cmdCons.toNat % 64)) 128 with
     | (s, none) => haltBox s m 2
     | (s, some bs) => s.setBox m { b with current := some bs, cmdCons := b.cmdCons + 1, fetchTick := s.time.ticks }))

/-- What a withdrawn command leaves behind (R353, R404). -/
def withdrawWait (s : State) (w : Waiting) : State :=
  match w with
  | .submit jid => match s.job? jid with
    | some j => if j.lease = 0 then { s with jobs := s.jobs.erase jid } else s
    | none => s
  | .place _ seq => { s with fab := { s.fab with mgmt := s.fab.mgmt.filter (fun q => q.seq != seq) } }
  | .force => { s with time := { s.time with force := none } }
  | .park _ ids _ => forEach ids s (fun s id => match findStream s id with
      | some (p, _) => updStream s p id (fun x => { x with parkAsked := false })
      | none => s)
  | .reset p => s.setPart p { s.part p with resetMbx := none }
  | _ => s

/-- The command in hand has reached its expiry tick (R353). -/
def expired (s : State) (m : MbxId) (timeout : Nat) : Bool :=
  timeout != 0 && decide ((s.box m).fetchTick + 125 * timeout ≤ s.time.ticks)

/-- A waiting command that has taken effect, if only in part, and so is not withdrawn: a submit whose lease is granted, a reset, a cap for which a job has been pre-empted, a park that has parked a stream (R353, R383). -/
def tookEffect (s : State) (w : Waiting) : Bool := match w with
  | .submit jid => (s.job? jid).any (fun j => j.lease != 0)
  | .reset _ => true
  | .cap _ begun => begun
  | .park _ _ begun => begun
  | _ => false

/-- COMMAND_TIMEOUT: an event of the same tick is evaluated first; a command that has then not taken effect is withdrawn and completes with `TIMEOUT` (R353). -/
def execCommandTimeout (m : MbxId) (s : State) : Out :=
  .next (
    let s := match (s.box m).waiting with
      | some (op, h, w) => if expired s m h.timeout then serveWaiter s (m, op, h, w) else s
      | none => s
    match (s.box m).current with
    | none => s
    | some bs => match (s.box m).waiting with
      | some (op, h, w) =>
        if expired s m h.timeout && !tookEffect s w then complete (withdrawWait s w) m h op stTimeout [] else s
      | none =>
        let h : CmdHdr := { tag := BitVec.ofNat 16 (fld bs 2 2), length := fld bs 4 2, timeout := fld bs 8 4 }
        if expired s m h.timeout then complete s m h (fld bs 0 2) stTimeout [] else s)

/-- The opcodes that the spec defines (R356). -/
def opcodes : List Nat :=
  [0x01, 0x02, 0x10, 0x11, 0x12, 0x20, 0x21, 0x22, 0x23, 0x24, 0x25, 0x30, 0x31, 0x40, 0x41, 0x42, 0x43, 0x44, 0x50, 0x51, 0x52,
   0x53, 0x60, 0x61, 0x70, 0x71, 0x80, 0x81, 0x90, 0x91, 0x92, 0x93, 0xA0, 0xA1, 0xB0, 0xB1, 0xB2, 0xC0]

/-- UNDEFINED_OPCODE: `BAD_OPCODE`, and no effect (R15). -/
def execUndefinedOpcode (m : MbxId) (h : CmdHdr) (opcode : BitVec 16) (s : State) : Out :=
  .next (onlyIf (inHand s m && !opcodes.contains opcode.toNat) s (complete s m h opcode.toNat stBadOpcode []))

/-! ### IDENTIFY and GET_LIMITS (R356) -/

/-- The part number in ASCII, its 10 characters followed by two zero bytes. -/
def partNumber : List Byte := [0x53, 0x4D, 0x2D, 0x48, 0x55, 0x39, 0x2D, 0x34, 0x38, 0x41, 0, 0]

/-- The reply of `IDENTIFY`. -/
def identifyReply (s : State) (m : MbxId) : List Byte :=
  leBytes 16 s.boot.identity ++ partNumber ++ leBytes 4 Config.idVersion.toNat ++ leBytes 4 s.boot.fwVersion ++
  leBytes 4 s.boot.plinth.version ++ leBytes 2 s.boot.activeRelief ++ leBytes 2 s.fab.node ++ leBytes 1 m.toNat ++
  leBytes 1 s.boot.fwSlot

/-- `IDENTIFY`. -/
def execIdentify (m : MbxId) (h : CmdHdr) (s : State) : Out :=
  command s m h 0x01 0 (fun s => complete s m h 0x01 stOk (identifyReply s m))

/-- The reply of `GET_LIMITS`; clusters beyond the budget do not count as free (R524). -/
def limitsReply (s : State) : List Byte :=
  let parts := List.range 8
  leBytes 2 64 ++ leBytes 2 (min (allClusters.filter (isFree s)).length (budgetOf (leaseCap s) - leasedCount s)) ++
  leBytes 2 (parts.map (heldReserved s)).sum ++ leBytes 2 (capInForce s) ++ leBytes 4 16384 ++ leBytes 4 s.objects.length ++
  leBytes 2 256 ++ leBytes 2 s.images.length ++ leBytes 2 512 ++ leBytes 2 (jobCount s) ++
  leBytes 4 (65536 - s.kv.dir.length) ++ leBytes 2 (s.kv.sequences.filter (fun q => decide (q.1 < 2 ^ 32))).length ++ leBytes 2 s.kv.pinned.length ++
  (parts.map (fun p => leBytes 2 (activeStreams s p))).flatten ++ (parts.map (fun p => leBytes 1 (s.part p).pinned)).flatten

/-- `GET_LIMITS`. -/
def execGetLimits (m : MbxId) (h : CmdHdr) (s : State) : Out :=
  command s m h 0x02 0 (fun s => complete s m h 0x02 stOk (limitsReply s))

/-! ### PLINTH_READ and RELIEF_LIST (R356, R368) -/

/-- `PLINTH_READ`: the Plinth's bytes from an offset, as many as the buffer holds. -/
def execPlinthRead (m : MbxId) (h : CmdHdr) (offset : Nat) (b : Bref) (s : State) : Out :=
  command s m h 0x10 0x20 (fun s =>
    let all := s.boot.plinth.bytes
    if all.length < offset then complete s m h 0x10 stBadParam []
    else
      let bs := (all.drop offset).take b.len
      replyBuf s m h 0x10 b bs (fun s => complete s m h 0x10 stOk (leBytes 4 all.length ++ leBytes 4 bs.length)))

/-- The entry of a Relief in a list. -/
def Relief.entry (r : Relief) : List Byte :=
  leBytes 2 r.id ++ leBytes 2 r.flags ++ leBytes 2 r.settings.length ++ leBytes 2 0 ++ leBytes 4 r.plinthVersion ++ leBytes 4 0 ++
  padTo 16 (r.name.take 16)

/-- `RELIEF_LIST`. -/
def execReliefList (m : MbxId) (h : CmdHdr) (b : Bref) (s : State) : Out :=
  command s m h 0x11 0x10 (fun s =>
    let rs := s.boot.plinth.reliefs
    replyBuf s m h 0x11 b (rs.map Relief.entry).flatten (fun s =>
      complete s m h 0x11 stOk (leBytes 1 rs.length ++ leBytes 1 s.boot.activeRelief ++ leBytes 1 s.boot.plinth.defaultRelief)))

/-! ### RELIEF_APPLY (R145, R369, R370, R402, R525) -/

/-- The keys that a Relief may override (R369). -/
def overridable (key : Nat) : Bool :=
  [0x0010, 0x0011, 0x0020, 0x0030, 0x0031, 0x0040, 0x0050, 0x0060, 0x0070, 0x0080, 0x0081, 0x0082].contains key ||
  (decide (0x0200 ≤ key) && decide (key ≤ 0x0270) && key != 0x0230)

/-- The Relief is valid in the booted Plinth (R369). -/
def reliefValid (s : State) (r : Relief) : Bool :=
  r.plinthVersion == s.boot.plinth.version && r.settings.all (fun x => overridable x.key)

/-- The Relief of an ID, when it verifies and is valid; else detector 0x72 (R370, R372). An injection fails the check (R410). -/
def checkRelief (s : State) (id : Nat) : State × Option Relief :=
  let inj := takeInjection s 0x72 (fun _ => true)
  let found := (s.boot.plinth.reliefs.find? (fun r => r.id == id)).filter (fun r => r.verified && reliefValid s r)
  match found, inj.1 with
  | some r, none => (inj.2, some r)
  | _, _ => (raiseAs inj.2 1 (injFlags inj.1) (mkEvent 0x72 0xFF 0 0 0 0), none)

/-- A byte of a setting as it will stand with no run-time value and another Relief active. -/
def newByte (s : State) (id key p : Nat) : Nat :=
  settingByte { s with boot := { s.boot with runtime := [], activeRelief := id } } key p

/-- Ways that a lowered count releases hold a placed object (R145). -/
def waysHeld (s : State) (p n : Nat) : Bool := (spans s).any (fun x => x.1 == 1 && x.2.1 == p && decide (0x200000 * n < x.2.2.1 + x.2.2.2))

/-- Clusters of a partition that Held jobs lease, their shadows apart (R370, R402). -/
def heldThere (s : State) (p : Nat) : Nat :=
  ((s.jobs.filter (fun e => e.2.cls == 0)).map (fun e => ((e.2.clusters ++ e.2.fbClusters).filter (fun c => c / 8 == p)).length)).sum

/-- R370 step 2. -/
def reliefBusy (s : State) (id : Nat) : Bool :=
  (List.range 8).any (fun p =>
    (decide (newByte s id 0x0020 p < (s.part p).pinned) && waysHeld s p (newByte s id 0x0020 p)) ||
    decide (newByte s id 0x0040 p < heldThere s p))

/-- Write back and invalidate the lines in the ways that a raised count takes; false when a dirty line cannot be read (R145, R370 step 4). -/
def takeWays (s : State) (p n : Nat) : State × Bool :=
  writeBackLines s p ((s.part p).lines.filter (fun l => decide ((s.part p).pinned ≤ l.way) && decide (l.way < n)))

/-- The settings that other state mirrors follow the values in force: pinned ways, jump limit, join policy (R144, R446, R475). -/
def followSettings (s : State) : State :=
  let s := forEach (List.range 8) s (fun s p => s.setPart p { s.part p with pinned := min 16 (settingByte s 0x0020 p) })
  { s with time := { s.time with jumpLimit := setting s 0x0060 1000 }, fab := { s.fab with policy := setting s 0x0070 0 } }

/-- The shadows for which a Relief leaves no reserved clusters are lost (R402). -/
def trimShadows (s : State) : State :=
  forEach s.jobs.keys s (fun s jid => match (s.job? jid).bind Job.shadow with
    | none => s
    | some sh =>
      let p := sh.partition
      let shadows := (s.jobs.filterMap (fun e => e.2.shadow)).filter (fun k => k.partition == p)
      let n := (shadows.map (fun k => k.clusters.length + k.fallbackClusters.length)).sum
      if heldReserved s p < heldThere s p + n then loseShadow s jid 0 else s)

/-- R370 step 5 and what follows it; naming the active Relief restores its settings and records nothing. -/
def switchRelief (s : State) (r : Relief) : State :=
  let old := s.boot.activeRelief
  let same := old == r.id
  let s := if same then { s with boot := { s.boot with runtime := [] } }
    else { s with boot := { s.boot with runtime := [], activeRelief := r.id, recordedRelief := r.id, reliefHash := r.measurement } }
  let s := if same then s else logRecord s 0x05 (old + r.id * 65536)
  let s := noteCap (trimShadows (followSettings s))
  grantQueue 64 (enforceCap s (capInForce s))

end Sys2Proof.Machine
end

