-- ==== Sys2Proof/Machine/Time.lean ====
section
/-! DEFINITION. The time base: its tick, corrections, the jump limit, forces, configuration and the calendar (R138, R440 to R448, R450, R452, R456, R457). -/

namespace Sys2Proof.Machine

/-! ### The increment (R441, R444) -/

/-- The least increment, 8 ns − 500 ppm. -/
def incrMin : Nat := 0x07FEF9DB23
/-- The greatest increment, 8 ns + 500 ppm. -/
def incrMax : Nat := 0x08010624DD

/-- An increment within R441. -/
def incrOk (v : Nat) : Bool := decide (incrMin ≤ v) && decide (v ≤ incrMax)

/-! ### The 96 switched power domains (R6, R519) -/

/-- A switched power domain, with its number among those of its kind (R519). -/
inductive Domain where
  | cluster (c : Fin 64)
  | slice (p : Fin 8)
  | phy (p : Fin 8)
  | friezePort (p : Fin 6)
  | ethernet (p : Fin 2)
  | pcie
  | cameraGroup (g : Fin 2)
  | sensors
  | atelier
  | security
  | debug
  | timeBase
deriving DecidableEq, Repr

/-- Every switched domain (R6, R519). -/
def domains : List Domain :=
  List.ofFn Domain.cluster ++ List.ofFn Domain.slice ++ List.ofFn Domain.phy ++ List.ofFn Domain.friezePort ++ List.ofFn Domain.ethernet ++
  [.pcie] ++ List.ofFn Domain.cameraGroup ++ [.sensors, .atelier, .security, .debug, .timeBase]

/-- The security engine's owning function needs it: signatures and keys of the start, and the proofs of a Hello (R488, R508, R519). -/
def securityWanted (s : State) : Bool :=
  (decide (1 ≤ s.boot.stage) && decide (s.boot.stage ≤ 6)) || s.fab.ports.toList.any (fun x => x.state == 2 && x.width != 0)

/-- The domain is on in the present power state: a cluster while it is powered for its lease, a slice and its PHY while the partition's rail is, the domains on demand while their function needs them (R430, R519). -/
def domainOn (s : State) (d : Domain) : Bool :=
  let awake := decide (s.power.state ≤ 1)
  match d with
  | .cluster c => (s.power.state == 0) && (s.cluster c.val).powered
  | .slice p => awake && (s.part p.val).railOn
  | .phy p => awake && (s.part p.val).railOn
  | .friezePort p => awake && s.fab.ports[p].state != 0
  | .ethernet _ => awake
  | .pcie => decide (s.power.state ≤ 2)
  | .cameraGroup g => (s.power.state == 0) && (if g.val = 0 then s.power.cameraOn0 else s.power.cameraOn1)
  | .sensors => awake
  | .atelier => decide (s.power.state ≤ 2)
  | .security => awake && securityWanted s
  | .debug => awake
  | .timeBase => awake

/-- The time base runs: its domain is on (R456, R519). -/
def timeRuns (s : State) : Bool := domainOn s .timeBase

/-! ### Corrections (R442, R445, R446) -/

/-- Apply a correction: what remains of a negative one is taken together with it; a positive rest is added to T at once, a negative one is withheld from later ticks (R442). -/
def applyCorrection (b : TimeBase) (c : Int) : TimeBase :=
  let net := c * 2 ^ 32 - (b.slew : Int)
  if net < 0 then { b with slew := net.natAbs }
  else
    let v := b.t * 2 ^ 32 + b.f + net.toNat
    { b with slew := 0, t := v / 2 ^ 32 % 2 ^ 64, f := v % 2 ^ 32 }

/-- A correction is refused: TIM_LAST_REFUSED, jump_refused and detector 0x40 with cause 0 for the servo or 1 for TIM_ADJ (R446). -/
def refuseCorrection (s : State) (cause flags : Nat) (c : Int) : State :=
  raiseAs { s with time := { s.time with lastRefused := c, jumpRefused := true } } 1 flags
    (mkEvent 0x40 0xFF 0 cause 0 (unsigned 64 c))

/-- A correction is requested; an injection of 0x40 presents one of the limit plus 1 ns ahead of it. Answers whether it was applied (R445, R446). -/
def requestCorrection (s : State) (cause : Nat) (c : Int) : State × Bool :=
  let inj := takeInjection s 0x40 (fun _ => true)
  let s := if inj.1.isSome then refuseCorrection inj.2 cause 1 (s.time.jumpLimit + 1) else inj.2
  if !s.jobs.isEmpty && decide (s.time.jumpLimit < c.natAbs) then (refuseCorrection s cause 0 c, false)
  else ({ s with time := applyCorrection s.time c }, true)

/-! ### The tick (R138, R440, R442, R448, R452) -/

/-- The run to which a stalled tile's cycle is attributed: the oldest incomplete run that feeds the semaphore, or, where that one is written, the oldest of the tile that is not (R138). -/
def stalledOn (s : State) (t : TileId) (sem : BitVec 4) : Option Run :=
  let mine := (s.cluster (clusterOfTile t)).runs.filter (fun r => r.tile == t)
  match mine.find? (fun r => r.sem == sem) with
  | none => none
  | some r => if r.written then mine.find? (fun r => !r.written) else some r

/-- Two cycles of 4 ns more for the run a tile is stalled on, or for absent stream state (R138, R242). -/
def chargeStall (s : State) (t : TileId) : State :=
  match (s.tile t).stall with
  | .waitSem sem _ => match stalledOn s t sem with
    | none => s
    | some r =>
      if stateHeld s r then updStall s r (fun k => { k with absent := stallAdd k.absent 2 })
      else updRun s (clusterOfTile t) r.id (fun r => match r.cause with
        | 1 => { r with transferCycles := stallAdd r.transferCycles 2 }
        | 2 => { r with restartCycles := stallAdd r.restartCycles 2 }
        | _ => { r with queuedCycles := stallAdd r.queuedCycles 2 })
  | _ => s

/-- The sum that a tick forms: T and the increment, less what a negative correction withholds (R440, R442). -/
def tickSum (b : TimeBase) : Nat × Nat :=
  let incr := (b.incrNext.getD b.incr).toNat
  let held := min b.slew (incr - 4 * 2 ^ 32)
  (b.t * 2 ^ 32 + b.f + (incr - held), b.slew - held)

/-- The holdover estimate grows by 100 ns per second of holdover, saturating at 32 bits (R443, R452). -/
def growHoldover (b : TimeBase) (ns : Nat) : TimeBase :=
  if b.holdover then
    let v := b.holdoverRem + 100 * ns
    { b with holdoverEst := min 0xFFFFFFFF (b.holdoverEst + v / 1000000000), holdoverRem := v % 1000000000 }
  else b

/-- The time base after one tick, without a force (R440, R442, R444, R452). -/
def tickBase (b : TimeBase) : TimeBase :=
  let r := tickSum b
  let b' := { b with t := r.1 / 2 ^ 32 % 2 ^ 64, f := r.1 % 2 ^ 32, slew := r.2, incr := b.incrNext.getD b.incr, incrNext := none
                     ticks := b.ticks + 1 }
  growHoldover b' (r.1 / 2 ^ 32 - b.t)

/-- The milestone dues of an invocation moved by a force (R448). -/
def shiftDues (d : Int) (i : Invocation) : Invocation := { i with due := i.due.map (fun x => (x.1, ((x.2 : Int) + d).toNat)) }

/-- The waits of a port moved by a force (R448, R458). -/
def shiftWaits (d : Int) (p : PtpPort) : PtpPort :=
  { p with announceAt := ((p.announceAt : Int) + d).toNat, awaitingStamp := p.awaitingStamp.map (fun w => (((w.1 : Int) + d).toNat, w.2)) }

/-- A force takes effect on this tick: T, F, the reply with the value it replaced, the pending dues, the two log records (R448, R535). -/
def forceTime (s : State) (new : Nat) (m : MbxId) (h : CmdHdr) : State :=
  let b := tickBase s.time
  let old := b.t
  let d : Int := (new : Int) - old
  let move := fun (j : Job) => { j with
    invocation := j.invocation.map (shiftDues d)
    shadow := j.shadow.map (fun sh => { sh with run := sh.run.map (shiftDues d) }) }
  let s := { s with time := { b with t := new, f := 0, force := none, port0 := shiftWaits d b.port0, port1 := shiftWaits d b.port1 }, jobs := s.jobs.map (fun e => (e.1, move e.2)) }
  let s := logRecord (logRecord s 0x01 old) 0x01 new
  complete s m h 0x71 stOk (leBytes 8 old)

/-- TIME_BASE_TICK: what waited for the end of the tick happens, then T advances. -/
def execTimeBaseTick (s : State) : Out :=
  .next (onlyIf (timeRuns s) s
    (let s := endTick s
     let s := forEach s.tiles.keys s (fun s t => chargeStall s (BitVec.ofNat 9 t))
     match s.time.force with
     | some (new, m, h) => forceTime s new m h
     | none => { s with time := tickBase s.time }))

/-- HOLDOVER_EXCEEDED: the estimate passes its limit for the first time in this holdover; an injection sets the elapsed holdover to its limit (R410, R452). -/
def execHoldoverExceeded (s : State) : Out :=
  .next (
    if !s.time.holdover || s.time.exceededRaised then s
    else
      let inj := takeInjection s 0x43 (fun _ => true)
      if inj.1.isNone ∧ s.time.holdoverEst ≤ s.time.holdoverLimit then s
      else
        let s := inj.2
        let b := s.time
        let est := if inj.1.isSome then max b.holdoverEst b.holdoverLimit else b.holdoverEst
        raiseAs { s with time := { b with holdoverEst := est, holdoverExceeded := true, exceededRaised := true } } 1
          (injFlags inj.1) (mkEvent 0x43 0xFF 0 0 0 0))

/-! ### TIME_CONFIG (R441, R450) -/

/-- The coded fields of a port hold defined values, which the command asks of both ports whatever its mask (R16, R450). -/
def portCodesOk (c : PtpPortCfg) : Bool := decide (c.mode ≤ 2) && decide (c.step ≤ 1) && decide (c.delay ≤ 1) && decide (c.transport ≤ 2)

/-- The fields of a port lie within R449. -/
def portCfgOk (c : PtpPortCfg) : Bool :=
  portCodesOk c && decide (c.domain ≤ 127) && decide (-7 ≤ c.logSync) && decide (c.logSync ≤ 4) && decide (-7 ≤ c.logDelayReq) && decide (c.logDelayReq ≤ 5)

/-- The two ports fit together (R450). -/
def portsAgree (a b : PtpPortCfg) : Bool :=
  !(a.mode == 1 && b.mode == 1) && (a.mode == 2) == (b.mode == 2) &&
  (a.mode != 2 || (a.domain == b.domain && a.delay == b.delay && a.transport == b.transport))

/-- A port takes a configuration; one whose mode, step, delay, transport or domain changes returns to INITIALIZING, or to 0 with PTP off (R443, R450). -/
def PtpPort.configure (p : PtpPort) (c : PtpPortCfg) : PtpPort :=
  let o := p.cfg
  if o.mode = c.mode ∧ o.step = c.step ∧ o.delay = c.delay ∧ o.transport = c.transport ∧ o.domain = c.domain then { p with cfg := c }
  else { PtpPort.off with cfg := c, state := if c.mode = 0 then 0 else 1 }

/-- The status bits that follow the ports' states (R443). -/
def followPorts (b : TimeBase) : TimeBase :=
  let slave := b.port0.state == 9 || b.port1.state == 9
  let good := (b.port0.state == 9 && decide (16 ≤ b.port0.syncGood)) || (b.port1.state == 9 && decide (16 ≤ b.port1.syncGood))
  { b with
    hostDisciplined := b.port0.cfg.mode == 0 && b.port1.cfg.mode == 0
    locked := good
    source := if b.port0.state = 9 then 1 else if b.port1.state = 9 then 2 else if b.source = 3 then 3 else 0
    slewing := b.slewing && slave }

/-- `TIME_CONFIG`. -/
def execTimeConfig (m : MbxId) (h : CmdHdr) (mask : Nat) (jumpLimit increment : Nat) (port0 port1 : PtpPortCfg) (holdover : Nat)
    (s : State) : Out :=
  command0 s m h 0x70 0x24 (fun s =>
    let has := fun (k : Nat) => mask / 2 ^ k % 2 == 1
    let p0 := if has 2 then port0 else s.time.port0.cfg
    let p1 := if has 3 then port1 else s.time.port1.cfg
    if 32 ≤ mask ∨ portCodesOk port0 = false ∨ portCodesOk port1 = false ∨ (has 0 && !incrOk increment) = true ∨ (has 1 && (jumpLimit == 0 || decide (1000000 < jumpLimit))) = true ∨
        (has 2 && !portCfgOk port0) = true ∨ (has 3 && !portCfgOk port1) = true ∨ portsAgree p0 p1 = false ∨
        (has 4 && holdover == 0) = true then complete s m h 0x70 stBadParam []
    else
      let b := s.time
      let b := { b with
        incr := if has 0 then BitVec.ofNat 40 increment else b.incr
        jumpLimit := if has 1 then jumpLimit else b.jumpLimit
        holdoverLimit := if has 4 then holdover else b.holdoverLimit
        port0 := b.port0.configure p0, port1 := b.port1.configure p1 }
      let boot := if has 1 then { s.boot with runtime := s.boot.runtime.put 0x0060 jumpLimit } else s.boot
      complete { s with time := followPorts b, boot := boot } m h 0x70 stOk [])

/-! ### TIME_FORCE (R352, R448) -/

/-- A job for which a force is denied (R448). -/
def forbidsForce (s : State) (j : Job) : Bool :=
  j.period != 0 || (match s.image? j.image with
    | some im => im.insts.any (fun i => i.function == 0x0D || i.function == 0x10 || i.function == 0x12)
    | none => false)

/-- `TIME_FORCE`: the force is ready for the next tick. -/
def execTimeForce (m : MbxId) (h : CmdHdr) (newTime : Word64) (s : State) : Out :=
  command0 s m h 0x71 8 (fun s =>
    if setting s 0x0081 0 ≠ 1 ∨ s.jobs.any (fun e => forbidsForce s e.2) = true then complete s m h 0x71 stDenied []
    else await { s with time := { s.time with force := some (newTime.toNat, m, h) } } m h 0x71 .force)

/-! ### The calendar (R443, R457, R539) -/

/-- Nanoseconds of the calendar, in its steps of 30,518 ns. -/
def calStep (ns : Nat) : Nat := ns / 30518 * 30518

/-- The calendar has run on its own crystal since it was last looked at, by an amount no rule states. -/
def runCalendar (s : State) : State :=
  if s.time.calStopped then s
  else
    let f := s.fresh
    let v := s.time.calSec * 1000000000 + s.time.calNs + 30518 * Config.freeNat f.1
    { f.2 with time := { s.time with calSec := v / 1000000000 % 2 ^ 64, calNs := calStep (v % 1000000000) } }

/-- `CALENDAR_SET`: only the calendar is set (R457, R535). -/
def execCalendarSet (m : MbxId) (h : CmdHdr) (seconds nanoseconds : Nat) (s : State) : Out :=
  command0 s m h 0xA1 0x0C (fun s =>
    if 1000000000 ≤ nanoseconds ∨ 2 ^ 64 ≤ seconds then complete s m h 0xA1 stBadParam []
    else
      let s := { s with time := { s.time with calSec := seconds, calNs := calStep nanoseconds, calLost := false } }
      complete (logRecord s 0x06 seconds) m h 0xA1 stOk [])

/-- CALENDAR_UPDATE: while locked, the calendar is written from T with the master's offset (R457). -/
def execCalendarUpdate (s : State) : Out :=
  .next (onlyIf s.time.locked s
    (let b := s.time
     { s with time := { b with calSec := b.t / 1000000000 - b.utcOffset, calNs := calStep (b.t % 1000000000), calLost := false } }))

end Sys2Proof.Machine
end

