-- ==== Sys2Proof/Machine/HostWindow.lean ====
section
/-! DEFINITION. The host window: reads and writes of every register, doorbells, mailbox enable and disable, status clears, the timestamp queues (R11 to R14, R341 to R348, R365, R411, R412, R443, R444, R455, R537). -/

namespace Sys2Proof.Machine

/-! ### Registers as they read (R342, R343, R345, R365, R411, R443, R455, R537) -/

/-- A word of a 64-bit register. -/
def half (v : Nat) (high : Bool) : Word := BitVec.ofNat 32 (if high then v / 2 ^ 32 else v)

/-- One bit of a word. -/
def flag (b : Bool) (n : Nat) : Nat := if b then 2 ^ n else 0

/-- ID_STATE (R342). -/
def idState (s : State) : Nat :=
  s.boot.activeRelief * 65536 + s.boot.stage * 256 + (if s.boot.fwSlot = 1 then 4 else 0) + flag s.boot.atelierOk 1 +
  flag s.boot.mailboxReady 0

/-- ID_NODE (R342). -/
def idNode (s : State) : Nat := flag s.fab.registrar 31 + flag s.fab.joined 30 + s.fab.node % 1024

/-- MBX_STATUS (R343). -/
def mbxStatus (b : Mailbox) : Nat := b.haltCause.toNat * 2 ^ 21 + flag b.halted 20 + flag b.active 16 + b.cmdCons.toNat

/-- FLT_STATUS (R411). -/
def fltStatus (f : Flt) : Nat :=
  f.castNew.toNat * 256 + flag f.armed 3 + flag f.fatal 2 + flag f.fault 1 + flag f.degrade 0

/-- FLT_INJ_CTRL (R411). -/
def injCtrl (f : Flt) : Nat := f.injCount.toNat * 256 + flag f.injRefused 2 + flag f.pending.isSome 1

/-- FLT_PART_STATE (R411). -/
def partStates (s : State) : Nat := ((List.range 8).map (fun p => (s.part p).state * 4 ^ p)).sum

/-- TIM_STATUS (R443). -/
def timStatus (b : TimeBase) : Nat :=
  b.port1.state * 4096 + b.port0.state * 256 + b.source.toNat * 64 + flag b.hostDisciplined 5 + flag b.calendarValid 4 +
  flag b.jumpRefused 3 + flag b.holdoverExceeded 2 + flag b.holdover 1 + flag b.locked 0

/-- TSQ_STATUS (R455). -/
def tsqStatus (q : Tsq) : Nat := flag q.overflow 8 + q.entries.length

/-- The newest committed counter image (R533). -/
def Patina.newest (p : Patina) : CounterImage := if p.newestB then p.imageB else p.imageA

/-- PAT_STATUS (R537). -/
def patStatus (p : Patina) : Nat :=
  flag p.cellLow 5 + flag p.newestB 4 + flag p.imageB.valid 3 + flag p.imageA.valid 2 + flag p.alwaysTaken 1 + flag p.feramOk 0

/-- A counter of the always-on image with what its block counter has not yet folded (R534, R536). -/
def patCounter (s : State) (off : Nat) : Nat := s.pat.always.counters.count off + s.pat.block.count off

/-- A timestamp queue by its port. -/
def tsqOf (s : State) (port : Nat) : Tsq := if port = 0 then s.tsq0 else s.tsq1

/-- Replace a timestamp queue. -/
def setTsq (s : State) (port : Nat) (q : Tsq) : State := if port = 0 then { s with tsq0 := q } else { s with tsq1 := q }

/-- The registers of the identification block. -/
def peekId (s : State) (off : Nat) : Word :=
  match off with
  | 0x0000 => 0x534C0009
  | 0x0004 => Config.idVersion
  | 0x0008 => BitVec.ofNat 32 s.boot.fwVersion
  | 0x000C => BitVec.ofNat 32 s.boot.plinth.version
  | 0x0010 => BitVec.ofNat 32 (idState s)
  | 0x0014 => BitVec.ofNat 32 (idNode s)
  | 0x0020 | 0x0024 | 0x0028 | 0x002C => BitVec.ofNat 32 (s.boot.identity / 2 ^ (8 * (off - 0x20)))
  | _ => 0

/-- The registers of one mailbox. -/
def peekMbx (b : Mailbox) (r : Nat) : Word :=
  match r with
  | 0x00 => b.ctrl
  | 0x04 => BitVec.ofNat 32 (mbxStatus b)
  | 0x08 | 0x0C => half b.cmdBase.toNat (r == 0x0C)
  | 0x10 | 0x14 => half b.cplBase.toNat (r == 0x14)
  | 0x18 => b.lost
  | 0x1C => BitVec.ofNat 32 b.cplProd.toNat
  | _ => 0

/-- The registers of the event block. -/
def peekEvt (e : Evt) (off : Nat) : Word :=
  match off with
  | 0x3000 => e.status
  | 0x3004 => e.mask
  | 0x3008 | 0x300C => half e.ringBase.toNat (off == 0x300C)
  | 0x3010 => e.ringCtrl
  | 0x3014 => BitVec.ofNat 32 e.prod.toNat
  | 0x3018 => BitVec.ofNat 32 e.cons.toNat
  | _ => 0

/-- The registers of the time block. -/
def peekTim (b : TimeBase) (off : Nat) : Word :=
  let high := off % 8 == 4
  match off with
  | 0x4000 | 0x4004 => half b.t high
  | 0x4008 | 0x400C => half b.incr.toNat high
  | 0x4010 | 0x4014 => half b.adj.toNat high
  | 0x4018 => BitVec.ofNat 32 b.jumpLimit
  | 0x401C => BitVec.ofNat 32 (timStatus b)
  | 0x4020 => BitVec.ofInt 32 b.offset
  | 0x4024 => BitVec.ofNat 32 b.holdoverEst
  | 0x4028 | 0x402C => half (unsigned 64 b.lastRefused) high
  | 0x4030 => BitVec.ofNat 32 (flag b.utcFromMaster 16 + b.utcOffset % 65536)
  | 0x4038 | 0x403C => half b.calSec high
  | 0x4040 => BitVec.ofNat 32 b.calNs
  | _ => 0

/-- The registers of one timestamp queue. -/
def peekTsq (q : Tsq) (r : Nat) : Word :=
  match r with
  | 0x00 => if q.enable then 1 else 0
  | 0x04 => BitVec.ofNat 32 (tsqStatus q)
  | 0x08 => match q.entries with
    | e :: _ => BitVec.ofNat 32 (2 ^ 31 + e.1.toNat)
    | [] => 0
  | 0x10 | 0x14 => half q.time.toNat (r == 0x14)
  | 0x18 => BitVec.ofNat 32 q.dropped
  | _ => 0

/-- The registers of the fault block. -/
def peekFlt (s : State) (off : Nat) : Word :=
  let high := off % 8 == 4
  match off with
  | 0x6000 => BitVec.ofNat 32 (fltStatus s.flt)
  | 0x6004 => s.flt.last
  | 0x6008 | 0x600C => half s.flt.lastTime.toNat high
  | 0x6010 | 0x6014 => half s.flt.armedUntil.toNat high
  | 0x6018 => s.flt.injTarget
  | 0x601C => s.flt.injParam
  | 0x6020 => BitVec.ofNat 32 (injCtrl s.flt)
  | 0x6024 => s.flt.injDone
  | 0x6028 => BitVec.ofNat 32 (partStates s)
  | _ => 0

/-- The highest die and case temperature as PAT_TEMP reports them (R537). -/
def patTemp (s : State) : Nat := unsigned 8 (junction s / 10) * 256 + unsigned 8 (caseTop s / 10)

/-- The registers of the Patina block. -/
def peekPat (s : State) (off : Nat) : Word :=
  match off with
  | 0x7000 => BitVec.ofNat 32 (patStatus s.pat)
  | 0x7004 => BitVec.ofNat 32 s.pat.newest.sequence
  | 0x7008 | 0x700C => half s.pat.newest.time (off == 0x700C)
  | 0x7010 => BitVec.ofNat 32 s.pat.logIndex
  | 0x7014 => BitVec.ofNat 32 s.pat.lost
  | 0x7018 => BitVec.ofNat 32 (patCounter s 0x40)
  | 0x701C => BitVec.ofNat 32 s.boot.bootCount
  | 0x7020 => BitVec.ofNat 32 (s.power.inputMv / 10 * 65536 + s.power.inputTenthW)
  | 0x7024 => BitVec.ofNat 32 (patTemp s)
  | _ => 0

/-- What an aligned 32-bit read of the window would return, without its effects; reserved offsets read as 0 (R13, R14). -/
def peek (s : State) (off : Nat) : Word :=
  if off % 4 ≠ 0 then 0
  else if off < 0x1000 then peekId s off
  else if off < 0x1400 then peekMbx (s.box (BitVec.ofNat 4 ((off - 0x1000) / 0x40))) (off % 0x40)
  else if off = 0x1400 then s.bar2Base
  else if off < 0x2000 then 0
  else if off < 0x2080 then
    let b := s.box (BitVec.ofNat 4 ((off - 0x2000) / 8))
    BitVec.ofNat 32 (if off % 8 = 0 then b.dblCmd.toNat else b.dblCpl.toNat)
  else if off < 0x3000 then 0
  else if off < 0x4000 then peekEvt s.evt off
  else if off < 0x5000 then peekTim s.time off
  else if off < 0x5080 then peekTsq (tsqOf s ((off - 0x5000) / 0x40)) (off % 0x40)
  else if off < 0x6000 then 0
  else if off < 0x7000 then peekFlt s off
  else if off < 0x8000 then peekPat s off
  else 0

/-! ### Reads (R12, R341, R443, R455) -/

/-- TSQ_POP: the oldest entry leaves and its stamp is latched (R455). -/
def popTsq (s : State) (port : Nat) : State :=
  let q := tsqOf s port
  match q.entries with
  | e :: rest => setTsq s port { q with entries := rest, time := BitVec.ofNat 64 e.2 }
  | [] => s

/-- What a read of a 32-bit register clears or removes (R12, R343, R411, R455). -/
def readEffect (s : State) (off : Nat) : State :=
  if 0x1000 ≤ off ∧ off < 0x1400 ∧ off % 0x40 = 0x18 then
    let m := BitVec.ofNat 4 ((off - 0x1000) / 0x40)
    s.setBox m { s.box m with lost := 0 }
  else if off = 0x6024 then { s with flt := { s.flt with injDone := 0 } }
  else if off = 0x5008 ∨ off = 0x5048 then popTsq s ((off - 0x5000) / 0x40)
  else if off = 0x5018 ∨ off = 0x5058 then
    let p := (off - 0x5000) / 0x40
    setTsq s p { tsqOf s p with dropped := 0 }
  else s

/-- The 64-bit registers of the time block, by their low words (R443). -/
def timLow (off : Nat) : Bool := [0x4000, 0x4008, 0x4010, 0x4028, 0x4038].contains off

/-- The calendar's registers show it as it stands when read (R457). -/
def refresh (s : State) (off : Nat) : State := if 0x4038 ≤ off ∧ off ≤ 0x4040 then runCalendar s else s

/-- A 32-bit read: a `TIM_` low word latches its high word, whose next read returns the latched value (R443). -/
def read32 (s : State) (path : Path) (off : Nat) : State × Word :=
  let latched := s.highs.find? (fun x => x.path == path && x.offset == off)
  match latched with
  | some x => ({ s with highs := s.highs.filter (fun y => !(y.path == path && y.offset == off)) }, x.value)
  | none =>
    let s := refresh s off
    let v := peek s off
    if timLow off then
      let keep := s.highs.filter (fun y => !(y.path == path && y.offset == off + 4))
      ({ s with highs := { path := path, offset := off + 4, value := peek s (off + 4) } :: keep }, v)
    else (readEffect s off, v)

/-- A 64-bit read of two words at once; that of a `TIM_` register is atomic (R341, R443). -/
def read64 (s : State) (off : Nat) : State × Nat :=
  let s := refresh s off
  let v := (peek s off).toNat + (peek s (off + 4)).toNat * 2 ^ 32
  (readEffect (readEffect s off) (off + 4), v)

/-- The access has a size and an alignment that the window accepts (R341). -/
def aligned (off size : Nat) : Bool := (size == 4 && off % 4 == 0) || (size == 8 && off % 8 == 0)

/-- An access of another size or alignment is ignored, or reads as 0, and raises detector 0x90 at INFO (R341). -/
def badSize (s : State) : State := raise s (event90 true)

/-- Any read of the window (R341). -/
def windowReadOf (s : State) (path : Path) (off size : Nat) : State × Nat :=
  if !aligned off size then (badSize s, 0)
  else if size = 8 then read64 s off
  else
    let r := read32 s path off
    (r.1, r.2.toNat)

/-- A host read shows its value (assumption 4). -/
def showRead (r : State × Nat) (off : Nat) : State := r.1.emit (.readValue off (BitVec.ofNat 64 r.2))

/-! ### Mailbox registers (R344 to R348) -/

/-- The path of mailbox 0 (R344, R412, R444). -/
def path0 (s : State) : Path := (s.box 0).owner

/-- A write of a mailbox's register or doorbell from a foreign path is ignored, halts the mailbox with halt_cause 3 and raises detector 0x90 (R344). -/
def fromOwner (s : State) (path : Path) (m : MbxId) (f : State → State) : State :=
  if (s.box m).owner = path then f s else raise (haltBox s m 3) (event90 false)

/-- A bad doorbell value halts the mailbox with halt_cause 1 and raises detector 0x90 (R347). -/
def badDoorbell (s : State) (m : MbxId) : State := raise (haltBox s m 1) (event90 false)

/-- DBL_CMD; on mailbox 0 it wakes the module from STANDBY (R346, R347, R521). -/
def writeDblCmd (s : State) (m : MbxId) (v : Word) : State :=
  let b := s.box m
  let new := v.extractLsb' 0 16
  let n := (new - b.cmdCons).toNat
  if 64 < n ∨ n < (b.dblCmd - b.cmdCons).toNat then badDoorbell s m
  else
    let s := s.setBox m { b with dblCmd := new }
    if m = 0 ∧ s.power.state = 2 then { s with power := { s.power with waking := true } } else s

/-- DBL_CPL: room in the completion ring takes held entries (R346, R347, R350). -/
def writeDblCpl (s : State) (m : MbxId) (v : Word) : State :=
  let b := s.box m
  let new := v.extractLsb' 0 16
  if (b.cplProd - b.dblCpl).toNat < (new - b.dblCpl).toNat then badDoorbell s m
  else flushHeld 320 (s.setBox m { b with dblCpl := new }) m

/-- The mailbox is enabled: halted clears, the indices are 0 and both ring bases are read again; a command still in hand completes into no ring (R348). -/
def Mailbox.enable (b : Mailbox) : Mailbox :=
  { b with
    halted := false, haltCause := 0, cmdCons := 0, cplProd := 0, dblCmd := 0, dblCpl := 0
    ringCmd := b.cmdBase, ringCpl := b.cplBase, stale := b.current.isSome }

/-- The mailbox is disabled: its held entries are discarded and counted (R348). -/
def disableBox (s : State) (m : MbxId) : State :=
  let n := (s.box m).held.length
  let s := s.setBox m { s.box m with held := [] }
  (List.range n).foldl (fun s _ => loseEntry s m) s

/-- The fields of MBX_CTRL that a write takes: path and node only while the mailbox is disabled, and never on mailbox 0 (R344). -/
def ctrlTaken (b : Mailbox) (m : MbxId) (v : Word) : Word :=
  let free := v &&& 0x5#32
  if b.enabled || m == 0 then free ||| (b.ctrl &&& 0x03FF0002#32) else free ||| (v &&& 0x03FF0002#32)

/-- MBX_CTRL (R343, R344, R348). -/
def writeCtrl (s : State) (m : MbxId) (v : Word) : State :=
  let b := s.box m
  let new := { b with ctrl := ctrlTaken b m v }
  if !b.enabled && new.enabled then s.setBox m new.enable
  else if b.enabled && !new.enabled then disableBox (s.setBox m new) m
  else s.setBox m new

/-- A ring base, whose bits [12:0] are 0, is written only while the mailbox is disabled (R343, R344). -/
def writeBase (s : State) (m : MbxId) (cpl : Bool) (v : Word64) : State :=
  let b := s.box m
  let v := v &&& ~~~0x1FFF#64
  if b.enabled then s
  else s.setBox m (if cpl then { b with cplBase := v } else { b with cmdBase := v })

/-! ### The other writes (R365, R411, R412, R443, R444, R455) -/

/-- Writes of the `FLT_` block take effect only from mailbox 0's path (R412). -/
def from0 (s : State) (path : Path) (f : State → State) : State := if path0 s = path then f s else s

/-- FLT_STATUS: the bits written 1 clear (R411). -/
def clearFlt (s : State) (v : Word) : State :=
  { s with flt := { s.flt with
      castNew := s.flt.castNew &&& ~~~(v.extractLsb' 8 8)
      fatal := s.flt.fatal && !v.getLsbD 2, fault := s.flt.fault && !v.getLsbD 1, degrade := s.flt.degrade && !v.getLsbD 0 } }

/-- EVT_STATUS: the bits written 1 clear (R365). -/
def clearEvt (s : State) (v : Word) : State := { s with evt := { s.evt with status := s.evt.status &&& ~~~v } }

/-- TIM_STATUS: the bits written 1 clear (R443). -/
def clearTim (s : State) (v : Word) : State :=
  { s with time := { s.time with
      jumpRefused := s.time.jumpRefused && !v.getLsbD 3, holdoverExceeded := s.time.holdoverExceeded && !v.getLsbD 2 } }

/-- TIM_INCR: the next tick adds it; a value outside R441 is ignored (R441, R444). -/
def writeIncr (s : State) (path : Path) (v : Word64) : State :=
  let n := v.toNat % 2 ^ 40
  if path0 s = path ∧ s.time.hostDisciplined = true ∧ incrOk n = true then
    { s with time := { s.time with incrNext := some (BitVec.ofNat 40 n) } }
  else s

/-- TIM_ADJ: one correction (R444 to R446). -/
def writeAdj (s : State) (path : Path) (v : Word64) : State :=
  if path0 s = path ∧ s.time.hostDisciplined = true then
    (requestCorrection { s with time := { s.time with adj := v } } 1 v.toInt).1
  else s

/-- TSQ_CTRL: clearing enable empties the queue (R455). -/
def writeTsqCtrl (s : State) (port : Nat) (v : Word) : State :=
  let q := tsqOf s port
  setTsq s port { q with enable := v.getLsbD 0, entries := if v.getLsbD 0 then q.entries else [] }

/-- TSQ_STATUS: overflow clears when 1 is written to it (R455). -/
def clearTsq (s : State) (port : Nat) (v : Word) : State :=
  let q := tsqOf s port
  setTsq s port { q with overflow := q.overflow && !v.getLsbD 8 }

/-! ### Injection requests (R410, R412, R413, R564) -/

/-- How FLT_INJ_PARAM is used (R410, R564). -/
def paramOk (d : Nat) (p : Nat) : Bool :=
  let two := fun (w lim : Nat) => decide (bits p 0 w ≠ bits p 8 w) && decide (bits p 0 w ≤ lim) && decide (bits p 8 w ≤ lim) &&
    p == bits p 0 w + 256 * bits p 8 w
  if d = 0x01 ∨ d = 0x03 then decide (p ≤ 35)
  else if d = 0x02 ∨ d = 0x04 then two 6 35
  else if d = 0x05 then decide (p ≤ 15)
  else if d = 0x06 then p == 0xFFFFFFFF || (two 4 15 && bits p 2 2 == bits p 10 2)
  else if d = 0x30 ∨ d = 0x33 ∨ d = 0x83 ∨ d = 0x84 ∨ d = 0x85 ∨ d = 0xA0 ∨ d = 0xA1 ∨ d = 0xA2 then decide (p ≤ 0xFFFF)
  else if d = 0x53 ∨ d = 0x55 then decide (p ≤ 3)
  else if d = 0xB0 then true
  else p == 0

/-- Which target fields a detector's row names: partition, cluster, tile, and the largest index (R564). -/
def targetFields (d index : Nat) : Bool × Bool × Bool × Nat :=
  match d with
  | 0x01 | 0x02 | 0x10 | 0x11 | 0x13 | 0x14 | 0x32 => (true, true, true, 0)
  | 0x03 | 0x04 | 0x22 => (true, false, false, 0)
  | 0x05 | 0x06 | 0x07 => (true, false, false, 8)
  | 0x12 | 0x20 | 0x21 | 0x23 | 0x62 | 0x66 => (true, true, false, 0)
  | 0x41 | 0x42 => (false, false, false, 1)
  | 0x50 | 0x51 | 0x52 | 0x53 | 0x55 => (false, false, false, 5)
  | 0x60 => (index == 1, false, false, 1)
  | 0x61 => (index == 1, false, false, 2)
  | 0x63 | 0x64 => (index == 2 || index == 3, index == 2, false, 3)
  | 0x65 => (false, false, false, 3)
  | 0x83 | 0x85 => (false, false, false, 31)
  | 0x84 => (false, false, false, 7)
  | 0x90 => (false, false, false, 15)
  | _ => (false, false, false, 0)

/-- R413 and R564: the request is not refused. -/
def injectionOk (s : State) (t p : Word) : Bool :=
  let d := (t.extractLsb' 24 8).toNat
  let f := targetFields d (injIndex t)
  detectorKnown d && d != 0x31 && paramOk d p.toNat && decide (injIndex t ≤ f.2.2.2) &&
  (f.1 || injPart t == 0) && (f.2.1 || (t.extractLsb' 18 3).toNat == 0) && (f.2.2.1 || (t.extractLsb' 15 3).toNat == 0) &&
  (!f.1 || (s.part (injPart t)).state == 0)

/-- One occurrence of an injection whose point is the request itself, `none` for one that waits for its occurrence (R410, R413). A monitor's offset reading takes a value no rule states. -/
def injectNow (s : State) (t p : Word) : Option State :=
  let part := injPart t; let ix := injIndex t
  let reading := Config.freeNat s.freeCount % 2 ^ 32
  let fresh := s.fresh.2
  match (t.extractLsb' 24 8).toNat with
  | 0x06 => if p.toNat = 0xFFFFFFFF then
      some (detect s 1 (mkEvent 0x06 part 0 1 (9 * part + ix) (t2Base part)))
    else none
  | 0x14 => some (updTile s (injTile t) (fun x => { x with frozen := true }))
  | 0x22 => some (detect fresh 1 (mkEvent 0x22 part 0 (reading % 11) (0x8000 + part) 0))
  | 0x33 => if ((s.job? p.toNat).bind Job.shadow).isSome then some (detect s 1 (mkEvent 0x33 0xFF p.toNat 0 p.toNat 0)) else none
  | 0x67 => some (detect s 1 (mkEvent 0x67 0xFF 0 0 0 0))
  | 0x90 => some (raiseAs (haltBox s (BitVec.ofNat 4 ix) 1) 1 1 (event90 false))
  | _ => none

/-- Occurrences that happen at once, the rest staying pending unless the occurrence itself withdraws them (R413). -/
def injectAll : Nat → State → State
  | 0, s => s
  | n + 1, s => match s.flt.pending with
    | none => s
    | some i => match injectNow s i.target i.param with
      | none => s
      | some t =>
        let left := if i.remaining ≤ 1 then none else t.flt.pending.map (fun j => { j with remaining := j.remaining - 1 })
        injectAll n { t with flt := { t.flt with pending := left, injDone := bump32 t.flt.injDone } }

/-- FLT_INJ_CTRL: a count that is not 0 requests an injection; a refused request leaves no occurrence pending (R411 to R413, assumption 76). -/
def writeInjCtrl (s : State) (v : Word) : State :=
  if !s.flt.armed then s
  else
    let n := v.extractLsb' 8 8
    let s := { s with flt := { s.flt with injCount := n } }
    if n = 0 then s
    else if injectionOk s s.flt.injTarget s.flt.injParam then
      injectAll 256 { s with flt := { s.flt with
        injRefused := false
        pending := some { detector := (s.flt.injTarget.extractLsb' 24 8).toNat, target := s.flt.injTarget
                          param := s.flt.injParam, remaining := n.toNat } } }
    else { s with flt := { s.flt with injRefused := true, pending := none } }

/-! ### Any write (R12 to R14, R341, R344, R412, R444) -/

/-- The mailbox whose register or doorbell an offset names; the unassigned offsets of its block name none (R14, R344). -/
def boxAt (off : Nat) : Option MbxId :=
  if 0x1000 ≤ off ∧ off < 0x1400 then (if off % 0x40 < 0x20 then some (BitVec.ofNat 4 ((off - 0x1000) / 0x40)) else none)
  else if 0x2000 ≤ off ∧ off < 0x2080 then some (BitVec.ofNat 4 ((off - 0x2000) / 8))
  else none

/-- The 64-bit RW registers, by their low words. -/
def wide (off : Nat) : Bool :=
  (decide (0x1000 ≤ off) && decide (off < 0x1400) && (off % 0x40 == 0x08 || off % 0x40 == 0x10)) ||
  off == 0x3008 || off == 0x4008 || off == 0x4010

/-- A whole write of a 64-bit RW register. -/
def writeWide (s : State) (path : Path) (off : Nat) (v : Word64) : State :=
  if off < 0x1400 then writeBase s (BitVec.ofNat 4 ((off - 0x1000) / 0x40)) (off % 0x40 == 0x10) v
  else if off = 0x3008 then { s with evt := { s.evt with ringBase := v &&& ~~~0x1FFF#64 } }
  else if off = 0x4008 then writeIncr s path v
  else writeAdj s path v

/-- A write of a 32-bit register; RO registers and reserved offsets ignore it (R12, R14). -/
def writeWord (s : State) (path : Path) (off : Nat) (v : Word) : State :=
  if 0x1000 ≤ off ∧ off < 0x1400 then
    if off % 0x40 = 0 then writeCtrl s (BitVec.ofNat 4 ((off - 0x1000) / 0x40)) v else s
  else if off = 0x1400 then (if path = .pcie then { s with bar2Base := v &&& 0x1FF#32 } else s)
  else if 0x2000 ≤ off ∧ off < 0x2080 then
    let m := BitVec.ofNat 4 ((off - 0x2000) / 8)
    if off % 8 = 0 then writeDblCmd s m v else writeDblCpl s m v
  else match off with
    | 0x3000 => clearEvt s v
    | 0x3004 => { s with evt := { s.evt with mask := v &&& 0x7FFFF#32 } }
    | 0x3010 => { s with evt := { s.evt with ringCtrl := v &&& 0x31#32 } }
    | 0x3018 => { s with evt := { s.evt with cons := v.extractLsb' 0 16 } }
    | 0x401C => clearTim s v
    | 0x5000 => writeTsqCtrl s 0 v
    | 0x5040 => writeTsqCtrl s 1 v
    | 0x5004 => clearTsq s 0 v
    | 0x5044 => clearTsq s 1 v
    | 0x6000 => from0 s path (fun s => clearFlt s v)
    | 0x6018 => from0 s path (fun s =>
        if s.flt.armed then { s with flt := { s.flt with injTarget := v &&& 0xFFFFFF00#32 } } else s)
    | 0x601C => from0 s path (fun s => if s.flt.armed then { s with flt := { s.flt with injParam := v } } else s)
    | 0x6020 => from0 s path (fun s => writeInjCtrl s v)
    | _ => s

/-- Forget the low words held for a register (R341). -/
def dropLow (s : State) (off : Nat) : State := { s with lows := s.lows.filter (fun x => x.offset != off) }

/-- Hold a low word for the path's write of the high word (R341). -/
def holdLow (s : State) (path : Path) (off : Nat) (v : Word) : State :=
  { s with lows := { path := path, offset := off, value := v } :: s.lows.filter (fun x => !(x.path == path && x.offset == off)) }

/-- A high word with the low word the path holds, or with the register's current one (R341). -/
def writeHigh (s : State) (path : Path) (off : Nat) (v : Word) : State :=
  let low := off - 4
  let held := s.lows.find? (fun x => x.path == path && x.offset == low)
  let w := match held with
    | some x => x.value
    | none => peek s low
  let s := { s with lows := s.lows.filter (fun x => !(x.path == path && x.offset == low)) }
  writeWide s path low (v ++ w)

/-- One aligned 32-bit write, a mailbox's own path checked (R341, R344). -/
def write32 (s : State) (path : Path) (off : Nat) (v : Word) : State :=
  let go := fun (s : State) =>
    if wide off then holdLow s path off v
    else if 4 ≤ off ∧ wide (off - 4) = true then writeHigh s path off v
    else writeWord s path off v
  match boxAt off with
  | some m => fromOwner s path m go
  | none => go s

/-- Any write of the window (R341). -/
def windowWriteOf (s : State) (path : Path) (off size : Nat) (v : Word64) : State :=
  if !aligned off size then badSize s
  else if size = 4 then write32 s path off (v.extractLsb' 0 32)
  else if wide off then
    let go := fun (s : State) => writeWide (dropLow s off) path off v
    match boxAt off with
    | some m => fromOwner s path m go
    | none => go s
  else write32 (write32 s path off (v.extractLsb' 0 32)) path (off + 4) (v.extractLsb' 32 32)

/-! ### The commands -/

/-- The stages that the ROM runs, in which BAR0 holds the `ID_` block alone (R487). -/
def romStage (s : State) : Bool := decide (1 ≤ s.boot.stage) && decide (s.boot.stage ≤ 3) || s.boot.stage == 0xE1

/-- An access finds the window: over the Frieze always, over PCIe while the module is strapped as an endpoint, since a root port has no BAR0, and once the firmware runs (R341, R487, R546). An access that finds no register has no effect (assumption 169). -/
def onPath (s : State) (path : Path) : Bool := path != .pcie || (!s.boot.rootPort && !romStage s)

/-- An access of the host window on a path. -/
def onWindow (s : State) (path : Path) (f : State → State) : Out := .next (onlyIf (onPath s path) s (f s))

/-- DBL_CMD. -/
def execDblCmd (path : Path) (m : MbxId) (value : Word) (s : State) : Out :=
  onWindow s path (fun s => fromOwner s path m (fun s => writeDblCmd s m value))

/-- DBL_CPL. -/
def execDblCpl (path : Path) (m : MbxId) (value : Word) (s : State) : Out :=
  onWindow s path (fun s => fromOwner s path m (fun s => writeDblCpl s m value))

/-- MAILBOX_ENABLE: MBX_CTRL is written with enable set. -/
def execMailboxEnable (path : Path) (m : MbxId) (value : Word) (s : State) : Out :=
  onWindow s path (fun s => fromOwner s path m (fun s => writeCtrl s m (value ||| 1#32)))

/-- MAILBOX_DISABLE: MBX_CTRL is written with enable clear. -/
def execMailboxDisable (path : Path) (m : MbxId) (value : Word) (s : State) : Out :=
  onWindow s path (fun s => fromOwner s path m (fun s => writeCtrl s m (value &&& ~~~1#32)))

/-- MBX_LOST_READ. -/
def execMbxLostRead (path : Path) (m : MbxId) (s : State) : Out :=
  onWindow s path (fun s => showRead (windowReadOf s path (0x1018 + 0x40 * m.toNat) 4) (0x1018 + 0x40 * m.toNat))

/-- EVT_STATUS_CLEAR. -/
def execEvtStatusClear (path : Path) (value : Word) (s : State) : Out := onWindow s path (fun s => write32 s path 0x3000 value)

/-- FLT_STATUS_CLEAR. -/
def execFltStatusClear (path : Path) (value : Word) (s : State) : Out := onWindow s path (fun s => write32 s path 0x6000 value)

/-- INJECTION_REQUEST. -/
def execInjectionRequest (path : Path) (value : Word) (s : State) : Out := onWindow s path (fun s => write32 s path 0x6020 value)

/-- FLT_INJ_DONE_READ. -/
def execFltInjDoneRead (path : Path) (s : State) : Out :=
  onWindow s path (fun s => showRead (windowReadOf s path 0x6024 4) 0x6024)

/-- TIM_INCR_WRITE. -/
def execTimIncrWrite (path : Path) (value : Word64) (s : State) : Out := onWindow s path (fun s => windowWriteOf s path 0x4008 8 value)

/-- TIM_ADJ_WRITE. -/
def execTimAdjWrite (path : Path) (value : Word64) (s : State) : Out := onWindow s path (fun s => windowWriteOf s path 0x4010 8 value)

/-- TIM_LOW_WORD_READ: the read of a `TIM_` low word; another offset is not this command. -/
def execTimLowWordRead (path : Path) (offset : BitVec 16) (s : State) : Out :=
  onWindow s path (fun s => onlyIf (timLow offset.toNat) s (showRead (windowReadOf s path offset.toNat 4) offset.toNat))

/-- TIM_STATUS_CLEAR. -/
def execTimStatusClear (path : Path) (value : Word) (s : State) : Out := onWindow s path (fun s => write32 s path 0x401C value)

/-- TSQ_POP. -/
def execTsqPop (path : Path) (port : BitVec 1) (s : State) : Out :=
  onWindow s path (fun s => showRead (windowReadOf s path (0x5008 + 0x40 * port.toNat) 4) (0x5008 + 0x40 * port.toNat))

/-- TSQ_DROPPED_READ. -/
def execTsqDroppedRead (path : Path) (port : BitVec 1) (s : State) : Out :=
  onWindow s path (fun s => showRead (windowReadOf s path (0x5018 + 0x40 * port.toNat) 4) (0x5018 + 0x40 * port.toNat))

/-- TSQ_DISABLE. -/
def execTsqDisable (path : Path) (port : BitVec 1) (s : State) : Out := onWindow s path (fun s => write32 s path (0x5000 + 0x40 * port.toNat) 0)

/-- TSQ_STATUS_CLEAR. -/
def execTsqStatusClear (path : Path) (port : BitVec 1) (value : Word) (s : State) : Out :=
  onWindow s path (fun s => write32 s path (0x5004 + 0x40 * port.toNat) value)

/-- WINDOW_LOW_WORD_WRITE: the low word of a 64-bit RW register is held. -/
def execWindowLowWordWrite (path : Path) (offset : BitVec 16) (value : Word) (s : State) : Out :=
  onWindow s path (fun s => onlyIf (wide offset.toNat) s (write32 s path offset.toNat value))

/-- WINDOW_HIGH_WORD_WRITE: the high word of a 64-bit RW register. -/
def execWindowHighWordWrite (path : Path) (offset : BitVec 16) (value : Word) (s : State) : Out :=
  onWindow s path (fun s => onlyIf (decide (4 ≤ offset.toNat) && wide (offset.toNat - 4)) s (write32 s path offset.toNat value))

/-- BAD_SIZE_ACCESS: a write is ignored, a read returns 0; either raises detector 0x90 at INFO. -/
def execBadSizeAccess (path : Path) (offset : BitVec 16) (size : Nat) (isWrite : Bool) (s : State) : Out :=
  onWindow s path (fun s => onlyIf (!aligned offset.toNat size) s
    (if isWrite then badSize s else showRead (badSize s, 0) offset.toNat))

/-- REGISTER_WRITE. -/
def execRegisterWrite (path : Path) (offset : BitVec 16) (size : Nat) (value : Word64) (s : State) : Out :=
  onWindow s path (fun s => windowWriteOf s path offset.toNat size value)

end Sys2Proof.Machine
end

