-- ==== Sys2Proof/Machine/Fabric.lean ====
section
/-! DEFINITION. The Frieze: frames received, credits and replay, port states and training, Hello, management messages, reservations granted and held, and the fabric commands (R459 to R486, R508, R564). -/

namespace Sys2Proof.Machine

/-! ### Ports that go down (R140, R429, R466) -/

/-- A counter of 32 bits, and one of 16, that saturate (R482). -/
def capW (n : Nat) : Nat := min 0xFFFFFFFF n
/-- A counter of 16 bits that saturates (R482). -/
def capH (n : Nat) : Nat := min 0xFFFF n

/-- The T3 requests whose route leaves by a port fail their moves (R140, R429). -/
def failCrossing (s : State) (p : Nat) : State :=
  let rs := s.fab.t3.filter (fun r => match routeTo s r.node with
    | some t => !t.isLocal && t.port == p
    | none => true)
  forEach rs s (fun s r => if s.fab.t3.contains r then failT3 s r else s)

/-- The lowest identity this node knows, on every UP port (R461, R473). -/
def broadcast (s : State) : State :=
  forEach (List.range 6) s (fun s p =>
    if (fport s p).state = 3 then sendLocal s p 0x10 (leBytes 16 s.fab.registrarIdentity ++ leBytes 4 s.fab.registrarBoot) else s)

/-- The way to the registrar is gone: this node's part elects afresh, and it begins with its own identity, the lowest it then knows (R473, R480; DEDUCED, assumption 93). -/
def splitOff (s : State) : State := broadcast (standAlone { s with fab := { s.fab with splits := capW (s.fab.splits + 1) } })

/-- A link leaves service: the node reports it; one that heard its registrar by it elects afresh, and loses the routes that left by it (R473, R480). -/
def linkLeft (s : State) (p : Nat) : State :=
  if s.fab.registrar = false ∧ s.fab.hearPort = some p then
    let others := s.fab.routes.filter (fun r => r.valid && !r.isLocal && r.port == p)
    forEach others (splitOff s) (fun s r => match routeTo s r.dest with
      | some t => if t.port = p ∧ t.isLocal = false then invalidate s r.dest else s
      | none => s)
  else reportOwn s

/-- The link full path: the port leaves service and trains again, the moves that cross it fail, its unacknowledged frames are discarded (R429, R464, R466, R470). -/
def linkFullPath (s : State) (p : Nat) : State :=
  let x := fport s p
  let s := setFport s p { x with state := 1, width := 0, lanes := 0, fullPath := true, unacked := [] }
  linkLeft (failCrossing s p) p

/-- A port goes down: detector 0x52 with cause 0 and the link full path (R466, R486). -/
def portDown (s : State) (p flags : Nat) : State :=
  let x := fport s p
  linkFullPath (raiseAs s 2 flags (mkEvent 0x52 0xFF 0 0 0 (p + x.partnerNode % 1024 * 2 ^ 16))) p

/-! ### Frames received (R460, R463, R465) -/

/-- The largest credit of a virtual channel (R463). -/
def creditMax (vc : Nat) : Nat := if vc = 3 then 64 else 256

/-- Credits of a link that has just aligned (R463). -/
def freshCredits : Vector Nat 4 := Vector.ofFn (fun i => creditMax i.val)

/-- A link control frame leaves: it carries the acknowledgement and the credits (R465, R466). -/
def sendControl (s : State) (p vc credits : Nat) : State :=
  let x := fport s p
  (s.emit (.link p x.rxSeq.toNat vc credits)).emit (.frame p 5 x.partnerNode s.fab.node 0 0 0 0 0 [])

/-- A frame that fails its CRC is discarded and its replay requested: detector 0x50 (R465, R486). -/
def crcError (s : State) (p flags : Nat) : State :=
  let x := fport s p
  let s := setFport s p { x with crcErrors := capW (x.crcErrors + 1) }
  sendControl (raiseAs s 0 flags (mkEvent 0x50 0xFF 0 0 0 p)) p 0 0

/-- An uncorrectable codeword: detector 0x51, the replay; more than 16 within 1 ms bring the port down (R465, R466, R486). -/
def uncorrectable (s : State) (p flags : Nat) : State :=
  let x := fport s p
  let times := s.now :: x.uncTimes.filter (fun t => decide (s.now < t + 1000000))
  let s := setFport s p { x with fecUncorrectable := capW (x.fecUncorrectable + 1), uncTimes := times }
  let s := raiseAs s 1 flags (mkEvent 0x51 0xFF 0 0 0 p)
  if 16 < times.length then portDown s p 0 else sendControl s p 0 0

/-- The link field of a frame: acknowledged frames are let go, returned credits added, and what they allow is sent (R463, R465). -/
def takeLink (s : State) (p : Nat) (h : FrameHdr) : State :=
  let x := fport s p
  let done := fun (f : TxFrame) => let d := (h.linkAck - f.seq).toNat; decide (1 ≤ d) && decide (d ≤ 2048)
  let vc := h.creditVc.toNat
  let x := { x with
    unacked := x.unacked.filter (fun f => !done f)
    credits := Vector.ofFn (fun i => if i.val = vc then min (creditMax vc) (x.credits[i] + h.credits.toNat) else x.credits[i]) }
  pumpPort (setFport s p x) p

/-- The receiver accepts the next frame in order: it is acknowledged and its blocks are returned as credits (R463, R465). -/
def acceptFrame (s : State) (p vc blocks : Nat) : State :=
  let x := fport s p
  let x := { x with rxSeq := x.rxSeq + 1 }
  (setFport s p x).emit (.link p x.rxSeq.toNat vc blocks)

/-- A frame on a port that is UP: injected and real errors, then its link field; a frame other than the next in order is discarded (R410, R460, R465). -/
def receive (s : State) (port : FriezePort) (h : FrameHdr) (dataBytes : Nat) (f : State → State) : Out :=
  let p := port.val
  .next (
    if (fport s p).state ≠ 3 then s
    else
      let c := takeInjection s 0x50 (fun i => injIndex i.target == p)
      if c.1.isSome ∨ (h.crcOk = false ∧ h.fecOk = true) then crcError c.2 p (injFlags c.1)
      else
        let u := takeInjection c.2 0x51 (fun i => injIndex i.target == p)
        if u.1.isSome ∨ h.fecOk = false then uncorrectable u.2 p (injFlags u.1)
        else
          let s := takeLink u.2 p h
          if h.linkSeq ≠ (fport s p).rxSeq then sendControl s p 0 0
          else f (acceptFrame s p h.vc.toNat (1 + (dataBytes + 63) / 64)))

/-- A frame for another node goes on along its route; one without a route is dropped (R461, R479). -/
def relay (s : State) (h : FrameHdr) (ty ask : Nat) (data : List Byte) : State :=
  (forward s (mkFrame h.src.toNat ty h.dest.toNat h.vc.toNat h.address (h.tag.toNat + h.attempt.toNat * 2 ^ 28) ask data)).1

/-- A frame received for this node, or relayed. -/
def atDest (s : State) (port : FriezePort) (h : FrameHdr) (ty ask : Nat) (data : List Byte) (f : State → State) : Out :=
  receive s port h data.length (fun s => if h.dest.toNat = s.fab.node then f s else relay s h ty ask data)

/-! ### Serving peers (R141, R460, R461, R484) -/

/-- Answer a peer's request with data, an acknowledgement or a failure, on its channel and with its tag (R460, R461). -/
def answerPeer (s : State) (h : FrameHdr) (ty : Nat) (data : List Byte) : State :=
  (sendFrame s ty h.src.toNat h.vc.toNat 0 (h.tag.toNat + h.attempt.toNat * 2 ^ 28) 0 data).1

/-- A failure response: one block whose byte 0 is the status (R461). -/
def failPeer (s : State) (h : FrameHdr) (status : Nat) : State := answerPeer s h 6 (padTo 64 (leBytes 1 status))

/-- Why a peer's request cannot be served: an address that is no T2 and no pinned T1, or a partition not in service (R461). -/
def peerProblem (s : State) (a n : Nat) : Option Nat :=
  if dataRange s a n = false then some stBadParam
  else match regionOf a with
    | .t2 p _ | .t1 p _ => if (s.part p).state = 0 then none else some stFaulted
    | _ => some stBadParam

/-- A peer's access is a requester-9 request in the class of its channel; Management ranks as Prompt (R161, R484). -/
def presentPeer (s : State) (h : FrameHdr) (n : Nat) : State := present s (partOfAddr (localOf h.address)) 9 (if h.vc.toNat = 3 then 1 else h.vc.toNat) n 0

/-- WRITE_REQUEST: the data is written and acknowledged, or a failure is answered. -/
def execWriteRequest (port : FriezePort) (h : FrameHdr) (data : List Byte) (s : State) : Out :=
  atDest s port h 0 0 data (fun s =>
    let a := localOf h.address
    match peerProblem s a data.length with
    | some st => failPeer s h st
    | none =>
      let r := localWrite (presentPeer s h data.length) a data
      if r.2 then answerPeer r.1 h 3 [] else failPeer r.1 h stFaulted)

/-- READ_REQUEST: `blocks` is the length field, the blocks asked for less one. -/
def execReadRequest (port : FriezePort) (h : FrameHdr) (blocks : BitVec 6) (s : State) : Out :=
  let n := 64 * (blocks.toNat + 1)
  atDest s port h 1 n [] (fun s =>
    let a := localOf h.address
    match peerProblem s a n with
    | some st => failPeer s h st
    | none =>
      let r := localRead (presentPeer s h n) a n
      match r.2 with
      | some bs => answerPeer r.1 h 2 bs
      | none => failPeer r.1 h stFaulted)

/-! ### Answers to this node's requests (R131, R132, R140, R461) -/

/-- The outstanding request that a tag and attempt answer; an earlier attempt has none (R480). -/
def openT3 (s : State) (h : FrameHdr) : Option T3Req := s.fab.t3.find? (fun r => r.tag == h.tag && r.attempt == h.attempt)

/-- READ_DATA: the data of a T3 read is laid into the peer's view, from which its transfer copies. -/
def execReadData (port : FriezePort) (h : FrameHdr) (data : List Byte) (s : State) : Out :=
  atDest s port h 2 0 data (fun s =>
    match openT3 s h with
    | none => s
    | some r =>
      if r.isRead then
        checkPhase { s with
          hostMem := s.hostMem.write (peerKey r.address) (padTo r.bytes data), fab := { s.fab with t3 := s.fab.t3.erase r } }
      else s)

/-- WRITE_ACKNOWLEDGEMENT: a T3 write is done. -/
def execWriteAcknowledgement (port : FriezePort) (h : FrameHdr) (s : State) : Out :=
  atDest s port h 3 0 [] (fun s =>
    match openT3 s h with
    | none => s
    | some r => if r.isRead then s else checkPhase { s with fab := { s.fab with t3 := s.fab.t3.erase r } })

/-- FAILURE_RESPONSE: the request fails its move (R140, R461). -/
def execFailureResponse (port : FriezePort) (h : FrameHdr) (status : Nat) (s : State) : Out :=
  atDest s port h 6 0 (padTo 64 (leBytes 1 status)) (fun s =>
    match openT3 s h with
    | none => s
    | some r => checkPhase (failT3 s r))

/-- Replay every unacknowledged frame in sequence order (R465, R472). -/
def replayAll (s : State) (p : Nat) : State :=
  let x := fport s p
  let s := patCount s (0x3010 + 64 * p) x.unacked.length
  let s := setFport s p { x with
    unacked := x.unacked.map (fun f => { f with replays := f.replays + 1 }), replayed := capW (x.replayed + x.unacked.length) }
  forEach x.unacked s (fun s f =>
    s.emit (.frame p f.ty.toNat f.dest.toNat f.src.toNat f.vc.toNat f.seq.toNat f.address f.tag f.units f.body))

/-- LINK_CONTROL: acknowledgement and credits; frames it leaves unacknowledged are replayed, and one replayed 8 times already brings the port down (R465, R466). -/
def execLinkControl (port : FriezePort) (h : FrameHdr) (s : State) : Out :=
  let p := port.val
  let x := fport s p
  .next (
    if x.state ≠ 2 ∧ x.state ≠ 3 ∧ x.state ≠ 4 then s
    else
      let c := takeInjection s 0x50 (fun i => injIndex i.target == p)
      if c.1.isSome ∨ (h.crcOk = false ∧ h.fecOk = true) then crcError c.2 p (injFlags c.1)
      else
        let u := takeInjection c.2 0x51 (fun i => injIndex i.target == p)
        if u.1.isSome ∨ h.fecOk = false then uncorrectable u.2 p (injFlags u.1)
        else
          let s := takeLink (setFport u.2 p { fport u.2 p with partnerNode := h.src.toNat }) p h
          if (fport s p).unacked.any (fun f => decide (8 ≤ f.replays)) then portDown s p 0
          else if (fport s p).unacked.isEmpty then s
          else replayAll s p)

/-- RESERVED_FRAME_TYPE: the frame is discarded and counted as a CRC error (R460). -/
def execReservedFrameType (port : FriezePort) (ty : BitVec 4) (s : State) : Out :=
  .next (onlyIf ((fport s port.val).state == 3 && decide (7 ≤ ty.toNat)) s (crcError s port.val 0))

/-! ### Management messages (R461) -/

/-- A management message of some body length arrives, in order, on a port that is UP. -/
def managed (s : State) (port : FriezePort) (bodyLen : Nat) (f : State → State) : Out :=
  .next (onlyIf ((fport s port.val).state == 3) s (f (acceptFrame s port.val 3 (1 + (16 + bodyLen + 63) / 64))))

/-- WINDOW_READ: the value as R341 returns it. -/
def execWindowRead (port : FriezePort) (node : BitVec 10) (seq : Word) (offset : Nat) (size : Nat) (bodyLen : Nat) (s : State) : Out :=
  managed s port bodyLen (fun s =>
    if bodyLen < 8 then answer s 1 node.toNat stBadParam seq.toNat []
    else
      let r := windowReadOf s (.frieze node) offset size
      answer r.1 1 node.toNat stOk seq.toNat (leBytes 8 r.2))

/-- WINDOW_WRITE: answered after the write has taken effect or been ignored. -/
def execWindowWrite (port : FriezePort) (node : BitVec 10) (seq : Word) (offset : Nat) (size : Nat) (value : Word64) (bodyLen : Nat) (s : State) : Out :=
  managed s port bodyLen (fun s =>
    if bodyLen < 16 then answer s 2 node.toNat stBadParam seq.toNat []
    else answer (windowWriteOf s (.frieze node) offset size value) 2 node.toNat stOk seq.toNat [])

/-- Kinds of management messages that exist (R461). -/
def knownKind (k : Nat) : Bool :=
  [0x0001, 0x0002, 0x0010, 0x0011, 0x0012, 0x0013, 0x0014, 0x0015, 0x0020, 0x0021, 0x0022, 0x0030, 0x0031, 0x0032].contains k

/-- UNDEFINED_KIND_REQUEST: answered with `BAD_OPCODE`. -/
def execUndefinedKindRequest (port : FriezePort) (node : BitVec 10) (seq : Word) (kind : Nat) (s : State) : Out :=
  managed s port 0 (fun s => if knownKind kind then s else answer s kind node.toNat stBadOpcode seq.toNat [])

/-- WINDOW_ACCESS_RESPONSE: the request of that sequence number is answered. -/
def execWindowAccessResponse (port : FriezePort) (seq : Word) (status : Nat) (value : Word64) (s : State) : Out :=
  managed s port 8 (fun s =>
    match s.fab.mgmt.find? (fun q => q.seq == seq.toNat && (q.kind == 1 || q.kind == 2)) with
    | none => s
    | some q =>
      let s := { s with fab := { s.fab with mgmt := s.fab.mgmt.erase q } }
      if status = stOk then s.emit (.readValue 0 value) else s)

/-- The command that waits for a management response, by its sequence number. -/
def waitsFor (s : State) (seq : Nat) : Option (MbxId × CmdHdr × Nat) :=
  (waiters s).findSome? (fun w => match w.2.2.2 with
    | .place o q => if q = seq then some (w.1, w.2.2.1, o) else none
    | _ => none)

/-- MANAGEMENT_REQUEST_TIMEOUT: the request fails at its sender; `OBJ_PLACE` completes with `FAULTED`. -/
def execManagementRequestTimeout (seq : Word) (s : State) : Out :=
  .next (match s.fab.mgmt.find? (fun q => q.seq == seq.toNat) with
    | none => s
    | some q =>
      let s := { s with fab := { s.fab with mgmt := s.fab.mgmt.erase q } }
      match waitsFor s seq.toNat with
      | some (m, h, _) => complete s m h 0x21 stFaulted []
      | none => s)

/-! ### Identity, registrar, IDs (R473 to R476) -/

/-- A lower identity heard on a port is adopted: its node is the registrar, and this node reports to it. The registrar's node ID is known where it is the neighbour itself; else it is taken as 0xFFFF, to which no route leads (R473, R474; DESIGN CHOICE, assumption 159). -/
def adopt (s : State) (p identity bootCount : Nat) : State :=
  let x := fport s p
  reportOwn (broadcast { s with fab := { s.fab with
    registrarIdentity := identity, registrarBoot := bootCount, registrar := false, hearPort := some p
    reports := [], topo := [], installed := [], phaseWait := []
    registrarNode := if x.partnerIdentity = identity then x.partnerNode else 0xFFFF } })

/-- LOWEST_IDENTITY: a lower identity is adopted. A higher one on the port where this node heard its registrar says that the way to the registrar is gone: this node's part elects afresh (R473, R480; DEDUCED, assumption 93). -/
def execLowestIdentity (port : FriezePort) (identity bootCount : Nat) (s : State) : Out :=
  managed s port 20 (fun s =>
    if identity < s.fab.registrarIdentity then adopt s port.val identity bootCount
    else if s.fab.registrarIdentity < identity ∧ s.fab.registrar = false ∧ s.fab.hearPort = some port.val then
      let t := splitOff s
      if identity < t.fab.registrarIdentity then adopt t port.val identity bootCount else t
    else if identity = s.fab.registrarIdentity ∧ s.fab.registrar = false ∧ bootCount ≠ s.fab.registrarBoot then
      let s := loseNode { s with fab := { s.fab with registrarBoot := bootCount } } s.fab.registrarNode
      reportOwn (broadcast s)
    else s)

/-- Stage 0x08: after mailbox ready, no powered port is still training (R488). -/
def fullService (s : State) : State :=
  if s.boot.stage = 7 ∧ s.fab.ports.toList.all (fun x => x.state != 2 && x.state != 5) = true then { s with boot := { s.boot with stage := 8 } }
  else s

/-- IDENTITY_BROADCAST. -/
def execIdentityBroadcast (s : State) : Out := .next (onlyIf (timeRuns s) s (broadcast (fullService s)))

/-- REPORT: the registrar recomputes IDs and routes. -/
def execReport (port : FriezePort) (seq : Word) (r : Report) (s : State) : Out :=
  managed s port 80 (fun s =>
    if s.fab.registrar then answer (takeReport s r) 0x11 r.nodeId stOk seq.toNat [] else s)

/-- Another node of a known identity takes an ID: what names its old one fails here (R476, R485). -/
def peerRenumbered (s : State) (identity new : Nat) : State :=
  forEach (List.range 6) s (fun s p =>
    let x := fport s p
    if x.partnerIdentity = identity ∧ x.partnerNode ≠ new ∧ x.partnerNode < 1024 then
      setFport (haltNode (loseNode s x.partnerNode) x.partnerNode) p { x with partnerNode := new }
    else s)

/-- ID_ASSIGNMENT: this node takes its ID, renumbered if it held another. -/
def execIdAssignment (port : FriezePort) (seq : Word) (identity nodeId assigned : Nat) (s : State) : Out :=
  managed s port 32 (fun s =>
    if 1024 ≤ nodeId then answer s 0x12 s.fab.registrarNode stBadParam seq.toNat []
    else if identity = s.boot.identity then
      reportOwn (answer (takeId s nodeId assigned) 0x12 s.fab.registrarNode stOk seq.toNat [])
    else peerRenumbered s identity nodeId)

/-! ### Route updates (R480) -/

/-- ROUTE_ENTRIES: phase 1 at a node. -/
def execRouteEntries (port : FriezePort) (seq : Word) (generation : Nat) (entries : List RouteEntry) (last : Bool) (s : State) : Out :=
  managed s port (8 + 8 * entries.length) (fun s =>
    if entries.isEmpty ∨ 500 < entries.length ∨ entries.any (fun e => decide (1024 ≤ e.dest) || (e.valid && decide (5 < e.port))) = true then
      answer s 0x13 s.fab.registrarNode stBadParam seq.toNat []
    else phaseOne (answer s 0x13 s.fab.registrarNode stOk seq.toNat []) generation entries last)

/-- A request is sent again from its first byte with the next attempt number (R131, R480). -/
def reissue (s : State) (r : T3Req) : State :=
  let mine := fun (f : TxFrame) => (f.ty == 0 || f.ty == 1) && f.tag % 2 ^ 28 == r.tag.toNat && f.src.toNat == s.fab.node
  let s := { s with fab := { s.fab with
    t3 := s.fab.t3.erase r
    ports := s.fab.ports.map (fun p => { p with waiting := p.waiting.filter (fun f => !mine f) }) } }
  let r := { r with attempt := r.attempt + 1 }
  let cls := match runOfT3 s r with
    | some _ => (((s.part r.partition).arb.engines.toList.getD r.engine none).map (fun g => g.req.cls)).getD 0
    | none => 0
  (sendT3 s r cls).1

/-- ROUTE_PHASE_REISSUE: 100 µs into phase 1 the transfers still outstanding are reissued, and the phase is done. -/
def execRoutePhaseReissue (s : State) : Out :=
  .next (onlyIf (s.fab.updating != 0) s (reportPhaseDone (forEach (openToHeld s) s reissue)))

/-- PHASE_DONE: the registrar releases the update when every node has reported. -/
def execPhaseDone (port : FriezePort) (seq : Word) (node generation : Nat) (s : State) : Out :=
  managed s port 4 (fun s =>
    let s := answer s 0x14 node stOk seq.toNat []
    if s.fab.registrar ∧ generation = s.fab.generation then phaseDoneBy s node else s)

/-- RELEASE: the node installs its new entries. -/
def execRelease (port : FriezePort) (seq : Word) (generation : Nat) (s : State) : Out :=
  managed s port 4 (fun s =>
    let s := answer s 0x15 s.fab.registrarNode stOk seq.toNat []
    if generation = s.fab.generation then install s else s)

/-! ### Reservations (R122, R483, R485) -/

/-- RESERVATION_REQUEST: a grant with its ID and base, or `NO_RESOURCE`. -/
def execReservationRequest (port : FriezePort) (node : BitVec 10) (seq : Word) (length : Nat) (partition : Byte) (bootCount : Nat) (offset : Word64) (s : State) : Out :=
  managed s port 24 (fun s =>
    let p := partition.toNat % 8
    let s := reclaim s (fun r => r.node == node.toNat && r.boot != bootCount)
    if partition.toNat / 8 % 16 ≠ 0 ∨ length % 256 ≠ 0 ∨ length = 0 then answer s 0x20 node.toNat stBadParam seq.toNat []
    else match grantAt s length (resvTier partition) p offset.toNat with
      | none => answer s 0x20 node.toNat stNoResource seq.toNat []
      | some off =>
        let g := grantRange s.fresh.2 node.toNat length bootCount (resvTier partition) p off
        answer g.1 0x20 node.toNat stOk seq.toNat (leBytes 4 g.2.id ++ leBytes 4 0 ++ leBytes 8 g.2.base))

/-- RESERVATION_RESPONSE: `OBJ_PLACE` goes on with the grant or completes with the refusal; a grant whose command is gone is released again. -/
def execReservationResponse (port : FriezePort) (node : BitVec 10) (seq : Word) (status : Nat) (rid : Nat) (base : Nat) (s : State) : Out :=
  managed s port 16 (fun s =>
    let q := s.fab.mgmt.find? (fun q => q.seq == seq.toNat && q.kind == 0x20 && q.node == node.toNat)
    let w := waitsFor s seq.toNat
    let s := { s with fab := { s.fab with mgmt := s.fab.mgmt.filter (fun q => q.seq != seq.toNat) } }
    match q, w with
    | some _, some (m, h, oid) =>
      if status = stOk then placeGranted s m h oid node.toNat rid base
      else complete s m h 0x21 (if status = stNoResource then stNoResource else stFaulted) []
    | _, _ => if status = stOk then ask s 0x21 0 node.toNat (leBytes 4 rid) else s)

/-- RESERVATION_RELEASE: the grantor frees the range. -/
def execReservationRelease (port : FriezePort) (node : BitVec 10) (seq : Word) (rid : Nat) (s : State) : Out :=
  managed s port 4 (fun s =>
    answer { s with fab := { s.fab with granted := s.fab.granted.filter (fun r => !(r.id == rid && r.node == node.toNat)) } }
      0x21 node.toNat stOk seq.toNat [])

/-- RESERVATION_FAILURE_NOTICE: the reservation fails at its holder. -/
def execReservationFailureNotice (port : FriezePort) (node : BitVec 10) (rid : Nat) (_cause : Nat) (s : State) : Out :=
  managed s port 8 (fun s => forEach (s.fab.heldRes.filter (fun r => r.id == rid && r.node == node.toNat)) s failReservation)

/-! ### Timeouts (R464, R466, R468) -/

/-- T3_REQUEST_TIMEOUT: unanswered while its route stays valid, the request raises detector 0x52 with cause 1 and fails its move. -/
def execT3RequestTimeout (tag : BitVec 28) (s : State) : Out :=
  .next (match s.fab.t3.find? (fun r => r.tag == tag) with
    | none => s
    | some r =>
      if (routeTo s r.node).isSome then checkPhase (failT3 (raise s (mkEvent 0x52 0xFF r.job 1 r.job (r.node % 1024))) r)
      else s)

/-- A channel has a frame waiting, for a destination that no route update holds, and too few credits for it (R464, R480). -/
def starved (x : FPort) (held : Nat → Bool) (vc : Nat) : Bool :=
  match x.waiting.find? (fun f => f.vc.toNat == vc && !held f.dest.toNat) with
  | some f => decide (x.credits.toList.getD vc 0 < f.blocks)
  | none => false

/-- CREDIT_TIMEOUT: detector 0x55 and the link full path; an injection withholds the channel's credits (R410, R464, R486). -/
def execCreditTimeout (port : FriezePort) (vc : BitVec 2) (s : State) : Out :=
  let p := port.val
  let inj := takeInjection s 0x55 (fun i => injIndex i.target == p && i.param.toNat == vc.toNat)
  .next (onlyIf ((fport s p).state == 3 && (inj.1.isSome || starved (fport s p) (heldDest s) vc.toNat)) s
    (let s := inj.2
     let x := fport s p
     let s := setFport s p { x with creditTimeouts := capH (x.creditTimeouts + 1) }
     linkFullPath (raiseAs s 2 (injFlags inj.1) (mkEvent 0x55 0xFF 0 0 0 (p + vc.toNat * 256))) p))

/-- A port in service: UP, REFUSED or RETRAIN. -/
def carries (x : FPort) : Bool := x.state == 3 || x.state == 4 || x.state == 5

/-- A port in service goes down; an injection of 0x52 marks the event (R410, R466). -/
def loseLink (s : State) (p : Nat) : State :=
  if carries (fport s p) then
    let inj := takeInjection s 0x52 (fun i => injIndex i.target == p)
    portDown inj.2 p (injFlags inj.1)
  else if (fport s p).state = 2 then setFport s p { fport s p with state := 1 }
  else s

/-- LINK_IDLE_TIMEOUT: no frame for 1 ms. -/
def execLinkIdleTimeout (port : FriezePort) (s : State) : Out :=
  .next (onlyIf ((fport s port.val).state == 3 || (fport s port.val).state == 4) s (loseLink s port.val))

/-- LINK_SIGNAL_LOSS. -/
def execLinkSignalLoss (port : FriezePort) (s : State) : Out := .next (loseLink s port.val)

/-- LINK_IDLE_FRAME_SEND: an idle port sends a link control frame. -/
def execLinkIdleFrameSend (port : FriezePort) (s : State) : Out :=
  let x := fport s port.val
  .next (onlyIf ((x.state == 3 || x.state == 4) && x.waiting.isEmpty) s (sendControl s port.val 0 0))

/-! ### Training and width (R469 to R472) -/

/-- Width and lanes for some usable lanes, at most a width: the lowest-numbered ones (R471, R472). -/
def widthOf (usable : BitVec 4) (most : Nat) : Nat × BitVec 4 :=
  let ls := (List.range 4).filter (fun i => usable.getLsbD i)
  let w := min most (if ls.length = 4 then 4 else if 2 ≤ ls.length then 2 else ls.length)
  (w, BitVec.ofNat 4 (((ls.take w).map (fun i => 2 ^ i)).sum))

/-- SIGNAL_DETECT: a port in DETECT starts to train. -/
def execSignalDetect (port : FriezePort) (s : State) : Out :=
  let x := fport s port.val
  .next (onlyIf (x.state == 1) s (setFport (patCount s (0x3000 + 64 * port.val) 1) port.val { FPort.off with
    state := 2, trainings := capH (x.trainings + 1), fullPath := x.fullPath, waiting := x.waiting, partnerPort := x.partnerPort
    partnerNode := x.partnerNode, upSince := x.upSince, crcErrors := x.crcErrors, fecCorrected := x.fecCorrected
    fecUncorrectable := x.fecUncorrectable, replayed := x.replayed, widthChanges := x.widthChanges, creditTimeouts := x.creditTimeouts }))

/-- TRAINING_BOUND_MISS: the attempt returns to DETECT. -/
def execTrainingBoundMiss (port : FriezePort) (s : State) : Out :=
  .next (onlyIf ((fport s port.val).state == 2) s (setFport s port.val { fport s port.val with state := 1 }))

/-- TRAINING_COMPLETE: width and lanes are chosen and the Hello nonce leaves; with no usable lane the attempt fails. -/
def execTrainingComplete (port : FriezePort) (usable : BitVec 4) (s : State) : Out :=
  let p := port.val
  .next (onlyIf ((fport s p).state == 2) s (
    let w := widthOf usable 4
    if w.1 = 0 then setFport s p { fport s p with state := 1 }
    else
      let f := s.fresh
      let nonce := Config.helloNonce f.1 % 2 ^ 256
      let s := setFport f.2 p { fport f.2 p with width := w.1, lanes := w.2, nonceSent := nonce, merged := 0, credits := freshCredits, txSeq := 0, rxSeq := 0, unacked := [] }
      sendLocal s p 0x30 (leBytes 16 s.boot.identity ++ leBytes 32 nonce)))

/-- LINK_FULL_PATH_END: after 2 s of attempts the port is left in DETECT. -/
def execLinkFullPathEnd (port : FriezePort) (s : State) : Out :=
  let x := fport s port.val
  .next (onlyIf x.fullPath s (setFport s port.val { x with fullPath := false, state := if x.state = 2 then 1 else x.state }))

/-- EQUALISATION_UPDATE: transmitter adjustments leave in a link control frame; adaptation never stops traffic. The codewords corrected since the last one are a free number (R482, assumption 3). -/
def execEqualisationUpdate (port : FriezePort) (s : State) : Out :=
  .next (onlyIf ((fport s port.val).state == 3) s (
    let f := s.fresh
    let x := fport f.2 port.val
    sendControl (setFport f.2 port.val { x with fecCorrected := capW (x.fecCorrected + Config.freeNat f.1) }) port.val 0 0))

/-- WIDTH_CHANGE: a lane in use is lost: the port enters RETRAIN at the width of the lanes still usable, detector 0x53; without a usable lane it goes down. -/
def execWidthChange (port : FriezePort) (usable : BitVec 4) (s : State) : Out :=
  let p := port.val
  let x := fport s p
  let inj := takeInjection s 0x53 (fun i => injIndex i.target == p)
  let usable := match inj.1 with
    | some i => usable &&& ~~~(1#4 <<< (i.param.toNat % 4))
    | none => usable
  let w := widthOf usable x.width
  .next (onlyIf (x.state == 3 && x.lanes &&& ~~~usable != 0) s (
    if w.1 = 0 then portDown inj.2 p (injFlags inj.1)
    else
      let new := w.1
      let lanes := w.2
      let s := setFport inj.2 p { x with state := 5, width := new, lanes := lanes, widthChanges := capH (x.widthChanges + 1) }
      raiseAs (patCount s (0x3004 + 64 * p) 1) 1 (injFlags inj.1) (mkEvent 0x53 0xFF 0 0 0 (p + x.width * 2 ^ 8 + new * 2 ^ 16 + lanes.toNat * 2 ^ 24))))

/-- RETRAIN_COMPLETE: the port is UP at its new width and replays every unacknowledged frame. -/
def execRetrainComplete (port : FriezePort) (s : State) : Out :=
  let p := port.val
  .next (onlyIf ((fport s p).state == 5) s (
    pumpPort (replayAll (setFport s p { fport s p with state := 3 }) p) p))

/-! ### Hello (R470, R477, R478, R508) -/

/-- A port becomes REFUSED (R469, R482). -/
def refuse (s : State) (p : Nat) : State :=
  let x := fport s p
  let was := x.state
  let s := setFport s p { x with state := 4 }
  let s := { s with fab := { s.fab with refusals := capH (s.fab.refusals + 1) } }
  if was = 3 ∨ was = 5 then linkLeft (failCrossing s p) p else s

/-- The local join policy accepts an identity (R477). -/
def accepts (s : State) (identity : Nat) : Bool :=
  match s.fab.policy with
  | 0 => true
  | 1 => s.fab.listed.contains identity
  | _ => false

/-- The port is UP: its partner may be of another island (R469, R473). -/
def portUp (s : State) (p : Nat) : State :=
  let x := fport s p
  let known := x.partnerIdentity == s.fab.registrarIdentity || s.fab.reports.any (fun r => r.identity == x.partnerIdentity) ||
    (List.range 6).any (fun q => q != p && (fport s q).state == 3 && (fport s q).partnerIdentity == x.partnerIdentity)
  let f := s.fresh
  let s := setFport f.2 p { x with state := 3, upSince := s.now, fullPath := false, partnerPort := Config.freeNat f.1 % 6 }
  let s := { s with fab := { s.fab with merges := if known then s.fab.merges else capW (s.fab.merges + 1) } }
  let s := sendLocal s p 0x10 (leBytes 16 s.fab.registrarIdentity ++ leBytes 4 s.fab.registrarBoot)
  pumpPort (reportOwn s) p

/-- Both verdicts are in: the port is UP or REFUSED; a merge that would make an island of more than 1,024 nodes is refused, whichever verdict came first (R410, R477, R478, R486). -/
def settle (s : State) (p : Nat) : State :=
  let x := fport s p
  if x.state ≠ 2 ∨ x.verdictSent = 3 ∨ x.verdictGot = 3 then s
  else if x.verdictSent ≠ 0 ∨ x.verdictGot ≠ 0 then refuse s p
  else if 1024 < x.merged then raise (refuse s p) (mkEvent 0x54 0xFF 0 1 0 p)
  else
    let inj := takeInjection s 0x54 (fun _ => true)
    let s := if inj.1.isSome then raiseAs inj.2 0 1 (mkEvent 0x54 0xFF 0 0 0 (s.fab.node + s.fab.node * 2 ^ 16)) else s
    portUp s p

/-- HELLO_NONCE: the partner's nonce is answered with this node's proof; a node without an identity refuses (R506, R508). -/
def execHelloNonce (port : FriezePort) (identity : Nat) (nonce : List Byte) (s : State) : Out :=
  let p := port.val
  .next (onlyIf ((fport s p).state == 2 && (fport s p).width != 0) s (
    let s := acceptFrame s p 3 2
    let s := setFport s p { fport s p with partnerIdentity := identity }
    if !s.boot.identityOk then
      let s := setFport s p { fport s p with verdictSent := 2 }
      refuse (sendLocal s p 0x32 (padTo 16 (leBytes 1 2))) p
    else
      let sig := ecdsaSign identityKey (sha256 nonce)
      let dev := fld Config.certChain 4 4
      let ca := fld Config.certChain (8 + dev) 4
      sendLocal s p 0x31 (beBytes 32 sig.1 ++ beBytes 32 sig.2 ++ leBytes 2 dev ++ leBytes 2 ca ++ leBytes 4 0 ++
        slice Config.certChain 8 dev ++ slice Config.certChain (12 + dev) ca)))

/-- The root key that the ROM's hash accepts (R491). -/
def rootAccepted : Bool := ofBe (sha256 (keyBytes Config.rootKey)) == Config.rootKeyHash

/-- The partner's proof holds: the chain verifies to the root key, the identity is the hash of the certified key, and the signature over this node's nonce verifies under it (R508). -/
def proofHolds (x : FPort) (sigR sigS : Nat) (devCert caCert : List Byte) : Bool :=
  rootAccepted && (match (Config.certKey caCert Config.rootKey).bind (fun ca => Config.certKey devCert ca) with
    | some key => identityOf key == x.partnerIdentity && ecdsaVerify key (sha256 (leBytes 32 x.nonceSent)) sigR sigS
    | none => false)

/-- The key_id of the key that a proof's chain certifies, 0 where it certifies none (R408, R508). -/
def certifiedKeyId (devCert caCert : List Byte) : Nat :=
  match (Config.certKey caCert Config.rootKey).bind (fun ca => Config.certKey devCert ca) with
  | some key => keyId key
  | none => 0

/-- HELLO_PROOF: the proof and the join policy give this node's verdict; a failed proof raises detector 0x70 with cause 4. -/
def execHelloProof (port : FriezePort) (sigR sigS : Nat) (devCert caCert : List Byte) (s : State) : Out :=
  let p := port.val
  .next (onlyIf ((fport s p).state == 2 && (fport s p).width != 0) s (
    let s := acceptFrame s p 3 (1 + (16 + 72 + devCert.length + caCert.length + 63) / 64)
    let inj := takeInjection s 0x70 (fun _ => true)
    let s := inj.2
    let ok := inj.1.isNone && proofHolds (fport s p) sigR sigS devCert caCert
    let verdict := if !ok then 2 else if accepts s (fport s p).partnerIdentity then 0 else 1
    let s := setFport s p { fport s p with verdictSent := verdict }
    let s := sendLocal s p 0x32 (padTo 16 (leBytes 1 verdict))
    let s := if ok then s else raiseAs s 1 (injFlags inj.1) (mkEvent 0x70 0xFF 0 4 0 (certifiedKeyId devCert caCert))
    if verdict = 0 then settle s p else refuse s p))

/-- A REFUSED port whose two ends now accept each other, and whose merge is not too large, is UP (R477, assumption 171). -/
def readmit (s : State) (p : Nat) : State :=
  let x := fport s p
  if x.state = 4 ∧ x.verdictSent = 0 ∧ x.verdictGot = 0 ∧ x.merged ≤ 1024 then portUp s p else s

/-- HELLO_VERDICT: with the node's own verdict the port becomes UP or REFUSED; a partner's later refusal makes an UP port REFUSED, and its later acceptance readmits a REFUSED one. -/
def execHelloVerdict (port : FriezePort) (verdict : Nat) (mergedNodes : Nat) (s : State) : Out :=
  let p := port.val
  let x := fport s p
  .next (onlyIf ((x.state == 2 && x.width != 0) || x.state == 3 || x.state == 4) s (
    let s := setFport (acceptFrame s p 3 2) p { fport (acceptFrame s p 3 2) p with verdictGot := min verdict 2, merged := mergedNodes }
    if x.state = 3 then (if verdict = 0 then s else refuse s p)
    else if x.state = 4 then readmit s p
    else if verdict ≠ 0 then refuse s p
    else settle s p))

/-! ### The commands (R356, R477, R482) -/

/-- A port entry of the status buffer (R482). -/
def FPort.entry (x : FPort) : List Byte :=
  leBytes 1 x.state ++ leBytes 1 x.width ++ leBytes 1 x.lanes.toNat ++ leBytes 1 (if carries x then x.partnerPort else 0xFF) ++
  leBytes 2 (if carries x && decide (x.partnerNode < 1024) then x.partnerNode else 0xFFFF) ++ leBytes 2 0 ++ leBytes 16 x.partnerIdentity ++
  leBytes 8 x.upSince ++ leBytes 4 x.crcErrors ++ leBytes 4 x.fecCorrected ++ leBytes 4 x.fecUncorrectable ++ leBytes 4 x.replayed ++
  leBytes 2 x.widthChanges ++ leBytes 2 x.trainings ++ leBytes 2 x.creditTimeouts ++ List.replicate 10 0

/-- The status header (R482). -/
def fabricHeader (s : State) : List Byte :=
  leBytes 16 s.boot.identity ++ leBytes 16 s.fab.registrarIdentity ++ leBytes 2 (if s.fab.joined then s.fab.node else 0xFFFF) ++
  leBytes 2 s.fab.registrarNode ++ leBytes 2 s.fab.nodes ++ leBytes 2 (flag s.fab.joined 0 + flag s.fab.registrar 1) ++
  leBytes 4 s.fab.routeUpdates ++ leBytes 4 s.fab.merges ++ leBytes 4 s.fab.splits ++ leBytes 2 s.fab.renumberings ++
  leBytes 2 s.fab.refusals ++ leBytes 4 s.fab.resvFailures ++ leBytes 4 0

/-- A route entry of the status buffer (R482). -/
def routeWord (s : State) (d : Nat) : Nat :=
  match routeTo s d with
  | some r => 2 ^ 31 + flag r.isLocal 30 + (if r.isLocal then 0 else r.port % 8) * 2 ^ 27 + r.hops % 1024 * 2 ^ 16
  | none => 0

/-- A reservation entry of the status buffer (R482). -/
def Reservation.entry (r : Reservation) : List Byte :=
  leBytes 4 r.id ++ leBytes 2 (1 + flag r.t1 1) ++ leBytes 2 r.node ++ leBytes 8 r.base ++ leBytes 8 r.length ++
  leBytes 1 r.partition ++ leBytes 3 0 ++ leBytes 4 r.object

/-- A group of 256 reservation entries, in ascending ID (R482). -/
def resvGroup (rs : List Reservation) : List Byte :=
  padTo 8192 ((sortBy (fun a b => decide (a.id < b.id)) rs).map Reservation.entry).flatten

/-- The 20,992 bytes of `FABRIC_STATUS` (R482). -/
def fabricBytes (s : State) : List Byte :=
  padTo 64 (fabricHeader s) ++ padTo 448 ((List.range 6).map (fun p => padTo 64 (fport s p).entry)).flatten ++
  ((List.range 1024).map (fun d => leBytes 4 (routeWord s d))).flatten ++ resvGroup s.fab.heldRes ++ resvGroup s.fab.granted

/-- `FABRIC_STATUS`. -/
def execFabricStatus (m : MbxId) (h : CmdHdr) (b : Bref) (s : State) : Out :=
  command s m h 0x80 0x10 (fun s =>
    if b.len < 20992 then complete s m h 0x80 stBadParam []
    else replyBuf s m h 0x80 b (fabricBytes s) (fun s => complete s m h 0x80 stOk
      (leBytes 2 (if s.fab.joined then s.fab.node else 0xFFFF) ++ leBytes 2 s.fab.registrarNode ++ leBytes 2 s.fab.nodes ++
       leBytes 1 ((List.range 6).filter (fun p => (fport s p).state == 3)).length)))

/-- The join policy in force applies to every port at once: an UP port whose partner it refuses becomes REFUSED at both ends, and a partner that only the policy had refused is told when it is accepted (R477, assumption 171). -/
def policyToPorts (s : State) : State :=
  forEach (List.range 6) s (fun s p =>
    if ((fport s p).state = 3 ∨ (fport s p).state = 5) ∧ accepts s (fport s p).partnerIdentity = false then
      refuse (sendLocal (setFport s p { fport s p with verdictSent := 1 }) p 0x32 (padTo 16 (leBytes 1 1))) p
    else if (fport s p).state = 4 ∧ (fport s p).verdictSent = 1 ∧ accepts s (fport s p).partnerIdentity = true then
      readmit (sendLocal (setFport s p { fport s p with verdictSent := 0 }) p 0x32 (padTo 16 (leBytes 1 0))) p
    else s)

/-- A new join policy takes effect (R369, R477). -/
def setPolicy (s : State) (policy : Nat) (ids : List Nat) : State :=
  policyToPorts { s with
    fab := { s.fab with policy := policy, listed := if policy = 1 then ids else [] }
    boot := { s.boot with runtime := s.boot.runtime.put 0x0070 policy } }

/-- `FABRIC_JOIN_POLICY`. -/
def execFabricJoinPolicy (m : MbxId) (h : CmdHdr) (policy count : Nat) (b : Bref) (s : State) : Out :=
  command0 s m h 0x81 0x20 (fun s =>
    if 2 < policy ∨ 64 < count then complete s m h 0x81 stBadParam []
    else if count = 0 then complete (setPolicy s policy []) m h 0x81 stOk []
    else withBuf s m h 0x81 b (16 * count) (fun s bs =>
      complete (setPolicy s policy ((List.range count).map (fun i => fld bs (16 * i) 16))) m h 0x81 stOk []))

/-- `RELIEF_APPLY`. -/
def execReliefApply (m : MbxId) (h : CmdHdr) (relief : Nat) (s : State) : Out :=
  command0 s m h 0x12 2 (fun s =>
    match checkRelief s relief with
    | (s, none) => complete s m h 0x12 stDenied []
    | (s, some r) =>
      if reliefBusy s relief then complete s m h 0x12 stBusy []
      else
        let old := s.boot.activeRelief
        let t := (List.range 8).foldl (fun (acc : State × Bool) p => if acc.2 then takeWays acc.1 p (newByte s relief 0x0020 p) else acc) (s, true)
        if t.2 then complete (policyToPorts (switchRelief t.1 r)) m h 0x12 stOk (leBytes 2 old)
        else complete t.1 m h 0x12 stFaulted [])

end Sys2Proof.Machine
end

