-- ==== Sys2Proof/Machine/PortBase.lean ====
section
/-! DEFINITION. The port objects: which exist, where they lie, their rings (R540, R541, R551). -/

namespace Sys2Proof.Machine

/-! ### Port settings (R541) -/

/-- A field of a port setting whose layout the spec leaves open; 0 where the setting holds nothing. -/
def portField (s : State) (key i : Nat) : Nat :=
  match settingBytes s key with
  | some bs => Config.portField key bs i
  | none => 0

/-- port_enable, key 0x0200. -/
def portEnable (s : State) : Nat := setting s 0x0200 0

/-- A bit of port_enable. -/
def enabledBit (s : State) (n : Nat) : Bool := portEnable s / 2 ^ n % 2 == 1

/-! ### Frames of a camera (R550, R551) -/

/-- Bytes of an element of a CSI-2 data type: RAW8, RAW10, RAW12, RAW16, YUV422 8-bit. -/
def cameraElem (dataType : Nat) : Nat :=
  match dataType with
  | 0x2B | 0x2C => 2
  | 0x2E => 4
  | _ => 1

/-- The planes of a frame, width and height of each (R551). -/
def cameraPlanes (dataType layout w h : Nat) : List (Nat × Nat) :=
  if dataType = 0x1E then [(w, h), (w / 2, h), (w / 2, h)]
  else if layout = 1 then List.replicate 4 (w / 2, h / 2)
  else [(w, h)]

/-- Bytes of a plane row, padded to a multiple of 16. -/
def planeStride (elem w : Nat) : Nat := (w * elem + 15) / 16 * 16

/-- What camera c's setting says: data type, virtual channel, width, height, layout (R541). -/
def cameraSet (s : State) (c : Nat) : Nat × Nat × Nat × Nat × Nat :=
  (portField s (0x240 + c) 2, portField s (0x240 + c) 3, portField s (0x240 + c) 4, portField s (0x240 + c) 5, portField s (0x240 + c) 6)

/-- Byte offsets of the planes in a frame slot, and the slot's size (R551). -/
def cameraSlot (s : State) (c : Nat) : List Nat × Nat :=
  let k := cameraSet s c
  let e := cameraElem k.1
  let r := (cameraPlanes k.1 k.2.2.2.2 k.2.2.1 k.2.2.2.1).foldl (fun (acc : List Nat × Nat) p =>
    (acc.1 ++ [acc.2], acc.2 + planeStride e p.1 * p.2)) ([], 64)
  (r.1, (r.2 + 255) / 256 * 256)

/-! ### The table of R540 -/

/-- The port objects in table order: object ID, the bits of port_enable that enable it, entry size and default capacity. -/
def portTable (s : State) : List (Nat × List Nat × Nat × Nat) :=
  (List.range 2).map (fun p => (0xFFFF0100 + p, [p], 2048, 1024)) ++
  (List.range 2).map (fun p => (0xFFFF0110 + p, [p], 2048, 256)) ++
  [(0xFFFF0200, [2], 2048, 4096)] ++
  (List.range 8).map (fun c => (0xFFFF0300 + c, [3 + c], (cameraSlot s c).2, 4)) ++
  (List.range 4).map (fun n => (0xFFFF0400 + n, [11 + n], 96, 4096)) ++
  (List.range 4).map (fun n => (0xFFFF0410 + n, [11 + n], 96, 256)) ++
  [(0xFFFF0500, [15, 16, 17, 18], 48, 32768), (0xFFFF0600, [19, 20, 21, 22, 23, 24, 25, 26], 128, 8192)]

/-- The placement word of the object at a place in table order (R541). -/
def placementWord (s : State) (i : Nat) : Option Nat :=
  match settingBytes s 0x0201 with
  | some bs => if 4 * i + 4 ≤ bs.length then some (fld bs (4 * i) 4) else none
  | none => none

/-- Tier, partition and capacity of a port object (R541). -/
def portPlace (s : State) (i dflt : Nat) : Nat × Nat × Nat :=
  match placementWord s i with
  | some w => (if w % 4 = 1 then 1 else 2, w / 4 % 8, w / 256)
  | none => (2, 0, dflt)

/-- An empty ring: its header holds the capacity and the entry size (R541). -/
def emptyRing (s : State) (o : Obj) (cap size : Nat) : State :=
  match o.place with
  | some p =>
    let s := placeZero s p o.length
    objSetWord (objSetWord s o 8 cap) o 0xC size
  | none => s

/-- Create a port object, where its partition serves and has room for it (R540). -/
def createPort (s : State) (i oid size dflt : Nat) : State :=
  let pl := portPlace s i dflt
  let len := (64 + pl.2.2 * size + 255) / 256 * 256
  if (s.part pl.2.1).state ≠ 0 then s
  else match chooseOffset s pl.1 pl.2.1 len with
    | none => s
    | some off =>
      let o : Obj := { length := len, owner := 0, shared := true, lost := false, sealed := false, port := true, twin := none
                       place := some { tier := pl.1, partition := pl.2.1, node := 0, offset := off, rid := 0, base := 0 } }
      emptyRing (s.fresh.2.setObj oid o) o pl.2.2 size

/-- Create every port object of the enabled ports that does not exist (R540). -/
def createPorts (s : State) : State :=
  forEach (portTable s).zipIdx s (fun s e =>
    if e.1.2.1.any (enabledBit s) && (s.obj? e.1.1).isNone then createPort s e.2 e.1.1 e.1.2.2.1 e.1.2.2.2 else s)

/-- The port objects that lie in a partition, or in any, are empty again at the same IDs (R540). -/
def renewPorts (s : State) (mine : Nat → Bool) : State :=
  let s := forEach s.objects s (fun s e =>
    if e.2.port ∧ (e.2.place.map (fun p => mine p.partition)).getD false = true then
      match (portTable s).zipIdx.find? (fun x => x.1.1 == e.1) with
      | some x => emptyRing s e.2 (portPlace s x.2 x.1.2.2.2).2.2 x.1.2.2.1
      | none => s
    else s)
  createPorts s

/-! ### The boundary port's filtering buffer (R545) -/

/-- The ring's placement partition serves. -/
def ringServes (s : State) (oid : Nat) : Bool :=
  match (s.obj? oid).bind Obj.place with
  | some p => (s.part p.partition).state == 0
  | none => false

/-- What the filtering buffer holds goes into the boundary ring, in order, while its partition serves. -/
def flushBoundary (s : State) : State :=
  if ringServes s 0xFFFF0200 then
    let held := s.ports.boundaryHeld
    forEach held { s with ports := { s.ports with boundaryHeld := [] } } (fun s e => (portIngress s 0xFFFF0200 e).1)
  else s

end Sys2Proof.Machine
end

