-- ==== Sys2Proof/Machine/Faults.lean ====
section
/-! DEFINITION. The hang detector, detector events, Casts and partition resets in their steps, the Atelier's own faults, injection arming, and the fault commands (R412 to R434, R489, R490). -/

namespace Sys2Proof.Machine

/-! ### The wait-for graph (R415, R416) -/

/-- A node of the wait-for graph: its ID, how far it has got, whether it is blocked, and its edges. -/
structure HangNode where
  id : Nat
  token : Nat
  blocked : Bool
  edges : List Nat

/-- The node ID of a run by its slot in its cluster's mover (R415). -/
def runNode (s : State) (c runId : Nat) : Nat :=
  0x1000 + c * 16 + ((s.cluster c).runs.findIdx (fun r => r.id == runId)) % 16

/-- The tiles of a lease that still may signal a semaphore of a tile (R416). -/
def signallers (s : State) (t : TileId) (sem : BitVec 4) : List Nat :=
  let cs := leaseOf s t
  let vt := virtTile cs t
  (leaseTiles cs).filterMap (fun e =>
    let y := s.tile e.2
    if y.phase != .ended && y.words.any (fun w => match decodeSeq w with
        | some (.signal m v _) => m == sem && v.toNat == vt
        | _ => false) then some e.2.toNat else none)

/-- The runs of a tile that pass a test, those written and not yet signalled among them; for one that its mover has no room for yet, the oldest run of the mover (R129, R132, R416). -/
def runsOf (s : State) (t : TileId) (f : Run → Bool) : List Nat :=
  let c := clusterOfTile t
  ((s.cluster c).runs.filter (fun r => r.tile == t && f r)).map (fun r =>
    if (accepted s c).any (fun x => x.id == r.id) then runNode s c r.id else 0x1000 + c * 16)

/-- Destination tiles of `SEND`s held at their source (R416). -/
def heldSends (s : State) (t : TileId) : List Nat :=
  (s.tile t).sendQ.toList.filterMap (fun q => match q with
    | x :: _ => if x.flowing then none else (physTile (leaseOf s t) x.vt.toNat).map (fun p => p.toNat)
    | [] => none)

/-- Source tiles of the posted `RECV`s, one to a port, that are not filled (R43, R416). -/
def openRecvs (s : State) (t : TileId) : List Nat :=
  ((s.tile t).recvQ.toList.filterMap List.head?).filterMap (fun x => (physTile (leaseOf s t) x.vt.toNat).map (fun p => p.toNat))

/-- What a tile waits on (R416); a tile frozen by an injection waits on itself (R410). -/
def tileEdges (s : State) (t : TileId) : List Nat :=
  let x := s.tile t
  if x.frozen then [t.toNat]
  else match x.stall with
    | .free => []
    | .waitSem sem _ => signallers s t sem ++ runsOf s t (fun r => r.sem == sem) ++ heldSends s t
    | .barrier _ => openRecvs s t ++ runsOf s t (fun _ => true) ++ heldSends s t
    | .queueFull (.tmove ..) => (match (s.cluster (clusterOfTile t)).runs.head? with
      | some r => [runNode s (clusterOfTile t) r.id]
      | none => []) ++ heldSends s t
    | .queueFull _ => heldSends s t

/-- A tile is blocked: at a `WAIT`, or with something to wait on (R415). -/
def tileBlocked (s : State) (t : TileId) : Bool :=
  let x := s.tile t
  x.frozen || (x.phase == .running && (match x.stall with
    | .free => false
    | .waitSem _ _ => true
    | _ => !(tileEdges s t).isEmpty))

/-- The nodes of the tiles. -/
def tileNodes (s : State) : List HangNode :=
  (s.tiles.keys.filter (fun k => decide (k < 512))).map (fun k =>
    let t : TileId := BitVec.ofNat 9 k
    { id := k, token := (s.tile t).issued, blocked := tileBlocked s t, edges := tileEdges s t })

/-- How far a run has got: its tiles written and in transfer. -/
def runToken (r : Run) : Nat :=
  r.id * 65536 + (r.xfers.filter (fun x => x.state == .written)).length * 256 + (r.xfers.filter (fun x => x.state == .granted)).length

/-- The requests of a cluster's mover that wait, as nodes (R415). -/
def moverRequests (s : State) (c : Nat) : List Nat :=
  ((List.range 8).map (fun p => ((s.part p).arb.waiting.filter (fun q => match q.move with
    | some m => m.1.toNat == c
    | none => false)).map (fun q => 0x2000 + p * 16 + q.requester.val))).flatten

/-- The nodes of the runs: one without a grant waits on its mover's request (R416). -/
def runNodes (s : State) : List HangNode :=
  (allClusters.map (fun c => (accepted s c).zipIdx.map (fun e =>
    let on := if e.1.written || e.1.xfers.any (fun x => x.state == .granted) then [] else moverRequests s c
    ({ id := 0x1000 + c * 16 + e.2, token := runToken e.1, blocked := !on.isEmpty, edges := on } : HangNode)))).flatten

/-- The nodes of the arbiter requests: one that finds no free engine waits on the engines, whose transfers always move on (R416). -/
def requestNodes (s : State) : List HangNode :=
  ((List.range 8).map (fun p => (s.part p).arb.waiting.map (fun q =>
    let full := (s.part p).arb.free.isEmpty
    ({ id := 0x2000 + p * 16 + q.requester.val
       token := q.bytes + 2 ^ 24 * q.revocations + 2 ^ 32 * (match q.move with
         | some (_, r, i) => 65536 * r + i
         | none => 0)
       blocked := full
       edges := ((List.range 8).filter (fun e => ((s.part p).arb.grantOf e).isSome)).map (fun e => 0x3000 + p * 8 + e) } : HangNode)))).flatten

/-- Every node that can wait. -/
def hangNodes (s : State) : List HangNode := tileNodes s ++ runNodes s ++ requestNodes s

/-! ### Cycles (R417, R418) -/

/-- Nodes reached from some nodes along the edges of stalled ones. -/
def reachFrom (ns : List HangNode) : Nat → List Nat → List Nat
  | 0, acc => acc
  | n + 1, acc =>
    let more := ((ns.filter (fun x => acc.contains x.id)).map (fun x => x.edges.filter (fun e => ns.any (fun y => y.id == e)))).flatten
    let new := (more.eraseDups).filter (fun e => !acc.contains e)
    if new.isEmpty then acc else reachFrom ns n (acc ++ new)

/-- What a stalled node reaches in one step or more. -/
def reaches (ns : List HangNode) (x : HangNode) : List Nat :=
  reachFrom ns ns.length (x.edges.filter (fun e => ns.any (fun y => y.id == e)))

/-- A node that has reached `END`. -/
def atEnd (s : State) (n : Nat) : Bool := decide (n < 512) && (s.tile (BitVec.ofNat 9 n)).phase == .ended

/-- The sets of stalled nodes that form a cycle, dead waits among them (R417). -/
def hangSetsOf (s : State) (ns : List HangNode) : List (List Nat) :=
  let cyclic := ns.filter (fun x => (reaches ns x).contains x.id)
  let scc := fun (x : HangNode) => sortBy (fun a b => decide (a < b))
    ((cyclic.filter (fun y => (reaches ns x).contains y.id && (reaches ns y).contains x.id)).map (fun y => y.id))
  let dead := ns.filter (fun x => x.edges.all (atEnd s))
  (cyclic.map scc ++ dead.map (fun x => [x.id])).eraseDups

/-- The partition that holds a node. -/
def nodePart (n : Nat) : Nat :=
  if n < 0x1000 then n / 64 else if n < 0x2000 then (n - 0x1000) / 128 else (n - 0x2000) / 16 % 8

/-- Detector 0x14 for a cycle: the partition of its lowest node takes the fast path (R408, R418). -/
def raiseHang (s : State) (ns : List HangNode) (set : List Nat) : State :=
  let low := set.head?.getD 0
  let flags := if set.any (fun n => decide (n < 512) && (s.tile (BitVec.ofNat 9 n)).frozen) then 1 else 0
  let job := if low < 512 then tileJob s (BitVec.ofNat 9 low) else 0
  let rows := set.map (fun n => match ns.find? (fun x => x.id == n) with
    | some x => n :: x.edges.take 3
    | none => [n])
  let s := detect { s with hangCycle := rows } flags (mkEvent 0x14 (nodePart low) job (min 255 set.length) low (s.flt.castSeq + 1))
  forEach set s (fun s n => if n < 512 then updTile s (BitVec.ofNat 9 n) (fun x => { x with frozen := false }) else s)

/-- HANG_CHECK: a cycle found at two consecutive checks is raised. -/
def execHangCheck (s : State) : Out :=
  let ns := hangNodes s
  let stalled := ns.filter (fun x => x.blocked && s.hangSeen.contains (x.id, x.token))
  let sets := hangSetsOf s stalled
  let found := sets.filter (fun c => s.hangSets.contains c)
  let s' := { s with hangSets := sets.filter (fun c => !found.contains c), hangSeen := ns.map (fun x => (x.id, x.token)) }
  .next (forEach found s' (fun s c => raiseHang s stalled c))

/-! ### Detector events (R410, R413) -/

/-- DETECTOR_EVENT: the event, and the response of its detector; a link that fails takes its port down. -/
def execDetectorEvent (e : DetEvent) (s : State) : Out :=
  .next (
    if !detectorKnown e.detector then s
    else if e.detector = 0x52 ∧ e.cause = 0 then loseLink s (e.value % 256 % 6)
    else if e.detector = 0x55 then linkFullPath (detect s 0 e) (e.value % 256 % 6)
    else detect s 0 e)

/-! ### Casts (R419 to R423) -/

/-- CAST_READ_TIMEOUT: the unit's record is `ABSENT` and holds the bytes delivered before. -/
def execCastReadTimeout (p : PartId) (kind : Nat) (unit : Nat) (s : State) : Out :=
  let x := s.part p.toNat
  .next (match x.casting with
    | none => s
    | some c =>
      let f := s.fresh
      let cut := fun (r : CastRecord) =>
        if r.kind = kind ∧ r.unit = unit then { r with status := stAbsent, data := r.data.take (Config.castDelivered f.1) } else r
      f.2.setPart p.toNat { x with casting := some { c with records := c.records.map cut } })

/-- The newest Cast and the previous one are kept, the header is recorded in the Patina, and cast_new is set (R411, R423, R538). -/
def keepCast (s : State) (p : Nat) (c : Cast) : State :=
  let x := s.part p
  let s := s.setPart p { x with casts := (c :: x.casts).take 2 }
  { s with
    flt := { s.flt with castNew := s.flt.castNew ||| (1#8 <<< p) }
    pat := { s.pat with castLog := (c.seq % 1024, c.header) :: s.pat.castLog.filter (fun e => e.1 != c.seq % 1024), castIndex := c.seq + 1 } }

/-- The slice or the memory controller did not answer: the fast path becomes a full path (R430). -/
def castEscalates (c : Cast) : Bool := c.records.any (fun r => (r.kind == 5 || r.kind == 6) && r.status == stAbsent)

/-- An event that has escalated carries flags bit 1 from then on: the Patina's entry of it, while that waits to be written; an entry that the host or the store already holds stays as it is. DESIGN CHOICE, log entry 176. -/
def markEscalated (s : State) (seq : Nat) : State :=
  { s with pat := { s.pat with buffer := s.pat.buffer.map (fun e =>
      if e.seq = seq ∧ e.detector ≠ 0 then { e with flags := e.flags ||| 2 } else e) } }

/-- The partition's tiles and units are reset: T0 and the registers are cleared, the slice holds no line (R426, R427). -/
def resetUnits (s : State) (p : Nat) : State :=
  let s := { s with tiles := s.tiles.filter (fun e => e.1 / 64 != p), mem := s.mem.clear (0x4000000000 + 0x100000 * 64 * p) (0x100000 * 64) }
  clearArbiter (s.setPart p { s.part p with lines := [], plru := [], prefetchers := [] }) p

/-- The reset of a partition is released: its requesters' masks lift (R163). -/
def unmask (x : Part) : Part := { x with arb := { x.arb with masked := [] } }

/-- A Cast is kept, its event marked where it has escalated; the fast path goes on to write back, the full path asserts reset and trains (R425, R427, R430). -/
def closeCast (s : State) (p : Nat) (up : Bool) : State :=
  let x := s.part p
  let s := match x.casting with
    | some c =>
      let s := if up ∧ c.detector ≠ 0 then markEscalated s c.eventSeq else s
      keepCast (s.setPart p { x with casting := none }) p { c with captureEnd := s.now, path := x.state - 1 }
    | none => s
  if (s.part p).state = 1 then s.setPart p { s.part p with step := .writeBack }
  else
    let s := resetUnits s p
    s.setPart p { s.part p with step := .training, trainFails := 0 }

/-- The Cast of a reset is complete: a fast path whose slice or memory controller did not answer becomes a full path (R425, R430). -/
def castDone (s : State) (p : Nat) : State :=
  let x := s.part p
  let up := x.state == 1 && ((x.casting.map castEscalates).getD false)
  let t := if up then
      reclaimPartition (patCount (s.setPart p { x with state := 2, lastPath := 1, fullResets := x.fullResets + 1 })
        (0x1A04 + 128 * p) 1) p 0
    else s
  closeCast t p up

/-- CAST_COMPLETE. -/
def execCastComplete (p : PartId) (s : State) : Out :=
  .next (onlyIf ((s.part p.toNat).step == .casting) s (castDone s p.toNat))

/-! ### The steps of a reset (R425 to R427, R489, R490) -/

/-- SLICE_WRITE_BACK_COMPLETE: every dirty line is in T2, DRAM is in self-refresh and the partition reset is asserted, its requesters masked; a full-path cause since then resets and trains (R163, R425, R430). -/
def execSliceWriteBackComplete (p : PartId) (s : State) : Out :=
  .next (onlyIf ((s.part p.toNat).step == .writeBack) s (
    let q := p.toNat
    let s := resetUnits (forEach (s.part q).lines s (fun s l => (writeBackLine s q l).1)) q
    let x := s.part q
    if x.state = 1 then s.setPart q { x with step := .asserted, selfRefresh := true }
    else s.setPart q { x with step := .training, trainFails := 0 }))

/-- PARTITION_RESET_RELEASE: the stored training is applied and DRAM leaves self-refresh; a fast path that has become a full path trains instead (R425, R430). -/
def execPartitionResetRelease (p : PartId) (s : State) : Out :=
  .next (onlyIf ((s.part p.toNat).step == .asserted) s (
    let x := s.part p.toNat
    if x.state = 1 then s.setPart p.toNat { unmask x with step := .restoring, selfRefresh := false, scrubLevel := 0, quietWindows := 0, corrected := 0 }
    else s.setPart p.toNat { x with step := .training, selfRefresh := false, trainFails := 0 }))

/-- New training goes to both flashes (R489). -/
def storeTraining (s : State) (p : Nat) : State :=
  let gen := fun (t : Tab Training) => ((t.get? p).map Training.generation).getD 0
  let g := max (gen s.boot.training0) (gen s.boot.training1) + 1
  let r : Training := { generation := g, version := Config.trainingFormat s.boot.fwVersion, temp := junction s }
  countErase (countErase { s with boot := { s.boot with training0 := s.boot.training0.put p r, training1 := s.boot.training1.put p r } } 0 4) 1 4

/-- Every burst of a partition holds zero data with its check bits, T1 is cleared, and the scrubber starts at level 0 (R427, R488). -/
def clearPartition (s : State) (p : Nat) : State :=
  let s := { s with mem := (s.mem.clear (t2Base p) 0x400000000).clear (t1Base p) 0x2000000 }
  s.setPart p { s.part p with poisoned := [], lines := [], plru := [], scrubLevel := 0, scrubBurst := 0, quietWindows := 0, corrected := 0 }

/-- A partition still trains for the start (R488). -/
def startTraining (s : State) : Bool := (List.range 8).any (fun p => (s.part p).state == 0 && (s.part p).step == .training)

/-- Stage 0x06 begins when no partition trains any longer (R487, R488). -/
def memoryStage (s : State) : State :=
  if s.boot.stage = 5 ∧ startTraining s = false then { s with boot := { s.boot with stage := 6 } } else s

/-- The third failure of a full training: the partition is down, detector 0x06 with cause 1 at FATAL, flags bit 1 set; with every partition down at start the module stays in stage 0xE3 (R490). -/
def trainingLost (s : State) (p : Nat) : State :=
  let s := takeDown (raiseAs s 3 2 (mkEvent 0x06 p 0 1 (9 * p) (t2Base p))) p
  if s.boot.mailboxReady then s
  else if (List.range 8).all (fun q => (s.part q).state == 3) then { s with boot := { s.boot with stage := 0xE3 } }
  else s

/-- A training of a partition succeeds: at start its memory is initialised, in a full path its memory is cleared (R427, R488, R489). -/
def trained (s : State) (p : Nat) : State :=
  let s := patCount (storeTraining (clearPartition s p) p) (0x1A30 + 128 * p) 1
  s.setPart p { unmask (s.part p) with step := .restoring, trainFails := 0, trainings := (s.part p).trainings + 1 }

/-- DRAM_TRAINING_COMPLETE. -/
def execDramTrainingComplete (p : PartId) (ok : Bool) (s : State) : Out :=
  .next (onlyIf ((s.part p.toNat).step == .training) s (
    let q := p.toNat
    if ok then memoryStage (trained s q)
    else
      let n := (s.part q).trainFails + 1
      let s := s.setPart q { s.part q with trainFails := n }
      if n < 3 then s else memoryStage (trainingLost s q)))

/-- The partition returns to service; after a full path its objects are lost and its port objects empty (R425, R427, R428, R433, R540). -/
def inService (s : State) (p : Nat) : State :=
  let x := s.part p
  let full := x.state == 2
  let fast := x.state == 1
  let s := s.setPart p { x with
    state := 0, step := .none, selfRefresh := false
    backFast := if fast then some s.now else x.backFast, backFull := if full then some s.now else x.backFull }
  let s := if full then renewPorts (losePartition s p) (fun q => q == p) else s
  let s := grantQueue 64 (serveWaiting (finishReset s p stOk))
  updateResting (flushBoundary s)

/-- PARTITION_IN_SERVICE: the pinned ways are read and checked, and the partition serves again. -/
def execPartitionInService (p : PartId) (s : State) : Out :=
  .next (onlyIf ((s.part p.toNat).step == .restoring && (s.boot.mailboxReady || (s.part p.toNat).state == 1)) s (inService s p.toNat))

/-! ### The Atelier's own faults (R434) -/

/-- The firmware has started and the module runs on its main supply. -/
def atelierRuns (s : State) : Bool := timeRuns s && decide (4 ≤ s.boot.stage) && decide (s.boot.stage ≤ 8)

/-- The ROM starts the firmware again: the Patina is committed, the boot count increases, slots are chosen again, its fabric protocols start over, its requests are forgotten (R434, R500, R503, R534). -/
def restartFirmware (s : State) : State :=
  let s := commitPatina s 2
  { s with
    boot := { s.boot with stage := 3, fetchStopped := false, bootCount := (s.boot.bootCount + 1) % 2 ^ 32 }.writeCounters
    fab := { s.fab with mgmt := [], t3 := [], heldRes := [], granted := [] } }

/-- ATELIER_WATCHDOG_EXPIRY: detector 0x91 and an Atelier restart. -/
def execAtelierWatchdogExpiry (s : State) : Out :=
  .next (onlyIf (atelierRuns s) s (
    let inj := takeInjection s 0x91 (fun _ => true)
    restartFirmware (detect inj.2 (injFlags inj.1) (mkEvent 0x91 0xFF 0 0 0 0))))

/-- ATELIER_MEMORY_UNCORRECTED: detector 0x92 and an Atelier restart. -/
def execAtelierMemoryUncorrected (s : State) : Out :=
  .next (onlyIf (atelierRuns s) s (
    let inj := takeInjection s 0x92 (fun _ => true)
    restartFirmware (detect inj.2 (injFlags inj.1) (mkEvent 0x92 0xFF 0 0 0 0))))

/-! ### Injection arming (R411 to R413) -/

/-- INJECTION_DISARM: the window has ended: nothing stays pending and FLT_ARMED_UNTIL reads 0 (R411, R413). -/
def execInjectionDisarm (s : State) : Out :=
  .next (onlyIf (s.flt.armed && decide (s.flt.armedUntil.toNat ≤ s.now)) s
    { s with flt := { s.flt with armed := false, armedUntil := 0, pending := none } })

/-- `FAULT_INJECT_ARM`: a window of 1 to 3,600,000 ms, where inject_permitted is 1. -/
def execFaultInjectArm (m : MbxId) (h : CmdHdr) (windowMs : Nat) (s : State) : Out :=
  command0 s m h 0x90 4 (fun s =>
    if windowMs = 0 ∨ 3600000 < windowMs then complete s m h 0x90 stBadParam []
    else if setting s 0x0080 0 ≠ 1 then complete s m h 0x90 stDenied []
    else
      let til := BitVec.ofNat 64 (s.now + 1000000 * windowMs)
      complete { s with flt := { s.flt with armed := true, armedUntil := til } } m h 0x90 stOk (leBytes 8 til.toNat))

/-! ### The fault commands (R414, R423, R432) -/

/-- A partition entry of `FAULT_STATUS` (R414). -/
def partEntry (x : Part) : List Byte :=
  leBytes 1 x.state ++ leBytes 1 (if x.fastResets + x.fullResets = 0 then 0xFF else x.lastPath) ++ leBytes 2 0 ++
  leBytes 4 x.fastResets ++ leBytes 4 x.fullResets ++ leBytes 1 x.casts.length ++ leBytes 1 x.lastDetector ++ leBytes 2 0 ++
  leBytes 8 x.lastReset ++ leBytes 8 0

/-- The 1,280 bytes of `FAULT_STATUS` (R414). -/
def faultBytes (s : State) : List Byte :=
  ((List.range 256).map (fun d => leBytes 4 (min 0xFFFFFFFF (s.flt.counts.count d)))).flatten ++
  ((List.range 8).map (fun p => partEntry (s.part p))).flatten

/-- `FAULT_STATUS`. -/
def execFaultStatus (m : MbxId) (h : CmdHdr) (b : Bref) (s : State) : Out :=
  command s m h 0x91 0x10 (fun s =>
    replyBuf s m h 0x91 b (faultBytes s) (fun s => complete s m h 0x91 stOk
      (((List.range 4).map (fun v => leBytes 4 (s.flt.severities.count v))).flatten ++ leBytes 8 s.flt.lastFatal)))

/-- `CAST_FETCH`: `which` is 0 for the newest Cast of the partition, 1 for the previous one. -/
def execCastFetch (m : MbxId) (h : CmdHdr) (partition which : Nat) (b : Bref) (s : State) : Out :=
  command s m h 0x92 0x20 (fun s =>
    if 7 < partition ∨ 1 < which then complete s m h 0x92 stBadParam []
    else match (s.part partition).casts[which]? with
      | none => complete s m h 0x92 stAbsent []
      | some c => replyBuf s m h 0x92 b c.bytes (fun s => complete s m h 0x92 stOk (leBytes 4 c.bytes.length)))

/-- `PARTITION_RESET`: completes when the partition is in service (R430 to R432). -/
def execPartitionReset (m : MbxId) (h : CmdHdr) (partition path : Nat) (s : State) : Out :=
  command0 s m h 0x93 2 (fun s =>
    if 7 < partition ∨ 1 < path then complete s m h 0x93 stBadParam []
    else
      let x := s.part partition
      if x.state = 1 ∨ x.state = 2 ∨ (x.state = 3 ∧ path = 0) then complete s m h 0x93 stBusy []
      else
        let s := s.setPart partition { x with resetMbx := some (m, h), railOn := true }
        let s := resetCommanded s partition path
        if (s.part partition).state = 3 then s
        else await s m h 0x93 (.reset partition))

end Sys2Proof.Machine
end

