-- ==== Sys2Proof/Machine/Ptp.lean ====
section
/-! DEFINITION. IEEE 1588 on the service ports: the servo, the delay mechanisms, the best master clock algorithm, sending, and holdover (R442 to R447, R449, R451 to R453, R458). -/

namespace Sys2Proof.Machine

/-! ### Ports -/

/-- The PTP state of a port. -/
def pport (s : State) (port : BitVec 1) : PtpPort := if port = 0 then s.time.port0 else s.time.port1

/-- Replace the PTP state of a port; the status bits follow (R443). -/
def setPport (s : State) (port : BitVec 1) (p : PtpPort) : State :=
  let b := s.time
  { s with time := followPorts (if port = 0 then { b with port0 := p } else { b with port1 := p }) }

/-- The port takes PTP messages of this domain: PTP is on and the module is ACTIVE or in DROWSE (R449, R456). -/
def hears (s : State) (port : BitVec 1) (domain : Nat) : Bool :=
  timeRuns s && (pport s port).cfg.mode != 0 && (pport s port).cfg.domain == domain

/-- The port is in SLAVE and the sender is its master (R451). -/
def fromMaster (s : State) (port : BitVec 1) (sender domain : Nat) : Bool :=
  hears s port domain && (pport s port).state == 9 &&
  (match (pport s port).master with
   | some a => a.sender == sender
   | none => false)

/-! ### The servo (R443, R446, R447, R451) -/

/-- The waits of a port that hold stamps of the local clock, after a correction `c` of that clock. -/
def PtpPort.corrected (p : PtpPort) (c : Int) : PtpPort :=
  { p with
    gap := p.gap + c
    pendingSync := p.pendingSync.map (fun x => (x.1 + c, x.2))
    pendingDelay := p.pendingDelay.map (· + c)
    pendingPdelay := p.pendingPdelay.map (fun x => (x.1 + c, x.2.map (fun y => (y.1 + c, y.2)))) }

/-- The servo sets an increment, within R441, and keeps the last 16 (R451, R452). -/
def servoStep (s : State) : State :=
  let f := s.fresh
  let v := min incrMax (max incrMin (Config.servoIncrement f.1))
  let b := f.2.time
  { f.2 with time := { b with incr := BitVec.ofNat 40 v, slewing := false, servo := (b.servo ++ [v]).drop ((b.servo.length + 1) - 16) } }

/-- The end of R441 that reduces an offset (R447). -/
def slewEnd (offset : Int) : BitVec 40 := BitVec.ofNat 40 (if 0 < offset then incrMax else incrMin)

/-- One measured offset: no correction while the servo slews beyond the limit, the increment at the end of R441 that reduces it; else one correction, and a refusal starts a slew at the end of R441 that reduces the offset (R446, R447). -/
def servo (s : State) (port : BitVec 1) (offset : Int) : State :=
  let within := decide (offset.natAbs ≤ s.time.jumpLimit)
  if s.time.slewing && !within then { s with time := { s.time with incr := slewEnd offset } }
  else
    let r := requestCorrection s 0 offset
    if r.2 then
      let s := r.1
      servoStep (setPport s port ((pport s port).corrected offset))
    else
      let b := r.1.time
      { r.1 with time := { b with slewing := true, incr := slewEnd offset } }

/-- A complete Sync: the origin and correction of the master, the local receive stamp (R443, R451). -/
def takeSync (s : State) (port : BitVec 1) (rxStamp origin correction : Int) : State :=
  let p := pport s port
  let gap := rxStamp - origin - correction
  let offset := p.delay - gap
  let good := if offset.natAbs ≤ s.time.jumpLimit then min 16 (p.syncGood + 1) else 0
  let s := { s with time := { s.time with offset := clampInt (-(2 ^ 31 - 1)) (2 ^ 31 - 1) offset } }
  servo (setPport s port { p with gap := gap, pendingSync := none, syncGood := good }) port offset

/-- SYNC: a one-step Sync of the master is taken; a two-step one waits for its Follow_Up. -/
def execSync (port : BitVec 1) (sender : Nat) (domain : Nat) (rxStamp origin correction : Int) (twoStep : Bool) (s : State) : Out :=
  .next (onlyIf (fromMaster s port sender domain) s
    (if twoStep then setPport s port { pport s port with pendingSync := some (rxStamp, correction) }
     else takeSync s port rxStamp origin correction))

/-- FOLLOW_UP: the Sync it belongs to is complete. -/
def execFollowUp (port : BitVec 1) (sender : Nat) (domain : Nat) (origin correction : Int) (s : State) : Out :=
  .next (onlyIf (fromMaster s port sender domain) s
    (match (pport s port).pendingSync with
     | some x => takeSync s port x.1 origin (x.2 + correction)
     | none => s))

/-! ### Delay mechanisms (R449) -/

/-- Whether a port uses the peer delay mechanism. -/
def peerDelay (s : State) (port : BitVec 1) : Bool := (pport s port).cfg.delay == 1

/-- DELAY_REQ: a master port with the E2E mechanism answers with the receive stamp. -/
def execDelayReq (port : BitVec 1) (_sender : Nat) (domain : Nat) (rxStamp : Int) (s : State) : Out :=
  .next (onlyIf (hears s port domain && (pport s port).state == 6 && !peerDelay s port) s (s.emit (.ptp port.toNat 9 rxStamp 0)))

/-- DELAY_RESP: the mean path delay from the last Sync and the port's own Delay_Req. -/
def execDelayResp (port : BitVec 1) (sender : Nat) (domain : Nat) (masterRx correction : Int) (s : State) : Out :=
  .next (onlyIf (fromMaster s port sender domain && !peerDelay s port) s
    (let p := pport s port
     match p.pendingDelay with
     | some t3 => setPport s port { p with delay := (p.gap + (masterRx - t3 - correction)) / 2, pendingDelay := none }
     | none => s))

/-- The transmit stamp of a frame that leaves now: within 3 ns of T (R453). -/
def txStamp (s : State) : Int × State :=
  let f := s.fresh
  ((s.time.t : Int) + (Config.freeNat f.1 % 7 : Nat) - 3, f.2)

/-- PDELAY_REQ: a port with the peer delay mechanism answers with the receive stamp and the stamp of its response, the latter in a Follow_Up when it is two-step. -/
def execPdelayReq (port : BitVec 1) (_sender : Nat) (domain : Nat) (rxStamp : Int) (s : State) : Out :=
  .next (onlyIf (hears s port domain && peerDelay s port) s
    (let r := txStamp s
     if (pport s port).cfg.step = 0 then r.2.emit (.ptp port.toNat 3 rxStamp r.1)
     else (r.2.emit (.ptp port.toNat 3 rxStamp 0)).emit (.ptp port.toNat 0xA r.1 0)))

/-- PDELAY_RESP: the mean path delay, or in two-step the first half of its measurement. -/
def execPdelayResp (port : BitVec 1) (_sender : Nat) (domain : Nat) (rxStamp peerRx correction : Int) (twoStep : Bool) (s : State) : Out :=
  .next (onlyIf (hears s port domain && peerDelay s port) s
    (let p := pport s port
     match p.pendingPdelay with
     | some (t1, none) =>
       if twoStep then setPport s port { p with pendingPdelay := some (t1, some (rxStamp, peerRx - correction)) }
       else setPport s port { p with delay := (rxStamp - t1 - correction) / 2, pendingPdelay := none }
     | _ => s))

/-- PDELAY_RESP_FOLLOW_UP: the second half of a two-step measurement. -/
def execPdelayRespFollowUp (port : BitVec 1) (_sender : Nat) (domain : Nat) (peerTx correction : Int) (s : State) : Out :=
  .next (onlyIf (hears s port domain && peerDelay s port) s
    (let p := pport s port
     match p.pendingPdelay with
     | some (t1, some (t4, t2)) =>
       setPport s port { p with delay := (t4 - t1 - (peerTx - t2) - correction) / 2, pendingPdelay := none }
     | _ => s))

/-! ### The best master clock (R449, R451) -/

/-- Lexicographic order of two lists of attributes. -/
def lexLt : List Nat → List Nat → Bool
  | [], _ => false
  | _ :: _, [] => false
  | a :: as, b :: bs => decide (a < b) || (a == b && lexLt as bs)

/-- The default algorithm's comparison of two data sets: the smaller attributes are better; of two paths to one grandmaster, the shorter. -/
def betterClock (a b : AnnounceData) : Bool :=
  if a.grandmaster = b.grandmaster then lexLt [a.stepsRemoved, a.sender] [b.stepsRemoved, b.sender]
  else lexLt [a.priority1, a.clockClass, a.clockAccuracy, a.variance, a.priority2, a.grandmaster]
    [b.priority1, b.clockClass, b.clockAccuracy, b.variance, b.priority2, b.grandmaster]

/-- The module's own data set (R449). -/
def ownClock : AnnounceData :=
  { priority1 := 128, clockClass := 248, clockAccuracy := 0xFE, variance := Config.ptpVariance, priority2 := 128
    grandmaster := Config.ptpIdentity, stepsRemoved := 0, sender := Config.ptpIdentity, utcOffset := 0, utcValid := false }

/-- The state of a port after the decision, given what the other port hears: SLAVE towards the best clock that beats the module's own, else MASTER; a port that hears nobody keeps listening (R449, R451). -/
def portDecision (p : PtpPort) (other : Option AnnounceData) : Nat :=
  if p.cfg.mode = 0 then 0
  else match p.master with
    | none => if p.state = 1 ∨ p.state = 4 then 4 else 6
    | some a =>
      let best := match other with
        | some o => !betterClock o a
        | none => true
      if betterClock a ownClock && best then 9 else 6

/-- A port enters a state; one newly in SLAVE starts its count of Syncs and its waits anew. -/
def PtpPort.enter (p : PtpPort) (st : Nat) : PtpPort :=
  if st = p.state then p
  else { p with state := st, syncGood := 0, pendingSync := none, pendingDelay := none }

/-- No port is in SLAVE. -/
def noSlave (b : TimeBase) : Bool := b.port0.state != 9 && b.port1.state != 9

/-- The decision of both ports; a port that reaches SLAVE ends holdover (R449, R451, R452). -/
def decidePorts (s : State) : State :=
  let b := s.time
  let heard := fun (p : PtpPort) => if p.cfg.mode = 0 then none else p.master
  let p0 := b.port0.enter (portDecision b.port0 (heard b.port1))
  let p1 := b.port1.enter (portDecision b.port1 (heard b.port0))
  let b' := followPorts { b with port0 := p0, port1 := p1 }
  { s with time := if noSlave b' then b' else { b' with holdover := false } }

/-- The offset of UTC that the port in SLAVE hears (R443). -/
def takeUtc (s : State) (port : BitVec 1) (d : AnnounceData) : State :=
  if (pport s port).state = 9 ∧ d.utcValid = true then
    { s with time := { s.time with utcFromMaster := true, utcOffset := d.utcOffset }, pat := { s.pat with utcHeld := some d.utcOffset } }
  else s

/-- An injection of 0x42 discards the Announce messages of its port until the announce timeout (R410). -/
def announceBlocked (s : State) (port : BitVec 1) : Bool :=
  match s.flt.pending with
  | some i => i.detector == 0x42 && injIndex i.target == port.toNat
  | none => false

/-- ANNOUNCE: the port's best master is kept, then both ports are decided. -/
def execAnnounce (port : BitVec 1) (domain : Nat) (d : AnnounceData) (s : State) : Out :=
  .next (onlyIf (hears s port domain && d.sender != Config.ptpIdentity && decide (d.stepsRemoved < 255) && !announceBlocked s port) s
    (let p := pport s port
     let keep := match p.master with
       | some a => a.sender != d.sender && !betterClock d a
       | none => false
     if keep then s
     else takeUtc (decidePorts (setPport s port { p with master := some d, announceAt := s.now })) port d))

/-- PTP_MESSAGE_DISCARD: Management and Signaling messages are discarded. -/
def execPtpMessageDiscard (_port : BitVec 1) (s : State) : Out := .next s

/-! ### Sending (R449, R451, R453, R458) -/

/-- What becomes of the UDP checksum when the origin timestamp is written into a departing Sync: 0 nothing, 1 set to 0 over IPv4, 2 corrected by the final two bytes over IPv6 (R451). -/
def checksumMark (p : PtpPort) : Int := p.cfg.transport

/-- A Sync leaves: with its origin timestamp in one-step, to be followed by a Follow_Up in two-step. -/
def sendSync (s : State) (port : BitVec 1) : State :=
  let p := pport s port
  let r := txStamp s
  if p.cfg.step = 0 then r.2.emit (.ptp port.toNat 0 r.1 (checksumMark p))
  else setPport (r.2.emit (.ptp port.toNat 0 0 0)) port { p with awaitingStamp := some (s.now, r.1) }

/-- A delay request leaves, and its stamp is kept. -/
def sendDelayReq (s : State) (port : BitVec 1) (kind : Nat) : State :=
  let p := pport s port
  let r := txStamp s
  setPport (r.2.emit (.ptp port.toNat kind 0 0)) port
    (if kind = 1 then { p with pendingDelay := some r.1 } else { p with pendingPdelay := some (r.1, none) })

/-- PTP_MESSAGE_SEND: a message of the port's role leaves; a port that initialises starts to listen instead. The kinds are the messageTypes of the standard. -/
def execPtpMessageSend (port : BitVec 1) (kind : Nat) (s : State) : Out :=
  .next (onlyIf (timeRuns s && (pport s port).cfg.mode != 0) s
    (let p := pport s port
     if p.state = 1 then setPport s port { p with state := 4, announceAt := s.now }
     else match kind with
       | 0x0 => if p.state = 6 then sendSync s port else s
       | 0x1 => if p.state = 9 ∧ p.cfg.delay = 0 then sendDelayReq s port 1 else s
       | 0x2 => if p.cfg.delay = 1 then sendDelayReq s port 2 else s
       | 0x8 => match p.awaitingStamp with
         | some w => if p.state = 6 then (setPport s port { p with awaitingStamp := none }).emit (.ptp port.toNat 8 w.2 0) else s
         | none => s
       | 0xB => if p.state = 6 then s.emit (.ptp port.toNat 0xB (if s.time.utcFromMaster then s.time.utcOffset else 0) 0) else s
       | _ => s))

/-- FOLLOW_UP_ABANDON: a stamp awaited for 1 ms is given up, after the tick on which it may still arrive (R458, assumption 157). -/
def execFollowUpAbandon (port : BitVec 1) (s : State) : Out :=
  .next (match (pport s port).awaitingStamp with
    | some w => onlyIf (decide (w.1 + 1000000 < s.now)) s (setPport s port { pport s port with awaitingStamp := none })
    | none => s)

/-! ### Holdover (R452) -/

/-- The mean of the last 16 servo increments, or the increment in force where the servo has set none. -/
def meanIncrement (b : TimeBase) : BitVec 40 :=
  if b.servo.isEmpty then b.incr else BitVec.ofNat 40 (b.servo.sum / b.servo.length)

/-- The time base enters holdover. -/
def enterHoldover (b : TimeBase) : TimeBase :=
  { b with holdover := true, incr := meanIncrement b, slewing := false, holdoverEst := 0, holdoverRem := 0, exceededRaised := false }

/-- ANNOUNCE_RECEIPT_TIMEOUT: three announce intervals of 2 s without an Announce, an Announce of the last tick counting (R458, assumption 157). A port in SLAVE raises detector 0x42, the ports are decided without its master, and without a port in SLAVE holdover starts; a port that listens becomes master. -/
def execAnnounceReceiptTimeout (port : BitVec 1) (s : State) : Out :=
  .next (onlyIf (timeRuns s && (pport s port).cfg.mode != 0 && decide ((pport s port).announceAt + 6000000000 < s.now)) s
    (let p := pport s port
     let was := p.state
     let inj := if was = 9 then takeInjection s 0x42 (fun i => injIndex i.target == port.toNat) else (none, s)
     let s := decidePorts (setPport inj.2 port { p with master := none, state := if was = 9 ∨ was = 4 then 6 else was, syncGood := 0 })
     if was = 9 then
       let s := raiseAs s 1 (injFlags inj.1) (mkEvent 0x42 0xFF 0 0 0 0)
       if noSlave s.time then { s with time := enterHoldover s.time } else s
     else s))

end Sys2Proof.Machine
end

