-- ==== Sys2Proof/Machine/Boot.lean ====
section
/-! DEFINITION. Start-up: the cold start, slot choice, the Plinth and its Reliefs, mailbox ready; firmware updates and attestation (R368, R369, R372, R457, R487 to R511, R534, R547). -/

namespace Sys2Proof.Machine

/-! ### Plinths and Reliefs (R368, R369) -/

/-- `n` setting records with ascending keys from `low`, and the bytes they take; `none` where one does not fit. -/
def settingRecords : Nat → Nat → List Byte → Option (List Setting × Nat)
  | 0, _, _ => some ([], 0)
  | n + 1, low, bs =>
    let key := fld bs 0 2; let len := fld bs 2 2
    let size := 4 + (len + 3) / 4 * 4
    if 64 < len ∨ bs.length < size ∨ key < low then none
    else (settingRecords n (key + 1) (bs.drop size)).map (fun r => ({ key := key, value := slice bs 4 len } :: r.1, size + r.2))

/-- The Relief of some bytes, `none` where its layout does not hold. -/
def parseRelief (bs : List Byte) : Option Relief :=
  if bs.take 4 ≠ [0x53, 0x4D, 0x52, 0x46] ∨ fld bs 4 2 = 0 ∨ 16 < fld bs 4 2 ∨ fld bs 0xC 4 ≠ 0 then none
  else match settingRecords (fld bs 6 2) 0 (bs.drop 0x20) with
    | some (xs, n) =>
      if bs.length = 0x20 + n + 80 then
        some { id := fld bs 4 2, plinthVersion := fld bs 8 4, name := slice bs 0x10 16, settings := xs
               verified := signedBy bs configKey, measurement := measure bs, flags := fld bs 0xC 4, keyId := blockKeyId bs }
      else none
    | none => none

/-- The Plinth of some bytes, `none` where its layout does not hold. -/
def parsePlinth (bs : List Byte) : Option Plinth :=
  let so := fld bs 0x14 4; let ro := fld bs 0x18 4; let n := fld bs 0x12 1
  if bs.take 4 ≠ [0x53, 0x4D, 0x50, 0x4C] ∨ fld bs 4 2 ≠ 1 ∨ fld bs 6 2 ≠ 0x40 ∨ fld bs 0xC 4 ≠ bs.length ∨ 0x40000 < bs.length ∨
      bs.length < 0x40 + 80 ∨ n = 0 ∨ 16 < n ∨ so % 16 ≠ 0 ∨ so < 0x40 ∨ zeros bs 0x1C 36 = false ∨ bs.length < ro + 8 * n + 80 then none
  else match settingRecords (fld bs 0x10 2) 0 (bs.drop so), (List.range n).mapM (fun i => parseRelief (slice bs (fld bs (ro + 8 * i) 4) (fld bs (ro + 8 * i + 4) 4))) with
    | some (xs, used), some rs =>
      if so + used + 80 ≤ bs.length ∧ (rs.map Relief.id).eraseDups.length = n then
        some { version := fld bs 8 4, settings := xs, reliefs := rs, defaultRelief := fld bs 0x13 1, bytes := bs }
      else none
    | _, _ => none

/-- The Relief belongs to the Plinth and overrides only what a Relief may (R369). -/
def Plinth.admits (p : Plinth) (r : Relief) : Bool := r.plinthVersion == p.version && r.settings.all (fun x => overridable x.key)

/-! ### Images of a target: 0 firmware, 1 Plinth (R493, R494) -/

/-- The layout of a firmware image. -/
def firmwareLayout (bs : List Byte) : Bool :=
  let n := bs.length
  bs.take 4 == [0x53, 0x4D, 0x46, 0x57] && fld bs 4 2 == 1 && fld bs 6 2 == 0x40 && fld bs 0xC 4 == n && decide (n ≤ 0x800000) &&
  decide (0x40 + 80 ≤ n) && decide (fld bs 0x14 4 ≤ 2048) && decide (fld bs 0x10 4 + fld bs 0x14 4 + 80 ≤ n) && fld bs 0x18 4 % 16 == 0 &&
  decide (fld bs 0x18 4 + fld bs 0x1C 4 + 80 ≤ n) && zeros bs 0x20 32

/-- The layout of an image. -/
def imageLayout (target : Nat) (bs : List Byte) : Bool := if target = 0 then firmwareLayout bs else (parsePlinth bs).isSome

/-- The firmware key that the root key certifies in the image. -/
def firmwareKey (bs : List Byte) : Option (Nat × Nat) :=
  if rootAccepted then Config.certKey (slice bs (fld bs 0x10 4) (fld bs 0x14 4)) Config.rootKey else none

/-- The image is signed under the key of its kind. -/
def imageSigned (target : Nat) (bs : List Byte) : Bool :=
  if target = 0 then (match firmwareKey bs with
    | some key => signedBy bs (fun id => if keyId key = id then some key else none)
    | none => false)
  else signedBy bs configKey

/-- Every Relief of a Plinth is signed and valid in it (R369, R497); true of firmware. -/
def reliefsHold (target : Nat) (bs : List Byte) : Bool :=
  target == 0 || (match parsePlinth bs with
    | some p => p.reliefs.all (fun r => r.verified && p.admits r)
    | none => false)

/-! ### Slots (R495 to R498) -/

/-- The slot of a target: slot A is 0, in flash 0. -/
def slotOf (b : Boot) (target slot : Nat) : Slot :=
  if target = 0 then (if slot = 0 then b.fwA else b.fwB) else (if slot = 0 then b.plA else b.plB)

/-- Replace a slot's record. -/
def setSlot (s : State) (target slot : Nat) (x : Slot) : State :=
  { s with boot :=
    if target = 0 then (if slot = 0 then { s.boot with fwA := x } else { s.boot with fwB := x })
    else (if slot = 0 then { s.boot with plA := x } else { s.boot with plB := x }) }

/-- The slot in use of a target. -/
def inUseSlot (b : Boot) (target : Nat) : Nat := if target = 0 then b.fwSlot else b.plinthSlot

/-- The floor of a target. -/
def floorOf (b : Boot) (target : Nat) : Nat := if target = 0 then b.fwFloor else b.plinthFloor

/-- Offset of a target's slot in its flash. -/
def slotOffset (target : Nat) : Nat := if target = 0 then 0x59000 else 0x19000

/-- The bytes of a NOR flash. -/
def flashOf (b : Boot) (flash : Nat) : Memory := if flash = 0 then b.flash0 else b.flash1

/-- Replace the bytes of a NOR flash. -/
def setFlash (s : State) (flash : Nat) (m : Memory) : State :=
  { s with boot := if flash = 0 then { s.boot with flash0 := m } else { s.boot with flash1 := m } }

/-- The image in a slot. -/
def slotImage (b : Boot) (target slot : Nat) : List Byte := (flashOf b slot).read (slotOffset target) (slotOf b target slot).length

/-- R497: the slot is bootable. -/
def bootable (b : Boot) (target slot : Nat) : Bool :=
  let x := slotOf b target slot
  (x.state == 2 || x.state == 3) && x.verified && decide (floorOf b target ≤ x.version) && (x.state != 2 || decide (x.attempts < 3))

/-- The bootable slot with the higher sequence, slot A among equals. -/
def chosenSlot (b : Boot) (target : Nat) : Option Nat :=
  match bootable b target 0, bootable b target 1 with
  | true, true => if (slotOf b target 0).sequence < (slotOf b target 1).sequence then some 1 else some 0
  | true, false => some 0
  | false, true => some 1
  | false, false => none

/-- The slots passed over: committed or confirmed, not bootable, and preferred to the chosen one. -/
def passedOver (b : Boot) (target : Nat) : List Nat :=
  [0, 1].filter (fun k =>
    let x := slotOf b target k
    decide (2 ≤ x.state) && !bootable b target k && (match chosenSlot b target with
      | some c => decide ((slotOf b target c).sequence < x.sequence)
      | none => true))

/-- The figures of a log record about a slot (R535). -/
def slotFigures (target slot version : Nat) : Nat := target + slot * 256 + version * 65536

/-- A slot that is passed over is reported, one whose image does not verify with detector 0x70 (R493, R497, R535). -/
def passOver (s : State) (target slot : Nat) : State :=
  let x := slotOf s.boot target slot
  let s := logRecord s 0x02 (slotFigures target slot x.version)
  if x.verified then s else signatureFail s target (blockKeyId (slotImage s.boot target slot)) 0

/-- Choose a target's slot, count its boot attempt, and report what is passed over (R497, R498). -/
def chooseSlot (s : State) (target : Nat) : State × Option Nat :=
  let c := chosenSlot s.boot target
  let s := forEach (passedOver s.boot target) s (fun s k => passOver s target k)
  match c with
  | none => (s, none)
  | some k =>
    let x := slotOf s.boot target k
    (setSlot s target k { x with attempts := x.attempts + 1 }, some k)

/-! ### Cold start (R488, R503 to R506, R523, R532, R534, R547) -/

/-- What the ferroelectric RAM and the always-on island give at start; `kept` tells that the island kept its power (R534 step 4). -/
def startPatina (p : Patina) (kept : Bool) : Patina :=
  let took := kept && p.always.valid && decide (p.newest.sequence ≤ p.always.sequence)
  { p with
    always := { (if took then p.always else p.newest) with valid := true }
    alwaysTaken := took, feramOk := true, block := [], rest := [], foldAt := 0, buffer := if kept then p.buffer else [] }

/-- The highest version among the slots of a target that verify (R504). -/
def highestVersion (b : Boot) (target : Nat) : Nat :=
  ([0, 1].filter (fun k => (slotOf b target k).verified && (slotOf b target k).state != 0)).foldl (fun a k => max a (slotOf b target k).version) 0

/-- What of the start-up state survives: flash, the recorded Relief, training; the counters come from the copy that the ROM takes, the identity is derived anew. With no valid copy the floors are the highest versions that verify, and both copies are rewritten (R438, R503 to R506). -/
def startBoot (b : Boot) (root pufOk : Bool) : Boot :=
  let copy := b.counterCopy pufOk
  let b := { b with
    stage := 3
    fwFloor := (copy.map CounterBlock.fwFloor).getD (highestVersion b 0)
    plinthFloor := (copy.map CounterBlock.plinthFloor).getD (highestVersion b 1)
    bootCount := (max b.bootCount ((copy.map CounterBlock.bootCount).getD 0) + 1) % 2 ^ 32
    counterGen := (copy.map CounterBlock.generation).getD b.counterGen, counterOk := copy.isSome
    identity := if pufOk then identityOf (publicKey identityKey) else Config.certIdentity, identityOk := pufOk
    rootPort := root, cold := true }
  if copy.isNone then b.writeCounters.writeCounters else b.writeCounters

/-- The calendar at a cold start (R457, R539). -/
def startTime (b : TimeBase) (cellOk : Bool) : TimeBase :=
  { b with
    calSec := if cellOk then b.calSec else 0, calNs := if cellOk then b.calNs else 0
    calLost := b.calLost || !cellOk, calendarValid := cellOk && !b.calLost && !b.calStopped }

/-- Everything volatile is lost: what stays is the ferroelectric RAM, the flashes, the always-on island's calendar and keeper, and what the monitors last read (R438, R523). -/
def volatileLost (s : State) : State :=
  { State.reset with
    pending := s.pending, hostMem := s.hostMem, freeCount := s.freeCount, out := s.out, pat := s.pat
    boot := { s.boot with
      stage := 0, atelierOk := false, mailboxReady := false, plinth := Plinth.none, fwVersion := 0, activeRelief := 0
      runtime := [], fwHash := 0, plinthHash := 0, reliefHash := 0, fetchStopped := false, cold := false }
    time := { TimeBase.reset with
      calSec := s.time.calSec, calNs := s.time.calNs, calStopped := s.time.calStopped, calLost := s.time.calLost
      keeper := s.time.keeper, keeperTrim := s.time.keeperTrim }
    power := { Power.reset with
      inputMv := s.power.inputMv, tcxoOk := s.power.tcxoOk, crystalOk := s.power.crystalOk, case0 := s.power.case0, case1 := s.power.case1 } }

/-- R488: the cold start up to the end of stage 0x02: everything volatile is lost, identity and counters are read, the boot count and the cold starts increase. -/
def coldStart (s : State) (root cellOk pufOk kept : Bool) : State :=
  let s := volatileLost s
  let s := { s with
    boot := startBoot s.boot root pufOk, pat := startPatina s.pat kept, time := startTime s.time cellOk, power := { s.power with state := 0 } }
  let s := patCount s 0x48 1
  let s := if pufOk then s else raise s (mkEvent 0x73 0xFF 0 0 0 0)
  if s.boot.counterOk then s else raise s (mkEvent 0x71 0xFF 0 1 0 0)

/-- POWER_ON: the input first reaches 36 V, with the strap, the backup cell and the PUF as they are found. -/
def execPowerOn (root cellOk pufOk : Bool) (s : State) : Out :=
  .next (onlyIf (s.power.state == 4) s (
    let s := coldStart s root cellOk pufOk false
    { s with power := { s.power with inputMv := max 36000 s.power.inputMv } }))

/-! ### The firmware's start (R372, R456, R457, R489, R497, R498) -/

/-- The Relief in force at start: the recorded one, else the default, else none (R372). -/
def startRelief (s : State) : State :=
  let use := fun (s : State) (r : Relief) => { s with boot := { s.boot with activeRelief := r.id, reliefHash := r.measurement } }
  let dflt := fun (s : State) =>
    match s.boot.plinth.reliefs.find? (fun r => r.id == s.boot.plinth.defaultRelief && r.verified && reliefValid s r) with
    | some r => use s r
    | none => { s with boot := { s.boot with activeRelief := 0, reliefHash := 0 } }
  if s.boot.recordedRelief = 0 then dflt s
  else match checkRelief s s.boot.recordedRelief with
    | (s, some r) => use s r
    | (s, none) => dflt s

/-- The module was powered and asleep in a state for a time, which its seconds count (R536). -/
def countSleep (s : State) (state ns : Nat) : State :=
  let sec := 1000000000
  let r := runCounters ns [(0x40, 1, sec), (0x54 + 8 * state, 1, sec), (0x7C + 8 * capIndex (capInForce s), 1, sec)] s.pat.always.counters s.pat.rest
  { s with pat := { s.pat with always := { s.pat.always with counters := r.1 }, rest := r.2 } }

/-- T takes the keeper's value, after a time no rule states, plus the transfer latency; the source is 3 and holdover begins (R456). -/
def loadKeeper (s : State) : State :=
  let f := s.fresh
  let asleep := 100 * Config.freeNat f.1
  let s := countSleep f.2 (if s.power.state = 2 then 2 else 3) asleep
  let t := max s.time.t (s.time.keeper + asleep + Config.keeperLatency) % 2 ^ 64
  let b := enterHoldover { s.time with t := t, f := 0, source := 3 }
  { s with time := followPorts b, pat := { s.pat with foldAt := t }, power := { s.power with waking := false } }

/-- T is loaded from the calendar, with the last TAI − UTC held (R457, R538). -/
def loadCalendar (s : State) : State :=
  let s := runCalendar s
  let b := s.time
  let off := s.pat.utcHeld.getD 37
  let t := if b.calLost then 0 else ((b.calSec + off) * 1000000000 + b.calNs) % 2 ^ 64
  { s with
    time := followPorts { b with t := t, f := 0, utcOffset := off, utcFromMaster := false }
    pat := { s.pat with foldAt := t, firstPowerOn := if s.pat.firstPowerOn = 0 then t else s.pat.firstPowerOn } }

/-- Every Frieze port that is off is powered and waits for signal; the node is its own registrar (R469, R473, R488). -/
def powerPorts (s : State) : State :=
  standAlone (forEach (List.range 6) s (fun s p => if (fport s p).state = 0 then setFport s p { fport s p with state := 1 } else s))

/-- Stage 0x03: the ROM starts the firmware of the chosen slot. -/
def startFirmware (s : State) : State :=
  match chooseSlot s 0 with
  | (s, none) => { s with boot := { s.boot with stage := 0xE1 } }
  | (s, some k) =>
    let x := slotOf s.boot 0 k
    { s with boot := { s.boot with stage := 4, fwSlot := k, fwVersion := x.version, fwHash := x.hash, atelierOk := true } }

/-- The path of mailbox 0 is the one the Plinth names, whose other fields stay (R344, R369). -/
def fixPath0 (s : State) : State :=
  let v := setting s 0x0002 0
  let b := s.box 0
  s.setBox 0 { b with ctrl := (b.ctrl &&& 0x5#32) ||| BitVec.ofNat 32 (v % 2 * 2 + v / 65536 % 1024 * 65536) }

/-- The settings of the chosen Plinth and Relief come into force, the path of mailbox 0 with them (R344, R369, R372, R525). -/
def startSettings (s : State) (k : Nat) : State :=
  let x := slotOf s.boot 1 k
  let s := { s with boot := { s.boot with
    plinthSlot := k, plinth := if k = 0 then s.boot.plinthA else s.boot.plinthB, plinthHash := x.hash, runtime := [] } }
  let s := fixPath0 (policyToPorts (followSettings (startRelief s)))
  { s with power := { s.power with capInForce := capInForce s } }

/-- Stage 0x04: the Plinth, its Reliefs, the calendar, and the Frieze ports of a cold start. -/
def startPlinth (s : State) : State :=
  match chooseSlot s 1 with
  | (s, none) => { s with boot := { s.boot with stage := 0xE2 } }
  | (s, some k) =>
    let s := startSettings s k
    if s.boot.cold then
      let s := powerPorts (if s.power.waking then loadKeeper s else loadCalendar s)
      { s with boot := { s.boot with stage := 5 } }
    else { s with boot := { s.boot with stage := 6 } }

/-- A partition has a stored record that the firmware may use (R489). -/
def trainingUsable (s : State) (p : Nat) (dieTemp : Int) : Bool :=
  [s.boot.training0.get? p, s.boot.training1.get? p].any (fun r => match r with
    | some x => x.version == Config.trainingFormat s.boot.fwVersion && decide ((dieTemp - x.temp).natAbs ≤ 300)
    | none => false)

/-- Stage 0x05: stored training is applied where it is usable, and that partition's memory is initialised; the others train (R488, R489). -/
def startDram (s : State) (dieTemp : Int) : State :=
  memoryStage (forEach (List.range 8) s (fun s p =>
    if trainingUsable s p dieTemp then
      let s := clearPartition s p
      s.setPart p { s.part p with step := .none }
    else s.setPart p { s.part p with step := .training, trainFails := 0 }))

/-- FIRMWARE_START: the next stage of a start, in the order 0x03, 0x04, 0x05. -/
def execFirmwareStart (dieTemp : Int) (s : State) : Out :=
  .next (match s.boot.stage with
    | 3 => startFirmware s
    | 4 => startPlinth s
    | 5 => if startTraining s then s else startDram s dieTemp
    | _ => s)

/-! ### Mailbox ready (R344, R498, R501, R540) -/

/-- The floor of a target is raised to a version, where the counter key is there to write it (R501, R504). -/
def raiseFloor (s : State) (target version : Nat) : State :=
  let b := s.boot
  if !b.identityOk then s
  else { s with boot := { b with
    fwFloor := if target = 0 then version else b.fwFloor
    plinthFloor := if target = 1 then version else b.plinthFloor }.writeCounters }

/-- A slot's record is written: its generation increases, and its sector is erased (R496, R536). -/
def writeRecord (s : State) (target slot : Nat) (x : Slot) : State :=
  let s := setFlash s slot ((flashOf s.boot slot).clear (0x2000 * target) 0x2000)
  countErase (setSlot s target slot { x with generation := (x.generation + 1) % 2 ^ 32 }) slot target

/-- The slot in use clears its attempts and, when committed, is confirmed (R498, R501). -/
def confirmSlot (s : State) (target : Nat) : State :=
  let k := inUseSlot s.boot target
  let x := slotOf s.boot target k
  let s := setSlot s target k { x with attempts := 0 }
  if x.state ≠ 2 then s
  else
    let s := writeRecord s target k { x with attempts := 0, state := 3 }
    logRecord (raiseFloor s target x.version) 0x07 (slotFigures target k x.version)

/-- The path of mailbox 0 is the Plinth's (R344, R369). -/
def placeMailbox0 (s : State) : State :=
  let v := setting s 0x0002 0
  s.setBox 0 { Mailbox.reset with ctrl := BitVec.ofNat 32 (v % 2 * 2 + v / 65536 % 1024 * 65536) }

/-- MAILBOX_READY: memory is initialised and a partition serves: the mailboxes open, committed slots are confirmed, the port objects exist. -/
def execMailboxReady (s : State) : Out :=
  .next (onlyIf (s.boot.stage == 6 && !startTraining s && (List.range 8).any (fun p => (s.part p).state != 3)) s (
    let s := forEach (List.range 8) s (fun s p =>
      if (s.part p).state = 0 then s.setPart p { s.part p with step := .none } else s)
    let s := confirmSlot (confirmSlot s 0) 1
    let s := { s with boot := { s.boot with stage := 7, mailboxReady := true, cold := false } }
    fullService (createPorts (placeMailbox0 s))))

/-! ### Updates (R499, R500) -/

/-- The signatures of an image to be staged: its own and, of a Plinth, every Relief's; detector 0x70 for one that fails (R493, R499 step 2). -/
def stageSigned (s : State) (target : Nat) (bs : List Byte) : State × Bool :=
  let r := checkSigned s (imageSigned target bs) target (blockKeyId bs)
  if !r.2 then r
  else match (if target = 1 then parsePlinth bs else none) with
    | none => r
    | some p =>
      let t := p.reliefs.foldl (fun acc x => if x.verified then acc else (signatureFail acc.1 2 x.keyId 0, false)) r
      (t.1, t.2 && p.reliefs.all (fun x => p.admits x))

/-- The version of an image that its header states. -/
def imageVersion (bs : List Byte) : Nat := fld bs 8 4

/-- The staged image and its record are in flash (R499 steps 4 to 7). -/
def stageImage (s : State) (target : Nat) (bs : List Byte) : State :=
  let k := 1 - inUseSlot s.boot target
  let x := slotOf s.boot target k
  let s := writeRecord s target k { Slot.empty with generation := x.generation }
  let s := countErase (setFlash s k ((flashOf s.boot k).write (slotOffset target) bs)) k (6 - target)
  let g := (slotOf s.boot target k).generation
  let s := writeRecord s target k
    { state := 1, sequence := 0, version := imageVersion bs, length := bs.length, generation := g, hash := measure bs, verified := true, attempts := 0 }
  match (if target = 1 then parsePlinth bs else none) with
  | none => s
  | some p => { s with boot := if k = 0 then { s.boot with plinthA := p } else { s.boot with plinthB := p } }

/-- `FW_STAGE`. -/
def execFwStage (m : MbxId) (h : CmdHdr) (target : Nat) (b : Bref) (s : State) : Out :=
  command0 s m h 0xB0 0x20 (fun s =>
    if 1 < target then complete s m h 0xB0 stBadParam []
    else withBuf s m h 0xB0 b b.len (fun s all =>
      let bs := all.take (fld all 0xC 4)
      if imageLayout target bs = false then complete s m h 0xB0 stBadParam []
      else
        let r := stageSigned s target bs
        if !r.2 then complete r.1 m h 0xB0 stDenied []
        else
          let inj := takeInjection r.1 0x71 (fun _ => true)
          let s := inj.2
          if inj.1.isSome ∨ imageVersion bs < floorOf s.boot target then
            complete (raiseAs s 1 (injFlags inj.1) (mkEvent 0x71 0xFF 0 0 0 0)) m h 0xB0 stDenied []
          else complete (stageImage s target bs) m h 0xB0 stOk []))

/-- `FW_COMMIT`. -/
def execFwCommit (m : MbxId) (h : CmdHdr) (target : Nat) (s : State) : Out :=
  command0 s m h 0xB1 1 (fun s =>
    let k := 1 - inUseSlot s.boot target
    let x := slotOf s.boot target k
    if 1 < target ∨ x.state ≠ 1 then complete s m h 0xB1 stBadParam []
    else
      let r := checkSigned s (x.verified && reliefsHold target (slotImage s.boot target k)) target (blockKeyId (slotImage s.boot target k))
      if !r.2 then complete r.1 m h 0xB1 stDenied []
      else
        let s := r.1
        let s := writeRecord s target k { x with state := 2, sequence := ((slotOf s.boot target (1 - k)).sequence + 1) % 2 ^ 32 }
        complete (logRecord s 0x07 (slotFigures target k x.version)) m h 0xB1 stOk [])

/-! ### JTAG programming of the flashes (R495, R496, R561) -/

/-- The record of a slot-record page, `none` where its magic or CRC-32 does not hold (R496). -/
def pageRecord (bs : List Byte) : Option Slot :=
  if bs.take 4 = [0x53, 0x4D, 0x53, 0x52] ∧ fld bs 0x3C 4 = (crc32 (bs.take 0x3C)).toNat then
    some { state := fld bs 5 1, sequence := fld bs 8 4, version := fld bs 0xC 4, length := fld bs 0x10 4, generation := fld bs 0x14 4
           hash := ofBe (slice bs 0x18 32), verified := false, attempts := 0 }
  else none

/-- The record of a slot after its flash was programmed: the valid page with the higher generation; a page no one has programmed holds the record as it was. -/
def foundRecord (b : Boot) (target slot : Nat) : Slot :=
  let page := fun (i : Nat) => (flashOf b slot).read (0x2000 * target + 0x1000 * i) 64
  let cand := [0, 1].filterMap (fun i =>
    if (page i).all (fun x => x == 0) then some (slotOf b target slot) else pageRecord (page i))
  cand.foldl (fun a x => if a.generation ≤ x.generation then x else a) Slot.empty

/-- A slot after its record or its image was programmed through JTAG. -/
def reparseSlot (s : State) (target slot : Nat) (imageTouched : Bool) : State :=
  let old := slotOf s.boot target slot
  let x := foundRecord s.boot target slot
  let bs := (flashOf s.boot slot).read (slotOffset target) x.length
  let same := x.hash == old.hash && x.length == old.length && !imageTouched
  let ok := if same then old.verified else measure bs == x.hash && imageLayout target bs && imageSigned target bs && reliefsHold target bs
  let s := setSlot s target slot { x with verified := ok, attempts := old.attempts }
  match (if target = 1 ∧ same = false then parsePlinth bs else none) with
  | none => s
  | some p => { s with boot := if slot = 0 then { s.boot with plinthA := p } else { s.boot with plinthB := p } }

/-- Bytes programmed into a flash; the slots whose record or image they touch are read again. -/
def programFlash (s : State) (flash off : Nat) (bs : List Byte) : State :=
  let s := setFlash s flash ((flashOf s.boot flash).write off bs)
  let touches := fun (a n : Nat) => decide (off < a + n) && decide (a < off + bs.length)
  forEach [0, 1] s (fun s t =>
    let size := if t = 0 then 0x800000 else 0x40000
    let img := touches (slotOffset t) size
    if img || touches (0x2000 * t) 0x2000 then reparseSlot s t flash img else s)

/-! ### Attestation (R507, R509 to R511) -/

/-- The signed bytes of a quote (R510). -/
def quoteBody (s : State) (nonce : List Byte) : List Byte :=
  let n := s.images.length
  let b := s.boot
  [0x53, 0x4D, 0x51, 0x54] ++ leBytes 2 1 ++ leBytes 2 n ++ leBytes 4 (288 + 36 * n) ++ leBytes 4 b.bootCount ++ leBytes 16 b.identity ++
  leBytes 8 s.now ++ leBytes 4 b.fwVersion ++ leBytes 4 b.plinth.version ++ leBytes 2 b.activeRelief ++ leBytes 1 b.fwSlot ++
  leBytes 1 b.plinthSlot ++ leBytes 4 b.fwFloor ++ leBytes 4 b.plinthFloor ++ leBytes 4 0 ++ padTo 32 nonce ++
  beBytes 32 Config.romMeasurement ++ beBytes 32 b.fwHash ++ beBytes 32 b.plinthHash ++ beBytes 32 b.reliefHash ++
  (s.images.map (fun e => leBytes 2 e.1 ++ leBytes 2 e.2.version ++ beBytes 32 e.2.measurement)).flatten

/-- The quote, signed under the identity key. -/
def quote (s : State) (nonce : List Byte) : List Byte :=
  let body := quoteBody s nonce
  let sig := ecdsaSign identityKey (sha256 body)
  body ++ beBytes 32 sig.1 ++ beBytes 32 sig.2

/-- `ATTEST`. -/
def execAttest (m : MbxId) (h : CmdHdr) (nonce : List Byte) (b : Bref) (s : State) : Out :=
  command s m h 0xB2 0x30 (fun s =>
    let n := 288 + 36 * s.images.length
    let inj := takeInjection s 0x73 (fun _ => true)
    let s := if inj.1.isSome then raiseAs inj.2 2 1 (mkEvent 0x73 0xFF 0 0 0 0) else inj.2
    if b.len < (n + 15) / 16 * 16 + 8192 then complete s m h 0xB2 stBadParam []
    else if inj.1.isSome ∨ s.boot.identityOk = false then complete s m h 0xB2 stFaulted []
    else replyBuf s m h 0xB2 b (padUp 16 (quote s nonce) ++ Config.certChain.take 8192) (fun s =>
      complete s m h 0xB2 stOk (leBytes 4 n)))

end Sys2Proof.Machine
end

