-- ==== Sys2Proof/Machine/Images.lean ====
section
/-! DEFINITION. Loading and unloading work images (R84, R85, R357, R493, R509). -/

namespace Sys2Proof.Machine

/-- Seal or unseal an object (R357). -/
def sealObj (s : State) (oid : Nat) (v : Bool) : State := match s.obj? oid with
  | some o => s.setObj oid { o with sealed := v }
  | none => s

/-- The image of checked and signed bytes is loaded, or the load is refused (R85 steps 3 to 7, R357). -/
def admitImage (s : State) (m : MbxId) (h : CmdHdr) (oid : Nat) (b : List Byte) : State :=
  let id := fld b 8 2
  if !imageBodyOk b then complete s m h 0x30 stBadParam []
  else if (s.image? id).isSome then complete s m h 0x30 stBusy []
  else if 256 ≤ s.images.length then complete s m h 0x30 stNoResource []
  else
    let im := Image.ofBytes b oid m.toNat
    let s := sealObj { s with images := s.images.put id im } oid true
    complete s m h 0x30 stOk (leBytes 2 id ++ leBytes 2 im.version)

/-- `IMAGE_LOAD` (R85, R357, R565). -/
def execImageLoad (m : MbxId) (h : CmdHdr) (object : Nat) (s : State) : Out :=
  command s m h 0x30 4 (fun s =>
    withObj s m h 0x30 object false (fun o =>
      if o.place.isNone then complete s m h 0x30 stBadParam []
      else if !imageHeadOk (objBytes s o 0 (min 0x80 o.length)) o.length then complete s m h 0x30 stBadParam []
      else
        let b := objBytes s o 0 (objWord s o 0x1C)
        let r := checkSigned (objTouch s o 0 b.length) (signedBy b (imageKey s)) 3 (blockKeyId b)
        if r.2 then admitImage r.1 m h object b else complete r.1 m h 0x30 stDenied []))

/-- Some job runs the image or names it as fallback (R357). -/
def imageUsed (s : State) (id : Nat) : Bool := s.jobs.any (fun e => e.2.image == id || e.2.fallback == id || e.2.nextFallback == some id)

/-- `IMAGE_UNLOAD` (R351, R357). -/
def execImageUnload (m : MbxId) (h : CmdHdr) (image : Nat) (s : State) : Out :=
  command s m h 0x31 2 (fun s => match s.image? image with
    | none => complete s m h 0x31 stBadParam []
    | some im =>
      if !mayUse m im.owner then complete s m h 0x31 stDenied []
      else if imageUsed s image then complete s m h 0x31 stBusy []
      else complete (sealObj { s with images := s.images.erase image } im.object false) m h 0x31 stOk [])

end Sys2Proof.Machine
end

