-- ==== Sys2Proof/Machine/KvStore.lean ====
section
/-! DEFINITION. The key-value store's commands: spills and recalls written, pins and releases (R222 to R227). -/

namespace Sys2Proof.Machine

/-- The bytes of one frame or slot go to another object, through the slices they lie behind (R133, R224, R226). -/
def copyFrame (s : State) (src dst srcAt dstAt bytes : Nat) : State :=
  match s.obj? src, s.obj? dst with
  | some a, some b => objWriteBytes (objTouch s a (srcAt * bytes) bytes) b (dstAt * bytes) (objBytes s a (srcAt * bytes) bytes)
  | _, _ => s

/-- Replace a directory entry. -/
def setEntry (s : State) (entry : Nat) (e : PageEntry) : State :=
  { s with kv := { s.kv with dir := s.kv.dir.put entry e } }

/-- The layers whose pages a call's pass has the firmware recall: those of the next instance while one's append or score passes run, and its own before its score passes (R226). -/
def Pass.recalls (im : Image) : Pass → List Nat
  | .append i _ => ((im.attns[i]?).toList ++ (im.attns[i + 1]?).toList).map Attn.layer
  | .score i _ => (im.attns[i + 1]?).toList.map Attn.layer
  | .merge i _ => (im.attns[i + 1]?).toList.map Attn.layer
  | _ => []

/-- A frame has become free: the calls in progress go on recalling the pages of the layers not yet being scored (R226). -/
def resumeRecalls (s : State) : State :=
  forEach s.jobs s (fun s e => match e.2.invocation with
    | some i => match s.image? (runImage e.2 i) with
      | some im => forEach (distinct (i.pass.recalls im)) s (fun s l => recallFor s e.1 (runRows s e.1 e.2 i) l)
      | none => s
    | none => s)

/-- SPILL_WRITTEN: the page lies in its spill slot and its frame is free (R224). -/
def execSpillWritten (entry : Nat) (s : State) : Out :=
  .next (match s.kv.dir.get? entry with
    | none => s
    | some e =>
      if e.moving = 1 then
        let s := copyFrame s e.poolObject e.spillObject e.location e.target e.frame
        resumeRecalls (setEntry s entry { e with state := 2, location := e.target, moving := 0 })
      else s)

/-- The jobs whose calls hold a page. -/
def pageJobs (s : State) (entry : Nat) : List Nat :=
  (s.jobs.filter (fun e => match e.2.invocation with
    | some i => (callPages s.kv (runRows s e.1 e.2 i)).contains entry
    | none => false)).map Prod.fst

/-- A recall that cannot read its page fails as a move does: detector 0x21, whose virtual tile no move names and so is a free value, and the invocations whose calls hold the page fault (R140, R141, R227). -/
def recallFails (s : State) (entry : Nat) (e : PageEntry) : State :=
  let jobs := pageJobs s entry
  let s := setEntry s entry { e with moving := 0 }
  let p := (objPart s e.poolObject).getD 8
  forEach jobs s (fun s jid =>
    let f := s.fresh
    faultRole (raise f.2 (mkEvent 0x21 p jid (3 * 16 + 1) jid (Config.freeNat f.1 % 512))) jid .primary 0x21 p)

/-- PAGE_RECALL_WRITTEN: the page lies in its new frame and its spill slot is free, or the recall fails where its reservation no longer serves (R226, R227). -/
def execPageRecallWritten (entry : Nat) (s : State) : Out :=
  .next (match s.kv.dir.get? entry with
    | none => s
    | some e =>
      if e.moving ≠ 2 then s
      else if ((s.obj? e.spillObject).bind Obj.place).any (placeServes s) then
        let jobs := pageJobs s entry
        let s := copyFrame s e.spillObject e.poolObject e.location e.target e.frame
        let s := setEntry s entry { e with state := 1, location := e.target, moving := 0 }
        forEach jobs s (fun s jid => countKv s jid (fun k => { k with recalls := k.recalls + 1 }))
      else recallFails s entry e)

/-- `KV_PREFIX_PIN` (R222). -/
def execKvPrefixPin (m : MbxId) (h : CmdHdr) (sequence count key : Nat) (s : State) : Out :=
  command s m h 0x60 0x0C (fun s =>
    match s.kv.sequences.get? sequence with
    | none => complete s m h 0x60 stBadParam []
    | some q =>
      if !mayUse m q.owner then complete s m h 0x60 stDenied []
      else match pinCheck s sequence count key with
        | 0 =>
          if appending s sequence then await s m h 0x60 (.pin sequence count key)
          else complete (pinApply s m.toNat sequence count key) m h 0x60 stOk []
        | st => complete s m h 0x60 st [])

/-- `KV_RELEASE` (R223). -/
def execKvRelease (m : MbxId) (h : CmdHdr) (kind key : Nat) (s : State) : Out :=
  command s m h 0x61 8 (fun s =>
    if kind = 0 then match s.kv.sequences.get? key with
      | none => complete s m h 0x61 stBadParam []
      | some q =>
        if !mayUse m q.owner then complete s m h 0x61 stDenied []
        else if appending s key then await s m h 0x61 (.release 0 key)
        else complete (releaseSequence s key) m h 0x61 stOk []
    else if kind = 1 then match s.kv.pinned.get? key with
      | none => complete s m h 0x61 stBadParam []
      | some p =>
        if !mayUse m p.owner then complete s m h 0x61 stDenied []
        else complete (releasePrefix s key) m h 0x61 stOk []
    else complete s m h 0x61 stBadParam [])

end Sys2Proof.Machine
end

