-- ==== Sys2Proof/Machine/Power.lean ====
section
/-! DEFINITION. Power: rail, temperature and clock monitors, the adaptive loops, power caps and power states, power failure and protective stops (R382, R437 to R439, R456, R516 to R532, R562). -/

namespace Sys2Proof.Machine

/-! ### Monitors (R516, R531) -/

/-- The module is powered and neither held in reset nor in its power-fail sequence. -/
def supplied (s : State) : Bool := s.power.state != 4 && !s.power.failRunning

/-- A monitor whose reading an injection offsets: the occurrence, and a reading that no rule states in place of the row's (R410, R413, R564). -/
def monitor (s : State) (d : Nat) (hit : Injection → Bool) (reading : Nat) : Bool × Nat × State :=
  let inj := takeInjection s d hit
  if inj.1.isSome then (true, Config.freeNat inj.2.freeCount % 2 ^ 32, inj.2.fresh.2) else (false, reading, s)

/-- An injection aims at a monitor by its index. -/
def aims (ix : Nat) (i : Injection) : Bool := injIndex i.target == ix

/-- One of the two 16-bit limits of a loop setting. -/
def loopHalf (s : State) (key i : Nat) : Nat := loopSetting s key / 2 ^ (16 * i) % 2 ^ 16

/-- POWER_FAIL_DETECT: below 33 V for 20 µs: detector 0x67 and the sequence of R437, in every power state. -/
def execPowerFailDetect (s : State) : Out := .next (onlyIf (supplied s) s (detect s 0 (mkEvent 0x67 0xFF 0 0 0xFFFF 0)))

/-- A lowered or returned power_cap setting takes effect (R382, R525). -/
def followCap (s : State) (watts : Nat) : State :=
  let s := noteCap { s with boot := { s.boot with runtime := s.boot.runtime.put 0x0050 watts } }
  grantQueue 64 (enforceCap s (capInForce s))

/-- INPUT_UNDERVOLTAGE: detector 0x60 with cause 0; the power_cap setting falls to 120 W. -/
def execInputUndervoltage (mV : Nat) (s : State) : Out :=
  let r := monitor s 0x60 (aims 0) mV
  .next (onlyIf (supplied s && (r.1 || decide (mV < 36000))) s (
    let s := r.2.2
    let s := { s with power := { s.power with inputMv := mV } }
    let s := raiseAs s 2 (if r.1 then 1 else 0) (mkEvent 0x60 0xFF 0 0 0xFFFF r.2.1)
    let old := capSetting s
    let s := { s with power := { s.power with capBefore := some (s.power.capBefore.getD old) } }
    if s.boot.mailboxReady then followCap s (min 120 old)
    else { s with boot := { s.boot with runtime := s.boot.runtime.put 0x0050 (min 120 old) } }))

/-- INPUT_RECOVERED: at or above 37 V for 1 s: the previous setting returns. -/
def execInputRecovered (s : State) : Out :=
  .next (match s.power.capBefore with
    | none => s
    | some w => onlyIf (supplied s) s (
      let s := { s with power := { s.power with capBefore := none, inputMv := max 37000 s.power.inputMv } }
      followCap s w))

/-- OVERVOLTAGE: above 62 V for 1 ms at the input, or a module rail more than 50 mV above its set value: detector 0x61 and a protective stop. -/
def execOvervoltage (cause : Nat) (mV : Nat) (s : State) : Out :=
  let r := monitor s 0x61 (aims cause) mV
  .next (onlyIf (supplied s && (r.1 || (cause == 0 && decide (62000 < mV)) || cause == 2)) s (
    detect r.2.2 (if r.1 then 1 else 0) (mkEvent 0x61 0xFF 0 cause 0xFFFF r.2.1)))

/-- PARTITION_RAIL_OVERVOLTAGE: more than 50 mV above its set value: the rail is switched off and the partition is down (R430). -/
def execPartitionRailOvervoltage (p : PartId) (mV : Nat) (s : State) : Out :=
  let r := monitor s 0x61 (fun i => aims 1 i && injPart i.target == p.toNat) mV
  let x := s.part p.toNat
  .next (onlyIf (supplied s && x.railOn && (r.1 || decide (x.railMv + 50 < mV))) s (
    detect r.2.2 (if r.1 then 1 else 0) (mkEvent 0x61 p.toNat 0 1 p.toNat r.2.1)))

/-- PARTITION_RAIL_UNDERVOLTAGE: more than 30 mV below its set value for 10 µs: the fast path. -/
def execPartitionRailUndervoltage (p : PartId) (mV : Nat) (s : State) : Out :=
  let r := monitor s 0x60 (fun i => aims 1 i && injPart i.target == p.toNat) mV
  let x := s.part p.toNat
  .next (onlyIf (supplied s && x.railOn && (r.1 || decide (mV + 30 < x.railMv))) s (
    detect r.2.2 (if r.1 then 1 else 0) (mkEvent 0x60 p.toNat 0 1 p.toNat r.2.1)))

/-- The cluster or the partition with the highest die sensor, the clusters first (R531). -/
def hottest (s : State) : Nat :=
  match allClusters.find? (fun c => (s.cluster c).temp == junction s) with
  | some c => c
  | none => ((List.range 8).find? (fun p => (s.part p).sliceTemp == junction s)).getD 0

/-- An injection aims at a sensor of the case (cause 0) or of the die (cause 1). -/
def aimsSensor (cause : Nat) (i : Injection) : Bool := if cause = 0 then decide (injIndex i.target ≤ 1) else decide (2 ≤ injIndex i.target)

/-- The unit of a temperature event: the module for the case; the sensor an injection names, else the hottest, for the junction. -/
def sensorUnit (s : State) (cause : Nat) : Nat :=
  if cause = 0 then 0xFFFF
  else match s.flt.pending with
    | some i =>
      if (i.detector = 0x63 ∨ i.detector = 0x64) ∧ 2 ≤ injIndex i.target then
        (if injIndex i.target = 2 then injCluster i.target else injPart i.target)
      else hottest s
    | none => hottest s

/-- TEMPERATURE_WARNING: at or above case_warn or junction_warn for 1 s: detector 0x63; new Ambient leases wait. -/
def execTemperatureWarning (cause : Nat) (celsius : Int) (s : State) : Out :=
  let r := monitor s 0x63 (aimsSensor cause) (unsigned 32 celsius)
  let limit := loopHalf s (if cause = 0 then 0x0120 else 0x0121) 0
  .next (onlyIf (supplied s && decide (cause ≤ 1) && (r.1 || decide ((limit : Int) ≤ celsius))) s (
    let e := mkEvent 0x63 0xFF 0 cause (sensorUnit s cause) r.2.1
    let s := raiseAs r.2.2 1 (if r.1 then 1 else 0) e
    { s with power := { s.power with caseWarn := s.power.caseWarn || cause == 0, junctionWarn := s.power.junctionWarn || cause == 1 } }))

/-- TEMPERATURE_WARNING_CLEAR: no warning holds any longer, and waiting Ambient jobs may be granted leases. -/
def execTemperatureWarningClear (s : State) : Out :=
  .next (onlyIf (s.power.caseWarn || s.power.junctionWarn) s
    (grantQueue 64 { s with power := { s.power with caseWarn := false, junctionWarn := false } }))

/-- TEMPERATURE_CRITICAL: at or above case_crit or junction_crit: detector 0x64 and a protective stop. -/
def execTemperatureCritical (cause : Nat) (celsius : Int) (s : State) : Out :=
  let r := monitor s 0x64 (aimsSensor cause) (unsigned 32 celsius)
  let limit := loopHalf s (if cause = 0 then 0x0120 else 0x0121) 1
  .next (onlyIf (supplied s && decide (cause ≤ 1) && (r.1 || decide ((limit : Int) ≤ celsius))) s (
    detect r.2.2 (if r.1 then 1 else 0) (mkEvent 0x64 0xFF 0 cause (sensorUnit s cause) r.2.1)))

/-- CLOCK_LOSS: detector 0x65. The reference or a PLL stops the module; without the TCXO the low states cannot be entered; without the crystal the calendar stops. -/
def execClockLoss (cause : Nat) (ppm : Int) (s : State) : Out :=
  let inj := takeInjection s 0x65 (aims cause)
  .next (onlyIf (supplied s && decide (cause ≤ 3)) s (
    let s := detect inj.2 (injFlags inj.1) (mkEvent 0x65 0xFF 0 cause 0xFFFF (unsigned 64 ppm))
    match cause with
    | 1 => { s with power := { s.power with tcxoOk := false } }
    | 2 => { s with power := { s.power with crystalOk := false }, time := { s.time with calStopped := true } }
    | _ => s))

/-! ### Cluster loops (R527, R528) -/

/-- Count stretches of a cluster, per millisecond, per second and in the Patina (R528, R536, R538). -/
def countStretches (s : State) (c n : Nat) : State :=
  let x := s.cluster c
  let ms := s.now / 1000000; let sec := s.now / 1000000000
  patCount (s.setCluster c { x with
    stretchMs := ms, stretchSec := sec
    stretches := (if x.stretchMs = ms then x.stretches else 0) + n
    stretchTotal := (if x.stretchSec = sec then x.stretchTotal else 0) + n }) (0xA10 + 64 * c) n

/-- The voltage loop of a cluster is at its limit: detector 0x66, and every 16th cycle is stretched. -/
def voltageLimit (s : State) (c flags : Nat) : State :=
  let x := s.cluster c
  let s := raiseAs s 1 flags (mkEvent 0x66 (c / 8) x.job 0 c x.voltage)
  s.setCluster c { s.cluster c with stretching := true }

/-- More than stretch_limit stretches in 1 ms: detector 0x62, and margin_low rises by one unit until the next start; the count of the millisecond starts over. -/
def excessStretch (s : State) (c flags : Nat) : State :=
  let x := s.cluster c
  let s := raiseAs s 1 flags (mkEvent 0x62 (c / 8) x.job 0 c x.voltage)
  s.setCluster c { s.cluster c with marginLow := x.marginLow + 1, stretches := 0 }

/-- VOLTAGE_LOOP_PERIOD: the loop reads the margin and steps the voltage by 5 mV between vmin and vmax; while it stands at its limit the stretches of 10 µs are counted. An injection of 0x66 drives the loop to its limit. -/
def execVoltageLoopPeriod (r : LoopReading) (s : State) : Out :=
  let c := r.cluster.toNat
  .next (onlyIf (supplied s && (s.cluster c).powered) s (
    let vmin := loopSetting s 0x0100; let vmax := loopSetting s 0x0101
    let inj := takeInjection s 0x66 (fun i => injCluster i.target == c)
    let s := inj.2
    let x := s.cluster c
    if inj.1.isSome then
      voltageLimit (s.setCluster c { x with voltage := vmax, margin := r.margin, temp := r.temp }) c 1
    else
      let low := decide (r.margin < x.marginLow)
      let limit := x.stretching && low && x.voltage == vmax
      let v := if low then min vmax (x.voltage + 5)
        else if (loopSetting s 0x0103 : Int) < r.margin then max vmin (x.voltage - 5) else x.voltage
      let s := s.setCluster c { x with voltage := v, margin := r.margin, temp := r.temp, stretching := limit }
      if limit then countStretches s c 156 else s))

/-- VOLTAGE_LOOP_LIMIT: at vmax with the margin below margin_low for 1 ms. -/
def execVoltageLoopLimit (c : ClusterId) (s : State) : Out :=
  let x := s.cluster c.toNat
  .next (onlyIf (supplied s && x.powered && x.voltage == loopSetting s 0x0101 && decide (x.margin < x.marginLow) && !x.stretching) s
    (voltageLimit s c.toNat 0))

/-- DROOP_STRETCH: the cluster's next cycle is lengthened and counted; an injection of 0x62 adds the limit count. -/
def execDroopStretch (c : ClusterId) (s : State) : Out :=
  let k := c.toNat
  .next (onlyIf (supplied s && (s.cluster k).powered) s (
    let inj := takeInjection s 0x62 (fun i => injCluster i.target == k)
    let limit := loopSetting s 0x0105
    let s := countStretches inj.2 k (1 + if inj.1.isSome then limit else 0)
    if inj.1.isSome then excessStretch s k 1 else s))

/-- EXCESS_DROOP_STRETCH: the count of the present millisecond exceeds stretch_limit. -/
def execExcessDroopStretch (c : ClusterId) (s : State) : Out :=
  let x := s.cluster c.toNat
  .next (onlyIf (supplied s && x.powered && decide (loopSetting s 0x0105 < x.stretches)) s (excessStretch s c.toNat 0))

/-! ### Partition rails (R529) -/

/-- The voltage that the loop sets for a partition's rail. -/
def railTarget (s : State) (p : Nat) : Nat :=
  let v := (allClusters.filter (fun c => c / 8 == p && (s.cluster c).powered)).foldl (fun a c => max a (s.cluster c).voltage) 0
  max (loopHalf s 0x0110 0) (min (loopHalf s 0x0110 1) ((v + loopSetting s 0x0111 + 4) / 5 * 5))

/-- PARTITION_RAIL_LOOP: the regulator is set over PMBus; the third failure in a row raises detector 0x60 with cause 1. -/
def execPartitionRailLoop (p : PartId) (pmbusOk : Bool) (sliceTemp : Int) (s : State) : Out :=
  let q := p.toNat
  .next (onlyIf (timeRuns s && supplied s) s (
    let s := s.setPart q { s.part q with sliceTemp := sliceTemp }
    let x := s.part q
    if !x.railOn then s
    else if pmbusOk then s.setPart q { x with railMv := railTarget s q, railFails := 0 }
    else if x.railFails + 1 < 3 then s.setPart q { x with railFails := x.railFails + 1 }
    else detect (s.setPart q { x with railFails := 0 }) 0 (mkEvent 0x60 q 0 1 q x.railMv)))

/-! ### The power average (R526) -/

/-- A cluster leased to an Ambient job. -/
def ambientCluster (s : State) (c : Nat) : Bool := match s.job? (s.cluster c).job with
  | some j => (s.cluster c).leased && j.cls == 2
  | none => false

/-- POWER_AVERAGE_WINDOW: 100 ms above the cap in force lower the duty of Ambient clusters by 1/16 for each 10 ms, to no less than 4/16; below 95 % of the cap it rises as fast. The monitors' readings come with the window. -/
def execPowerAverageWindow (averageTenthsW inputMv : Nat) (case0 case1 : Int) (s : State) : Out :=
  .next (onlyIf (timeRuns s && supplied s) s (
    let s := { s with power := { s.power with inputTenthW := averageTenthsW, inputMv := inputMv, case0 := case0, case1 := case1 } }
    let cap := capInForce s
    let cs := allClusters.filter (ambientCluster s)
    let next := fun (d : Nat) =>
      if 10 * cap < averageTenthsW then max 4 (d - 10) else if 1000 * averageTenthsW < 9500 * cap then min 16 (d + 10) else d
    let s := forEach cs s (fun s c => s.setCluster c { s.cluster c with duty := next (s.cluster c).duty })
    if cs.any (fun c => decide ((s.cluster c).duty < 16)) then patCount s 0xA4 100 else s))

/-! ### Power states (R456, R519 to R523, R562) -/

/-- The read-only map of the I²C management port (R562). -/
def i2cMap (s : State) : List Byte :=
  let r := fun (off : Nat) => leBytes 4 (peek s off).toNat
  layout 0x30 [(0x00, r 0x0000), (0x04, r 0x0010), (0x08, r 0x7020), (0x0C, r 0x7024), (0x10, r 0x6004), (0x14, r 0x6000),
    (0x20, leBytes 16 s.boot.identity)]

/-- The Frieze ports go OFF, and the node leaves its island (R520, R523). -/
def portsOff (s : State) : State :=
  let s := forEach (List.range 6) s (fun s p =>
    let x := fport s p
    failCrossing (setFport s p { x with state := 0, width := 0, lanes := 0, unacked := [], waiting := [], credits := Vector.replicate 4 0 }) p)
  let others := (s.fab.routes.filter (fun r => r.valid && !r.isLocal)).map (fun r => r.dest)
  forEach others (standAlone s) invalidate

/-- The keeper takes T, with a trim from the increment while the time base is locked (R456). -/
def takeKeeper (s : State) : State :=
  let b := s.time
  let trim := (b.incr.toNat * 25 / 2 + 2 ^ 40 - 100 * 2 ^ 32) % 2 ^ 32
  let rest := fun (p : PtpPort) => { PtpPort.off with cfg := p.cfg, state := if p.cfg.mode = 0 then 0 else 1 }
  { s with time := followPorts { b with
      keeper := b.t, keeperTrim := if b.locked then trim else b.keeperTrim, port0 := rest b.port0, port1 := rest b.port1 } }

/-- The module enters STANDBY: DRAM is in self-refresh, the slices are off, the ports are off, the keeper carries the time (R519, R523). -/
def enterStandby (s : State) : State :=
  let held := i2cMap s
  let s := takeKeeper (portsOff (changePower s 2))
  let s := forEach (List.range 8) s (fun s p =>
    let s := (writeBackLines s p (s.part p).lines).1
    s.setPart p { s.part p with lines := [], plru := [], prefetchers := [], selfRefresh := true })
  { s with boot := { s.boot with mailboxReady := false }, power := { s.power with i2cHeld := held } }

/-- The module enters KEEPER: only the always-on island, the ferroelectric RAM and the flashes keep what they hold (R519, R523). -/
def enterKeeper (s : State) : State :=
  let held := i2cMap s
  let s := volatileLost (takeKeeper (portsOff (changePower s 3)))
  { s with power := { s.power with state := 3, i2cHeld := held } }

/-- Enter a power state. -/
def enterState (s : State) (state : Nat) : State :=
  let s := if state = 0 then s else { s with power := { s.power with cameraOn0 := false, cameraOn1 := false } }
  match state with
  | 2 => enterStandby s
  | 3 => enterKeeper s
  | 0 => grantQueue 64 (changePower s 0)
  | _ => changePower s state

/-- The entry condition of a power state (R521, R531). -/
def mayEnter (s : State) (state : Nat) : Bool :=
  match state with
  | 1 => s.jobs.all (fun e => e.2.lease == 5)
  | 2 => s.jobs.isEmpty && s.power.tcxoOk && s.objects.all (fun e => (e.2.place.map (fun p => p.tier)).getD 0 != 1)
  | 3 => s.jobs.isEmpty && s.power.tcxoOk
  | _ => true

/-- The cap part of `POWER_MODE`: a cap that the Held and Prompt leases exceed is refused; one that the leases exceed waits for pre-emptions (R382, R525). -/
def setCap (s : State) (m : MbxId) (h : CmdHdr) (cap : Nat) (f : State → State) : State :=
  if cap = 0 then f s
  else if budgetOf cap < firmLeased s then complete s m h 0xC0 stBusy []
  else if leasedCount s ≤ budgetOf cap then
    f (grantQueue 64 (noteCap { s with boot := { s.boot with runtime := s.boot.runtime.put 0x0050 cap } }))
  else await (enforceCap s cap) m h 0xC0 (.cap cap ((savingJobs (enforceCap s cap)).any (fun k => !(savingJobs s).contains k)))

/-- `POWER_MODE`. -/
def execPowerMode (m : MbxId) (h : CmdHdr) (state cap : Nat) (s : State) : Out :=
  command0 s m h 0xC0 4 (fun s =>
    let post := fun (s : State) => complete s m h 0xC0 stOk (leBytes 2 (capInForce s))
    if 3 < state ∨ [0, 60, 120, 180, 250].contains cap = false then complete s m h 0xC0 stBadParam []
    else if state = s.power.state then setCap s m h cap post
    else if mayEnter s state = false then complete s m h 0xC0 stBusy []
    else setCap s m h cap (fun s => enterState (post s) state))

/-- WAKE_N: DROWSE wakes at once; STANDBY begins its wake; KEEPER starts cold, with the time its keeper carried (R521, R523). -/
def execWakeN (root cellOk pufOk : Bool) (s : State) : Out :=
  .next (onlyIf (supplied s) s (match s.power.state with
    | 1 => grantQueue 64 (changePower s 0)
    | 2 => { s with power := { s.power with waking := true } }
    | 3 =>
      let s := coldStart (changePower { s with time := { s.time with t := s.time.keeper } } 0) root cellOk pufOk true
      { s with power := { s.power with waking := true } }
    | _ => s))

/-- WAKE_COMPLETE: the STANDBY wake is done: DRAM has left self-refresh, the slices are clear, T comes from the keeper, the mailboxes are ready, and the Frieze ports begin to train (R456, R523). -/
def execWakeComplete (s : State) : Out :=
  .next (onlyIf (s.power.state == 2 && s.power.waking && supplied s) s (
    let s := loadKeeper s
    let s := changePower s 0
    let s := forEach (List.range 8) s (fun s p =>
      let s := { s with mem := s.mem.clear (t1Base p) 0x2000000 }
      s.setPart p { s.part p with selfRefresh := false, scrubLevel := 0, quietWindows := 0, corrected := 0 })
    let s := powerPorts s
    { s with boot := { s.boot with mailboxReady := true }, power := { s.power with i2cHeld := [] } }))

/-! ### Power failure and protective stops (R437 to R439, R532) -/

/-- POWER_FAIL_SEQUENCE_END: the always-on area is committed, everything volatile is lost, and the module holds itself in reset. -/
def execPowerFailSequenceEnd (s : State) : Out :=
  .next (onlyIf s.power.failRunning s (
    let stop := s.power.stopCause
    let s := patCount s (if stop = 0 then 0x4C else 0x50) 1
    let s := drainLog (commitPatina s (if stop = 0 then 3 else 4))
    let s := volatileLost s
    { s with power := { s.power with state := 4, heldInReset := true, stopCause := stop } }))

/-- PROTECTIVE_STOP_END: the stop's condition has ended and the module starts cold, its always-on island still powered. -/
def execProtectiveStopEnd (root cellOk pufOk : Bool) (s : State) : Out :=
  .next (onlyIf (s.power.heldInReset && s.power.stopCause == 1) s (coldStart s root cellOk pufOk true))

end Sys2Proof.Machine
end

