-- ==== Sys2Proof/Machine/Patina.lean ====
section
/-! DEFINITION. The Patina: its periodic fold and commit, the drain of the event log, the backup cell, and PATINA_READ (R533 to R539). -/

namespace Sys2Proof.Machine

/-- PATINA_FOLD: every 2 ms. -/
def execPatinaFold (s : State) : Out := .next (onlyIf (timeRuns s && supplied s) s (fold s))

/-- PATINA_COMMIT: the periodic commit, or one for another cause of R536. -/
def execPatinaCommit (cause : Nat) (s : State) : Out := .next (onlyIf (timeRuns s && supplied s && decide (cause ≤ 4)) s (commitPatina s cause))

/-- EVENT_LOG_DRAIN: within 10 ms of an entry. -/
def execEventLogDrain (s : State) : Out := .next (onlyIf (s.power.state != 4) s (drainLog s))

/-- BACKUP_CELL_LOW: the cell is below 2.5 V (R539). -/
def execBackupCellLow (s : State) : Out := .next (onlyIf (s.power.state != 4) s { s with pat := { s.pat with cellLow := true } })

/-! ### Counter images as bytes (R536) -/

/-- The fields of a group of `n` entries of `size` bytes from `base`: offset and width. -/
def groupFields (base size n : Nat) (fs : List (Nat × Nat)) : List (Nat × Nat) :=
  ((List.range n).map (fun i => fs.map (fun f => (base + size * i + f.1, f.2)))).flatten

/-- The counters of an image, ascending: offset and width. -/
def imageFields : List (Nat × Nat) :=
  [(0x40, 8), (0x48, 4), (0x4C, 4), (0x50, 4)] ++ groupFields 0x54 8 5 [(0, 8)] ++ groupFields 0x7C 8 4 [(0, 8)] ++
  [(0x9C, 8), (0xA4, 8), (0xAC, 2)] ++ groupFields 0x200 8 256 [(0, 8)] ++
  groupFields 0xA00 64 64 [(0, 8), (8, 8), (0x10, 8), (0x18, 8), (0x20, 8), (0x28, 2)] ++
  groupFields 0x1A00 128 8 [(0, 4), (4, 4), (8, 8), (0x10, 8), (0x18, 8), (0x20, 8), (0x28, 8), (0x30, 4)] ++
  groupFields 0x1E00 4 1152 [(0, 4)] ++ groupFields 0x3000 64 6 [(0, 4), (4, 4), (8, 8), (0x10, 8)] ++ groupFields 0x3180 8 16 [(0, 8)]

/-- The bytes of an image with its CRC field given. -/
def CounterImage.bytesWith (x : CounterImage) (crc : Nat) : List Byte :=
  layout 0x20000 ([(0, [0x53, 0x4D, 0x50, 0x43]), (4, leBytes 4 x.sequence), (8, leBytes 8 x.time), (0x10, leBytes 1 x.cause), (0x3C, leBytes 4 crc)] ++
    imageFields.map (fun f => (f.1, leBytes f.2 (x.counters.count f.1))))

/-- The 131,072 bytes of a counter image. -/
def CounterImage.bytes (x : CounterImage) : List Byte := x.bytesWith (Config.patinaCrc (x.bytesWith 0))

/-! ### The sections of `PATINA_READ` (R538) -/

/-- The Patina header. -/
def patinaHeader (s : State) : List Byte :=
  let p := s.pat
  [0x53, 0x4D, 0x50, 0x48] ++ leBytes 2 Config.patinaVersion ++ leBytes 2 0 ++ leBytes 16 s.boot.identity ++ leBytes 8 Config.manufactureTime ++
  leBytes 8 p.firstPowerOn ++ leBytes 4 p.logIndex ++ leBytes 4 p.castIndex ++ leBytes 8 p.eventsTotal ++ leBytes 8 0

/-- A ratio of two numbers as FP32, to nearest even. -/
def ratio32 (a b : Nat) : Nat := fp32.encode .rne (Num.div (.fin false a 0) (.fin false b 0))

/-- A cluster's entry of the loop snapshot. -/
def clusterEntry (s : State) (c : Nat) : List Byte :=
  let x := s.cluster c
  let vmax := x.voltage == loopSetting s 0x0101
  leBytes 2 x.voltage ++ leBytes 2 (unsigned 16 x.margin) ++
  leBytes 4 (if x.stretchSec = s.now / 1000000000 then x.stretchTotal else 0) ++ leBytes 2 (unsigned 16 x.temp) ++
  leBytes 2 (flag x.powered 0 + flag x.leased 1 + flag (x.powered && vmax) 2 + 16 * (x.duty % 16)) ++ leBytes 4 0

/-- A partition's entry of the loop snapshot. -/
def partitionEntry (s : State) (p : Nat) : List Byte :=
  let x := s.part p
  leBytes 2 x.railMv ++ leBytes 2 (loopSetting s 0x0111) ++ leBytes 2 (unsigned 16 x.sliceTemp) ++ leBytes 1 x.scrubLevel ++ List.replicate 9 0

/-- The loop snapshot. -/
def loopSnapshot (s : State) : List Byte :=
  let q := s.power
  leBytes 4 (ratio32 q.inputMv 1000) ++ leBytes 4 (if q.inputMv = 0 then 0 else ratio32 (100 * q.inputTenthW) q.inputMv) ++
  leBytes 4 (ratio32 q.inputTenthW 10) ++ leBytes 2 (capInForce s) ++ leBytes 2 (budgetOf (capInForce s)) ++
  (allClusters.map (clusterEntry s)).flatten ++ ((List.range 8).map (partitionEntry s)).flatten ++
  leBytes 2 (unsigned 16 q.case0) ++ leBytes 2 (unsigned 16 q.case1) ++ List.replicate 12 0

/-- Records at their slots, in slot order, zeros where no record was written. -/
def slotBytes (size slots : Nat) (rs : List (Nat × List Byte)) : List Byte :=
  layout (size * slots) ((sortBy (fun a b => decide (a.1 < b.1)) rs).map (fun r => (size * r.1, r.2)))

/-- The bytes of a section, `none` for a number without one. -/
def patinaSection (s : State) (n : Nat) : Option (List Byte) :=
  match n with
  | 0 => some (patinaHeader s)
  | 1 => some s.pat.always.bytes
  | 2 => some s.pat.newest.bytes
  | 3 => some (slotBytes 32 118784 (s.pat.log.map (fun e => (e.1, e.2.bytes))))
  | 4 => some (slotBytes 64 1024 s.pat.castLog)
  | 5 => some (loopSnapshot s)
  | _ => none

/-- `PATINA_READ`. -/
def execPatinaRead (m : MbxId) (h : CmdHdr) (sect offset : Nat) (b : Bref) (s : State) : Out :=
  command s m h 0xA0 0x20 (fun s => match patinaSection s sect with
    | none => complete s m h 0xA0 stBadParam []
    | some all =>
      let bs := (all.drop offset).take b.len
      replyBuf s m h 0xA0 b bs (fun s => complete s m h 0xA0 stOk (leBytes 4 bs.length)))

end Sys2Proof.Machine
end

