-- ==== Sys2Proof/Machine/Ports.lean ====
section
/-! DEFINITION. The external ports: service Ethernet, the boundary port, PCIe, cameras, CAN FD, inertial units, encoders, HALT_REQ and JTAG (R309, R453 to R455, R487, R540 to R562). -/

namespace Sys2Proof.Machine

/-- The ports work: the firmware is ready, and the module is ACTIVE or in DROWSE (R519, R540). -/
def portsWork (s : State) : Bool := timeRuns s && supplied s && s.boot.mailboxReady

/-- A free stamp within `d` nanoseconds of T (R453, R552, R555, R556). -/
def stampWithin (s : State) (d : Nat) : Nat × State :=
  let f := s.fresh
  ((s.now + Config.freeNat f.1 % (2 * d + 1) - d) % 2 ^ 64, f.2)

/-- The move of a port's entry is presented to the arbiter of the ring's partition, as the Atelier's in the Prompt class (R541). -/
def presentPort (s : State) (oid bytes : Nat) : State :=
  match (s.obj? oid).bind Obj.place with
  | some p => if (s.part p.partition).state = 0 then present s p.partition 10 1 bytes 0 else s
  | none => s

/-- An entry enters a port's ring, by its arbiter's leave. -/
def portEntry (s : State) (oid : Nat) (entry : List Byte) : State := ingress (presentPort s oid entry.length) oid entry

/-! ### Transmit rings (R541, R544, R555) -/

/-- The entry at the head of a transmit ring whose producer index was read as `prod`, and its place. -/
def headEntry (s : State) (oid prod : Nat) : Option (Obj × Nat × List Byte) :=
  match s.obj? oid with
  | none => none
  | some o =>
    if ringCap s o = 0 ∨ objWord s o 4 = prod then none
    else
      let off := 64 + objWord s o 4 % ringCap s o * ringEntry s o
      some (o, off, objBytes s o off (ringEntry s o))

/-- An entry is finished: its status byte is written, and the consumer index advances. -/
def finishEntry (s : State) (o : Obj) (statusAt status : Nat) : State :=
  let s := objWriteBytes s o statusAt (leBytes 1 status)
  objSetWord s o 4 ((objWord s o 4 + 1) % 2 ^ 32)

/-- A job binds an object with write access. -/
def jobWrites (s : State) (oid : Nat) : Bool :=
  s.jobs.any (fun e => match s.image? e.2.image with
    | some im => (writtenObjects im e.2).contains oid
    | none => false)

/-- TRANSMIT_RING_POLL: the producer index of a ring that no job binds for writing is read (R541). -/
def execTransmitRingPoll (object : Nat) (s : State) : Out := .next (onlyIf (portsWork s && !jobWrites s object) s (readProducer s object))

/-! ### Service Ethernet (R453 to R455, R542 to R544) -/

/-- One service port. -/
def ethPort (s : State) (port : BitVec 1) : EthPort := if port = 0 then s.ports.eth0 else s.ports.eth1

/-- Replace one service port. -/
def setEthPort (s : State) (port : BitVec 1) (x : EthPort) : State :=
  { s with ports := if port = 0 then { s.ports with eth0 := x } else { s.ports with eth1 := x } }

/-- A receive entry: stamp, length without FCS, flags, sequence number, the bytes kept (R543). -/
def receiveEntry (stamp length flags seq : Nat) (kept : List Byte) : List Byte :=
  layout 2048 [(0x00, leBytes 8 stamp), (0x08, leBytes 2 length), (0x0A, leBytes 2 flags), (0x0C, leBytes 4 seq), (0x40, kept)]

/-- A frame with its FCS is good (R542, R543). -/
def goodFrame (frame : List Byte) (fcsOk : Bool) : Bool := fcsOk && decide (64 ≤ frame.length) && decide (frame.length ≤ 1522)

/-- SERVICE_FRAME_RECEIVED: a bad frame is dropped, a MAC Control frame discarded, a PTP message of the port taken by the firmware; every other one enters the receive ring. -/
def execServiceFrameReceived (port : BitVec 1) (frame : List Byte) (fcsOk isPtp : Bool) (s : State) : Out :=
  .next (onlyIf (portsWork s && enabledBit s port.toNat) s (
    let x := ethPort s port
    if !goodFrame frame fcsOk then setEthPort s port { x with dropped := min 0xFFFFFFFF (x.dropped + 1) }
    else if slice frame 12 2 = [0x88, 0x08] then setEthPort s port { x with macControl := min 0xFFFFFFFF (x.macControl + 1) }
    else if isPtp && (pport s port).cfg.mode != 0 then s
    else
      let n := frame.length - 4
      let r := stampWithin s 3
      let s := setEthPort r.2 port { x with rxSeq := (x.rxSeq + 1) % 2 ^ 32 }
      portEntry s (0xFFFF0100 + port.toNat) (receiveEntry r.1 n 0 x.rxSeq (frame.take n))))

/-- A stamp enters the transmit-timestamp queue, or is dropped when 16 are held: overflow, TSQ_DROPPED, detector 0x41 (R454, R455). An injection of 0x41 treats the queue as full. -/
def queueStamp (s : State) (port ident stamp : Nat) : State :=
  let inj := takeInjection s 0x41 (fun i => injIndex i.target == port)
  let s := inj.2
  let q := tsqOf s port
  if !q.enable then s
  else if inj.1.isSome ∨ 16 ≤ q.entries.length then
    raiseAs (setTsq s port { q with overflow := true, dropped := min 0xFFFFFFFF (q.dropped + 1) }) 0 (injFlags inj.1) (mkEvent 0x41 0xFF 0 0 0 ident)
  else setTsq s port { q with entries := q.entries ++ [(BitVec.ofNat 16 ident, stamp)] }

/-- The head entry of a service port's transmit ring is sent with its FCS, refused when its length is out of range, or held until its launch time (R544). -/
def sendService (s : State) (port : BitVec 1) (o : Obj) (off : Nat) (e : List Byte) : State :=
  let x := ethPort s port
  let n := fld e 8 2
  if n < 60 ∨ 1518 < n then setEthPort (finishEntry s o (off + 0x0E) 2) port { x with refused := min 0xFFFFFFFF (x.refused + 1) }
  else if s.now < fld e 0 8 then s
  else
    let bs := slice e 0x40 n
    let s := s.emit (.ethFrame port.toNat (bs ++ leBytes 4 (crc32 bs).toNat))
    let s := if fld e 0xA 2 % 2 = 1 then
        let r := stampWithin s 3
        queueStamp r.2 port.toNat (fld e 0xC 2) r.1
      else s
    finishEntry s o (off + 0x0E) 1

/-- SERVICE_FRAME_TRANSMIT. -/
def execServiceFrameTransmit (port : BitVec 1) (s : State) : Out :=
  .next (onlyIf (portsWork s && enabledBit s port.toNat) s (
    match headEntry s (0xFFFF0110 + port.toNat) (ethPort s port).txProd with
    | none => s
    | some (o, off, e) => sendService (presentPort s (0xFFFF0110 + port.toNat) 2048) port o off e))

/-! ### The boundary port (R545) -/

/-- What decides a frame's fate: the first matching rule's action and snap length, else the default action. -/
def boundaryFate (s : State) (frame : List Byte) : Bool × Nat :=
  let head := ofLe (padTo 24 (frame.take 24))
  let hit := (List.range 16).find? (fun i =>
    (settingBytes s (0x0210 + i)).isSome && (head &&& portField s (0x0210 + i) 1) == portField s (0x0210 + i) 0)
  match hit with
  | some i => (portField s (0x0210 + i) 2 == 1, portField s (0x0210 + i) 3)
  | none => (setting s 0x0220 0 == 1, 1518)

/-- A bad frame, or one that finds the filtering buffer full, is dropped and counted. -/
def dropBoundary (s : State) : State :=
  { s with ports := { s.ports with boundaryDropped := min 0xFFFFFFFF (s.ports.boundaryDropped + 1) } }

/-- BOUNDARY_FRAME_RECEIVED: an accepted frame, cut to its snap length, goes through the filtering buffer into the boundary ring; nothing is ever sent (R4). -/
def execBoundaryFrameReceived (frame : List Byte) (fcsOk : Bool) (s : State) : Out :=
  .next (onlyIf (portsWork s && enabledBit s 2) s (
    let s := flushBoundary s
    let held := (s.ports.boundaryHeld.map List.length).sum
    if !goodFrame frame fcsOk ∨ 0x40000 < held + 2048 then dropBoundary s
    else
      let n := frame.length - 4
      let fate := boundaryFate s (frame.take n)
      if !fate.1 then s
      else
        let r := stampWithin s 3
        let kept := (frame.take n).take fate.2
        let e := receiveEntry r.1 n (if kept.length < n then 1 else 0) s.ports.boundarySeq kept
        let s := { r.2 with ports := { r.2.ports with
          boundarySeq := (s.ports.boundarySeq + 1) % 2 ^ 32, boundaryHeld := s.ports.boundaryHeld ++ [e] } }
        flushBoundary (presentPort s 0xFFFF0200 2048)))

/-! ### PCIe (R548, R549) -/

/-- PERST_N_ASSERT: every mailbox of path 0 is disabled, and the event ring with them; jobs run on. -/
def execPerstNAssert (s : State) : Out :=
  .next (onlyIf (!s.boot.rootPort && s.boot.mailboxReady && supplied s) s (
    let s := forEach ((List.range 16).map (BitVec.ofNat 4)) s (fun s m =>
      let b := s.box m
      if b.path1 || !b.enabled then s else disableBox (s.setBox m { b with ctrl := b.ctrl &&& ~~~1#32 }) m)
    { s with evt := { s.evt with ringCtrl := s.evt.ringCtrl &&& ~~~1#32 } }))

/-- DOWNSTREAM_INBOUND_ACCESS: bus addresses below 2^37 reach T2, as the Atelier's requests do; any other access completes as Unsupported Request (R161, R549). -/
def execDownstreamInboundAccess (addr : Nat) (isWrite : Bool) (size : Nat) (data : List Byte) (s : State) : Out :=
  .next (onlyIf (s.boot.rootPort && timeRuns s && supplied s) s (
    let n := if isWrite then data.length else size
    let p := addr / 0x400000000
    if 2 ^ 37 < addr + n ∨ n = 0 ∨ 0x400000000 < addr % 0x400000000 + n ∨ t2Works s p = false then s.emit .unsupportedRequest
    else if isWrite then
      let r := bar2Access s addr n true
      if r.failed then r.s else { r.s with mem := r.s.mem.write addr data }
    else
      let r := bar2Fetch s addr n
      r.1.emit (.inboundData r.2)))

/-! ### Cameras (R550 to R553) -/

/-- One camera port. -/
def camera (s : State) (c : BitVec 3) : Camera := s.ports.cameras[c.toNat]'(by have := c.isLt; omega)

/-- Replace one camera port. -/
def setCamera (s : State) (c : BitVec 3) (x : Camera) : State :=
  { s with ports := { s.ports with cameras := s.ports.cameras.set c.toNat x (by have := c.isLt; omega) } }

/-- A camera port receives: it is enabled, and its group is powered. -/
def cameraWorks (s : State) (c : BitVec 3) : Bool :=
  portsWork s && enabledBit s (3 + c.toNat) && domainOn s (.cameraGroup (if c.toNat < 4 then 0 else 1))

/-- The object of a camera's frames. -/
def cameraRing (c : BitVec 3) : Nat := 0xFFFF0300 + c.toNat

/-- The frame slot being filled: the ring and the slot's byte offset. -/
def openSlot (s : State) (c : BitVec 3) : Option (Obj × Nat) :=
  match s.obj? (cameraRing c) with
  | some o => if ringCap s o = 0 then none else some (o, 64 + objWord s o 0 % ringCap s o * ringEntry s o)
  | none => none

/-- A packet of another virtual channel or data type is discarded and counted (R550). -/
def discardPacket (s : State) (c : BitVec 3) : State :=
  setCamera s c { camera s c with discarded := min 0xFFFFFFFF ((camera s c).discarded + 1) }

/-- FRAME_START: stamped, and a slot is claimed and cleared; with no free slot the whole frame is dropped and counted. -/
def execFrameStart (c : BitVec 3) (vc dataType frameNumber : Nat) (s : State) : Out :=
  .next (onlyIf (cameraWorks s c) s (
    let k := cameraSet s c.toNat
    if vc ≠ k.2.1 ∨ dataType ≠ k.1 then discardPacket s c
    else
      let r := stampWithin s 8
      let s := r.2
      let x := { camera s c with startStamp := r.1, frameNumber := frameNumber, lines := 0, flags := 0 }
      match openSlot s c with
      | none => setCamera s c { x with slotOpen := false, dropping := true }
      | some (o, off) =>
        if ringCap s o ≤ ringHeld s o then setCamera (ringDrop s o) c { x with slotOpen := false, dropping := true, seq := (x.seq + 1) % 2 ^ 32 }
        else setCamera (objWriteBytes s o off (List.replicate (ringEntry s o) 0)) c { x with slotOpen := true, dropping := false }))

/-- An element of a camera frame (R551). -/
def cameraElement (dataType sample : Nat) : List Byte :=
  match dataType with
  | 0x2B | 0x2C => leBytes 2 sample
  | 0x2E => leBytes 4 sample
  | _ => leBytes 1 (sample + 128)

/-- The plane rows that a line fills: plane, row, samples (R551). -/
def lineRows (dataType layout line : Nat) (samples : List Nat) : List (Nat × Nat × List Nat) :=
  let every := fun (k first : Nat) => (samples.zipIdx.filter (fun x => x.2 % k == first)).map (fun x => x.1)
  if dataType = 0x1E then [(0, line, every 2 1), (1, line, every 4 0), (2, line, every 4 2)]
  else if layout = 1 then [(line % 2 * 2, line / 2, every 2 0), (line % 2 * 2 + 1, line / 2, every 2 1)]
  else [(0, line, samples)]

/-- A line is converted into its plane rows. -/
def writeLine (s : State) (c : BitVec 3) (o : Obj) (off line : Nat) (samples : List Nat) : State :=
  let k := cameraSet s c.toNat
  let planes := cameraPlanes k.1 k.2.2.2.2 k.2.2.1 k.2.2.2.1
  let starts := (cameraSlot s c.toNat).1
  forEach (lineRows k.1 k.2.2.2.2 line samples) s (fun s r =>
    match planes[r.1]?, starts[r.1]? with
    | some p, some a =>
      objWriteBytes s o (off + a + r.2.1 * planeStride (cameraElem k.1) p.1) (((r.2.2.take p.1).map (cameraElement k.1)).flatten)
    | _, _ => s)

/-- CAMERA_LINE: a line of the configured channel and type goes into the open slot; one beyond the configured height is discarded and flagged (R551, R552). -/
def execCameraLine (c : BitVec 3) (vc dataType : Nat) (samples : List Nat) (eccCorrected crcError : Bool) (s : State) : Out :=
  .next (onlyIf (cameraWorks s c) s (
    let k := cameraSet s c.toNat
    let x := camera s c
    if vc ≠ k.2.1 ∨ dataType ≠ k.1 then discardPacket s c
    else if !x.slotOpen then s
    else match openSlot s c with
      | none => s
      | some (o, off) =>
        let tall := decide (k.2.2.2.1 ≤ x.lines)
        let s := if tall then s else writeLine s c o off x.lines samples
        setCamera s c { x with
          lines := min 0xFFFF (x.lines + 1)
          flags := x.flags ||| (flag eccCorrected 1 + flag crcError 2 + flag tall 4) }))

/-- FRAME_END: the header is written and the producer index advances (R541, R552). -/
def execFrameEnd (c : BitVec 3) (vc : Nat) (s : State) : Out :=
  .next (onlyIf (cameraWorks s c) s (
    let k := cameraSet s c.toNat
    let x := camera s c
    if vc ≠ k.2.1 then discardPacket s c
    else match (if x.slotOpen then openSlot s c else none) with
      | none => setCamera s c { x with dropping := false, slotOpen := false }
      | some (o, off) =>
        let r := stampWithin s 8
        let short := decide (x.lines < k.2.2.2.1)
        let flags := x.flags ||| (flag (x.lines == k.2.2.2.1) 0 + flag short 3)
        let head := layout 64 [(0x00, leBytes 8 r.1), (0x08, leBytes 8 x.startStamp), (0x10, leBytes 2 x.frameNumber), (0x12, leBytes 2 flags),
          (0x14, leBytes 2 x.lines), (0x18, leBytes 4 x.seq)]
        let s := presentPort (objWriteBytes r.2 o off head) (cameraRing c) (ringEntry r.2 o)
        let s := objSetWord s o 0 ((objWord s o 0 + 1) % 2 ^ 32)
        setCamera s c { x with slotOpen := false, seq := (x.seq + 1) % 2 ^ 32 }))

/-- The period and phase of a frame-sync output, when it is on (R553). -/
def syncSet (s : State) (c : Nat) : Option (Nat × Nat) :=
  let key := 0x0248 + c
  let p := portField s key 0; let w := portField s key 2
  if (settingBytes s key).isSome ∧ 1000000 ≤ p ∧ p ≤ 1000000000 ∧ p % 8 = 0 ∧ 1000 ≤ w ∧ w ≤ 1000000 then some (p, portField s key 1) else none

/-- FRAME_SYNC_PULSE: the output pulses once for each instant k × period + phase. -/
def execFrameSyncPulse (c : BitVec 3) (s : State) : Out :=
  .next (onlyIf (portsWork s) s (match syncSet s c.toNat with
    | none => s
    | some (p, ph) =>
      let at_ := (s.now - ph) / p * p + ph
      onlyIf (decide (ph ≤ s.now) && decide (s.ports.syncPulses.toList.getD c.toNat 0 < at_)) s
        ({ s with ports := { s.ports with syncPulses := s.ports.syncPulses.set c.toNat at_ (by have := c.isLt; omega) } }.emit (.syncPulse c.toNat))))

/-- CAMERA_GROUP_POWER_ON: the group is powered, and the firmware writes the camera register script over its I²C bus (R519, R553). -/
def execCameraGroupPowerOn (group : BitVec 1) (s : State) : Out :=
  .next (onlyIf (portsWork s && s.power.state == 0) s (
    let s := { s with power := { s.power with cameraOn0 := s.power.cameraOn0 || group == 0, cameraOn1 := s.power.cameraOn1 || group == 1 } }
    s.emit (.i2cScript group.toNat ((settingBytes s 0x0250).getD []))))

/-! ### CAN FD (R554, R555) -/

/-- One channel. -/
def canPort (s : State) (n : BitVec 2) : Can := s.ports.cans[n.toNat]'(by have := n.isLt; omega)

/-- Replace one channel. -/
def setCanPort (s : State) (n : BitVec 2) (x : Can) : State :=
  { s with ports := { s.ports with cans := s.ports.cans.set n.toNat x (by have := n.isLt; omega) } }

/-- A channel is enabled. -/
def canWorks (s : State) (n : BitVec 2) : Bool := portsWork s && enabledBit s (11 + n.toNat)

/-- A received identifier passes any of the channel's 32 filters. -/
def passesFilter (s : State) (n : BitVec 2) (ident : Word) : Bool :=
  let key := 0x0260 + n.toNat
  (settingBytes s key).isSome && (List.range 32).any (fun k =>
    (ident.toNat &&& portField s key (2 + 2 * k)) == (portField s key (1 + 2 * k) &&& portField s key (2 + 2 * k)))

/-- CAN_FRAME_RECEIVED. -/
def execCanFrameReceived (n : BitVec 2) (ident : Word) (data : List Byte) (s : State) : Out :=
  .next (onlyIf (canWorks s n && !(canPort s n).busOff && passesFilter s n ident && decide (data.length ≤ 64)) s (
    let r := stampWithin s 8
    portEntry r.2 (0xFFFF0400 + n.toNat)
      (layout 96 [(0x00, leBytes 8 r.1), (0x08, leBytes 4 ident.toNat), (0x0C, leBytes 1 data.length), (0x10, data)])))

/-- The head entry of a channel's transmit ring with the time its 10 ms run from: its launch time, or the time it could first start (R555). -/
def canHead (s : State) (n : BitVec 2) : Option (Obj × Nat × List Byte × Nat) :=
  (headEntry s (0xFFFF0410 + n.toNat) (canPort s n).txProd).map (fun e =>
    (e.1, e.2.1, e.2.2, if fld e.2.2 0 8 = 0 then (canPort s n).headAt else fld e.2.2 0 8))

/-- CAN_FRAME_TRANSMIT: the head entry starts at its launch time, up to the tick of its expiry; a frame that loses arbitration is retried. -/
def execCanFrameTransmit (n : BitVec 2) (wonArbitration : Bool) (s : State) : Out :=
  .next (onlyIf (canWorks s n && !(canPort s n).busOff && wonArbitration) s (match canHead s n with
    | none => s
    | some (o, off, e, due) => onlyIf (decide (due ≤ s.now) && decide (s.now ≤ due + 10000000)) s (
      let s := presentPort s (0xFFFF0410 + n.toNat) 96
      let s := s.emit (.can n.toNat (BitVec.ofNat 32 (fld e 8 4)) (slice e 0x10 (fld e 0xC 1)))
      setCanPort (finishEntry s o (off + 0x0D) 1) n { canPort s n with headAt := s.now })))

/-- CAN_FRAME_ABANDON: after the tick 10 ms past its launch time, on which it may still start, a frame that has not started is abandoned and counted (R458, R555, assumption 157). -/
def execCanFrameAbandon (n : BitVec 2) (s : State) : Out :=
  .next (onlyIf (canWorks s n) s (match canHead s n with
    | none => s
    | some (o, off, _, due) => onlyIf (decide (due + 10000000 < s.now)) s (
      let x := canPort s n
      setCanPort (finishEntry s o (off + 0x0D) 2) n { x with headAt := s.now, abandoned := min 0xFFFFFFFF (x.abandoned + 1) })))

/-- CAN_BUS_OFF: counted; the channel neither sends nor receives until it recovers. -/
def execCanBusOff (n : BitVec 2) (s : State) : Out :=
  let x := canPort s n
  .next (onlyIf (canWorks s n && !x.busOff) s (setCanPort s n { x with busOff := true, busOffs := min 0xFFFFFFFF (x.busOffs + 1) }))

/-- CAN_BUS_OFF_RECOVERY. -/
def execCanBusOffRecovery (n : BitVec 2) (s : State) : Out :=
  .next (onlyIf (canWorks s n) s (setCanPort s n { canPort s n with busOff := false }))

/-! ### Inertial units (R556, R557) -/

/-- One SPI master. -/
def spiPort (s : State) (n : BitVec 2) : Spi := s.ports.spis[n.toNat]'(by have := n.isLt; omega)

/-- Replace one SPI master. -/
def setSpiPort (s : State) (n : BitVec 2) (x : Spi) : State :=
  { s with ports := { s.ports with spis := s.ports.spis.set n.toNat x (by have := n.isLt; omega) } }

/-- A master is enabled and set up. -/
def spiWorks (s : State) (n : BitVec 2) : Bool := portsWork s && enabledBit s (15 + n.toNat) && (settingBytes s (0x0268 + n.toNat)).isSome

/-- DATA_READY_EDGE: stamped, and the transaction starts; an edge during a transaction is an overrun. -/
def execDataReadyEdge (n : BitVec 2) (s : State) : Out :=
  let x := spiPort s n
  .next (onlyIf (spiWorks s n) s (
    if x.busy then setSpiPort s n { x with overrun := true, overruns := min 0xFFFFFFFF (x.overruns + 1) }
    else
      let r := stampWithin s 8
      (setSpiPort r.2 n { x with busy := true, stamp := r.1 }).emit (.spiStart n.toNat)))

/-- One axis of a response: the field at its byte offset, width and byte order, times its FP32 scale, as FP32 to nearest even. -/
def axisValue (s : State) (n : BitVec 2) (response : List Byte) (axis : Nat) : Nat :=
  let f := fun (i : Nat) => portField s (0x0268 + n.toNat) (4 + 4 * axis + i)
  let w := if f 1 = 32 then 4 else 2
  let bs := slice response (f 0) w
  let raw := signed (8 * w) (if f 2 = 1 then ofBe bs else ofLe bs)
  fp32.encode .rne ((Num.ofInt raw 0).mul (fp32.decode (f 3 % 2 ^ 32)))

/-- SPI_TRANSACTION_COMPLETE: the six axes are decoded and the sample enters the inertial ring. -/
def execSpiTransactionComplete (n : BitVec 2) (response : List Byte) (s : State) : Out :=
  let x := spiPort s n
  .next (onlyIf (spiWorks s n && x.busy) s (
    let axes := ((List.range 6).map (fun a => leBytes 4 (axisValue s n response a))).flatten
    let e := leBytes 8 x.stamp ++ leBytes 4 x.seq ++ leBytes 1 n.toNat ++ leBytes 1 (flag x.overrun 0) ++ leBytes 2 0 ++ axes ++ List.replicate 8 0
    portEntry (setSpiPort s n { x with busy := false, overrun := false, seq := (x.seq + 1) % 2 ^ 32 }) 0xFFFF0500 e))

/-! ### Encoders (R558, R559) -/

/-- The place of a pair of levels in the quadrature cycle 00, 10, 11, 01. -/
def quadPhase (a b : Bool) : Nat := match a, b with
  | false, false => 0
  | true, false => 1
  | true, true => 2
  | false, true => 3

/-- The steps between two pairs of stable levels in a direction: A leading B counts up in direction 0. -/
def quadStep (old new dir : Nat) : Int :=
  let d : Int := if (new + 4 - old) % 4 = 1 then 1 else if (new + 4 - old) % 4 = 3 then -1 else 0
  if dir % 2 = 1 then -d else d

/-- The first of the 4 ticks on which a level was stable: three ticks of the present increment ago (R440, R558). -/
def firstTick (b : TimeBase) : Nat := (b.t * 2 ^ 32 + b.f - 3 * b.incr.toNat) / 2 ^ 32

/-- ENCODER_EDGE: levels stable on 4 ticks are counted; a change of both is illegal. -/
def execEncoderEdge (n : BitVec 3) (a b index : Bool) (s : State) : Out :=
  let x := s.ports.encoders[n.toNat]'(by have := n.isLt; omega)
  .next (onlyIf (portsWork s && enabledBit s (19 + n.toNat)) s (
    let old := quadPhase x.a x.b; let new := quadPhase a b
    let illegal := x.a != a && x.b != b
    let e : EncEdge := { stamp := firstTick s.time, delta := quadStep old new (portField s 0x0270 (1 + n.toNat)), illegal := illegal, index := index && !x.index }
    let recent := if old = new ∧ e.index = false then x.recent else x.recent ++ [e]
    let x := { x with a := a, b := b, index := index, recent := recent, illegals := if illegal then min 0xFFFFFFFF (x.illegals + 1) else x.illegals }
    { s with ports := { s.ports with encoders := s.ports.encoders.set n.toNat x (by have := n.isLt; omega) } }))

/-- The sampling period of the encoders. -/
def encoderPeriod (s : State) : Nat := match settingBytes s 0x0270 with
  | some _ => portField s 0x0270 0
  | none => 1000000

/-- An encoder with the edges stamped before an instant folded in: the encoder, whether one was illegal, whether the index was seen. -/
def foldEdges (x : Encoder) (ts : Nat) : Encoder × Bool × Bool :=
  let now := x.recent.filter (fun e => decide (e.stamp < ts))
  let moved := now.filter (fun e => e.delta != 0)
  let total := moved.foldl (fun (a : Int) e => a + e.delta) 0
  ({ x with
      count := x.count + BitVec.ofInt 32 total
      edge := match moved.getLast? with
        | some e => BitVec.ofNat 64 e.stamp
        | none => x.edge
      recent := x.recent.filter (fun e => decide (ts ≤ e.stamp)) },
   now.any (fun e => e.illegal), now.any (fun e => e.index))

/-- ENCODER_SAMPLE: at ts = k × period the block writes an entry with the edges stamped before ts. -/
def execEncoderSample (s : State) : Out :=
  let p := encoderPeriod s
  let ts := s.now / p * p
  .next (onlyIf (portsWork s && (List.range 8).any (fun e => enabledBit s (19 + e)) && decide (250000 ≤ p) && decide (p ≤ 10000000) && p % 8 == 0 &&
      decide (s.ports.encoderLast < ts)) s (
    let r := s.ports.encoders.map (fun x => foldEdges x ts)
    let xs := r.toList
    let bitsOf := fun (f : Encoder × Bool × Bool → Bool) => ((xs.zipIdx.map (fun e => flag (f e.1) e.2)).sum)
    let e := leBytes 8 ts ++ leBytes 4 s.ports.encoderSeq ++ leBytes 1 (bitsOf (fun x => x.2.1)) ++ leBytes 1 (bitsOf (fun x => x.2.2)) ++ leBytes 2 0 ++
      (xs.map (fun x => leBytes 4 x.1.count.toNat)).flatten ++ (xs.map (fun x => leBytes 8 x.1.edge.toNat)).flatten ++ List.replicate 16 0
    let s := { s with ports := { s.ports with
      encoders := r.map (fun x => x.1), encoderLast := ts, encoderSeq := (s.ports.encoderSeq + 1) % 2 ^ 32 } }
    portEntry s 0xFFFF0600 e))

/-! ### `HALT_REQ` (R309, R560) -/

/-- HALT_REQ_ACCEPT: the halt is latched, halt_seq increases, the halt word is written with bit 31, `RESTING` is asserted; a pass prepared on this tick carries the latch (R309, R310). -/
def execHaltReqAccept (s : State) : Out :=
  .next (onlyIf (portsWork s) s (
    let seq := (s.haltSeq + 1) % 2 ^ 31
    let s := writeHaltWord { s with haltLatched := true, haltAt := s.time.ticks, haltSeq := seq } (2 ^ 31 + seq)
    latchHeaders { s with resting := true }))

/-! ### JTAG (R487, R561) -/

/-- The test port is powered. -/
def jtagAlive (s : State) : Bool := s.power.state != 4 || s.power.heldInReset

/-- The debug instructions take effect. -/
def debugPermitted (s : State) : Bool := timeRuns s && setting s 0x0082 0 == 1

/-- BYPASS: the one-bit register shifts. -/
def execJtagBypass (tdi : Bool) (s : State) : Out :=
  .next (onlyIf (jtagAlive s) s
    ({ s with ports := { s.ports with jtagBypass := tdi, extest := false } }.emit (.jtag [s.ports.jtagBypass])))

/-- IDCODE: the identification register shifts out, least significant bit first. -/
def execJtagIdcode (s : State) : Out :=
  .next (onlyIf (jtagAlive s) s
    ({ s with ports := { s.ports with extest := false } }.emit (.jtag ((List.range 32).map (fun i => Config.jtagIdcode.getLsbD i)))))

/-- The boundary register captures the pins, whose order no rule states, and is loaded (R561). -/
def captureBoundary (s : State) (boundary : List Bool) (extest : Bool) : State :=
  let n := boundary.length
  let pins := (List.range n).map (fun i => Config.freeNat (s.freeCount + i) % 2 == 1)
  { s with freeCount := s.freeCount + n, ports := { s.ports with jtagBoundary := boundary, extest := extest } }.emit (.jtag pins)

/-- SAMPLE/PRELOAD. -/
def execJtagSamplePreload (boundary : List Bool) (s : State) : Out := .next (onlyIf (jtagAlive s) s (captureBoundary s boundary false))

/-- EXTEST: only while the module is held in reset. -/
def execJtagExtest (boundary : List Bool) (s : State) : Out := .next (onlyIf s.power.heldInReset s (captureBoundary s boundary true))

/-- The debug instructions: 0 the T0 aperture, 1 ID_STATE, which is read in every stage, 2 the Cast side path. -/
def execJtagDebugAccess (target : Nat) (addr : Nat) (isWrite : Bool) (data : List Byte) (s : State) : Out :=
  .next (onlyIf (jtagAlive s) s (match target with
    | 0 =>
      let n := data.length
      if !debugPermitted s ∨ addr < 0x4000000000 ∨ 0x4020000000 < addr + n then s
      else if isWrite then { s with mem := s.mem.write addr data }
      else s.emit (.jtagData (s.mem.read addr n))
    | 1 => if isWrite then s else s.emit (.jtagData (leBytes 4 (idState s)))
    | 2 =>
      if !debugPermitted s ∨ isWrite = true then s
      else
        let f := s.freeBytes data.length
        f.2.emit (.jtagData f.1)
    | _ => s))

/-- NOR programming: while debug_permitted is 1, and in stage 0xE1. -/
def execJtagNorProgram (flash : BitVec 1) (offset : Nat) (data : List Byte) (s : State) : Out :=
  .next (onlyIf (jtagAlive s && (debugPermitted s || s.boot.stage == 0xE1) && decide (offset + data.length ≤ 0x4000000)) s
    (programFlash s flash.toNat offset data))

end Sys2Proof.Machine
end

