-- ==== Sys2Proof/Machine/Streams.lean ====
section
/-! DEFINITION. The commands of recurrent streams: open, reset, park, close, and swaps written (R233 to R237, R242, R251 to R256). -/

namespace Sys2Proof.Machine

/-! ### Swaps (R236, R242) -/

/-- SWAP_OUT_WRITTEN: the state lies in its park slot, the pool slot is free, and the needs that wait are met (R236, R242). -/
def execSwapOutWritten (p : PartId) (stream : Nat) (s : State) : Out :=
  .next (match (s.part p.toNat).streams.find? (fun x => x.id == stream && x.state == 1) with
    | none => s
    | some x =>
      servePart (endPark s p.toNat x) p.toNat)

/-- SWAP_IN_WRITTEN: the state lies in half 0 of its slot; an injection of 0xB0 holds the swap-in (R236, R242, R410). -/
def execSwapInWritten (p : PartId) (stream : Nat) (s : State) : Out :=
  .next (match (s.part p.toNat).streams.find? (fun x => x.id == stream && x.state == 3) with
    | none => s
    | some x =>
      let inj := takeInjection s 0xB0 (fun q => q.param.toNat == stream)
      if inj.1.isSome then inj.2
      else
        let s := readPark s x
        servePart (refreshCtl (updStream s p.toNat stream (fun x => { x with state := 0, half := 0 })) p.toNat stream) p.toNat)

/-! ### Lists of stream IDs (R251 to R254, R356) -/

/-- Change the second entry of a stream in the shadow of its job (R256). -/
def updSecond (s : State) (jid id : Nat) (f : Stream → Stream) : State :=
  updJob s jid (fun j => { j with shadow := j.shadow.map (fun sh =>
    { sh with streams := sh.streams.map (fun x => if x.id = id then f x else x) }) })

/-- A stream command: the job, the count and the buffer are checked, then `f` acts on the IDs (R351, R356). -/
def streamCommand (m : MbxId) (h : CmdHdr) (op job count : Nat) (b : Bref) (s : State)
    (f : State → Job → List Nat → State) : Out :=
  command s m h op 0x20 (fun s =>
    match s.job? job with
    | none => complete s m h op stBadParam []
    | some j =>
      if !mayUse m j.owner then complete s m h op stDenied []
      else if count = 0 ∨ 64 < count then complete s m h op stBadParam []
      else withBuf s m h op b (4 * count) (fun s bs => f s j ((List.range count).map (fun i => fld bs (4 * i) 4))))

/-- Act on each ID in list order and answer one status byte per ID. -/
def eachStream (s : State) (m : MbxId) (h : CmdHdr) (op : Nat) (ids : List Nat) (f : State → Nat → State × Nat) : State :=
  let r := ids.foldl (fun acc id =>
    let x := f acc.1 id
    (x.1, acc.2 ++ [BitVec.ofNat 8 x.2])) (s, ([] : List Byte))
  serveStreams (complete r.1 m h op stOk r.2)

/-- A new entry (R251). -/
def newStream (id job slot park : Nat) (held : Bool) : Stream :=
  { id := id, job := job, state := 0, slot := slot, half := 0, parkSlot := park, queue := [], resetPending := true, held := held
    gap := false, steps := 0, lastUse := 0, selected := false, parkAsked := false }

/-- The park slot of a new stream: 0xFFFF without a park object, none when there is no free one (R235, R251). -/
def newPark (s : State) (j : Job) (g : StreamGeo) : Option Nat :=
  match jobPark s j with
  | none => some 0xFFFF
  | some o => freePark s o g

/-- Room for the second entry of a stream in the shadow's partition, a stream of any pool evicted where need be; none without (R237, R251, R256). -/
def secondRoom (s : State) (j : Job) : Option State := match j.shadow with
  | some sh =>
    if 8192 ≤ tableStreams s sh.partition then none
    else if activeStreams s sh.partition < 1024 then some s
    else freeAtOnce s sh.partition 0 false
  | none => some s

/-- Open one stream (R251, R256). -/
def openStream (s : State) (jid id : Nat) : State × Nat :=
  match s.job? jid with
  | none => (s, stBadParam)
  | some j => match jobStreamGeo s j, jobPool s j with
    | some g, some pool =>
      let p := (objPart s pool).getD 8
      if (findStream s id).isSome = true ∨ id / 2 ^ 29 ≠ p then (s, stBadParam)
      else match newPark s j g with
        | none => (s, stNoResource)
        | some park =>
          if 8192 ≤ tableStreams s p then (s, stNoResource)
          else match (secondRoom s j).bind (fun s => slotAtOnce s p pool g) with
            | none => (s, stNoResource)
            | some (s, k) =>
              let x := newStream id jid k park (j.cls == 0)
              let s := s.setPart p { s.part p with streams := (s.part p).streams ++ [x] }
              (updJob s jid (fun j => { j with shadow := j.shadow.map (fun sh => { sh with streams := sh.streams ++ [x] }) }), stOk)
    | _, _ => (s, stBadParam)

/-- `STREAM_OPEN` (R251). -/
def execStreamOpen (m : MbxId) (h : CmdHdr) (job count : Nat) (b : Bref) (s : State) : Out :=
  streamCommand m h 0x50 job count b s (fun s _ ids => eachStream s m h 0x50 ids (fun s id => openStream s job id))

/-- The reset is for the oldest chunk not yet selected: a chunk in progress that applied an earlier reset does not clear it (R252). -/
def keepPending (s : State) (jid id : Nat) : State :=
  let keep := fun (i : Invocation) => { i with rows := i.rows.map (fun r => if r.stream = id then { r with applied := false } else r) }
  updJob s jid (fun j => { j with
    invocation := j.invocation.map keep, owed := j.owed.map keep
    shadow := j.shadow.map (fun sh => { sh with run := sh.run.map keep, queued := sh.queued.map keep }) })

/-- Reset one stream; a BROKEN one takes a slot with the initial state (R236, R252). -/
def resetStream (s : State) (m : MbxId) (jid id : Nat) : State × Nat :=
  match findStream s id with
  | none => (s, stBadParam)
  | some (p, x) =>
    if x.job ≠ jid then (s, otherStream s m x)
    else
      let mark := fun (s : State) =>
        updSecond (updStream (keepPending s jid id) p id (fun x => { x with resetPending := true })) jid id
          (fun x => { x with resetPending := true })
      if x.state ≠ 4 then (mark s, stOk)
      else match s.job? jid with
        | none => (s, stBadParam)
        | some j => match jobStreamGeo s j, jobPool s j with
          | some g, some pool => match slotAtOnce s p pool g with
            | none => (s, stNoResource)
            | some (s, k) =>
              let s := stateMove (countStream (writeInitial s j k) jid (fun r => { r with swapIns := sat32n (r.swapIns + 1) })) p jid
              (mark (updStream s p id (fun x => { x with state := 0, slot := k, half := 0 })), stOk)
          | _, _ => (s, stBadParam)

/-- `STREAM_RESET_ROWS` (R252). -/
def execStreamResetRows (m : MbxId) (h : CmdHdr) (job count : Nat) (b : Bref) (s : State) : Out :=
  streamCommand m h 0x51 job count b s (fun s _ ids => eachStream s m h 0x51 ids (fun s id => resetStream s m job id))

/-- Park one stream: at once, or after the commit of the invocation that holds its chunk (R253). -/
def parkStream (s : State) (m : MbxId) (jid id : Nat) : State :=
  match findStream s id with
  | none => s
  | some (p, x) =>
    if parkStatus s m jid id ≠ stOk ∨ x.state ≠ 0 then s
    else if x.selected then updStream s p id (fun x => { x with parkAsked := true })
    else startPark s p id

/-- `STREAM_PARK` (R253). -/
def execStreamPark (m : MbxId) (h : CmdHdr) (job count : Nat) (b : Bref) (s : State) : Out :=
  streamCommand m h 0x52 job count b s (fun s _ ids =>
    let st := ids.map (fun id => BitVec.ofNat 8 (parkStatus s m job id))
    let begun := ids.any (fun id => match findStream s id with
      | some (_, x) => parkStatus s m job id == stOk && x.state == 0 && !x.selected
      | none => false)
    let s := forEach ids s (fun s id => parkStream s m job id)
    if parkWaits s ids then serveStreams (await s m h 0x52 (.park job ids begun))
    else serveStreams (complete s m h 0x52 stOk st))

/-- Close one stream (R254). -/
def closeStream (s : State) (m : MbxId) (jid id : Nat) : State × Nat :=
  match findStream s id with
  | none => (s, stBadParam)
  | some (p, x) =>
    if x.job ≠ jid then (s, otherStream s m x)
    else if !x.queue.isEmpty || x.selected then (s, stBusy)
    else
      let s := s.setPart p { s.part p with streams := (s.part p).streams.filter (fun y => y.id != id) }
      (updJob s jid (fun j => { j with shadow := j.shadow.map (fun sh =>
        { sh with streams := sh.streams.filter (fun y => y.id != id) }) }), stOk)

/-- `STREAM_CLOSE` (R254). -/
def execStreamClose (m : MbxId) (h : CmdHdr) (job count : Nat) (b : Bref) (s : State) : Out :=
  streamCommand m h 0x53 job count b s (fun s _ ids => eachStream s m h 0x53 ids (fun s id => closeStream s m job id))

end Sys2Proof.Machine
end

