-- ==== Sys2Proof/Machine/Dispatch.lean ====
section
/-! DEFINITION. `exec`: one arm per command of the table, each a direct call of the command's meaning. -/

namespace Sys2Proof.Machine

def exec (i : Instr) (s : State) : Host.Outcome State Fault Refusal :=
  match i with
  | .nop t => Sys2Proof.Machine.execNop t s
  | .setp t p addr => Sys2Proof.Machine.execSetp t p addr s
  | .addp t p inc => Sys2Proof.Machine.execAddp t p inc s
  | .setmode t a b out bp sr => Sys2Proof.Machine.execSetmode t a b out bp sr s
  | .loop t k countM1 endAddr => Sys2Proof.Machine.execLoop t k countM1 endAddr s
  | .accz t set => Sys2Proof.Machine.execAccz t set s
  | .mma t pa pb kM1 set post => Sys2Proof.Machine.execMma t pa pb kM1 set post s
  | .accrd t dst set scale scaleEn => Sys2Proof.Machine.execAccrd t dst set scale scaleEn s
  | .vop t sub dst s1 s2 rowsM1 => Sys2Proof.Machine.execVop t sub dst s1 s2 rowsM1 s
  | .vpoly t table dst src rowsM1 => Sys2Proof.Machine.execVpoly t table dst src rowsM1 s
  | .vred t sub axis dst src rowsM1 => Sys2Proof.Machine.execVred t sub axis dst src rowsM1 s
  | .xpose t size dst src => Sys2Proof.Machine.execXpose t size dst src s
  | .shuf t table dst src rowsM1 => Sys2Proof.Machine.execShuf t table dst src rowsM1 s
  | .spop t sub fmt d s1 s2 s3 => Sys2Proof.Machine.execSpop t sub fmt d s1 s2 s3 s
  | .sls t dir sreg base word => Sys2Proof.Machine.execSls t dir sreg base word s
  | .tmove t slot sem loc k indexed => Sys2Proof.Machine.execTmove t slot sem loc k indexed s
  | .send t port vt src flitsM1 => Sys2Proof.Machine.execSend t port vt src flitsM1 s
  | .recv t port dst vt flitsM1 => Sys2Proof.Machine.execRecv t port dst vt flitsM1 s
  | .recvFilled t port => Sys2Proof.Machine.execRecvFilled t port s
  | .wait t sem count => Sys2Proof.Machine.execWait t sem count s
  | .waitSatisfied t => Sys2Proof.Machine.execWaitSatisfied t s
  | .signal t sem vt inc => Sys2Proof.Machine.execSignal t sem vt inc s
  | .fence t stream moves loc => Sys2Proof.Machine.execFence t stream moves loc s
  | .mark t index => Sys2Proof.Machine.execMark t index s
  | .commitWord t group => Sys2Proof.Machine.execCommitWord t group s
  | .endWord t => Sys2Proof.Machine.execEndWord t s
  | .illegalWord t word => Sys2Proof.Machine.execIllegalWord t word s
  | .flitParityError router dest => Sys2Proof.Machine.execFlitParityError router dest s
  | .unitWordComplete t u => Sys2Proof.Machine.execUnitWordComplete t u s
  | .arbiterRequest p r cls bytes job => Sys2Proof.Machine.execArbiterRequest p r cls bytes job s
  | .arbiterGrant p errs => Sys2Proof.Machine.execArbiterGrant p errs s
  | .turnEstimateUpdate p => Sys2Proof.Machine.execTurnEstimateUpdate p s
  | .arbiterProtocolBreach p engine r job => Sys2Proof.Machine.execArbiterProtocolBreach p engine r job s
  | .transferWritten p engine => Sys2Proof.Machine.execTransferWritten p engine s
  | .lateThresholdExpiry c runId => Sys2Proof.Machine.execLateThresholdExpiry c runId s
  | .scrubBurst p errs reread => Sys2Proof.Machine.execScrubBurst p errs reread s
  | .scrubWindowBoundary p => Sys2Proof.Machine.execScrubWindowBoundary p s
  | .dramRefresh p bank => Sys2Proof.Machine.execDramRefresh p bank s
  | .bar2Read offset size => Sys2Proof.Machine.execBar2Read offset size s
  | .bar2Write offset data => Sys2Proof.Machine.execBar2Write offset data s
  | .hangCheck => Sys2Proof.Machine.execHangCheck s
  | .invocationStart job => Sys2Proof.Machine.execInvocationStart job s
  | .periodicStartInstant job => Sys2Proof.Machine.execPeriodicStartInstant job s
  | .spillWritten entry => Sys2Proof.Machine.execSpillWritten entry s
  | .attnPassStart job => Sys2Proof.Machine.execAttnPassStart job s
  | .pageRecallWritten entry => Sys2Proof.Machine.execPageRecallWritten entry s
  | .gatePassPrepare job => Sys2Proof.Machine.execGatePassPrepare job s
  | .epochCutoff job => Sys2Proof.Machine.execEpochCutoff job s
  | .ingressWrite object entry => Sys2Proof.Machine.execIngressWrite object entry s
  | .swapOutWritten p stream => Sys2Proof.Machine.execSwapOutWritten p stream s
  | .swapInWritten p stream => Sys2Proof.Machine.execSwapInWritten p stream s
  | .invocationCommit job => Sys2Proof.Machine.execInvocationCommit job s
  | .milestoneDue job => Sys2Proof.Machine.execMilestoneDue job s
  | .leaseLoadComplete job => Sys2Proof.Machine.execLeaseLoadComplete job s
  | .switchSaveWritten job => Sys2Proof.Machine.execSwitchSaveWritten job s
  | .switchReloadComplete job => Sys2Proof.Machine.execSwitchReloadComplete job s
  | .shadowEstablish job => Sys2Proof.Machine.execShadowEstablish job s
  | .detectorEvent e => Sys2Proof.Machine.execDetectorEvent e s
  | .castReadTimeout p kind unit => Sys2Proof.Machine.execCastReadTimeout p kind unit s
  | .castComplete p => Sys2Proof.Machine.execCastComplete p s
  | .sliceWriteBackComplete p => Sys2Proof.Machine.execSliceWriteBackComplete p s
  | .partitionResetRelease p => Sys2Proof.Machine.execPartitionResetRelease p s
  | .dramTrainingComplete p ok => Sys2Proof.Machine.execDramTrainingComplete p ok s
  | .partitionInService p => Sys2Proof.Machine.execPartitionInService p s
  | .atelierWatchdogExpiry => Sys2Proof.Machine.execAtelierWatchdogExpiry s
  | .atelierMemoryUncorrected => Sys2Proof.Machine.execAtelierMemoryUncorrected s
  | .injectionDisarm => Sys2Proof.Machine.execInjectionDisarm s
  | .commandFetch m => Sys2Proof.Machine.execCommandFetch m s
  | .commandTimeout m => Sys2Proof.Machine.execCommandTimeout m s
  | .undefinedOpcode m h opcode => Sys2Proof.Machine.execUndefinedOpcode m h opcode s
  | .identify m h => Sys2Proof.Machine.execIdentify m h s
  | .getLimits m h => Sys2Proof.Machine.execGetLimits m h s
  | .plinthRead m h offset b => Sys2Proof.Machine.execPlinthRead m h offset b s
  | .reliefList m h b => Sys2Proof.Machine.execReliefList m h b s
  | .reliefApply m h relief => Sys2Proof.Machine.execReliefApply m h relief s
  | .objCreate m h length flags => Sys2Proof.Machine.execObjCreate m h length flags s
  | .objPlace m h object tier partition node offset => Sys2Proof.Machine.execObjPlace m h object tier partition node offset s
  | .objWrite m h object offset b => Sys2Proof.Machine.execObjWrite m h object offset b s
  | .objRead m h object offset b => Sys2Proof.Machine.execObjRead m h object offset b s
  | .objFree m h object => Sys2Proof.Machine.execObjFree m h object s
  | .objDelta m h object b => Sys2Proof.Machine.execObjDelta m h object b s
  | .imageLoad m h object => Sys2Proof.Machine.execImageLoad m h object s
  | .imageUnload m h image => Sys2Proof.Machine.execImageUnload m h image s
  | .jobSubmit m h image cls flags periodNs count bindings b => Sys2Proof.Machine.execJobSubmit m h image cls flags periodNs count bindings b s
  | .jobCancel m h job mode => Sys2Proof.Machine.execJobCancel m h job mode s
  | .jobQuery m h job b => Sys2Proof.Machine.execJobQuery m h job b s
  | .jobFeed m h job kind rowCount rowSize b => Sys2Proof.Machine.execJobFeed m h job kind rowCount rowSize b s
  | .jobSetFallback m h job image => Sys2Proof.Machine.execJobSetFallback m h job image s
  | .streamOpen m h job count b => Sys2Proof.Machine.execStreamOpen m h job count b s
  | .streamResetRows m h job count b => Sys2Proof.Machine.execStreamResetRows m h job count b s
  | .streamPark m h job count b => Sys2Proof.Machine.execStreamPark m h job count b s
  | .streamClose m h job count b => Sys2Proof.Machine.execStreamClose m h job count b s
  | .kvPrefixPin m h sequence count key => Sys2Proof.Machine.execKvPrefixPin m h sequence count key s
  | .kvRelease m h kind key => Sys2Proof.Machine.execKvRelease m h kind key s
  | .timeConfig m h mask jumpLimit increment port0 port1 holdover => Sys2Proof.Machine.execTimeConfig m h mask jumpLimit increment port0 port1 holdover s
  | .timeForce m h newTime => Sys2Proof.Machine.execTimeForce m h newTime s
  | .fabricStatus m h b => Sys2Proof.Machine.execFabricStatus m h b s
  | .fabricJoinPolicy m h policy count b => Sys2Proof.Machine.execFabricJoinPolicy m h policy count b s
  | .faultInjectArm m h windowMs => Sys2Proof.Machine.execFaultInjectArm m h windowMs s
  | .faultStatus m h b => Sys2Proof.Machine.execFaultStatus m h b s
  | .castFetch m h partition which b => Sys2Proof.Machine.execCastFetch m h partition which b s
  | .partitionReset m h partition path => Sys2Proof.Machine.execPartitionReset m h partition path s
  | .patinaRead m h sect offset b => Sys2Proof.Machine.execPatinaRead m h sect offset b s
  | .calendarSet m h seconds nanoseconds => Sys2Proof.Machine.execCalendarSet m h seconds nanoseconds s
  | .fwStage m h target b => Sys2Proof.Machine.execFwStage m h target b s
  | .fwCommit m h target => Sys2Proof.Machine.execFwCommit m h target s
  | .attest m h nonce b => Sys2Proof.Machine.execAttest m h nonce b s
  | .powerMode m h state cap => Sys2Proof.Machine.execPowerMode m h state cap s
  | .dblCmd path m value => Sys2Proof.Machine.execDblCmd path m value s
  | .dblCpl path m value => Sys2Proof.Machine.execDblCpl path m value s
  | .mailboxEnable path m value => Sys2Proof.Machine.execMailboxEnable path m value s
  | .mailboxDisable path m value => Sys2Proof.Machine.execMailboxDisable path m value s
  | .mbxLostRead path m => Sys2Proof.Machine.execMbxLostRead path m s
  | .evtStatusClear path value => Sys2Proof.Machine.execEvtStatusClear path value s
  | .fltStatusClear path value => Sys2Proof.Machine.execFltStatusClear path value s
  | .injectionRequest path value => Sys2Proof.Machine.execInjectionRequest path value s
  | .fltInjDoneRead path => Sys2Proof.Machine.execFltInjDoneRead path s
  | .timIncrWrite path value => Sys2Proof.Machine.execTimIncrWrite path value s
  | .timAdjWrite path value => Sys2Proof.Machine.execTimAdjWrite path value s
  | .timLowWordRead path offset => Sys2Proof.Machine.execTimLowWordRead path offset s
  | .timStatusClear path value => Sys2Proof.Machine.execTimStatusClear path value s
  | .tsqPop path port => Sys2Proof.Machine.execTsqPop path port s
  | .tsqDroppedRead path port => Sys2Proof.Machine.execTsqDroppedRead path port s
  | .tsqDisable path port => Sys2Proof.Machine.execTsqDisable path port s
  | .tsqStatusClear path port value => Sys2Proof.Machine.execTsqStatusClear path port value s
  | .windowLowWordWrite path offset value => Sys2Proof.Machine.execWindowLowWordWrite path offset value s
  | .windowHighWordWrite path offset value => Sys2Proof.Machine.execWindowHighWordWrite path offset value s
  | .badSizeAccess path offset size isWrite => Sys2Proof.Machine.execBadSizeAccess path offset size isWrite s
  | .registerWrite path offset size value => Sys2Proof.Machine.execRegisterWrite path offset size value s
  | .timeBaseTick => Sys2Proof.Machine.execTimeBaseTick s
  | .sync port sender domain rxStamp origin correction twoStep => Sys2Proof.Machine.execSync port sender domain rxStamp origin correction twoStep s
  | .followUp port sender domain origin correction => Sys2Proof.Machine.execFollowUp port sender domain origin correction s
  | .delayReq port sender domain rxStamp => Sys2Proof.Machine.execDelayReq port sender domain rxStamp s
  | .delayResp port sender domain masterRx correction => Sys2Proof.Machine.execDelayResp port sender domain masterRx correction s
  | .pdelayReq port sender domain rxStamp => Sys2Proof.Machine.execPdelayReq port sender domain rxStamp s
  | .pdelayResp port sender domain rxStamp peerRx correction twoStep => Sys2Proof.Machine.execPdelayResp port sender domain rxStamp peerRx correction twoStep s
  | .pdelayRespFollowUp port sender domain peerTx correction => Sys2Proof.Machine.execPdelayRespFollowUp port sender domain peerTx correction s
  | .announce port domain d => Sys2Proof.Machine.execAnnounce port domain d s
  | .ptpMessageDiscard port => Sys2Proof.Machine.execPtpMessageDiscard port s
  | .ptpMessageSend port kind => Sys2Proof.Machine.execPtpMessageSend port kind s
  | .followUpAbandon port => Sys2Proof.Machine.execFollowUpAbandon port s
  | .announceReceiptTimeout port => Sys2Proof.Machine.execAnnounceReceiptTimeout port s
  | .holdoverExceeded => Sys2Proof.Machine.execHoldoverExceeded s
  | .calendarUpdate => Sys2Proof.Machine.execCalendarUpdate s
  | .serviceFrameReceived port frame fcsOk isPtp => Sys2Proof.Machine.execServiceFrameReceived port frame fcsOk isPtp s
  | .serviceFrameTransmit port => Sys2Proof.Machine.execServiceFrameTransmit port s
  | .transmitRingPoll object => Sys2Proof.Machine.execTransmitRingPoll object s
  | .boundaryFrameReceived frame fcsOk => Sys2Proof.Machine.execBoundaryFrameReceived frame fcsOk s
  | .perstNAssert => Sys2Proof.Machine.execPerstNAssert s
  | .downstreamInboundAccess addr isWrite size data => Sys2Proof.Machine.execDownstreamInboundAccess addr isWrite size data s
  | .frameStart camera vc dataType frameNumber => Sys2Proof.Machine.execFrameStart camera vc dataType frameNumber s
  | .cameraLine camera vc dataType samples eccCorrected crcError => Sys2Proof.Machine.execCameraLine camera vc dataType samples eccCorrected crcError s
  | .frameEnd camera vc => Sys2Proof.Machine.execFrameEnd camera vc s
  | .frameSyncPulse camera => Sys2Proof.Machine.execFrameSyncPulse camera s
  | .cameraGroupPowerOn group => Sys2Proof.Machine.execCameraGroupPowerOn group s
  | .canFrameReceived channel ident data => Sys2Proof.Machine.execCanFrameReceived channel ident data s
  | .canFrameTransmit channel wonArbitration => Sys2Proof.Machine.execCanFrameTransmit channel wonArbitration s
  | .canFrameAbandon channel => Sys2Proof.Machine.execCanFrameAbandon channel s
  | .canBusOff channel => Sys2Proof.Machine.execCanBusOff channel s
  | .dataReadyEdge spi => Sys2Proof.Machine.execDataReadyEdge spi s
  | .spiTransactionComplete spi response => Sys2Proof.Machine.execSpiTransactionComplete spi response s
  | .encoderEdge encoder a b index => Sys2Proof.Machine.execEncoderEdge encoder a b index s
  | .encoderSample => Sys2Proof.Machine.execEncoderSample s
  | .haltReqAccept => Sys2Proof.Machine.execHaltReqAccept s
  | .jtagBypass tdi => Sys2Proof.Machine.execJtagBypass tdi s
  | .jtagIdcode => Sys2Proof.Machine.execJtagIdcode s
  | .jtagSamplePreload boundary => Sys2Proof.Machine.execJtagSamplePreload boundary s
  | .jtagExtest boundary => Sys2Proof.Machine.execJtagExtest boundary s
  | .jtagDebugAccess target addr isWrite data => Sys2Proof.Machine.execJtagDebugAccess target addr isWrite data s
  | .jtagNorProgram flash offset data => Sys2Proof.Machine.execJtagNorProgram flash offset data s
  | .writeRequest port h data => Sys2Proof.Machine.execWriteRequest port h data s
  | .readRequest port h blocks => Sys2Proof.Machine.execReadRequest port h blocks s
  | .readData port h data => Sys2Proof.Machine.execReadData port h data s
  | .writeAcknowledgement port h => Sys2Proof.Machine.execWriteAcknowledgement port h s
  | .linkControl port h => Sys2Proof.Machine.execLinkControl port h s
  | .failureResponse port h status => Sys2Proof.Machine.execFailureResponse port h status s
  | .windowRead port node seq offset size bodyLen => Sys2Proof.Machine.execWindowRead port node seq offset size bodyLen s
  | .windowWrite port node seq offset size value bodyLen => Sys2Proof.Machine.execWindowWrite port node seq offset size value bodyLen s
  | .lowestIdentity port identity bootCount => Sys2Proof.Machine.execLowestIdentity port identity bootCount s
  | .report port seq r => Sys2Proof.Machine.execReport port seq r s
  | .idAssignment port seq identity nodeId assigned => Sys2Proof.Machine.execIdAssignment port seq identity nodeId assigned s
  | .routeEntries port seq generation entries last => Sys2Proof.Machine.execRouteEntries port seq generation entries last s
  | .routePhaseReissue => Sys2Proof.Machine.execRoutePhaseReissue s
  | .phaseDone port seq node generation => Sys2Proof.Machine.execPhaseDone port seq node generation s
  | .release port seq generation => Sys2Proof.Machine.execRelease port seq generation s
  | .reservationRequest port node seq length partition bootCount offset => Sys2Proof.Machine.execReservationRequest port node seq length partition bootCount offset s
  | .reservationResponse port node seq status rid base => Sys2Proof.Machine.execReservationResponse port node seq status rid base s
  | .reservationRelease port node seq rid => Sys2Proof.Machine.execReservationRelease port node seq rid s
  | .reservationFailureNotice port node rid cause => Sys2Proof.Machine.execReservationFailureNotice port node rid cause s
  | .helloNonce port identity nonce => Sys2Proof.Machine.execHelloNonce port identity nonce s
  | .helloProof port sigR sigS devCert caCert => Sys2Proof.Machine.execHelloProof port sigR sigS devCert caCert s
  | .helloVerdict port verdict mergedNodes => Sys2Proof.Machine.execHelloVerdict port verdict mergedNodes s
  | .managementRequestTimeout seq => Sys2Proof.Machine.execManagementRequestTimeout seq s
  | .t3RequestTimeout tag => Sys2Proof.Machine.execT3RequestTimeout tag s
  | .creditTimeout port vc => Sys2Proof.Machine.execCreditTimeout port vc s
  | .linkIdleTimeout port => Sys2Proof.Machine.execLinkIdleTimeout port s
  | .linkSignalLoss port => Sys2Proof.Machine.execLinkSignalLoss port s
  | .linkIdleFrameSend port => Sys2Proof.Machine.execLinkIdleFrameSend port s
  | .identityBroadcast => Sys2Proof.Machine.execIdentityBroadcast s
  | .signalDetect port => Sys2Proof.Machine.execSignalDetect port s
  | .trainingBoundMiss port => Sys2Proof.Machine.execTrainingBoundMiss port s
  | .trainingComplete port usable => Sys2Proof.Machine.execTrainingComplete port usable s
  | .linkFullPathEnd port => Sys2Proof.Machine.execLinkFullPathEnd port s
  | .equalisationUpdate port => Sys2Proof.Machine.execEqualisationUpdate port s
  | .widthChange port usable => Sys2Proof.Machine.execWidthChange port usable s
  | .undefinedKindRequest port node seq kind => Sys2Proof.Machine.execUndefinedKindRequest port node seq kind s
  | .reservedFrameType port ty => Sys2Proof.Machine.execReservedFrameType port ty s
  | .windowAccessResponse port seq status value => Sys2Proof.Machine.execWindowAccessResponse port seq status value s
  | .retrainComplete port => Sys2Proof.Machine.execRetrainComplete port s
  | .powerOn root cellOk pufOk => Sys2Proof.Machine.execPowerOn root cellOk pufOk s
  | .firmwareStart dieTemp => Sys2Proof.Machine.execFirmwareStart dieTemp s
  | .mailboxReady => Sys2Proof.Machine.execMailboxReady s
  | .powerFailDetect => Sys2Proof.Machine.execPowerFailDetect s
  | .inputUndervoltage mV => Sys2Proof.Machine.execInputUndervoltage mV s
  | .inputRecovered => Sys2Proof.Machine.execInputRecovered s
  | .overvoltage cause mV => Sys2Proof.Machine.execOvervoltage cause mV s
  | .partitionRailOvervoltage p mV => Sys2Proof.Machine.execPartitionRailOvervoltage p mV s
  | .partitionRailUndervoltage p mV => Sys2Proof.Machine.execPartitionRailUndervoltage p mV s
  | .temperatureWarning cause celsius => Sys2Proof.Machine.execTemperatureWarning cause celsius s
  | .temperatureCritical cause celsius => Sys2Proof.Machine.execTemperatureCritical cause celsius s
  | .temperatureWarningClear => Sys2Proof.Machine.execTemperatureWarningClear s
  | .clockLoss cause ppm => Sys2Proof.Machine.execClockLoss cause ppm s
  | .protectiveStopEnd root cellOk pufOk => Sys2Proof.Machine.execProtectiveStopEnd root cellOk pufOk s
  | .wakeN root cellOk pufOk => Sys2Proof.Machine.execWakeN root cellOk pufOk s
  | .wakeComplete => Sys2Proof.Machine.execWakeComplete s
  | .powerAverageWindow averageTenthsW inputMv case0 case1 => Sys2Proof.Machine.execPowerAverageWindow averageTenthsW inputMv case0 case1 s
  | .voltageLoopPeriod r => Sys2Proof.Machine.execVoltageLoopPeriod r s
  | .voltageLoopLimit c => Sys2Proof.Machine.execVoltageLoopLimit c s
  | .droopStretch c => Sys2Proof.Machine.execDroopStretch c s
  | .excessDroopStretch c => Sys2Proof.Machine.execExcessDroopStretch c s
  | .partitionRailLoop p pmbusOk sliceTemp => Sys2Proof.Machine.execPartitionRailLoop p pmbusOk sliceTemp s
  | .patinaFold => Sys2Proof.Machine.execPatinaFold s
  | .patinaCommit cause => Sys2Proof.Machine.execPatinaCommit cause s
  | .eventLogDrain => Sys2Proof.Machine.execEventLogDrain s
  | .canBusOffRecovery channel => Sys2Proof.Machine.execCanBusOffRecovery channel s
  | .powerFailSequenceEnd => Sys2Proof.Machine.execPowerFailSequenceEnd s
  | .backupCellLow => Sys2Proof.Machine.execBackupCellLow s

end Sys2Proof.Machine
end

