-- ==== Sys2Proof/Safety.lean ====
section
/-! DEFINITION. The terms in which the statements speak of good states, commands at hand and completed commands. -/

namespace Sys2Proof

open Sys2Proof.Machine

/-- A command completes: `exec` answers a next state. -/
def Completes (c : Instr) (s : State) : Prop := ∃ t, exec c s = .next t

/-- Both memories of a state are in canonical form (R117, R343). -/
def MemoryCanonical (s : State) : Prop := s.mem.wf = true ∧ s.hostMem.wf = true

/-- A tile's sequencer issues words, and no injection is pending (R40, R413). -/
def Issuing (s : State) (t : TileId) : Prop := (s.tile t).issues = true ∧ s.flt.pending = none

/-- The state in which a tile's word has joined its unit's queue and the sequencer has gone on (R40, R43). -/
def queued (s : State) (t : TileId) (u : UnitId) (w : SeqWord) : State :=
  goOn (s.setTile t (setUnitQ (s.tile t) u (unitQ (s.tile t) u ++ [w]))) t

/-- What a row word changes: of its tile, beside the queue and the sequencer that `x` shows, the lane generators and the two counts; the count of free values; and memory only inside `n` bytes of the scratchpad from `d` (R54, R99, R106). -/
def RowFrame (s u : State) (t : TileId) (x : TileState) (d n : Nat) : Prop :=
  (∃ m g sc ac k, u = { s.setTile t { x with gens := g, satCount := sc, anomCount := ac } with mem := m, freeCount := k }) ∧
  ∀ a, (∀ i < n, a ≠ t0Base t + (d + i) % 0x100000) → u.mem.byte a = s.mem.byte a

/-- A mailbox has a command in hand with the payload length of its opcode, a timeout within its range and every reserved byte 0 (R16, R349, R354). -/
def Commanded (s : State) (m : MbxId) (h : CmdHdr) (op len : Nat) : Prop :=
  inHand s m = true ∧ h.length = len ∧ h.timeout ≤ 60000000 ∧ reservedOk ((s.box m).current.getD []) op len = true

/-- The buffer of a mailbox command can be written: its range lies on the mailbox's path (R356). -/
def Writable (s : State) (m : MbxId) (b : Bref) (bs : List Byte) (t : State) : Prop :=
  bs.length ≤ b.len ∧ bufWrite s m b bs = (t, true)

/-- The mailbox commands: mailbox, header, opcode, payload length, and whether only mailbox 0 may send it (R352, R354, R356). -/
def mailboxCommand : Instr → Option (MbxId × CmdHdr × Nat × Nat × Bool)
  | .identify m h => some (m, h, 0x01, 0x0, false)
  | .getLimits m h => some (m, h, 0x02, 0x0, false)
  | .plinthRead m h _ _ => some (m, h, 0x10, 0x20, false)
  | .reliefList m h _ => some (m, h, 0x11, 0x10, false)
  | .reliefApply m h _ => some (m, h, 0x12, 0x2, true)
  | .objCreate m h _ _ => some (m, h, 0x20, 0xA, false)
  | .objPlace m h _ _ _ _ _ => some (m, h, 0x21, 0x10, false)
  | .objWrite m h _ _ _ => some (m, h, 0x22, 0x20, false)
  | .objRead m h _ _ _ => some (m, h, 0x23, 0x20, false)
  | .objFree m h _ => some (m, h, 0x24, 0x4, false)
  | .objDelta m h _ _ => some (m, h, 0x25, 0x20, false)
  | .imageLoad m h _ => some (m, h, 0x30, 0x4, false)
  | .imageUnload m h _ => some (m, h, 0x31, 0x2, false)
  | .jobSubmit m h _ _ _ _ _ _ _ => some (m, h, 0x40, 0x70, false)
  | .jobCancel m h _ _ => some (m, h, 0x41, 0x3, false)
  | .jobQuery m h _ _ => some (m, h, 0x42, 0x20, false)
  | .jobFeed m h _ _ _ _ _ => some (m, h, 0x43, 0x20, false)
  | .jobSetFallback m h _ _ => some (m, h, 0x44, 0x4, false)
  | .streamOpen m h _ _ _ => some (m, h, 0x50, 0x20, false)
  | .streamResetRows m h _ _ _ => some (m, h, 0x51, 0x20, false)
  | .streamPark m h _ _ _ => some (m, h, 0x52, 0x20, false)
  | .streamClose m h _ _ _ => some (m, h, 0x53, 0x20, false)
  | .kvPrefixPin m h _ _ _ => some (m, h, 0x60, 0xC, false)
  | .kvRelease m h _ _ => some (m, h, 0x61, 0x8, false)
  | .timeConfig m h _ _ _ _ _ _ => some (m, h, 0x70, 0x24, true)
  | .timeForce m h _ => some (m, h, 0x71, 0x8, true)
  | .fabricStatus m h _ => some (m, h, 0x80, 0x10, false)
  | .fabricJoinPolicy m h _ _ _ => some (m, h, 0x81, 0x20, true)
  | .faultInjectArm m h _ => some (m, h, 0x90, 0x4, true)
  | .faultStatus m h _ => some (m, h, 0x91, 0x10, false)
  | .castFetch m h _ _ _ => some (m, h, 0x92, 0x20, false)
  | .partitionReset m h _ _ => some (m, h, 0x93, 0x2, true)
  | .patinaRead m h _ _ _ => some (m, h, 0xA0, 0x20, false)
  | .calendarSet m h _ _ => some (m, h, 0xA1, 0xC, true)
  | .fwStage m h _ _ => some (m, h, 0xB0, 0x20, true)
  | .fwCommit m h _ => some (m, h, 0xB1, 0x1, true)
  | .attest m h _ _ => some (m, h, 0xB2, 0x30, false)
  | .powerMode m h _ _ => some (m, h, 0xC0, 0x4, true)
  | _ => none

end Sys2Proof
end

