-- ==== Sys2Proof/Certificates/Slice0/Obligations.lean ====
section
/-! DEFINITION. The statements for the provers. -/

open Sys2Proof Sys2Proof.Machine

/-- For every command and every state: a step of the state with that command at the front of its queue is exec of the command on the state with the rest of the queue. On an empty queue the block idles: the next state is the same state. This is the choice of the model (log entry 2), no rule of the spec. -/
def Obligations.StepRunsFrontCommand : Prop :=
  (∀ (c : Instr) (rest : List Instr) (s : State),
    step { s with pending := c :: rest } = exec c { s with pending := rest }) ∧
  (∀ s : State, s.pending = [] → step s = .next s)

/-- For every command of the table and every state, exec answers a next state. -/
def Obligations.EveryCommandCompletes : Prop :=
  ∀ (c : Instr) (s : State), Completes c s

/-- For every sequencer word whose fields lie in their stated ranges, with every operand at every value, decodeSeq of encodeSeq of the word is the word. -/
def Obligations.SeqWordRoundTrip : Prop :=
  ∀ w : SeqWord, w.fieldsOk = true → decodeSeq (encodeSeq w) = some w

/-- If a 32-bit word decodes to a sequencer word, its fields lie in their stated ranges and the 32-bit word is the encoding of the sequencer word: every reserved field is 0 and no bit is dropped. -/
def Obligations.SeqWordCanonical : Prop :=
  ∀ (v : Word) (w : SeqWord), decodeSeq v = some w → w.fieldsOk = true ∧ encodeSeq w = v

/-- If the module's memory and the host's memory are in canonical form (addresses strictly rising, no entry equal to what an unlisted address reads as) and a step answers a next state, both memories are in canonical form there, and the queue is the one before without its front command: no command changes the queue, which is the model's own (log entry 2), no rule of the spec. -/
def Obligations.MemoryCanonicalKept : Prop :=
  ∀ s t : State, MemoryCanonical s → step s = .next t → MemoryCanonical t ∧ t.pending = s.pending.tail

/-- The state after reset has both memories in canonical form. -/
def Obligations.MemoryCanonicalAtReset : Prop :=
  MemoryCanonical State.reset

/-- After reset EVT_STATUS is 0 and EVT_MASK is 0x0007_FFFF, every mailbox is disabled and not halted with its counts at 0, injection is not armed with nothing pending, FLT_STATUS is 0, every partition is in service in FLT_PART_STATE, and the TIM_ increment is 8 ns. -/
def Obligations.ResetRegisters : Prop :=
  State.reset.evt.status = 0 ∧ State.reset.evt.mask = 0x7FFFF#32 ∧
  (∀ m : MbxId, State.reset.box m = Mailbox.reset) ∧ Mailbox.reset.enabled = false ∧ Mailbox.reset.halted = false ∧
  Mailbox.reset.cmdCons = 0 ∧ Mailbox.reset.cplProd = 0 ∧ Mailbox.reset.lost = 0 ∧
  State.reset.flt.armed = false ∧ State.reset.flt.pending = none ∧ State.reset.flt.degrade = false ∧
  State.reset.flt.fault = false ∧ State.reset.flt.fatal = false ∧ (∀ p < 8, (State.reset.part p).state = 0) ∧
  State.reset.time.incr = 0x0800000000#40

/-- While a tile issues words and no injection is pending, NOP goes on to the next word; SETP loads its pointer register with the granule address; ADDP adds the increment modulo 65,536; the address of a pointer is its granule times 16 bytes. Nothing but the named pointer register, the program counter with its loops, and the count of issued words changes. While a tile issues words and no injection is pending: a legal SETMODE writes the mode register and goes on; a LOOP that keeps the range rules writes its counter with the count, opens the loop from the next word to the end address and goes on to the body. A SETMODE or LOOP that breaks its rules is handled as an illegal word. -/
def Obligations.SequencerWords : Prop :=
  (∀ (s : State) (t : TileId) (p : BitVec 4) (v : BitVec 16), Issuing s t →
    exec (.nop t) s = .next (s.setTile t (s.tile t).advance) ∧
    exec (.setp t p v) s = .next (s.setTile t
      (TileState.advance { s.tile t with ptrs := (s.tile t).ptrs.set p.toNat v })) ∧
    exec (.addp t p v) s = .next (s.setTile t
      (TileState.advance { s.tile t with ptrs := (s.tile t).ptrs.set p.toNat ((s.tile t).ptrs[p.toNat] + v) })) ∧
    (s.tile t).addr p = 16 * ((s.tile t).ptrs[p.toNat]).toNat) ∧
  (∀ (s : State) (t : TileId), Issuing s t →
    (∀ (a b out : BitVec 4) (bp : BitVec 5) (sr : Bool),
      exec (.setmode t a b out bp sr) s = .next (if setmodeOk a b out bp then
          s.setTile t (TileState.advance { s.tile t with mode := 0#5 ++ a ++ b ++ out ++ bp ++ bit1 sr ++ 0#9 })
        else illegal s t 0)) ∧
    (∀ (k : BitVec 3) (countM1 e : BitVec 12),
      exec (.loop t k countM1 e) s = .next (if loopOk (s.tile t) k e then
          s.setTile t { s.tile t with
            loops := { k := k, first := (s.tile t).pc + 1, last := e } :: (s.tile t).loops
            counters := (s.tile t).counters.set k.toNat (BitVec.ofNat 13 (countM1.toNat + 1))
            pc := (s.tile t).pc + 1, issued := (s.tile t).issued + 1 }
        else illegal s t 0)))

/-- While a tile issues words and no injection is pending, a LOOP that keeps the range rules puts its count into its counter and goes on to the body. When a word is issued at the last address of the innermost open loop with a counter other than 1, the counter is one less and the next word is the first of the body; with a counter of 1 the counter is 0, the loop is closed and the sequencer goes on as the loops around it have it. At any other address, and with no loop open, the next word is the following one. -/
def Obligations.LoopBranch : Prop :=
  (∀ (s : State) (t : TileId) (k : BitVec 3) (countM1 e : BitVec 12), Issuing s t → loopOk (s.tile t) k e = true →
    exec (.loop t k countM1 e) s = .next (s.setTile t { s.tile t with
      loops := { k := k, first := (s.tile t).pc + 1, last := e } :: (s.tile t).loops
      counters := (s.tile t).counters.set k.toNat (BitVec.ofNat 13 (countM1.toNat + 1))
      pc := (s.tile t).pc + 1, issued := (s.tile t).issued + 1 })) ∧
  (∀ (x : TileState) (f : LoopFrame) (fs : List LoopFrame), x.loops = f :: fs →
    (x.pc = f.last → x.counters[f.k.toNat] ≠ 1 →
      x.advance = { x with pc := f.first, counters := x.counters.set f.k.toNat (x.counters[f.k.toNat] - 1), issued := x.issued + 1 }) ∧
    (x.pc = f.last → x.counters[f.k.toNat] = 1 →
      x.advance = TileState.advance { x with loops := fs, counters := x.counters.set f.k.toNat 0 }) ∧
    (x.pc ≠ f.last → x.advance = { x with pc := x.pc + 1, issued := x.issued + 1 })) ∧
  (∀ x : TileState, x.loops = [] → x.advance = { x with pc := x.pc + 1, issued := x.issued + 1 })

/-- While a tile issues words and no injection is pending, a WAIT for count n of at least 1 on a semaphore that holds n or more subtracts n and goes on; otherwise the tile stalls on it and nothing else changes. WAIT_SATISFIED on a running tile stalled so, whose semaphore now holds n or more, subtracts n, ends the stall and goes on. WAIT with count 0 is an illegal word. While a tile issues words and no injection is pending, a SIGNAL with an increment of at least 1 to a virtual tile that the lease maps, with no earlier SEND to that tile in the queues (or to the tile itself), goes on and adds the increment to the semaphore of that tile; an increment that would carry it past 65,535 is discarded and raises detector 0x11 on that tile. The event names the target tile and its present word (log entry 161). With an earlier SEND to that tile in the queues the SIGNAL goes on and is held behind it. An unmapped target raises detector 0x32; an increment of 0 is an illegal word. -/
def Obligations.SemaphoreWords : Prop :=
  ((∀ (s : State) (t : TileId) (m : BitVec 4) (n : BitVec 16), Issuing s t →
    exec (.wait t m n) s = .next (if n = 0 then illegal s t 0
      else if n.toNat ≤ (s.tile t).sems[m.toNat].toNat then
        s.setTile t (TileState.advance { s.tile t with sems := (s.tile t).sems.set m.toNat ((s.tile t).sems[m.toNat] - n) })
      else s.setTile t { s.tile t with stall := .waitSem m n })) ∧
  (∀ (s : State) (t : TileId) (m : BitVec 4) (n : BitVec 16),
    (s.tile t).phase = .running → (s.tile t).stall = .waitSem m n → n.toNat ≤ (s.tile t).sems[m.toNat].toNat →
    exec (.waitSatisfied t) s = .next (s.setTile t (TileState.advance
      { s.tile t with stall := .free, gated := false, sems := (s.tile t).sems.set m.toNat ((s.tile t).sems[m.toNat] - n) })))) ∧
  (∀ (s : State) (t : TileId) (m : BitVec 4) (vt : BitVec 9) (inc : BitVec 8), Issuing s t →
    (inc = 0 → exec (.signal t m vt inc) s = .next (illegal s t 0)) ∧
    (inc ≠ 0 → ∀ d : TileId, physTile (leaseOf s t) vt.toNat = some d → (d = t ∨ (sendsTo (s.tile t) vt).all (fun n => n == 0) = true) →
      exec (.signal t m vt inc) s = .next
        (let u := s.setTile t (s.tile t).advance
         if 65535 < (u.tile d).sems[m.toNat].toNat + inc.toNat then illegal u d 0
         else u.setTile d { u.tile d with
           sems := (u.tile d).sems.set m.toNat (BitVec.ofNat 16 ((u.tile d).sems[m.toNat].toNat + inc.toNat)) })) ∧
    (inc ≠ 0 → ∀ d : TileId, physTile (leaseOf s t) vt.toNat = some d → d ≠ t → (sendsTo (s.tile t) vt).all (fun n => n == 0) = false →
      exec (.signal t m vt inc) s = .next (s.setTile t { (s.tile t).advance with
        signals := (s.tile t).signals ++ [{ sem := m, vt := vt, inc := inc, ahead := sendsTo (s.tile t) vt }] })) ∧
    (inc ≠ 0 → physTile (leaseOf s t) vt.toNat = none → exec (.signal t m vt inc) s = .next (unmapped s t 0)))

/-- While a tile issues words and no injection is pending: with every word it waits for completed, FENCE goes on, MARK reports its milestone and goes on, COMMIT records its group and goes on, and END ends the tile's program; with one of them outstanding the tile stalls on the word and nothing else changes. FENCE with no bit set is an illegal word. MARK, COMMIT and END wait for every stream-port word, every word of the local units and every tile move; FENCE for those of the kinds it selects. Each time an earlier word completes, the stalled tile is tried again: the word takes effect once nothing is outstanding, and nothing changes until then. -/
def Obligations.BarrierWords : Prop :=
  (∀ (s : State) (t : TileId), Issuing s t →
    (∀ (st mv loc : Bool), (st || mv || loc) = true →
      exec (.fence t st mv loc) s = .next (if (s.tile t).barrierOpen (.fence st mv loc) then s.setTile t (s.tile t).advance
        else s.setTile t { s.tile t with stall := .barrier (.fence st mv loc) })) ∧
    (∀ ix : BitVec 8,
      exec (.mark t ix) s = .next (if (s.tile t).barrierOpen (.mark ix) then goOn (reportMark s t ix.toNat) t
        else s.setTile t { s.tile t with stall := .barrier (.mark ix) })) ∧
    (∀ g : BitVec 4,
      exec (.commitWord t g) s = .next (if (s.tile t).barrierOpen (.commit g) then
          s.setTile t (TileState.advance { s.tile t with
            groups := if (s.tile t).groups.contains g.toNat then (s.tile t).groups else (s.tile t).groups ++ [g.toNat] })
        else s.setTile t { s.tile t with stall := .barrier (.commit g) })) ∧
    exec (.endWord t) s = .next (if (s.tile t).barrierOpen .endWord then
        s.setTile t { s.tile t with phase := .ended, issued := (s.tile t).issued + 1 }
      else s.setTile t { s.tile t with stall := .barrier .endWord }) ∧
    exec (.fence t false false false) s = .next (illegal s t 0)) ∧
  (∀ (x : TileState) (st mv loc : Bool), x.barrierOpen (.fence st mv loc) = true ↔
    (st = true → (∀ q ∈ x.sendQ.toList, q = []) ∧ ∀ q ∈ x.recvQ.toList, q = []) ∧ (mv = true → x.openRuns = 0) ∧
    (loc = true → x.cellQ = [] ∧ x.drainQ = [] ∧ x.vectorQ = [] ∧ x.transQ = [] ∧ x.scalarQ = [])) ∧
  (∀ (x : TileState) (ix : BitVec 8) (g : BitVec 4), ∀ w ∈ [SeqWord.mark ix, .commit g, .endWord],
    x.barrierOpen w = x.barrierOpen (.fence true true true)) ∧
  (∀ (s : State) (t : TileId) (w : SeqWord), (s.tile t).phase = .running → (s.tile t).frozen = false → (s.tile t).stall = .barrier w →
    progress s t = if (s.tile t).barrierOpen w then takeBarrier (s.setTile t { s.tile t with stall := .free }) t w else s)

/-- While a tile issues words, no injection is pending and the cell array's queue has room: ACCZ joins the queue and its set is marked cleared; an MMA with an allowed k joins the queue and runs its K steps on the scratchpad bytes at its two pointers into its set, and with post-increment the two pointers advance past the data read. An MMA with a k the mode does not allow is an illegal word. -/
def Obligations.CellArrayWords : Prop :=
  ∀ (s : State) (t : TileId), Issuing s t → (s.tile t).cellQ.length < 5 →
    (∀ set : BitVec 1, exec (.accz t set) s = .next (updTile (queued s t .cellArray (.accz set)) t
      (fun x => if set = 0 then { x with cleared0 := true } else { x with cleared1 := true }))) ∧
    (∀ (pa pb : BitVec 4) (kM1 : BitVec 6) (set : BitVec 1) (post : Bool),
      let fa := modeA (s.tile t).mode; let fb := modeB (s.tile t).mode; let k := kM1.toNat + 1
      let ga := advanceBy fa k; let gb := advanceBy fb k
      exec (.mma t pa pb kM1 set post) s = .next (if kOk fa fb k = false then illegal s t 0
        else updTile (queued s t .cellArray (.mma pa pb kM1 set post)) t (fun x =>
          let y := mmaTile x (scratchRead s t ((s.tile t).addr pa) (16 * ga)) (scratchRead s t ((s.tile t).addr pb) (16 * gb)) set k
          if post then
            let z := { y with ptrs := y.ptrs.set pa.toNat (y.ptrs[pa.toNat] + BitVec.ofNat 16 ga) }
            { z with ptrs := z.ptrs.set pb.toNat (z.ptrs[pb.toNat] + BitVec.ofNat 16 gb) }
          else y)))

/-- In the INT8 mode, after k K steps every element (i, j) of the set is its old value, or nothing on the first step into a cleared set, plus the signed products of byte i of each A column with byte j of each B row, taken in K order, each addition saturating to 32 bits; and the set is no longer marked cleared. -/
def Obligations.MmaInt8Element : Prop :=
  ∀ (x : TileState) (abs bbs : List Byte) (set : BitVec 1) (k i j : Nat),
    modeA x.mode = .int8 → modeB x.mode = .int8 → i < 64 → j < 64 →
    let prods := (List.range k).map (fun q =>
      signed 8 (element 8 (slice abs (64 * q) 64) i) * signed 8 (element 8 (slice bbs (64 * q) 64) j))
    (mmaTile x abs bbs set k).cleared? set = false ∧
    (mmaTile x abs bbs set k).acc set i j =
      (prods.foldl (fun (r : BitVec 48 × Bool) v =>
        (acc32 (BitVec.ofInt 32 (sat32 (if r.2 then v else (r.1.setWidth 32).toInt + v)).1), false))
        (x.acc set i j, x.cleared? set)).1

/-- While a tile issues words, no injection is pending and the unit of the word has room in its queue: ACCRD, a legal VOP, VPOLY with 1 to 32 segments and a legal VRED complete; the sequencer goes on, the word joins its unit's queue, of the tile only the lane generators and the two counts may change besides, no other register of the machine changes, and every byte of memory outside the destination rows reads as before. While a tile issues words and no injection is pending: a VOP with an operation above 0x0D or a shift on FP32 lanes, a VPOLY whose table counts no segment or more than 32, and a VRED with an operation above 3 each stop the tile as an illegal word: detector 0x11 with the word's address, and the invocation faults. -/
def Obligations.RowWordsFrame : Prop :=
  (∀ (s : State) (t : TileId), Issuing s t →
    let x := s.tile t
    let db := (modeOut x.mode).rowBytes
    (∀ (dst scale : BitVec 4) (set : BitVec 1) (en : Bool), x.drainQ.length < 5 →
      ∃ u, exec (.accrd t dst set scale en) s = .next u ∧
        RowFrame s u t { x.advance with drainQ := x.drainQ ++ [.accrd dst set scale en] } (x.addr dst) (64 * db)) ∧
    (∀ (sub : BitVec 6) (dst s1 s2 : BitVec 4) (rowsM1 : BitVec 9), x.vectorQ.length < 5 → sub.toNat ≤ 0x0D →
      ¬((sub = 8 ∨ sub = 9) ∧ (modeOut x.mode).laneType = .fp32) →
      ∃ u, exec (.vop t sub dst s1 s2 rowsM1) s = .next u ∧
        RowFrame s u t { x.advance with vectorQ := x.vectorQ ++ [.vop sub dst s1 s2 rowsM1] } (x.addr dst)
          ((rowsM1.toNat + 1) * db)) ∧
    (∀ (table dst src : BitVec 4) (rowsM1 : BitVec 9), x.vectorQ.length < 5 →
      0 < ofLe (scratchRead s t (x.addr table) 4) → ofLe (scratchRead s t (x.addr table) 4) ≤ 32 →
      ∃ u, exec (.vpoly t table dst src rowsM1) s = .next u ∧
        RowFrame s u t { x.advance with vectorQ := x.vectorQ ++ [.vpoly table dst src rowsM1] } (x.addr dst)
          ((rowsM1.toNat + 1) * db)) ∧
    (∀ (sub : BitVec 3) (axis : BitVec 1) (dst src : BitVec 4) (rowsM1 : BitVec 9), x.vectorQ.length < 5 → sub.toNat ≤ 3 →
      ∃ u, exec (.vred t sub axis dst src rowsM1) s = .next u ∧
        RowFrame s u t { x.advance with vectorQ := x.vectorQ ++ [.vred sub axis dst src rowsM1] } (x.addr dst)
          ((if axis = 0 then rowsM1.toNat + 1 else 1) * db))) ∧
  (∀ (s : State) (t : TileId), Issuing s t →
    (∀ (sub : BitVec 6) (dst s1 s2 : BitVec 4) (rowsM1 : BitVec 9),
      0x0D < sub.toNat ∨ ((sub = 8 ∨ sub = 9) ∧ (modeOut (s.tile t).mode).laneType = .fp32) →
      exec (.vop t sub dst s1 s2 rowsM1) s = .next (illegal s t 0)) ∧
    (∀ (table dst src : BitVec 4) (rowsM1 : BitVec 9),
      ofLe (scratchRead s t ((s.tile t).addr table) 4) = 0 ∨ 32 < ofLe (scratchRead s t ((s.tile t).addr table) 4) →
      exec (.vpoly t table dst src rowsM1) s = .next (illegal s t 0)) ∧
    (∀ (sub : BitVec 3) (axis : BitVec 1) (dst src : BitVec 4) (rowsM1 : BitVec 9), 3 < sub.toNat →
      exec (.vred t sub axis dst src rowsM1) s = .next (illegal s t 0)))

/-- While a tile issues words, no injection is pending, the vector unit has room and rounding is not stochastic: where the destination rows meet no source but one that is the same rows, a legal VOP leaves in every destination row the 64 results of its operation on the lanes of the source rows as they stood before the word, written in the output format. -/
def Obligations.VopRows : Prop :=
  ∀ (s : State) (t : TileId) (sub : BitVec 6) (dst s1 s2 : BitVec 4) (rowsM1 : BitVec 9), Issuing s t →
    let x := s.tile t; let n := sub.toNat; let out := modeOut x.mode
    let f1 := if n = 0x0A then modeA x.mode else out
    let rows := rowsM1.toNat + 1
    let d := x.addr dst; let a1 := x.addr s1; let a2 := x.addr s2; let db := out.rowBytes
    x.vectorQ.length < 5 → n ≤ 0x0D → ¬((sub = 8 ∨ sub = 9) ∧ out.laneType = .fp32) → modeSr x.mode = false →
    rowsMeet d (db * rows) a1 (f1.rowBytes * rows) = false →
    (vopReadsS2 n = true → rowsMeet d (db * rows) a2 (db * rows) = false) →
    ∃ u, exec (.vop t sub dst s1 s2 rowsM1) s = .next u ∧ ∀ r < rows,
      let row1 := scratchRead s t (a1 + f1.rowBytes * r) f1.rowBytes
      let row2 := if vopReadsS2 n then scratchRead s t (a2 + db * r) db else []
      let rowD := if vopReadsD n then scratchRead s t (d + db * r) db else []
      scratchRead u t (d + db * r) db = (writeRow out (modeB0 x.mode) false x.gens ((List.range 64).map (fun i =>
        (vopLane n f1.laneType (modeB0 x.mode) (readLane f1 row1 i)
          (if vopReadsS2 n then readLane out row2 i else .fx 0) (if vopReadsD n then readLane out rowD i else .fx 0)).1))).bytes

/-- While a tile issues words, no injection is pending and the transpose and shuffle unit has room: XPOSE goes on and leaves at the destination the elements of the source rows transposed, every source byte read before the first is written; SHUF of one row that its destination does not meet goes on and leaves at the destination the row with its elements chosen by the table. -/
def Obligations.TransposeWords : Prop :=
  ∀ (s : State) (t : TileId), Issuing s t → (s.tile t).transQ.length < 5 →
    (∀ (size : BitVec 2) (dst src : BitVec 4),
      let w := 4 * 2 ^ size.toNat
      let cols := if size = 0 then 128 else 64
      let rb := cols * w / 8
      let rows := (List.range 64).map (fun i => scratchRead s t ((s.tile t).addr src + rb * i) rb)
      exec (.xpose t size dst src) s = .next (scratchWrite (queued s t .transpose (.xpose size dst src)) t ((s.tile t).addr dst)
        ((List.range cols).map (fun j => packElems w (rows.map (fun r => element w r j)))).flatten)) ∧
    (∀ (table dst src : BitVec 4),
      let f := modeOut (s.tile t).mode; let d := (s.tile t).addr dst; let a := (s.tile t).addr src; let ta := (s.tile t).addr table
      meets d f.rowBytes a f.rowBytes = false → meets d f.rowBytes ta 64 = false →
      exec (.shuf t table dst src 0) s = .next (scratchWrite (queued s t .transpose (.shuf table dst src 0)) t d
        (shuffleRow f (scratchRead s t ta 64) (scratchRead s t a f.rowBytes)))) ∧
    (∀ (table dst src : BitVec 4) (rowsM1 : BitVec 9), ∃ u, exec (.shuf t table dst src rowsM1) s = .next u ∧
      RowFrame s u t { (s.tile t).advance with transQ := (s.tile t).transQ ++ [.shuf table dst src rowsM1] } ((s.tile t).addr dst)
        ((rowsM1.toNat + 1) * (modeOut (s.tile t).mode).rowBytes))

/-- While a tile issues words, no injection is pending and the unit has room, after XPOSE every element i of destination row j is the element j of source row i as it stood before the word, for 4-, 8-, 16- and 32-bit elements. -/
def Obligations.TransposedElements : Prop :=
  ∀ (s : State) (t : TileId) (size : BitVec 2) (dst src : BitVec 4), Issuing s t → (s.tile t).transQ.length < 5 →
    let w := 4 * 2 ^ size.toNat
    let cols := if size = 0 then 128 else 64
    ∃ u, exec (.xpose t size dst src) s = .next u ∧ ∀ i < 64, ∀ j < cols,
      element w (scratchRead u t ((s.tile t).addr dst + 8 * w * j) (8 * w)) i =
        element w (scratchRead s t ((s.tile t).addr src + cols * w / 8 * i) (cols * w / 8)) j

/-- While a tile issues words, no injection is pending and the scalar pipe has room: a SPOP with an operation of 0 to 9 writes its destination register with the result in the format it names and, when the result overflowed, raises detector 0x12 at DEGRADE; SLS with direction 0 loads its register with the 32 bits of the word it names, and with direction 1 stores the register there. A SPOP above operation 9 is an illegal word. -/
def Obligations.ScalarWords : Prop :=
  ∀ (s : State) (t : TileId), Issuing s t → (s.tile t).scalarQ.length < 5 →
    (∀ (sub : BitVec 4) (fmt : BitVec 1) (d s1 s2 s3 : BitVec 5), sub.toNat ≤ 9 →
      let x := s.tile t
      let r := spopResult sub.toNat fmt.toNat (modeB0 x.mode) x.sregs[s1.toNat] x.sregs[s2.toNat] x.sregs[s3.toNat]
      let u := updTile (queued s t .scalar (.spop sub fmt d s1 s2 s3)) t (fun x => { x with sregs := x.sregs.set d.toNat r.1 })
      exec (.spop t sub fmt d s1 s2 s3) s = .next (if r.2 then raiseAs u 1 0 (scalarEvent u t) else u)) ∧
    (∀ (sub : BitVec 4) (fmt : BitVec 1) (d s1 s2 s3 : BitVec 5), 9 < sub.toNat →
      exec (.spop t sub fmt d s1 s2 s3) s = .next (illegal s t 0)) ∧
    (∀ (sreg : BitVec 5) (base : BitVec 4) (sel : BitVec 2),
      let a := (s.tile t).addr base + 4 * sel.toNat
      exec (.sls t 0 sreg base sel) s = .next (updTile (queued s t .scalar (.sls 0 sreg base sel)) t
        (fun x => { x with sregs := x.sregs.set sreg.toNat (BitVec.ofNat 32 (ofLe (scratchRead s t a 4))) })) ∧
      exec (.sls t 1 sreg base sel) s = .next (scratchWrite (queued s t .scalar (.sls 1 sreg base sel)) t a
        (leBytes 4 ((s.tile t).sregs[sreg.toNat]).toNat)))

/-- For the FX32 format at every binary point: addition, subtraction, minimum and maximum give the exact result limited to the 32-bit range and report an overflow exactly when a limit was applied; division by zero gives the limit of the dividend's sign, or 0 for 0 by 0, with an overflow; the square root of a negative number is 0 with an overflow, and the reciprocal square root of 0 is the largest value with an overflow. -/
def Obligations.ScalarFixedPoint : Prop :=
  ∀ (b : Nat) (x y z : Word),
    let lim := fun (v : Int) => if v < -2147483648 then -2147483648 else if 2147483647 < v then 2147483647 else v
    (∀ p ∈ [(0, x.toInt + y.toInt), (1, x.toInt - y.toInt), (8, min x.toInt y.toInt), (9, max x.toInt y.toInt)],
      (spopResult p.1 1 b x y z).1.toInt = lim p.2 ∧ ((spopResult p.1 1 b x y z).2 = true ↔ lim p.2 ≠ p.2)) ∧
    (y = 0 → spopResult 4 1 b x y z =
      (if x = 0 then 0#32 else if x.toInt < 0 then 0x80000000#32 else 0x7FFFFFFF#32, true)) ∧
    (x.toInt < 0 → spopResult 5 1 b x y z = (0#32, true) ∧ spopResult 6 1 b x y z = (0#32, true)) ∧
    spopResult 6 1 b 0#32 y z = (0x7FFFFFFF#32, true)

/-- While a tile issues words and no injection is pending, a SEND or RECV that names a mapped virtual tile and whose port queue has room goes on and joins the queue with the byte address its pointer gives, and the port is matched; with a full queue the tile stalls before the word; an unmapped virtual tile raises detector 0x32. RECV_FILLED with a flowing SEND of the tile named that sends to this tile writes the data at the destination and completes both (no injection pending); with no RECV at the head it changes nothing. -/
def Obligations.StreamPortWords : Prop :=
  (∀ (s : State) (t : TileId) (p : BitVec 2) (vt : BitVec 9) (ptr : BitVec 4) (n : BitVec 12), Issuing s t →
    let x := s.tile t
    (physTile (leaseOf s t) vt.toNat = none →
      exec (.send t p vt ptr n) s = .next (unmapped s t 0) ∧ exec (.recv t p ptr vt n) s = .next (unmapped s t 0)) ∧
    (∀ d, physTile (leaseOf s t) vt.toNat = some d →
      exec (.send t p vt ptr n) s = .next (if x.sendQ[p.toNat].length < 5 then
          matchSend (s.setTile t { x.advance with sendQ := x.sendQ.set p.toNat (x.sendQ[p.toNat] ++
            [{ vt := vt, src := x.addr ptr, flits := n.toNat + 1, flowing := false }]) }) t p.toNat
        else s.setTile t { x with stall := .queueFull (.send p vt ptr n) }) ∧
      exec (.recv t p ptr vt n) s = .next (if x.recvQ[p.toNat].length < 5 then
          matchRecv (s.setTile t { x.advance with recvQ := x.recvQ.set p.toNat (x.recvQ[p.toNat] ++
            [{ vt := vt, dst := x.addr ptr, flits := n.toNat + 1, pc := x.pc }]) }) t p.toNat
        else s.setTile t { x with stall := .queueFull (.recv p ptr vt n) }))) ∧
  (∀ (s : State) (t src : TileId) (p : BitVec 2) (r : RecvOp) (o : SendOp),
    headRecv (s.tile t) p.toNat = some r → physTile (leaseOf s t) r.vt.toNat = some src →
    headSend (s.tile src) p.toNat = some o → o.flowing = true → physTile (leaseOf s src) o.vt.toNat = some t → s.flt.pending = none →
    exec (.recvFilled t p) s = .next
      (let u := scratchWrite s t r.dst (scratchRead s src o.src (64 * o.flits))
       let u := updTile (updTile u src (fun x => x.popSend p.toNat)) t (fun x => x.popRecv p.toNat)
       progress (progress (matchSend (matchRecv (releaseSignals u src) t p.toNat) src p.toNat) src) t)) ∧
  (∀ (s : State) (t : TileId) (p : BitVec 2), headRecv (s.tile t) p.toNat = none → exec (.recvFilled t p) s = .next s)

/-- While a tile issues words, no injection is pending and the mover interface has room, a TMOVE whose descriptor exists, whose object is placed and, when indexed, whose span lies within its object, goes on and appends to the cluster mover one run with the descriptor, the offsets the loop counter gives, the local byte address and the semaphore, and with all its transfers unpresented; the runs before it stand. An indexed one whose object lies in T3 without its reservation held fails at once as a failed move. -/
def Obligations.TileMoveWord : Prop :=
  ∀ (s : State) (t : TileId) (slot : BitVec 6) (sem loc : BitVec 4) (k : BitVec 3) (indexed : Bool)
    (d : Descriptor) (oid : Nat) (o : Obj) (p : Placement), Issuing s t →
    let x := s.tile t; let c := clusterOfTile t
    let off := if indexed then d.indexed (x.counters[k.toNat]).toNat else (d.offset, d.scaleOffset)
    x.descs[slot.toNat]? = some d → moverQueue s t < 5 → descObject s t d = some oid → s.obj? oid = some o →
    runPlace o (tileShadow s t) = some p → (indexed = true → d.fitsIn off.1 off.2 o.length = true) →
    (indexed = true → p.tier = 3 → resHeld s p = false → exec (.tmove t slot sem loc k indexed) s = .next
      (let r := newRun s t d oid p off sem loc false
       failRun (peerCause (joinMover s t r) r) c r [] 0)) ∧
    ((indexed = true → p.tier = 3 → resHeld s p = true) → ∃ u r, exec (.tmove t slot sem loc k indexed) s = .next u ∧ (u.cluster c).runs = (s.cluster c).runs ++ [r] ∧
      r.id = s.runIds ∧ u.runIds = s.runIds + 1 ∧ r.tile = t ∧ r.sem = sem ∧ r.desc = d ∧ r.object = oid ∧
      r.offset = off.1 ∧ r.scaleOff = off.2 ∧ r.localAddr = x.addr loc ∧ r.xfers.length = d.run ∧
      (∀ y ∈ r.xfers, y.state = .unpresented) ∧ u.mem = s.mem ∧ u.hostMem = s.hostMem ∧
      u.tile t = { x.advance with openRuns := x.openRuns + 1 } ∧ (∀ v, v ≠ t → u.tile v = s.tile v) ∧
      (∀ e, e ≠ c → u.cluster e = s.cluster e) ∧ u.jobs = s.jobs ∧ u.objects = s.objects ∧ u.out = s.out ∧ u.evt = s.evt)

/-- UNIT_WORD_COMPLETE removes the oldest word of the named unit and lets the tile go on. ILLEGAL_WORD on a tile that issues words, for a word that does not decode or is illegal in the tile's state, stops the tile with detector 0x11 and the word's address. FLIT_PARITY_ERROR raises detector 0x10 with the router and the destination, and the invocation that owns the destination tile faults. A legal unit word whose unit's queue is full stalls the tile before the word and changes nothing else. -/
def Obligations.WordEvents : Prop :=
  (∀ (s : State) (t : TileId) (u : UnitId) (w : SeqWord) (ws : List SeqWord), unitQ (s.tile t) u = w :: ws →
    exec (.unitWordComplete t u) s = .next (progress (s.setTile t (setUnitQ (s.tile t) u ws)) t)) ∧
  (∀ (s : State) (t : TileId) (w : Word), (s.tile t).issues = true → illegalHere (s.tile t) w = true →
    exec (.illegalWord t w) s = .next (tileFault (s.setTile t { s.tile t with phase := .stopped }) t 0x11 0 (s.tile t).pc.toNat 0)) ∧
  (∀ (s : State) (r d : TileId), exec (.flitParityError r d) s = .next
    (faultTile (raise s (mkEvent 0x10 (partOfTile r) (tileJob s d) 0 r.toNat d.toNat)) d 0x10)) ∧
  (∀ (s : State) (t : TileId) (a b c sc dr : BitVec 4) (set dir ax : BitVec 1) (sz sel : BitVec 2) (k : BitVec 6) (rows : BitVec 9)
    (r1 r2 r3 r4 : BitVec 5) (p : Bool), Issuing s t →
    let stalled := fun (w : SeqWord) => s.setTile t { s.tile t with stall := .queueFull w }
    (5 ≤ (s.tile t).cellQ.length → exec (.accz t set) s = .next (stalled (.accz set)) ∧
      (kOk (modeA (s.tile t).mode) (modeB (s.tile t).mode) (k.toNat + 1) = true →
        exec (.mma t a b k set p) s = .next (stalled (.mma a b k set p)))) ∧
    (5 ≤ (s.tile t).drainQ.length → exec (.accrd t a set sc p) s = .next (stalled (.accrd a set sc p))) ∧
    (5 ≤ (s.tile t).vectorQ.length → exec (.vop t 0 a b c rows) s = .next (stalled (.vop 0 a b c rows)) ∧
      exec (.vred t 0 ax a b rows) s = .next (stalled (.vred 0 ax a b rows))) ∧
    (5 ≤ (s.tile t).transQ.length → exec (.xpose t sz a b) s = .next (stalled (.xpose sz a b)) ∧
      exec (.shuf t a b c rows) s = .next (stalled (.shuf a b c rows))) ∧
    (5 ≤ (s.tile t).scalarQ.length → (dr.toNat ≤ 9 → exec (.spop t dr set r1 r2 r3 r4) s = .next (stalled (.spop dr set r1 r2 r3 r4))) ∧
      exec (.sls t dir r1 a sel) s = .next (stalled (.sls dir r1 a sel))))

/-- A requester that is not masked and has no request waiting presents the request that its run, its prefetcher or the command names: the request joins the arbiter's waiting requests, its lines leave their prefetcher and its transfer waits; where the free engines suffice for the requests that wait, nothing more happens. A requester with a request waiting presents no second one. A masked requester raises detector 0x22 at DEGRADE with unit bit 15 set and presents nothing. None of the three is a move of another partition's cluster into a partition out of service. -/
def Obligations.ArbiterRequests : Prop :=
  ∀ (s : State) (p : PartId) (r : Requester) (cls bytes job : Nat), remoteRun s p.toNat r cls bytes job = none →
    let q := requestOf s p.toNat r cls bytes job
    (masked s p.toNat r.val = false → (s.part p.toNat).arb.waiting.any (fun w => w.requester == r) = false →
      let u := setXfer (updArb (takeLines s p.toNat q) p.toNat (fun a => { a with waiting := a.waiting ++ [q] })) q
        (fun x => { x with state := .waiting })
      (u.part p.toNat).arb.unserved = [] →
      exec (.arbiterRequest p r cls bytes job) s = .next { u with freeCount := u.freeCount + 8 }) ∧
    (masked s p.toNat r.val = false → (s.part p.toNat).arb.waiting.any (fun w => w.requester == r) = true →
      exec (.arbiterRequest p r cls bytes job) s = .next s) ∧
    (masked s p.toNat r.val = true →
      exec (.arbiterRequest p r cls bytes job) s = .next
        (raiseAs s 1 0 { mkEvent 0x22 p.toNat job r.val (0x8000 + p.toNat) job with mild := true }))

/-- The request that the arbiter grants next is one that waits, no waiting request is of a better class, among the requests of its class none but a revoked one is granted while a revoked one waits, and among equals no other requester comes sooner after the requester last granted in that class. The estimate of a waiting request is at most 255, and below that limit it is the number of 65,536-byte units, rounded up, that the bytes ahead of it fill: what is left of the transfers in progress, which the model leaves free, and the requests before it. -/
def Obligations.ArbiterOrder : Prop :=
  (∀ (a : Arbiter) (q : ArbReq), a.next = some q →
    q ∈ a.waiting ∧ ∀ w ∈ a.waiting, q.cls ≤ w.cls ∧
      (w.cls = q.cls → w.revoked = true → q.revoked = true) ∧
      (w.cls = q.cls → w.revoked = q.revoked →
        (q.requester.val + 11 - a.last q.cls - 1) % 11 ≤ (w.requester.val + 11 - a.last q.cls - 1) % 11)) ∧
  (∀ (s : State) (p : Nat) (q : ArbReq),
    let a := (s.part p).arb
    let ahead := remaining s p + ((a.waiting.filter (fun w => a.key w < a.key q)).map ArbReq.bytes).sum
    estimateOf s p q ≤ 255 ∧ (estimateOf s p q < 255 → 65536 * estimateOf s p q < ahead + 65536 ∧ ahead ≤ 65536 * estimateOf s p q))

/-- In a partition in service, with no injection pending, a free engine and a waiting request: the request to be granted next leaves the waiting requests, the one last put back behind a revoked one of its requester is presented again, the class remembers the requester, a prefetcher goes behind the others, and the transfer runs on the lowest-numbered free engine, where it starts; requests that find no engine then revoke and are given estimates. Where one request waits and its accesses succeed, the grant ends with no request waiting, the request on that engine with the bytes that differ from the stored ones, every other engine as before, and a move's transfer marked granted. With no free engine or no request a grant changes nothing. TURN_ESTIMATE_UPDATE, where no prefetch request waits, gives every waiting request the estimate of R167 and changes nothing else in the arbiter; no memory, job, object or other partition changes. -/
def Obligations.ArbiterGrants : Prop :=
  (∀ (s : State) (p : PartId) (errs : List SymErr) (e : Nat) (es : List Nat) (q : ArbReq),
    let x := s.part p.toNat
    x.state = 0 → s.flt.pending = none → x.arb.free = e :: es → x.arb.next = some q →
    let g := { q with revoked := false }
    let u := updArb s p.toNat (fun a => a.take q)
    let u := u.setPart p.toNat (turnPrefetcher (u.part p.toNat) q)
    let u := updArb u p.toNat (fun a => a.setEngine e (some { req := g, order := (u.part p.toNat).arb.grants, got := [] }))
    let u := gateFor (setXfer u q (fun y => { y with state := .granted, revocations := g.revocations })) q false
    exec (.arbiterGrant p errs) s = .next
      (giveEstimates (revokeHeld 8 (startTransfer u p.toNat e g errs) p.toNat) p.toNat) ∧
    (x.arb.waiting = [q] → x.arb.heldBack = [] → q.move = none →
      ∃ t, exec (.arbiterGrant p errs) s = .next t ∧ (t.part p.toNat).arb.waiting = [] ∧
        (t.part p.toNat).arb.grantOf e = some { req := g, order := x.arb.grants + 1, got := [] } ∧
        (∀ d, d ≠ e → (t.part p.toNat).arb.grantOf d = x.arb.grantOf d) ∧ t.mem = s.mem ∧ t.tiles = s.tiles ∧
        t.clusters = s.clusters ∧ t.jobs = s.jobs ∧ t.evt = s.evt) ∧
    (∀ (c : ClusterId) (id i : Nat) (r : Run), x.arb.waiting = [q] → x.arb.heldBack = [] → q.move = some (c, id, i) →
      (u.cluster c.toNat).runs.find? (fun y => y.id == id) = some r →
      (∀ o pl, runObj u r = some (o, pl) → (transferRanges u pl (r.desc.pieces r.offset r.scaleOff i)).isSome = true) →
      let a := accessRun u p.toNat e r i q.cls errs
      a.failed = false → ∃ t, exec (.arbiterGrant p errs) s = .next t ∧ (t.part p.toNat).arb.waiting = [] ∧
        (t.part p.toNat).arb.grantOf e = some { req := g, order := x.arb.grants + 1, got := a.got } ∧
        (t.cluster c.toNat).runs.find? (fun y => y.id == id) = some { r with missed := r.missed || a.missed })) ∧
  (∀ (s : State) (p : PartId) (errs : List SymErr), (s.part p.toNat).arb.free = [] ∨ (s.part p.toNat).arb.waiting = [] →
    exec (.arbiterGrant p errs) s = .next s) ∧
  (∀ (s : State) (p : PartId), ∃ u, exec (.turnEstimateUpdate p) s = .next u ∧ u.mem = s.mem ∧ u.hostMem = s.hostMem ∧
    u.jobs = s.jobs ∧ u.objects = s.objects ∧ u.evt = s.evt ∧ u.out = s.out ∧ (∀ r, r ≠ p.toNat → u.part r = s.part r) ∧
    (u.part p.toNat).arb.engines = (s.part p.toNat).arb.engines ∧
    ((∀ w ∈ (s.part p.toNat).arb.waiting, w.requester.val ≠ 8) →
      (u.part p.toNat).arb = { (s.part p.toNat).arb with waiting := (s.part p.toNat).arb.waiting.map (fun w =>
        { w with estimate := estimateOf s p.toNat w }) }))

/-- ARBITER_PROTOCOL_BREACH in a partition in service that has not just returned from a reset raises detector 0x22 at FAULT and begins a reset on the fast path. TRANSFER_WRITTEN on an engine whose peer requests are all answered frees the engine, copies the data, marks the tile of the run written and signals the runs that are complete in issue order. LATE_THRESHOLD_EXPIRY on a run that is not written and has met its threshold raises detector 0x20 once. -/
def Obligations.ArbiterEvents : Prop :=
  (∀ (s : State) (p : PartId) (e : BitVec 3) (r : Requester) (job : Nat),
    (s.part p.toNat).state = 0 → (s.part p.toNat).backFast = none → (s.part p.toNat).backFull = none →
    exec (.arbiterProtocolBreach p e r job) s = .next (beginReset
      (raiseAs s 2 0 (mkEvent 0x22 p.toNat job r.val (p.toNat * 8 + e.toNat) job)) p.toNat 0 0x22 r.val (p.toNat * 8 + e.toNat))) ∧
  (∀ (s : State) (p : PartId) (e : BitVec 3) (g : Grant), (s.part p.toNat).arb.grantOf e.toNat = some g →
    peerOpen s p.toNat e.toNat = false → s.flt.pending = none →
    (g.req.move = none → g.req.lines = [] →
      exec (.transferWritten p e) s = .next (updArb s p.toNat (fun a => a.setEngine e.toNat none))) ∧
    (∀ c id i r, g.req.move = some (c, id, i) → (s.cluster c.toNat).runs.find? (fun x => x.id == id) = some r →
      exec (.transferWritten p e) s = .next
        (let u := copyTransfer (updArb s p.toNat (fun a => a.setEngine e.toNat none)) r i g.got
         let u := updRun u c.toNat id (fun r => { r with
           xfers := r.xfers.zipIdx.map (fun x => if x.2 = i then { state := .written, revocations := 0 } else x.1) })
         progressCluster (signalRuns (u.cluster c.toNat).runs.length u r.tile) c.toNat))) ∧
  (∀ (s : State) (c : ClusterId) (id : Nat) (r : Run), (s.cluster c.toNat).runs.find? (fun x => x.id == id) = some r →
    r.written = false → r.lateRaised = false → r.threshold ≠ 0 → r.lateTick < s.time.ticks →
    exec (.lateThresholdExpiry c id) s = .next
      (let u := updStall (updRun s c.toNat id (fun x => { x with lateRaised := true })) r
         (fun k => { k with lateRuns := min 65535 (k.lateRuns + 1) })
       raiseAs u 0 (if r.injected then 1 else 0) (lateEvent u r)))

/-- While a partition is in service and its DRAM is not in self-refresh, SCRUB_BURST with any symbol errors moves the scrubber to the next burst, wrapping after the last, and DRAM_REFRESH refreshes its bank; neither changes the tiles, the jobs, the objects, the arbiter or another partition. Where no injection is pending and the decoder corrects no codeword of the burst, the scrub changes no byte of the module's memory and no line of the slice. At the end of a scrub window the level rises by 1, to at most 3, when the codewords corrected reach the upper setting; a window at or below the lower setting counts as quiet and the sixth in a row lowers the level by 1; any other window leaves the level. The count of corrected codewords starts again at 0. For every byte offset of a partition the burst, the codeword and the byte that the coordinates give name that byte again, and bursts that follow one another rotate through the 4 bank groups and then through the 4 banks of each. -/
def Obligations.ScrubAndRefresh : Prop :=
  ((∀ (s : State) (p : PartId), t2Works s p.toNat = true →
    (∀ errs reread : List SymErr, ∃ u, exec (.scrubBurst p errs reread) s = .next u ∧ u.tiles = s.tiles ∧
      u.jobs = s.jobs ∧ u.objects = s.objects ∧ (∀ q, q ≠ p.toNat → u.part q = s.part q) ∧
      (u.part p.toNat).scrubBurst = ((s.part p.toNat).scrubBurst + 1) % 2 ^ 26 ∧ (u.part p.toNat).arb = (s.part p.toNat).arb ∧
      (let b := 256 * (s.part p.toNat).scrubBurst
       s.flt.pending = none → (readBurst (deviceBytes s p.toNat b) ((s.part p.toNat).poisoned.contains b) errs).fixed = [] →
         u.mem = s.mem ∧ (u.part p.toNat).lines = (s.part p.toNat).lines)) ∧
    (∀ bank : BitVec 4, exec (.dramRefresh p bank) s = .next (s.setPart p.toNat { s.part p.toNat with refreshBank := bank.toNat }))) ∧
  (∀ (s : State) (p : PartId),
    let x := s.part p.toNat; let up := setting s 0x0030 16; let down := setting s 0x0031 2
    ∃ y, exec (.scrubWindowBoundary p) s = .next (s.setPart p.toNat y) ∧
      y = { x with scrubLevel := y.scrubLevel, quietWindows := y.quietWindows, corrected := 0 } ∧
      (up ≤ x.corrected → y.scrubLevel = min 3 (x.scrubLevel + 1) ∧ y.quietWindows = 0) ∧
      (x.corrected < up → x.corrected ≤ down → 5 ≤ x.quietWindows → y.scrubLevel = x.scrubLevel - 1 ∧ y.quietWindows = 0) ∧
      (x.corrected < up → x.corrected ≤ down → x.quietWindows < 5 → y.scrubLevel = x.scrubLevel ∧ y.quietWindows = x.quietWindows + 1) ∧
      (x.corrected < up → down < x.corrected → y.scrubLevel = x.scrubLevel ∧ y.quietWindows = 0))) ∧
  ((∀ o, o < 2 ^ 34 → 256 * (dramCoord o).burstIndex + 16 * (dramCoord o).codeword + (dramCoord o).byte = o) ∧
  (∀ n, (dramCoord (256 * n)).bankGroup = n % 4 ∧ (dramCoord (256 * n)).bankIndex = n / 4 % 4 * 4 + n % 4))

/-- Where the partition that BAR2 reaches is in service with its DRAM working, an access presents a request of the Atelier, in the Prompt class, and goes through the slice; a read answers the bytes delivered when its bursts can be read, and a write that can be merged puts its bytes there. A read to a partition in reset or self-refresh is aborted and changes nothing else, and a write to it is discarded. -/
def Obligations.Bar2Accesses : Prop :=
  ∀ (s : State) (off : BitVec 28),
    let a := bar2Addr s off.toNat; let p := a / 0x400000000
    (t2Works s p = false → (∀ n, exec (.bar2Read off n) s = .next (s.emit .bar2Abort)) ∧
      (∀ bs, exec (.bar2Write off bs) s = .next s)) ∧
    (∀ n, t2Works s p = true → off.toNat + n ≤ 0x10000000 →
      let r := accessRange (startRange (present s p 10 1 n 0) []) p (a % 0x400000000) n 0 false false
      r.failed = false → exec (.bar2Read off n) s = .next (r.s.emit (.bar2Data (readGot r.s.mem r.got a n)))) ∧
    (∀ bs : List Byte, t2Works s p = true → off.toNat + bs.length ≤ 0x10000000 →
      let r := accessRange (startRange (present s p 10 1 bs.length 0) []) p (a % 0x400000000) bs.length 0 true false
      r.failed = false → exec (.bar2Write off bs) s = .next { r.s with mem := r.s.mem.write a bs })

/-- Whatever lines a slice holds and whatever symbol errors it meets, an access to a range of T2 through the slice leaves the tiles, the objects, the jobs, every other partition and the partition's own arbiter as they were. Where no injection is pending, no symbol is in error, no burst of the partition is poisoned and no line was filled with a miscorrected burst, every byte of the module's memory reads as before: hits, fills, evictions and write-backs are not visible in the contents. -/
def Obligations.SliceKeepsMemory : Prop :=
  ∀ (s : State) (errs : List SymErr) (p off len job : Nat) (write noAlloc : Bool),
    let r := accessRange (startRange s errs) p off len job write noAlloc
    r.s.tiles = s.tiles ∧ r.s.objects = s.objects ∧ r.s.jobs = s.jobs ∧ (∀ q, q ≠ p → r.s.part q = s.part q) ∧
    (r.s.part p).arb = (s.part p).arb ∧
    (s.flt.pending = none → errs = [] → (s.part p).poisoned = [] → (∀ l ∈ (s.part p).lines, l.under = []) →
      ∀ a, r.s.mem.byte a = s.mem.byte a)

/-- HANG_CHECK compares the stalled nodes with those of the last check: the cycles among the nodes that stood as they stand are kept for the next check, but for those that the last check found too; each of these is raised in turn with detector 0x14 and forgotten. The positions of all nodes are kept, and where no cycle was found twice nothing else changes. The check completes with every number of cycles. -/
def Obligations.HangChecks : Prop :=
  ∀ s : State,
    let ns := hangNodes s
    let stalled := ns.filter (fun x => x.blocked && s.hangSeen.contains (x.id, x.token))
    let sets := hangSetsOf s stalled
    let found := sets.filter (fun c => s.hangSets.contains c)
    let u := { s with hangSets := sets.filter (fun c => !found.contains c), hangSeen := ns.map (fun x => (x.id, x.token)) }
    (found = [] → exec .hangCheck s = .next u) ∧
    exec .hangCheck s = .next (found.foldl (fun s c => raiseHang s stalled c) u) ∧
    (∀ c ∈ found, c ∉ u.hangSets)

/-- INVOCATION_START of a READY job in service without an invocation, none owed: with an input or start instant that lets it start, it takes the next invocation and prepares and starts its run; an invocation whose start waits is prepared and started again; otherwise, and with a run in progress, a job without a shadow changes nothing. A run whose preparation succeeds starts: every tile of its clusters with a program runs from address 0 with its counts cleared. PERIODIC_START_INSTANT: an instant that has fallen due moves the next one a period on and leaves the start waiting; one that still waits is skipped with detector 0x30, cause 1. ATTN_PASS_START on a run whose tiles have ended its pass, with a further pass of the call: that pass is the invocation's, its items are prepared, and every tile of the run with a program runs from address 0. GATE_PASS_PREPARE on a run that has ended its plan pass: the gate pass of its gate is prepared and started. INVOCATION_COMMIT of a run that may commit and of which no milestone is due: what it wrote is published, a fallback's end raises 0x31, the invocation ends with the status of the publication and its rows COMMITTED, and what waited goes on. MILESTONE_DUE with no injection pending and a milestone due: the tiles stop, 0x30 with the milestone and the number is raised, and the fallback starts where it is ready; else the invocation ends LATE with its rows ABANDONED. INGRESS_WRITE to an observation ring with room puts its entry there and hands it to the fusion jobs; to an object that is no ring of a job or a port it changes nothing. EPOCH_CUTOFF of a fusion job: before the cutoff of its next epoch nothing; on its tick the epoch is marked for the end of the tick; later the epoch is frozen, a frozen one that still waits being skipped, and the job starts. Freezing takes the kept rows of the epoch, leaves those of later epochs, and goes on to the next epoch. -/
def Obligations.RunLifecycle : Prop :=
  ((∀ (s : State) (job : Nat) (j : Job) (im : Image), s.job? job = some j → s.image? j.image = some im →
    leaseInService s j.clusters = true →
    (j.invocation = none → j.lease = 2 → j.owed = [] → mayStart s job j im = true →
      exec (.invocationStart job) s = .next (startShadow (queueShadow (startRun (takeInvocation s job) job) job) job)) ∧
    (j.invocation = none → j.lease = 2 → j.owed = [] → mayStart s job j im = false → j.shadow = none →
      exec (.invocationStart job) s = .next s) ∧
    (∀ i, j.invocation = some i → i.started = true → j.shadow = none → exec (.invocationStart job) s = .next s) ∧
    (∀ i, j.invocation = some i → i.started = false → i.isFallback = false → j.rerun = false → j.lease = 2 →
      exec (.invocationStart job) s = .next (startShadow (startRun s job) job)) ∧
    (let cs := j.roleClusters .primary
     ∀ v, (Prep.andThen (prepareFuse (clearCounts s (j.roleClusters .fallback)) job cs) (fun s =>
        Prep.andThen (preparePlan s job cs im) (fun s => Prep.andThen (prepareWriter s job cs j.image) (fun s =>
          prepareCall s job cs im)))).1 = some v →
      let w := assignFor (prepareRest v job cs im) job cs
      ∀ k i, w.job? job = some k → k.invocation = some i → ∀ e ∈ leaseTiles cs, (w.tile e.2).progLen ≠ 0 →
        let x := (startRun s job).tile e.2
        x.phase = .running ∧ x.pc = 0 ∧ x.stall = .free ∧ x.satCount = 0 ∧ x.anomCount = 0)) ∧
  (∀ (s : State) (job : Nat) (j : Job), s.job? job = some j → j.period ≠ 0 → j.readyAt.isSome = true → j.fuse = none →
    (s.now < j.nextStart → exec (.periodicStartInstant job) s = .next s) ∧
    (j.nextStart ≤ s.now →
      let k := { j with nextStart := j.nextStart + j.period, startWaiting := true }
      (j.startWaiting = false → exec (.periodicStartInstant job) s = .next (s.setJob job k)) ∧
      (j.startWaiting = true → ∃ v < 2 ^ 64, exec (.periodicStartInstant job) s = .next
        ((raise s.fresh.2 (mkEvent 0x30 0xFF job 1 job v)).setJob job k)))) ∧
  (∀ (s : State) (job : Nat) (j : Job) (i : Invocation) (im : Image) (p : Pass), s.job? job = some j → passEnded s j = some i →
    s.image? (runImage j i) = some im → nextPass s im i (runRows s job j i) = some p →
    let cs := runClusters j i
    let u := preparePassOf (updInv s job (fun i => { i with pass := p })) job cs (runImage j i) im { i with pass := p } (runRows s job j i) p
    ∃ t, exec (.attnPassStart job) s = .next t ∧ t = startPass u cs ∧
      ∀ e ∈ leaseTiles cs, (u.tile e.2).progLen ≠ 0 → (t.tile e.2).phase = .running ∧ (t.tile e.2).pc = 0 ∧ (t.tile e.2).stall = .free) ∧
  (∀ (s : State) (job : Nat) (j : Job) (i : Invocation) (g : InstEntry), s.job? job = some j → passEnded s j = some i → i.pass = .plan →
    i.isFallback = false → (s.image? j.image).bind Image.gate? = some g →
    exec (.gatePassPrepare job) s = .next (gatePass s job j g)) ∧
  (∀ (s : State) (job : Nat) (j : Job) (i : Invocation) (im : Image), s.job? job = some j → mayCommit s job j = some (i, im) →
    dueNow s job j false = none →
    let p := publish s job j i im
    let u := if i.isFallback && decide (j.last < i.number) then raise p.1 (mkEvent 0x31 0xFF job 0 job i.number) else p.1
    exec (.invocationCommit job) s = .next
      (pruneCommits (afterwards (afterEnd (endInvocation u job p.2 (some 2)) job)) job)) ∧
  (∀ (s : State) (job : Nat) (j : Job) (i : Invocation) (m : Nat), s.job? job = some j → s.flt.pending = none →
    dueNow s job j false = some (i, m) →
    let u := raiseAs (dropWork s j i) 1 0 (mkEvent 0x30 0xFF job 0 job (m * 2 ^ 56 + i.number % 2 ^ 56))
    let u := updInv u job (Invocation.missing m)
    ∀ k, u.job? job = some k →
      (∀ v, fallbackAfter u job k i = some v → exec (.milestoneDue job) s = .next (serveWaiting v)) ∧
      (fallbackAfter u job k i = none → exec (.milestoneDue job) s = .next
        (afterwards (afterEnd (endInvocation (abandonRows u job i.rows) job stLate (some 3)) job))))) ∧
  ((∀ (s : State) (o : Nat) (bs : List Byte), o < 0xFFFF0000 →
    (∀ ob n, s.obj? o = some ob → obsEntry s o = some n → ringCap s ob ≠ 0 →
      exec (.ingressWrite o bs) s = .next (arrive (ringPut s ob n bs) o)) ∧
    (s.obj? o = none ∨ obsEntry s o = none → exec (.ingressWrite o bs) s = .next s)) ∧
  (∀ (s : State) (job : Nat) (j : Job) (env : FuseEnv) (f : FuseState), s.job? job = some j → fuseEnv s j = some env → j.fuse = some f →
    let c := epochCutoff f env f.nextEpoch
    (s.now < c → exec (.epochCutoff job) s = .next s) ∧
    (s.now = c → exec (.epochCutoff job) s = .next (s.setJob job { j with fuse := some { f with cutting := true } })) ∧
    (c < s.now → exec (.epochCutoff job) s = .next
      (startJob (freezeEpoch (if f.frozen.isSome then skipStart s job else s) job env f) job)) ∧
    ∃ g e, (freezeEpoch s job env f).job? job = some { j with fuse := some g } ∧ g.frozen = some e ∧ e.epoch = f.nextEpoch ∧
      e.rows = keptRows env (f.rows.filter (fun r => r.epoch == f.nextEpoch)) ∧ g.nextEpoch = f.nextEpoch + 1 ∧
      g.rows = f.rows.filter (fun r => decide (f.nextEpoch < r.epoch)) ∧ g.cutting = false))

/-- LEASE_LOAD_COMPLETE on a lease that may be loaded loads the programs, descriptors and initial data of its image and of its fallback's, makes the job READY unless its run goes on, runs a faulted invocation again, serves what waited and enforces the power cap. SWITCH_SAVE_WRITTEN on a saving lease, once its stop is complete, writes its save object, leaves the lease SAVED without clusters and frees them. SWITCH_RELOAD_COMPLETE on a reloading lease in service loads the image and the saved state; the job is ENDING where it was cancelled, RUNNING where it ran, else READY, with nothing saved. SHADOW_ESTABLISH between runs, with clusters and power for them, an in-service partition and room for the twins and the second stream entries, holds and loads the clusters, copies the twins and records the shadow; while an invocation runs it changes nothing. -/
def Obligations.LeaseLifecycle : Prop :=
  (∀ (s : State) (job : Nat) (j : Job), s.job? job = some j → mayLoad s j = true →
    let l := loadLease s j
    let v := serveWaiting (recover (updJob l job (fun j => { (if j.lease = 3 then j else j.ready l.now) with rerun := false })) job)
    exec (.leaseLoadComplete job) s = .next (enforceCap v (capInForce v))) ∧
  (∀ (s : State) (job : Nat) (j k : Job) (o : Obj), s.job? job = some j → j.lease = 4 →
    let w := landStopped s job
    w.job? job = some k → w.obj? k.saveObject = some o →
    let f := w.freeBytes o.length
    let u := objWriteBytes f.2 o 0 f.1
    let v := freeClusters (u.setJob job { k with lease := 5, clusters := [], queuedSince := u.now }) k.clusters
    exec (.switchSaveWritten job) s = .next (afterwards (enforceCap v (capInForce v)))) ∧
  (∀ (s : State) (job : Nat) (j : Job), s.job? job = some j → j.lease = 6 → leaseInService s j.clusters = true →
    let u := restore (loadLease s j) j (j.roleClusters .primary)
    let u := updJob u job (fun k => { k with
      saved := [], savedMem := [], savedRuns := [], resumeRunning := false, rerun := false
      lease := if k.cancelled then 8 else if j.resumeRunning && !j.saved.isEmpty then 3 else 2 })
    let v := serveWaiting (if j.rerun then recover u job else u)
    exec (.switchReloadComplete job) s = .next (enforceCap v (capInForce v))) ∧
  (∀ (s : State) (job : Nat) (j : Job) (p : Nat) (cs fb : List Nat) (im : Image), s.job? job = some j →
    shadowClusters s j = some (p, cs, fb) → (j.invocation.isSome = true → exec (.shadowEstablish job) s = .next s) ∧
    (j.wantShadow = true → j.invocation = none → j.lease = 2 → (s.part p).state = 0 →
      let here := (j.clusters.head?.getD 0) / 8
      let mine := (s.part here).streams.filter (fun x => x.job == job)
      p ≠ here → twinsFit s (needTwins s j here) p = true → secondsFit s p mine = true →
      roomFor s (leaseCap s) ((cs ++ fb).filter (fun c => !(s.cluster c).leased)).length = true → s.image? j.image = some im →
      let u := forEach cs s (fun s c => powerOnCluster s job .shadow c)
      let u := makeTwins (forEach fb u (fun s c => powerOnCluster s job .shadowFallback c)) (needTwins s j here) p
      u.images = s.images → exec (.shadowEstablish job) s = .next
        (let v := loadImage u (sortBy (fun a b => a < b) cs) im
         let w := match v.image? j.fallback with
          | some fim => loadImage v (sortBy (fun a b => a < b) fb) fim
          | none => v
         let sh : Shadow := { partition := p, clusters := cs, fallbackClusters := fb, state := 1, run := none, queued := []
                              commits := [], streams := mine }
         noteCap (updJob w job (fun j => { j with shadow := some sh, shadowPart := none })))))

/-- SPILL_WRITTEN on a page being spilled copies its frame to the spill slot, and the page is spilled at its target; the calls in progress then recall further pages. PAGE_RECALL_WRITTEN on a page being recalled, whose spill slot's placement serves, copies it back, and the page is resident at its target and counted in the record of each call that holds it. SWAP_OUT_WRITTEN on a stream being swapped out writes its park slot, and the stream is parked. SWAP_IN_WRITTEN on one being swapped in, with no injection pending, reads the park slot into half 0 of its slot, the stream is resident, and the control block of its row is written again. Both then serve the streams that need a slot of the partition. On a page or stream that is not so moving, each changes nothing. -/
def Obligations.KvAndStreamMoves : Prop :=
  (∀ (s : State) (n : Nat) (e : PageEntry), s.kv.dir.get? n = some e →
    (e.moving = 1 → exec (.spillWritten n) s = .next (resumeRecalls (setEntry
      (copyFrame s e.poolObject e.spillObject e.location e.target e.frame) n { e with state := 2, location := e.target, moving := 0 }))) ∧
    (e.moving ≠ 1 → exec (.spillWritten n) s = .next s) ∧
    (e.moving = 2 → ((s.obj? e.spillObject).bind Obj.place).any (placeServes s) = true →
      exec (.pageRecallWritten n) s = .next (forEach (pageJobs s n) (setEntry
        (copyFrame s e.spillObject e.poolObject e.location e.target e.frame) n { e with state := 1, location := e.target, moving := 0 })
        (fun s jid => countKv s jid (fun k => { k with recalls := k.recalls + 1 })))) ∧
    (e.moving ≠ 2 → exec (.pageRecallWritten n) s = .next s)) ∧
  (∀ (s : State) (p : PartId) (id : Nat),
    (∀ x, (s.part p.toNat).streams.find? (fun y => y.id == id && y.state == 1) = some x → exec (.swapOutWritten p id) s = .next
      (servePart (updStream (writePark s x) p.toNat x.id (fun y => { y with state := 2 })) p.toNat)) ∧
    ((s.part p.toNat).streams.find? (fun y => y.id == id && y.state == 1) = none → exec (.swapOutWritten p id) s = .next s) ∧
    (∀ x, (s.part p.toNat).streams.find? (fun y => y.id == id && y.state == 3) = some x → s.flt.pending = none →
      exec (.swapInWritten p id) s = .next
        (servePart (refreshCtl (updStream (readPark s x) p.toNat id (fun y => { y with state := 0, half := 0 })) p.toNat id) p.toNat)) ∧
    ((s.part p.toNat).streams.find? (fun y => y.id == id && y.state == 3) = none → exec (.swapInWritten p id) s = .next s))

/-- DETECTOR_EVENT of a detector whose response is only the report raises the event at the severity of the detector table, and no memory of the module, tile, cluster, partition, object, job, mailbox or port changes; of a number that is no detector it changes nothing. Detectors 0x02, 0x11 and 0x32 raise the event and fault the invocation of the tile; 0x10 that of the destination tile; 0x21, 0x06 with cause 0 and 0x04 that is not mild, outside the restoring of its partition, that of the job. Detectors 0x14, 0x22 that is not mild, 0x06 with cause 1 and 0x60 with cause 1, of a partition in service that has not just returned from a reset, raise the event and begin a reset there, 0x06 on the full path and the others on the fast one. 0x64 and 0x67 raise the event and begin the power-fail sequence. A watchdog expiry or an uncorrected Atelier memory error, with the firmware running and no injection pending, raises 0x91 or 0x92, restarts the Atelier and starts the firmware again; 0x91 sets EVT_STATUS bit 18. -/
def Obligations.DetectorEvents : Prop :=
  (∀ (s : State) (e : DetEvent), e.detector ∈ [0x01, 0x03, 0x05, 0x07, 0x12, 0x13, 0x20, 0x23, 0x30, 0x31, 0x40, 0x41, 0x42, 0x43, 0x50,
      0x51, 0x53, 0x54, 0x62, 0x63, 0x66, 0x70, 0x71, 0x72, 0x73, 0x80, 0x81, 0x82, 0x83, 0x84, 0x85, 0x86, 0x90, 0xA0, 0xA1, 0xA2, 0xB0] →
    ∃ t, exec (.detectorEvent e) s = .next t ∧ t = raiseAs s (severityOf e) 0 e ∧ t.mem = s.mem ∧ t.tiles = s.tiles ∧
      t.clusters = s.clusters ∧ t.parts = s.parts ∧ t.objects = s.objects ∧ t.jobs = s.jobs ∧ t.mbx = s.mbx ∧ t.ports = s.ports) ∧
  (∀ (s : State) (e : DetEvent), detectorKnown e.detector = false → exec (.detectorEvent e) s = .next s) ∧
  (∀ (s : State) (e : DetEvent), e.detector ∈ [0x02, 0x11, 0x32] →
    exec (.detectorEvent e) s = .next (faultTile (raiseAs s 2 0 e) (BitVec.ofNat 9 e.unit) e.detector)) ∧
  (∀ (s : State) (e : DetEvent), e.detector = 0x10 →
    exec (.detectorEvent e) s = .next (faultTile (raiseAs s 2 0 e) (BitVec.ofNat 9 e.value) 0x10)) ∧
  (∀ (s : State) (e : DetEvent), (e.detector = 0x21 ∨ (e.detector = 0x06 ∧ e.cause = 0) ∨
      (e.detector = 0x04 ∧ e.mild = false ∧ (s.part e.partition).step ≠ .restoring)) →
    exec (.detectorEvent e) s = .next (faultRole (raiseAs s 2 0 e) e.job .primary e.detector e.partition)) ∧
  (∀ (s : State) (e : DetEvent), (s.part e.partition).state = 0 → (s.part e.partition).backFast = none →
    (s.part e.partition).backFull = none →
    ((e.detector = 0x14 ∨ (e.detector = 0x22 ∧ e.mild = false) ∨ (e.detector = 0x60 ∧ e.cause = 1)) →
      exec (.detectorEvent e) s = .next (beginReset (raiseAs s 2 0 e) e.partition 0 e.detector e.cause e.unit)) ∧
    (e.detector = 0x06 → e.cause = 1 →
      exec (.detectorEvent e) s = .next (beginReset (raiseAs s 2 0 e) e.partition 1 0x06 1 e.unit))) ∧
  (∀ (s : State) (e : DetEvent), (e.detector = 0x64 → exec (.detectorEvent e) s = .next (powerFail (raiseAs s 3 0 e) 1)) ∧
    (e.detector = 0x67 → exec (.detectorEvent e) s = .next (powerFail (raiseAs s 3 0 e) 0))) ∧
  (∀ s : State, atelierRuns s = true → s.flt.pending = none →
    exec .atelierWatchdogExpiry s = .next (restartFirmware (atelierRestart
      (raiseAs (setEvt s 18) 3 0 (mkEvent 0x91 0xFF 0 0 0 0)) true)) ∧
    exec .atelierMemoryUncorrected s = .next (restartFirmware (atelierRestart (raiseAs s 3 0 (mkEvent 0x92 0xFF 0 0 0 0)) false)))

/-- CAST_READ_TIMEOUT marks the unit's record ABSENT with the bytes delivered before. CAST_COMPLETE on the fast path whose slice and memory controller answered keeps the Cast, the newest first, with its header in the Patina and cast_new set, and goes on to the write-back; on the full path it keeps it too, resets the units and trains. SLICE_WRITE_BACK_COMPLETE on the fast path writes back the dirty lines, resets the units and puts the DRAM in self-refresh. PARTITION_RESET_RELEASE then leaves self-refresh, lifts the masks and restarts the scrubber at level 0. DRAM_TRAINING_COMPLETE with success stores the training, clears the partition's memory, lifts the masks and counts; a first or second failure only counts. PARTITION_IN_SERVICE of a restored partition returns it to service: after a full path its objects are lost; the command that waits for it completes, and what waited goes on. In any other step each of them changes nothing. -/
def Obligations.ResetSequence : Prop :=
  (∀ (s : State) (p : PartId) (kind unit : Nat) (c : Cast), (s.part p.toNat).casting = some c →
    exec (.castReadTimeout p kind unit) s = .next (s.fresh.2.setPart p.toNat { s.part p.toNat with casting := some { c with
      records := c.records.map (fun r => if r.kind = kind ∧ r.unit = unit then
        { r with status := 0x0D, data := r.data.take (Config.castDelivered s.freeCount) } else r) } })) ∧
  (∀ (s : State) (p : PartId) (c : Cast), (s.part p.toNat).step = .casting → (s.part p.toNat).casting = some c →
    let k := { c with captureEnd := s.now, path := (s.part p.toNat).state - 1 }
    let u := keepCast (s.setPart p.toNat { s.part p.toNat with casting := none }) p.toNat k
    ((s.part p.toNat).state = 1 → castEscalates c = false → ∃ t, exec (.castComplete p) s = .next t ∧
      t = u.setPart p.toNat { u.part p.toNat with step := .writeBack } ∧ (t.part p.toNat).casts = (k :: (s.part p.toNat).casts).take 2 ∧
      t.flt.castNew = s.flt.castNew ||| (1#8 <<< p.toNat) ∧ t.mem = s.mem ∧ t.jobs = s.jobs) ∧
    ((s.part p.toNat).state = 2 → exec (.castComplete p) s = .next
      (let v := resetUnits u p.toNat
       v.setPart p.toNat { v.part p.toNat with step := .training, trainFails := 0 }))) ∧
  (∀ (s : State) (p : PartId), (s.part p.toNat).step = .writeBack →
    let u := resetUnits (forEach (s.part p.toNat).lines s (fun s l => (writeBackLine s p.toNat l).1)) p.toNat
    (u.part p.toNat).state = 1 → exec (.sliceWriteBackComplete p) s = .next
      (u.setPart p.toNat { u.part p.toNat with step := .asserted, selfRefresh := true })) ∧
  (∀ (s : State) (p : PartId), (s.part p.toNat).step = .asserted → (s.part p.toNat).state = 1 →
    exec (.partitionResetRelease p) s = .next (s.setPart p.toNat { s.part p.toNat with
      arb := { (s.part p.toNat).arb with masked := [] }
      step := .restoring, selfRefresh := false, scrubLevel := 0, quietWindows := 0, corrected := 0 })) ∧
  (∀ (s : State) (p : PartId), (s.part p.toNat).step = .training →
    (∃ t, exec (.dramTrainingComplete p true) s = .next t ∧ t = memoryStage (trained s p.toNat) ∧
      (t.part p.toNat).step = .restoring ∧ (t.part p.toNat).trainings = (s.part p.toNat).trainings + 1 ∧
      (t.part p.toNat).lines = [] ∧ (t.part p.toNat).poisoned = [] ∧ (t.part p.toNat).arb.masked = [] ∧ t.jobs = s.jobs ∧ t.tiles = s.tiles) ∧
    ((s.part p.toNat).trainFails < 2 → exec (.dramTrainingComplete p false) s = .next
      (s.setPart p.toNat { s.part p.toNat with trainFails := (s.part p.toNat).trainFails + 1 }))) ∧
  (∀ (s : State) (p : PartId), (s.part p.toNat).step = .restoring → s.boot.mailboxReady = true →
    let x := s.part p.toNat
    let u := s.setPart p.toNat { x with state := 0, step := .none, selfRefresh := false
                                        backFast := if x.state = 1 then some s.now else x.backFast
                                        backFull := if x.state = 2 then some s.now else x.backFull }
    let v := if x.state = 2 then renewPorts (losePartition u p.toNat) (fun q => q == p.toNat) else u
    exec (.partitionInService p) s = .next
      (updateResting (flushBoundary (grantQueue 64 (serveWaiting (finishReset v p.toNat 0)))))) ∧
  (∀ (s : State) (p : PartId), (s.part p.toNat).step = .none →
    exec (.castComplete p) s = .next s ∧ exec (.sliceWriteBackComplete p) s = .next s ∧ exec (.partitionResetRelease p) s = .next s ∧
    exec (.dramTrainingComplete p true) s = .next s ∧ exec (.partitionInService p) s = .next s)

/-- Resetting the units of a partition leaves its scratchpads reading 0 and its tiles' registers cleared, its slice without lines, its arbiter without requests and masked; every byte of memory outside its scratchpads, every other tile and every other partition stay as they were. -/
def Obligations.ResetUnits : Prop :=
  ∀ (s : State) (p : Nat), p < 8 →
    let u := resetUnits s p
    (∀ a, 0x4000000000 + 0x4000000 * p ≤ a → a < 0x4000000000 + 0x4000000 * (p + 1) → u.mem.byte a = 0) ∧
    (∀ a, (a < 0x4000000000 + 0x4000000 * p ∨ 0x4000000000 + 0x4000000 * (p + 1) ≤ a) → u.mem.byte a = s.mem.byte a) ∧
    (∀ t : TileId, partOfTile t = p → u.tile t = TileState.cleared) ∧ (∀ t : TileId, partOfTile t ≠ p → u.tile t = s.tile t) ∧
    (u.part p).lines = [] ∧ (u.part p).arb.waiting = [] ∧ (∀ r : Requester, (u.part p).arb.masked.contains r.val = true) ∧
    (∀ q, q ≠ p → u.part q = s.part q) ∧ u.objects = s.objects ∧ u.jobs = s.jobs ∧ u.hostMem = s.hostMem

/-- For every mailbox command of the table, with a command in hand: another payload length than the opcode's, a timeout above 60,000,000 µs or a reserved byte that is not 0 completes with BAD_PARAM and has no other effect; and a privileged command that passes these checks on another mailbox than 0 completes with DENIED and has no other effect. The privileged commands are RELIEF_APPLY, TIME_CONFIG, TIME_FORCE, FABRIC_JOIN_POLICY, FAULT_INJECT_ARM, PARTITION_RESET, CALENDAR_SET, FW_STAGE, FW_COMMIT and POWER_MODE. TIME_FORCE on mailbox 0 completes with DENIED while the setting that permits it is not 1. -/
def Obligations.MailboxChecks : Prop :=
  (∀ (c : Instr) (s : State) (m : MbxId) (h : CmdHdr) (op len : Nat) (privileged : Bool),
    mailboxCommand c = some (m, h, op, len, privileged) → inHand s m = true →
    (h.length ≠ len ∨ 60000000 < h.timeout ∨ reservedOk ((s.box m).current.getD []) op len = false →
      exec c s = .next (complete s m h op 0x03 [])) ∧
    (Commanded s m h op len → privileged = true → m ≠ 0 → exec c s = .next (complete s m h op 0x05 []))) ∧
  (∀ c : Instr, (mailboxCommand c).any (fun x => x.2.2.2.2) = true ↔ ∃ m h, (∃ n, c = .reliefApply m h n) ∨
    (∃ a b d p q w, c = .timeConfig m h a b d p q w) ∨ (∃ v, c = .timeForce m h v) ∨ (∃ a n b, c = .fabricJoinPolicy m h a n b) ∨
    (∃ n, c = .faultInjectArm m h n) ∨ (∃ p q, c = .partitionReset m h p q) ∨ (∃ a b, c = .calendarSet m h a b) ∨
    (∃ n b, c = .fwStage m h n b) ∨ (∃ n, c = .fwCommit m h n) ∨ (∃ a b, c = .powerMode m h a b)) ∧
  (∀ (s : State) (h : CmdHdr) (v : Word64), Commanded s 0 h 0x71 8 → setting s 0x0081 0 ≠ 1 →
    exec (.timeForce 0 h v) s = .next (complete s 0 h 0x71 0x05 []))

/-- For a mailbox of the PCIe path that is enabled, with its command not stale, no entry held back and room in its ring inside the bus address space: the completion writes the 128 bytes of its entry, the opcode, tag, status, kind 0, payload length, time and payload, at the producer's place, advances MBX_CPL_PROD by 1, sets the mailbox's bit of EVT_STATUS and leaves no command in hand; the rest of the host's memory, the module's memory and every other mailbox stand. -/
def Obligations.CommandCompletion : Prop :=
  ∀ (s : State) (m : MbxId) (h : CmdHdr) (op st : Nat) (payload : List Byte),
    let b := s.box m
    let a := b.ringCpl.toNat + 128 * (b.cplProd.toNat % 64)
    let e : CplEntry := { opcode := op, tag := h.tag.toNat, status := st, kind := 0, payload := payload }
    b.enabled = true → b.path1 = false → b.stale = false → b.held = [] → b.cplHeld < 64 → a + 128 ≤ 2 ^ 64 → payload.length ≤ 112 →
    let u := complete s m h op st payload
    u.hostMem.read a 128 = e.bytes s.now ∧ (∀ x, x < a ∨ a + 128 ≤ x → u.hostMem.byte x = s.hostMem.byte x) ∧ u.mem = s.mem ∧
    u.box m = { b with current := none, waiting := none, stale := false, cplProd := b.cplProd + 1 } ∧
    (∀ n, n ≠ m → u.box n = s.box n) ∧ u.evt.status = s.evt.status ||| (1#32 <<< m.toNat) ∧ u.tiles = s.tiles ∧ u.parts = s.parts ∧
    u.jobs = s.jobs ∧ u.objects = s.objects ∧ u.images = s.images ∧ u.flt = s.flt ∧ u.time = s.time

/-- COMMAND_FETCH on a mailbox that may fetch takes the 128 bytes at the consumer's place and advances cmd_cons by 1; where the access fails the mailbox halts with halt_cause 2. COMMAND_TIMEOUT on a command in hand that does not wait and has reached its expiry completes it with TIMEOUT. UNDEFINED_OPCODE with a command in hand completes with BAD_OPCODE and no payload. -/
def Obligations.FetchAndTimeout : Prop :=
  (∀ (s : State) (m : MbxId), mayFetch s m = true →
    let b := s.box m
    let a := b.ringCmd.toNat + 128 * (b.cmdCons.toNat % 64)
    (∀ u bs, busRead s b.path1 a 128 = (u, some bs) → exec (.commandFetch m) s = .next
      (u.setBox m { b with current := some bs, cmdCons := b.cmdCons + 1, fetchTick := u.time.ticks })) ∧
    (∀ u, busRead s b.path1 a 128 = (u, none) → exec (.commandFetch m) s = .next (haltBox u m 2))) ∧
  (∀ (s : State) (m : MbxId) (bs : List Byte), (s.box m).current = some bs → (s.box m).waiting = none →
    fld bs 8 4 ≠ 0 → (s.box m).fetchTick + 125 * fld bs 8 4 ≤ s.time.ticks → exec (.commandTimeout m) s = .next (complete s m
      { tag := BitVec.ofNat 16 (fld bs 2 2), length := fld bs 4 2, timeout := fld bs 8 4 } (fld bs 0 2) 0x06 [])) ∧
  (∀ (s : State) (m : MbxId) (h : CmdHdr) (op : BitVec 16), inHand s m = true → opcodes.contains op.toNat = false →
    exec (.undefinedOpcode m h op) s = .next (complete s m h op.toNat 0x02 []))

/-- Each query, with its command in hand and well formed, its buffer long enough and writable: IDENTIFY and GET_LIMITS complete with OK and their reply; PLINTH_READ, RELIEF_LIST, JOB_QUERY, FABRIC_STATUS, FAULT_STATUS, CAST_FETCH of a Cast that is kept, PATINA_READ and ATTEST write their bytes into the buffer and complete with OK and their payload. -/
def Obligations.QueryCommands : Prop :=
  ∀ (s : State) (m : MbxId) (h : CmdHdr) (b : Bref),
    (Commanded s m h 0x01 0 → exec (.identify m h) s = .next (complete s m h 0x01 0 (identifyReply s m))) ∧
    (Commanded s m h 0x02 0 → exec (.getLimits m h) s = .next (complete s m h 0x02 0 (limitsReply s))) ∧
    (∀ off t, Commanded s m h 0x10 0x20 → off ≤ s.boot.plinth.bytes.length →
      let bs := (s.boot.plinth.bytes.drop off).take b.len
      Writable s m b bs t → exec (.plinthRead m h off b) s = .next
        (complete t m h 0x10 0 (leBytes 4 s.boot.plinth.bytes.length ++ leBytes 4 bs.length))) ∧
    (∀ t, Commanded s m h 0x11 0x10 → Writable s m b (s.boot.plinth.reliefs.map Relief.entry).flatten t →
      exec (.reliefList m h b) s = .next (complete t m h 0x11 0 (leBytes 1 s.boot.plinth.reliefs.length ++
        leBytes 1 s.boot.activeRelief ++ leBytes 1 s.boot.plinth.defaultRelief))) ∧
    (∀ job j t, Commanded s m h 0x42 0x20 → s.job? job = some j → mayUse m j.owner = true → Writable s m b (queryBytes job j) t →
      exec (.jobQuery m h job b) s = .next (complete t m h 0x42 0 (leBytes 4 208))) ∧
    (∀ t, Commanded s m h 0x80 0x10 → 20992 ≤ b.len → Writable s m b (fabricBytes s) t → exec (.fabricStatus m h b) s = .next
      (complete t m h 0x80 0 (leBytes 2 (if t.fab.joined then t.fab.node else 0xFFFF) ++ leBytes 2 t.fab.registrarNode ++
        leBytes 2 t.fab.nodes ++ leBytes 1 ((List.range 6).filter (fun p => (fport t p).state == 3)).length))) ∧
    (∀ t, Commanded s m h 0x91 0x10 → Writable s m b (faultBytes s) t → exec (.faultStatus m h b) s = .next (complete t m h 0x91 0
      (((List.range 4).map (fun v => leBytes 4 (t.flt.severities.count v))).flatten ++ leBytes 8 t.flt.lastFatal))) ∧
    (∀ p w c t, Commanded s m h 0x92 0x20 → p ≤ 7 → w ≤ 1 → (s.part p).casts[w]? = some c → Writable s m b c.bytes t →
      exec (.castFetch m h p w b) s = .next (complete t m h 0x92 0 (leBytes 4 c.bytes.length))) ∧
    (∀ sec off all t, Commanded s m h 0xA0 0x20 → patinaSection s sec = some all → Writable s m b ((all.drop off).take b.len) t →
      exec (.patinaRead m h sec off b) s = .next (complete t m h 0xA0 0 (leBytes 4 ((all.drop off).take b.len).length))) ∧
    (∀ nonce t, Commanded s m h 0xB2 0x30 → s.flt.pending = none → s.boot.identityOk = true →
      (288 + 36 * s.images.length + 15) / 16 * 16 + 8192 ≤ b.len →
      Writable s m b (padUp 16 (quote s nonce) ++ Config.certChain.take 8192) t →
      exec (.attest m h nonce b) s = .next (complete t m h 0xB2 0 (leBytes 4 (288 + 36 * s.images.length))))

/-- Each object command, with its command in hand and well formed and the conditions of its rule met: OBJ_CREATE adds an object of the length that is not placed and replies with its ID; OBJ_PLACE at a free offset of T1 or T2 moves the object there and replies with its address, with any other offset asked for it completes NO_RESOURCE; in T3 it asks the node for a reservation, with the length, the place and the boot count, and waits, and on this node itself it is granted at once or completes NO_RESOURCE; OBJ_WRITE stores the buffer's bytes in an object whose rules for bound objects, where it is bound, accept them, and they arrive; OBJ_READ writes the bytes read into the buffer; OBJ_FREE removes an object that is not in use and releases its reservation; OBJ_DELTA applies a list that fits its bank, or waits while the bank is in use. A failed read or store completes FAULTED. -/
def Obligations.ObjectCommands : Prop :=
  ∀ (s : State) (m : MbxId) (h : CmdHdr) (oid : Nat) (o : Obj), s.obj? oid = some o → mayUse m o.owner = true → oid < 0xFFFF0000 →
    (∀ (len : Nat) (flags : BitVec 16), Commanded s m h 0x20 0x0A → len % 256 = 0 → 256 ≤ len → len ≤ 2 ^ 34 → flags.toNat ≤ 1 →
      s.objects.length < 16384 → exec (.objCreate m h len flags) s = .next (complete (s.fresh.2.setObj (newObjectId s)
        (Obj.fresh len m.toNat (flags.getLsbD 0))) m h 0x20 0 (leBytes 4 (newObjectId s)))) ∧
    (∀ (tier p : Nat) (off : Word64), Commanded s m h 0x21 0x10 → tier = 1 ∨ tier = 2 → p ≤ 7 → o.sealed = false →
      inUse s oid = false → off.toNat % 256 = 0 → off.toNat + o.length ≤ tierSize s tier p → (s.part p).state = 0 →
      let new : Placement := { tier := tier, partition := p, node := 0, offset := off.toNat, rid := 0, base := 0 }
      (rangeFreeFor s oid tier p off.toNat o.length = false →
        exec (.objPlace m h oid tier p 0 off) s = .next (complete s m h 0x21 0x04 [])) ∧
      (rangeFreeFor s oid tier p off.toNat o.length = true → ∀ u,
        (movePlace s.fresh.2 oid o new = (u, true) →
          exec (.objPlace m h oid tier p 0 off) s = .next (complete u m h 0x21 0 (leBytes 8 new.addr))) ∧
        (movePlace s.fresh.2 oid o new = (u, false) → exec (.objPlace m h oid tier p 0 off) s = .next (complete u m h 0x21 0x07 [])))) ∧
    (∀ (pb node : Nat) (off : Word64), Commanded s m h 0x21 0x10 → pb < 8 ∨ (128 ≤ pb ∧ pb < 136) → node ≤ 1023 → o.sealed = false →
      inUse s oid = false → off.toNat % 256 = 0 → s.fab.heldRes.length < 256 →
      let q := s.fab.nextSeq
      let u := { s with fab := { s.fab with nextSeq := (q + 1) % 2 ^ 32
                                            mgmt := s.fab.mgmt ++ [{ seq := q, kind := 0x20, node := node, mbx := m, object := oid }] } }
      (node ≠ s.fab.node → exec (.objPlace m h oid 3 pb node off) s = .next (await (sendMgmt u 0x20 0 node 0 q
        (leBytes 8 o.length ++ leBytes 1 pb ++ leBytes 3 0 ++ leBytes 4 s.boot.bootCount ++ leBytes 8 off.toNat)) m h 0x21 (.place oid q))) ∧
      (node = s.fab.node → let tier := if 128 ≤ pb then 1 else 2
        (grantAt s o.length tier (pb % 8) off.toNat = none →
          exec (.objPlace m h oid 3 pb node off) s = .next (complete s m h 0x21 0x04 [])) ∧
        (∀ at_, grantAt s o.length tier (pb % 8) off.toNat = some at_ →
          let g := grantRange s.fresh.2 node o.length s.boot.bootCount tier (pb % 8) at_
          exec (.objPlace m h oid 3 pb node off) s = .next (placeGranted g.1 m h oid node g.2.id g.2.base)))) ∧
    (∀ (off : Nat) (b : Bref) (bs : List Byte) (r u : State), Commanded s m h 0x22 0x20 → o.place.isSome = true →
      off + b.len ≤ o.length → o.sealed = false → bufRead s m b b.len = (r, some bs) →
      (isBound r oid = true → boundCheck r oid (patched r o off bs) = .accept) →
      (storeObj r oid o off bs = (u, true) → exec (.objWrite m h oid off b) s = .next (complete (arrive u oid) m h 0x22 0 [])) ∧
      (storeObj r oid o off bs = (u, false) → exec (.objWrite m h oid off b) s = .next (complete u m h 0x22 0x07 []))) ∧
    (∀ (off : Nat) (b : Bref) (p : Placement) (bs : List Byte) (u t : State), Commanded s m h 0x23 0x20 → o.place = some p →
      off + b.len ≤ o.length → o.lost = false →
      (firmwareRead s p off b.len = (u, some bs) → Writable u m b bs t →
        exec (.objRead m h oid off b) s = .next (complete t m h 0x23 0 [])) ∧
      (firmwareRead s p off b.len = (u, none) → exec (.objRead m h oid off b) s = .next (complete u m h 0x23 0x07 []))) ∧
    (Commanded s m h 0x24 4 → isBound s oid = false → o.sealed = false → holdsData s oid = false →
      let u := { s with objects := s.objects.erase oid, kv := { s.kv with cleared := s.kv.cleared.filter (fun k => k != oid) } }
      exec (.objFree m h oid) s = .next (complete (match o.place with
        | some p => releaseRes u p
        | none => u) m h 0x24 0 [])) ∧
    (∀ (b : Bref) (head bs : List Byte) (r u : State), Commanded s m h 0x25 0x20 → o.place.isSome = true →
      objBytes s o 0 4 = [0x53, 0x51, 0x50, 0x53] → 16 ≤ b.len → bufRead s m b 16 = (r, some head) →
      let n := fld head 8 4
      0 < n → n ≤ 32768 → fld head 0xC 4 = 0 → 16 + 8 * n ≤ b.len → bufRead r m b (16 + 8 * n) = (u, some bs) →
      deltaStatus u oid (fld bs 0 8) (deltaEntries bs n) = 0 →
      exec (.objDelta m h oid b) s = .next (if inUse u oid then await u m h 0x25 (.delta oid (fld bs 0 8) (deltaEntries bs n))
        else complete (applyDelta u oid (deltaEntries bs n)) m h 0x25 0 (leBytes 4 n)))

/-- Each command, in hand and well formed, with the conditions of its rule met: IMAGE_LOAD of a placed object whose header holds is refused with DENIED where its signature fails, with BAD_PARAM where its body breaks a rule, with BUSY or NO_RESOURCE where the number is taken or 256 images are loaded, and else admits the image and seals the object; IMAGE_UNLOAD of an image that no job uses removes it; JOB_SUBMIT with inline bindings or with a binding list in the buffer first wakes the module from DROWSE and submits the job: one whose bindings and contents hold, where fewer than 512 jobs live, enters the table; Held or Prompt it is granted the clusters found for it within the power cap, Held with a shadow both sets and its twins, Prompt without room or clusters it pre-empts the Ambient jobs chosen and waits, Ambient with its save object placed it joins the queue; JOB_CANCEL in mode 0 waits for the job's end and in mode 1 ends it; JOB_FEED queues a trigger, or completes NO_RESOURCE where 16 are queued, queues every stream row where each has status OK, and hands sequence rows to their checks; JOB_SET_FALLBACK loads the new fallback, or leaves it until the invocation in progress has ended. -/
def Obligations.ImageAndJobCommands : Prop :=
  (∀ (s : State) (m : MbxId) (h : CmdHdr) (oid : Nat) (o : Obj), Commanded s m h 0x30 4 → s.obj? oid = some o →
    mayUse m o.owner = true → o.place.isSome = true → imageHeadOk (objBytes s o 0 (min 0x80 o.length)) o.length = true →
    let b := objBytes s o 0 (objWord s o 0x1C)
    let r := checkSigned (objTouch s o 0 b.length) (signedBy b (imageKey s)) 3 (blockKeyId b)
    exec (.imageLoad m h oid) s = .next (
      if r.2 = false then complete r.1 m h 0x30 0x05 []
      else if imageBodyOk b = false then complete r.1 m h 0x30 0x03 []
      else if (r.1.image? (fld b 8 2)).isSome = true then complete r.1 m h 0x30 0x01 []
      else if 256 ≤ r.1.images.length then complete r.1 m h 0x30 0x04 []
      else complete (sealObj { r.1 with images := r.1.images.put (fld b 8 2) (Image.ofBytes b oid m.toNat) } oid true)
        m h 0x30 0 (leBytes 2 (fld b 8 2) ++ leBytes 2 (Image.ofBytes b oid m.toNat).version))) ∧
  (∀ (s : State) (m : MbxId) (h : CmdHdr) (id : Nat) (im : Image), Commanded s m h 0x31 2 → s.image? id = some im →
    mayUse m im.owner = true → imageUsed s id = false →
    exec (.imageUnload m h id) s = .next (complete (sealObj { s with images := s.images.erase id } im.object false) m h 0x31 0 [])) ∧
  (∀ (s : State) (m : MbxId) (h : CmdHdr) (id cls period count : Nat) (fl : BitVec 8) (bd : List BindEntry) (b : Bref),
    Commanded s m h 0x40 0x70 → fl = 0 ∨ fl = 1 → 1 ≤ count → count ≤ 16 → bd.length = count →
    zeros (slice ((s.box m).current.getD []) 16 112) (0x10 + 6 * count) (96 - 6 * count) = true →
    exec (.jobSubmit m h id cls fl period count bd b) s = .next (submitJob (wake s) m h id cls (fl.getLsbD 0) period bd)) ∧
  (∀ (s : State) (m : MbxId) (h : CmdHdr) (id cls period : Nat) (shadow : Bool) (bd : List BindEntry) (im : Image),
    s.image? id = some im → mayUse m im.owner = true →
    let j := newJob id cls period m.toNat bd im
    let n := j.wantsClusters + j.wantsFallback
    let run := fun (cs fb : List Nat) => grantTo (enterJob s j im).1 (enterJob s j im).2 cs fb 1
    submitOk s m im j = true → contentsOk s im j = .accept → jobCount s < 512 →
    (cls = 0 ∨ cls = 1 → shadow = false → roomFor s (leaseCap s) n = true → ∀ cs fb,
      place s im.onePartition j.wantsClusters j.wantsFallback (eligible s cls) none = some (cs, fb) →
      submitJob s m h id cls shadow period bd = accept (run cs fb) m h (enterJob s j im).2) ∧
    (cls = 0 → shadow = true → im.shadowOk = true → roomFor s (leaseCap s) (2 * n) = true → ∀ cs fb cs2 fb2,
      place s true j.wantsClusters j.wantsFallback (eligible s 0) none = some (cs, fb) →
      writesIn s j im ((cs.head?.getD 0) / 8) = true →
      placeOne s j.wantsClusters j.wantsFallback (eligible s 0) (some ((cs.head?.getD 0) / 8)) = some (cs2, fb2) →
      twinsFit s (needTwins s j ((cs.head?.getD 0) / 8)) ((cs2.head?.getD 0) / 8) = true →
      submitJob s m h id cls shadow period bd = accept (noteCap (grantShadow (run cs fb) (enterJob s j im).2
        ((cs2.head?.getD 0) / 8) cs2 fb2 (needTwins s j ((cs.head?.getD 0) / 8)))) m h (enterJob s j im).2) ∧
    (cls = 1 → shadow = false →
      (roomFor s (leaseCap s) n = true → place s im.onePartition j.wantsClusters j.wantsFallback (eligible s 1) none = none) → ∀ ks,
      choosePreempt s im.onePartition j.wantsClusters j.wantsFallback = some ks →
      submitJob s m h id cls shadow period bd = await (preemptFirst { clearPools s j im with
        jobs := s.jobs.put (waitKey m) (j.epochs im s) } ks) m h 0x40 (.submit (waitKey m))) ∧
    (cls = 2 → shadow = false → saveBytes im ≤ 0x4000000 → ∀ t save,
      makeSave s m.toNat ((saveBytes im + 255) / 256 * 256) = some (t, save) →
      let e := enterJob t { j with saveObject := save, queuedSince := s.now } im
      submitJob s m h id cls shadow period bd = accept (grantQueue 64 e.1) m h e.2)) ∧
  (∀ (s r : State) (m : MbxId) (h : CmdHdr) (id cls period count : Nat) (fl : BitVec 8) (bd : List BindEntry) (b : Bref) (bs : List Byte),
    Commanded s m h 0x40 0x70 → fl = 2 ∨ fl = 3 → 1 ≤ count → count ≤ 256 →
    zeros (slice ((s.box m).current.getD []) 16 112) 0x1C 84 = true → 6 * count ≤ b.len → bufRead (wake s) m b (6 * count) = (r, some bs) →
    exec (.jobSubmit m h id cls fl period count bd b) s = .next
      (submitJob r m h id cls (fl.getLsbD 0) period (bindEntries bs count))) ∧
  (∀ (s : State) (m : MbxId) (h : CmdHdr) (jid : Nat) (j : Job), s.job? jid = some j → mayUse m j.owner = true →
    (Commanded s m h 0x41 3 → j.invocation = none →
      exec (.jobCancel m h jid 0) s = .next (endJob (await s m h 0x41 (.cancel jid)) jid)) ∧
    (Commanded s m h 0x41 3 → j.invocation.isSome = true → exec (.jobCancel m h jid 0) s = .next
      ((await s m h 0x41 (.cancel jid)).setJob jid { j with cancelled := true, lease := if j.lease = 3 then 8 else j.lease })) ∧
    (Commanded s m h 0x41 3 → exec (.jobCancel m h jid 1) s = .next
      (serveWaiting (complete (cancelNow (stopClusters s j.allClusters) jid) m h 0x41 0 []))) ∧
    (∀ (im : Image) (b : Bref), Commanded s m h 0x43 0x20 → s.image? j.image = some im → b.addr = 0 → b.len = 0 →
      zeros (slice ((s.box m).current.getD []) 16 112) 8 24 = true → j.period = 0 → rowFed im = false → 
      exec (.jobFeed m h jid 0 0 0 b) s = .next (if 16 ≤ j.triggers.length then complete s m h 0x43 0x04 []
        else acceptFeed (s.setJob jid { j with triggers := j.triggers ++ [j.nextFeed] }) m h jid 0)) ∧
    (∀ (im : Image) (n size : Nat) (b : Bref) (g : StreamGeo) (r : State) (bs : List Byte), Commanded s m h 0x43 0x20 →
      s.image? j.image = some im → jobStreamGeo s j = some g → 1 ≤ n → n ≤ 256 → size = g.rowBytes → n * size ≤ b.len →
      bufRead s m b (n * size) = (r, some bs) →
      let rows := (List.range n).map (fun k => slice bs (k * size) size)
      let ids := rows.map (fun x => fld x 0 4)
      let chunk := fun (k : Nat) => chunkOf (rows.getD k []) j.nextFeed m.toNat (b.addr + k * size) r.now
      (∀ x ∈ rows.zipIdx, rowStatus1 r m jid g x.1 (ids.take x.2) = 0) →
      exec (.jobFeed m h jid 1 n size b) s = .next (serveStreams (acceptFeed (forEach (List.range n) r (fun s k =>
        rowState1 (queueChunk s jid (ids.getD k 0) (chunk k)) (chunk k) 1 0)) m h jid n))) ∧
    (∀ (im : Image) (n size : Nat) (b : Bref), Commanded s m h 0x43 0x20 → s.image? j.image = some im →
      exec (.jobFeed m h jid 2 n size b) s = .next (feedSequences s m h jid j im n size b)) ∧
    (∀ (id : Nat) (im : Image), Commanded s m h 0x44 4 → s.image? id = some im → mayUse m im.owner = true → j.cls ≠ 2 →
      j.fbClusters ≠ [] → im.fallbackClusters ≤ j.fbClusters.length → im.bindings.all (fun d => (j.slotObj d.slot).isSome) = true →
      fallbackRuns j = false → exec (.jobSetFallback m h jid id) s = .next (
        if j.invocation.any Invocation.begun = true then complete (s.setJob jid { j with nextFallback := some id }) m h 0x44 0 []
        else complete (loadImage (loadImage (s.setJob jid { j with fallback := id, nextFallback := none }) (j.roleClusters .fallback) im)
          (j.roleClusters .shadowFallback) im) m h 0x44 0 [])))

/-- Each stream command, in hand and well formed, on a job of the mailbox with 1 to 64 IDs in its buffer: STREAM_OPEN, STREAM_RESET_ROWS and STREAM_CLOSE act on each ID in list order and complete with one status per ID; STREAM_PARK asks each stream to park and completes with its statuses, or waits for the streams whose chunk runs, noting whether a swap has begun. KV_PREFIX_PIN pins a prefix that passes its checks, and KV_RELEASE releases a sequence; while a call appends to the sequence both wait. KV_RELEASE releases a pinned prefix. -/
def Obligations.StreamAndKvCommands : Prop :=
  (∀ (s r : State) (m : MbxId) (h : CmdHdr) (jid n : Nat) (b : Bref) (j : Job) (bs : List Byte), s.job? jid = some j →
    mayUse m j.owner = true → 1 ≤ n → n ≤ 64 → 4 * n ≤ b.len → bufRead s m b (4 * n) = (r, some bs) →
    let ids := (List.range n).map (fun i => fld bs (4 * i) 4)
    (Commanded s m h 0x50 0x20 → exec (.streamOpen m h jid n b) s = .next
      (eachStream r m h 0x50 ids (fun s id => openStream s jid id))) ∧
    (Commanded s m h 0x51 0x20 → exec (.streamResetRows m h jid n b) s = .next
      (eachStream r m h 0x51 ids (fun s id => resetStream s m jid id))) ∧
    (Commanded s m h 0x53 0x20 → exec (.streamClose m h jid n b) s = .next
      (eachStream r m h 0x53 ids (fun s id => closeStream s m jid id))) ∧
    (Commanded s m h 0x52 0x20 →
      let u := forEach ids r (fun s id => parkStream s m jid id)
      exec (.streamPark m h jid n b) s = .next (if parkWaits u ids then
          serveStreams (await u m h 0x52 (.park jid ids (ids.any (fun id => match findStream r id with
            | some (_, x) => parkStatus r m jid id == 0 && x.state == 0 && !x.selected
            | none => false))))
        else serveStreams (complete u m h 0x52 0 (ids.map (fun id => BitVec.ofNat 8 (parkStatus r m jid id))))))) ∧
  (∀ (s : State) (m : MbxId) (h : CmdHdr) (seq count key : Nat) (q : Sequence), s.kv.sequences.get? seq = some q →
    mayUse m q.owner = true →
    (Commanded s m h 0x60 0x0C → pinCheck s seq count key = 0 → exec (.kvPrefixPin m h seq count key) s = .next
      (if appending s seq then await s m h 0x60 (.pin seq count key)
       else complete (pinApply s m.toNat seq count key) m h 0x60 0 [])) ∧
    (Commanded s m h 0x61 8 → exec (.kvRelease m h 0 seq) s = .next
      (if appending s seq then await s m h 0x61 (.release 0 seq) else complete (releaseSequence s seq) m h 0x61 0 []))) ∧
  (∀ (s : State) (m : MbxId) (h : CmdHdr) (key : Nat) (p : PinnedPfx), s.kv.pinned.get? key = some p → mayUse m p.owner = true →
    Commanded s m h 0x61 8 → exec (.kvRelease m h 1 key) s = .next (complete (releasePrefix s key) m h 0x61 0 []))

/-- Each command of mailbox 0, in hand and well formed, with the conditions of its rule met: TIME_CONFIG sets the fields its mask names; TIME_FORCE waits for the next tick; CALENDAR_SET sets the calendar; FABRIC_JOIN_POLICY sets the policy, with an empty list or with the identities of its buffer; FAULT_INJECT_ARM opens a window of the milliseconds asked, where injection is permitted (the test-mode setting is 1); PARTITION_RESET of a partition in service or, by the full path, of a failed one begins the reset, by the full path where the resets escalate, and waits, or completes FAULTED where the partition is taken down; RELIEF_APPLY of a Relief that does not check is DENIED, of one whose ways or reservations are held BUSY, and else writes back the ways it takes and switches to it, or completes FAULTED where a write-back fails; FW_STAGE of an image whose layout holds is refused with DENIED where a signature fails or its version lies below the floor (detector 0x71), and else stages it; FW_COMMIT commits a staged one; POWER_MODE to the present state without a cap replies with the cap in force, with a cap sets it, waits for the pre-empted jobs to be saved, or is BUSY where the Held and Prompt leases exceed it, and to a state that may be entered sets its cap and enters it. -/
def Obligations.AdministrationCommands : Prop :=
  ∀ (s : State) (h : CmdHdr),
    (∀ (mask jump incr hold : Nat) (p0 p1 : PtpPortCfg), Commanded s 0 h 0x70 0x24 → mask < 32 →
      let has := fun (k : Nat) => mask / 2 ^ k % 2 = 1
      let c0 := if has 2 then p0 else s.time.port0.cfg
      let c1 := if has 3 then p1 else s.time.port1.cfg
      (has 0 → incrOk incr = true) → (has 1 → 1 ≤ jump ∧ jump ≤ 1000000) → (has 2 → portCfgOk p0 = true) →
      (has 3 → portCfgOk p1 = true) → (has 4 → 1 ≤ hold) → portCodesOk p0 = true → portCodesOk p1 = true → portsAgree c0 c1 = true →
      exec (.timeConfig 0 h mask jump incr p0 p1 hold) s = .next (complete { s with
        time := followPorts { s.time with incr := if has 0 then BitVec.ofNat 40 incr else s.time.incr
                                          jumpLimit := if has 1 then jump else s.time.jumpLimit
                                          holdoverLimit := if has 4 then hold else s.time.holdoverLimit
                                          port0 := s.time.port0.configure c0, port1 := s.time.port1.configure c1 }
        boot := if has 1 then { s.boot with runtime := s.boot.runtime.put 0x0060 jump } else s.boot } 0 h 0x70 0 [])) ∧
    (∀ t : Word64, Commanded s 0 h 0x71 8 → setting s 0x0081 0 = 1 → s.jobs.all (fun e => !forbidsForce s e.2) = true →
      exec (.timeForce 0 h t) s = .next (await { s with time := { s.time with force := some (t.toNat, 0, h) } } 0 h 0x71 .force)) ∧
    (∀ sec ns : Nat, Commanded s 0 h 0xA1 0x0C → ns < 1000000000 → sec < 2 ^ 64 → exec (.calendarSet 0 h sec ns) s = .next
      (complete (logRecord { s with time := { s.time with calSec := sec, calNs := calStep ns, calLost := false } } 0x06 sec) 0 h 0xA1 0 [])) ∧
    (∀ (policy : Nat) (b : Bref), Commanded s 0 h 0x81 0x20 → policy ≤ 2 →
      exec (.fabricJoinPolicy 0 h policy 0 b) s = .next (complete (setPolicy s policy []) 0 h 0x81 0 []) ∧
      ∀ (n : Nat) (r : State) (bs : List Byte), 1 ≤ n → n ≤ 64 → 16 * n ≤ b.len → bufRead s 0 b (16 * n) = (r, some bs) →
        exec (.fabricJoinPolicy 0 h policy n b) s = .next
          (complete (setPolicy r policy ((List.range n).map (fun i => fld bs (16 * i) 16))) 0 h 0x81 0 [])) ∧
    (∀ ms : Nat, Commanded s 0 h 0x90 4 → 1 ≤ ms → ms ≤ 3600000 → setting s 0x0080 0 = 1 →
      let til := BitVec.ofNat 64 (s.now + 1000000 * ms)
      exec (.faultInjectArm 0 h ms) s = .next (complete { s with flt := { s.flt with armed := true, armedUntil := til } } 0 h 0x90 0
        (leBytes 8 til.toNat))) ∧
    (∀ p path : Nat, Commanded s 0 h 0x93 2 → p ≤ 7 → path ≤ 1 → (s.part p).state = 0 ∨ ((s.part p).state = 3 ∧ path = 1) →
      let u := s.setPart p { s.part p with resetMbx := some (0, h), railOn := true }
      let into := if (u.part p).state = 0 then escalation u p else .none
      (into = .none → ((beginReset u p path 0 0 0).part p).state ≠ 3 →
        exec (.partitionReset 0 h p path) s = .next (await (beginReset u p path 0 0 0) 0 h 0x93 (.reset p))) ∧
      (into = .toFull → ((beginReset u p 1 0 0 0).part p).state ≠ 3 →
        exec (.partitionReset 0 h p path) s = .next (await (beginReset u p 1 0 0 0) 0 h 0x93 (.reset p))) ∧
      (into = .down → ((takeDown u p).part p).state = 3 → exec (.partitionReset 0 h p path) s = .next
        (takeDown u p))) ∧
    (∀ (id : Nat) (u : State), Commanded s 0 h 0x12 2 →
      (checkRelief s id = (u, none) → exec (.reliefApply 0 h id) s = .next (complete u 0 h 0x12 0x05 [])) ∧
      (∀ r : Relief, checkRelief s id = (u, some r) →
        (reliefBusy u id = true → exec (.reliefApply 0 h id) s = .next (complete u 0 h 0x12 0x01 [])) ∧
        (reliefBusy u id = false →
          let t := (List.range 8).foldl (fun (acc : State × Bool) p =>
            if acc.2 then takeWays acc.1 p (newByte u id 0x0020 p) else acc) (u, true)
          exec (.reliefApply 0 h id) s = .next (if t.2 then complete (policyToPorts (switchRelief t.1 r)) 0 h 0x12 0
            (leBytes 2 u.boot.activeRelief) else complete t.1 0 h 0x12 0x07 [])))) ∧
    (∀ (target : Nat) (b : Bref) (all : List Byte) (w : State), Commanded s 0 h 0xB0 0x20 → target ≤ 1 →
      bufRead s 0 b b.len = (w, some all) → w.flt.pending = none →
      let bs := all.take (fld all 0xC 4)
      imageLayout target bs = true →
      let r := stageSigned w target bs
      exec (.fwStage 0 h target b) s = .next (
        if r.2 = false then complete r.1 0 h 0xB0 0x05 []
        else if imageVersion bs < floorOf r.1.boot target then complete (raiseAs r.1 1 0 (mkEvent 0x71 0xFF 0 0 0 0)) 0 h 0xB0 0x05 []
        else complete (stageImage r.1 target bs) 0 h 0xB0 0 [])) ∧
    (∀ (target : Nat) (u : State), Commanded s 0 h 0xB1 1 → target ≤ 1 →
      let k := 1 - inUseSlot s.boot target
      let x := slotOf s.boot target k
      x.state = 1 → checkSigned s (x.verified && reliefsHold target (slotImage s.boot target k)) target
        (blockKeyId (slotImage s.boot target k)) = (u, true) →
      exec (.fwCommit 0 h target) s = .next (complete (logRecord (writeRecord u target k
        { x with state := 2, sequence := ((slotOf u.boot target (1 - k)).sequence + 1) % 2 ^ 32 }) 0x07
        (slotFigures target k x.version)) 0 h 0xB1 0 [])) ∧
    (∀ st : Nat, Commanded s 0 h 0xC0 4 → st = s.power.state → st ≤ 3 → exec (.powerMode 0 h st 0) s = .next
      (complete s 0 h 0xC0 0 (leBytes 2 (capInForce s)))) ∧
    (∀ st cap : Nat, Commanded s 0 h 0xC0 4 → st ≤ 3 → st ≠ s.power.state → [0, 60, 120, 180, 250].contains cap = true →
      mayEnter s st = true → exec (.powerMode 0 h st cap) s = .next
        (setCap s 0 h cap (fun u => enterState (complete u 0 h 0xC0 0 (leBytes 2 (capInForce u))) st))) ∧
    (∀ cap : Nat, Commanded s 0 h 0xC0 4 → s.power.state ≤ 3 → [60, 120, 180, 250].contains cap = true →
      exec (.powerMode 0 h s.power.state cap) s = .next (
        if budgetOf cap < firmLeased s then complete s 0 h 0xC0 0x01 []
        else if leasedCount s ≤ budgetOf cap then
          let u := grantQueue 64 (noteCap { s with boot := { s.boot with runtime := s.boot.runtime.put 0x0050 cap } })
          complete u 0 h 0xC0 0 (leBytes 2 (capInForce u))
        else await (enforceCap s cap) 0 h 0xC0
          (.cap cap ((savingJobs (enforceCap s cap)).any (fun k => !(savingJobs s).contains k)))))

/-- On a path the host has (PCIe only where the module is an endpoint), from the owner's path: DBL_CMD with a value between the last doorbell and 64 commands past the consumer takes its place, and on mailbox 0 in STANDBY begins the wake; DBL_CPL with a value that frees no entry not yet written takes its place and lets held entries go; a value outside halts the mailbox with halt_cause 1 and detector 0x90. MAILBOX_ENABLE of a disabled mailbox takes the control word, clears halted, sets every index to 0 and reads both ring bases; of an enabled one it takes the control word alone. MAILBOX_DISABLE of an enabled one discards the held entries, counting each; of a disabled one it takes the control word alone. From another path each of them halts the mailbox with halt_cause 3 and raises detector 0x90. On a PCIe path of a root port nothing changes. -/
def Obligations.DoorbellsAndEnable : Prop :=
  (∀ (s : State) (path : Path) (m : MbxId) (v : Word), onPath s path = true → (s.box m).owner = path →
    let b := s.box m; let new := v.extractLsb' 0 16
    let on := { b with ctrl := ctrlTaken b m (v ||| 1#32) }
    let off := { b with ctrl := ctrlTaken b m (v &&& ~~~1#32) }
    ((new - b.cmdCons).toNat ≤ 64 → (b.dblCmd - b.cmdCons).toNat ≤ (new - b.cmdCons).toNat →
      exec (.dblCmd path m v) s = .next (if m = 0 ∧ s.power.state = 2 then
        { s.setBox m { b with dblCmd := new } with power := { s.power with waking := true } }
        else s.setBox m { b with dblCmd := new })) ∧
    ((64 < (new - b.cmdCons).toNat ∨ (new - b.cmdCons).toNat < (b.dblCmd - b.cmdCons).toNat) →
      exec (.dblCmd path m v) s = .next (raiseAs (haltBox s m 1) 1 0 (event90 false))) ∧
    ((new - b.dblCpl).toNat ≤ (b.cplProd - b.dblCpl).toNat →
      exec (.dblCpl path m v) s = .next (flushHeld 320 (s.setBox m { b with dblCpl := new }) m)) ∧
    ((b.cplProd - b.dblCpl).toNat < (new - b.dblCpl).toNat →
      exec (.dblCpl path m v) s = .next (raiseAs (haltBox s m 1) 1 0 (event90 false))) ∧
    (b.enabled = false → exec (.mailboxEnable path m v) s = .next (s.setBox m { on with
        halted := false, haltCause := 0, cmdCons := 0, cplProd := 0, dblCmd := 0, dblCpl := 0
        ringCmd := b.cmdBase, ringCpl := b.cplBase, stale := b.current.isSome }) ∧ on.ctrl.getLsbD 0 = true ∧
      exec (.mailboxDisable path m v) s = .next (s.setBox m off)) ∧
    (b.enabled = true → exec (.mailboxEnable path m v) s = .next (s.setBox m on) ∧
      exec (.mailboxDisable path m v) s = .next (disableBox (s.setBox m off) m) ∧ off.ctrl.getLsbD 0 = false)) ∧
  (∀ (s : State) (path : Path) (m : MbxId) (v : Word), onPath s path = true → (s.box m).owner ≠ path →
    let u := raiseAs (haltBox s m 3) 1 0 (event90 false)
    exec (.dblCmd path m v) s = .next u ∧ exec (.dblCpl path m v) s = .next u ∧ exec (.mailboxEnable path m v) s = .next u ∧
    exec (.mailboxDisable path m v) s = .next u) ∧
  (∀ (s : State) (path : Path) (m : MbxId) (v : Word), onPath s path = false →
    exec (.dblCmd path m v) s = .next s ∧ exec (.dblCpl path m v) s = .next s ∧ exec (.mailboxEnable path m v) s = .next s ∧
    exec (.mailboxDisable path m v) s = .next s)

/-- Disabling a mailbox leaves it with no held entry and with MBX_LOST increased by 1 for each entry that was held; nothing but that mailbox changes. -/
def Obligations.DisableDiscards : Prop :=
  ∀ (s : State) (m : MbxId), ((s.box m).lost.toNat + (s.box m).held.length < 2 ^ 32) →
    let u := disableBox s m
    u = s.setBox m (u.box m) ∧
    u.box m = { s.box m with held := [], lost := (s.box m).lost + BitVec.ofNat 32 (s.box m).held.length }

/-- On a path the host has, with no high word latched but of the time block: EVT_STATUS, FLT_STATUS from mailbox 0's path, TIM_STATUS and TSQ_STATUS clear the bits written 1 and keep every other bit; MBX_LOST, FLT_INJ_DONE and TSQ_DROPPED answer their count and then hold 0; TSQ_POP answers the oldest entry, removes it and latches its stamp, and answers 0 of an empty queue; from another path FLT_STATUS keeps its bits; TSQ_CTRL written 0 empties the queue. -/
def Obligations.ClearedBits : Prop :=
  ∀ (s : State) (path : Path) (v : Word), onPath s path = true → (∀ x ∈ s.highs, 0x4000 ≤ x.offset ∧ x.offset < 0x5000) →
    exec (.evtStatusClear path v) s = .next { s with evt := { s.evt with status := s.evt.status &&& ~~~v } } ∧
    exec (.fltStatusClear path v) s = .next (if path0 s = path then { s with flt := { s.flt with
      castNew := s.flt.castNew &&& ~~~(v.extractLsb' 8 8), fatal := s.flt.fatal && !v.getLsbD 2
      fault := s.flt.fault && !v.getLsbD 1, degrade := s.flt.degrade && !v.getLsbD 0 } } else s) ∧
    exec (.timStatusClear path v) s = .next { s with time := { s.time with
      jumpRefused := s.time.jumpRefused && !v.getLsbD 3, holdoverExceeded := s.time.holdoverExceeded && !v.getLsbD 2 } } ∧
    (∀ p : BitVec 1, exec (.tsqStatusClear path p v) s = .next
      (setTsq s p.toNat { tsqOf s p.toNat with overflow := (tsqOf s p.toNat).overflow && !v.getLsbD 8 })) ∧
    (∀ p : BitVec 1, exec (.tsqDisable path p) s = .next (setTsq s p.toNat { tsqOf s p.toNat with enable := false, entries := [] })) ∧
    (∀ m : MbxId, exec (.mbxLostRead path m) s = .next ((s.setBox m { s.box m with lost := 0 }).emit
      (.readValue (0x1018 + 0x40 * m.toNat) ((s.box m).lost.setWidth 64)))) ∧
    exec (.fltInjDoneRead path) s = .next ({ s with flt := { s.flt with injDone := 0 } }.emit
      (.readValue 0x6024 (s.flt.injDone.setWidth 64))) ∧
    (∀ p : BitVec 1, exec (.tsqDroppedRead path p) s = .next ((setTsq s p.toNat { tsqOf s p.toNat with dropped := 0 }).emit
      (.readValue (0x5018 + 0x40 * p.toNat) (BitVec.ofNat 64 ((tsqOf s p.toNat).dropped % 2 ^ 32))))) ∧
    (∀ p : BitVec 1, (∀ e es, (tsqOf s p.toNat).entries = e :: es → exec (.tsqPop path p) s = .next
        ((setTsq s p.toNat { tsqOf s p.toNat with entries := es, time := BitVec.ofNat 64 e.2 }).emit
          (.readValue (0x5008 + 0x40 * p.toNat) (BitVec.ofNat 64 (2 ^ 31 + e.1.toNat))))) ∧
      ((tsqOf s p.toNat).entries = [] → exec (.tsqPop path p) s = .next (s.emit (.readValue (0x5008 + 0x40 * p.toNat) 0))))

/-- On a path the host has. A write of the low word of a 64-bit register of the window is held for its path and changes no register; the high word then writes the whole register with the low word held: EVT_RING_BASE, TIM_INCR, TIM_ADJ and, from the owner's path, the two ring bases of a disabled mailbox. The read of a low word of a TIM_ register answers it and latches the high word as it stands then. TIM_INCR and TIM_ADJ written whole from mailbox 0's path on a time base that the host disciplines take effect for the next tick and as one correction, and otherwise only drop the word held. REGISTER_WRITE of EVT_MASK keeps its 19 bits, of EVT_RING_CTRL its 3, of EVT_RING_CONS its 16, and of EVT_RING_BASE what it is written down to 8 KiB; MBX_BAR2_BASE takes its 9 bits from PCIe alone. An access of another size or alignment raises detector 0x90 at INFO and reads as 0. -/
def Obligations.WindowWords : Prop :=
  ∀ (s : State) (path : Path), onPath s path = true →
    (∀ v : Word, ∀ off ∈ [0x3008#16, 0x4008#16, 0x4010#16],
      exec (.windowLowWordWrite path off v) s = .next (holdLow s path off.toNat v)) ∧
    (∀ lo hi : Word,
      let u := fun (off : Nat) => s.lows.filter (fun x => !(x.path == path && x.offset == off))
      exec (.windowHighWordWrite path 0x300C hi) (holdLow s path 0x3008 lo) = .next { s with
        lows := u 0x3008, evt := { s.evt with ringBase := (hi ++ lo) &&& ~~~0x1FFF#64 } } ∧
      (path0 s = path → s.time.hostDisciplined = true →
        (incrOk ((hi ++ lo).toNat % 2 ^ 40) = true → exec (.windowHighWordWrite path 0x400C hi) (holdLow s path 0x4008 lo) = .next { s with
          lows := u 0x4008, time := { s.time with incrNext := some ((hi ++ lo).setWidth 40) } }) ∧
        exec (.windowHighWordWrite path 0x4014 hi) (holdLow s path 0x4010 lo) = .next (requestCorrection { s with
          lows := u 0x4010, time := { s.time with adj := hi ++ lo } } 1 (hi ++ lo).toInt).1) ∧
      (∀ m : MbxId, (s.box m).owner = path →
        let at_ := 0x1008 + 0x40 * m.toNat
        exec (.windowLowWordWrite path (BitVec.ofNat 16 at_) lo) s = .next (holdLow s path at_ lo) ∧
        ((s.box m).enabled = false →
          exec (.windowHighWordWrite path (BitVec.ofNat 16 (at_ + 4)) hi) (holdLow s path at_ lo) = .next ({ s with
            lows := u at_ }.setBox m { s.box m with cmdBase := (hi ++ lo) &&& ~~~0x1FFF#64 }) ∧
          exec (.windowHighWordWrite path (BitVec.ofNat 16 (at_ + 12)) hi) (holdLow s path (at_ + 8) lo) = .next ({ s with
            lows := u (at_ + 8) }.setBox m { s.box m with cplBase := (hi ++ lo) &&& ~~~0x1FFF#64 })))) ∧
    (∀ off : BitVec 16, timLow off.toNat = true → s.highs = [] → let u := refresh s off.toNat
      exec (.timLowWordRead path off) s = .next ({ u with
        highs := [{ path := path, offset := off.toNat + 4, value := peek u (off.toNat + 4) }] }.emit
        (.readValue off.toNat ((peek u off.toNat).setWidth 64)))) ∧
    (∀ v : Word64, let mine := path0 s = path ∧ s.time.hostDisciplined = true
      (mine → incrOk (v.toNat % 2 ^ 40) = true → exec (.timIncrWrite path v) s = .next
        { dropLow s 0x4008 with time := { s.time with incrNext := some (v.setWidth 40) } }) ∧
      (mine → exec (.timAdjWrite path v) s = .next (requestCorrection { dropLow s 0x4010 with time := { s.time with adj := v } } 1 v.toInt).1) ∧
      (¬mine → exec (.timIncrWrite path v) s = .next (dropLow s 0x4008) ∧ exec (.timAdjWrite path v) s = .next (dropLow s 0x4010))) ∧
    (∀ v : Word64, let w := v.setWidth 32
      exec (.registerWrite path 0x3004 4 v) s = .next { s with evt := { s.evt with mask := w &&& 0x7FFFF#32 } } ∧
      exec (.registerWrite path 0x3010 4 v) s = .next { s with evt := { s.evt with ringCtrl := w &&& 0x31#32 } } ∧
      exec (.registerWrite path 0x3018 4 v) s = .next { s with evt := { s.evt with cons := v.setWidth 16 } } ∧
      exec (.registerWrite path 0x3008 8 v) s = .next
        { dropLow s 0x3008 with evt := { s.evt with ringBase := v &&& ~~~0x1FFF#64 } } ∧
      exec (.registerWrite path 0x1400 4 v) s = .next (if path = .pcie then { s with bar2Base := w &&& 0x1FF#32 } else s)) ∧
    (∀ (off : BitVec 16) (size : Nat), aligned off.toNat size = false →
      exec (.badSizeAccess path off size true) s = .next (raiseAs s 0 0 (event90 true)) ∧
      exec (.badSizeAccess path off size false) s = .next ((raiseAs s 0 0 (event90 true)).emit (.readValue off.toNat 0)))

/-- A write of FLT_INJ_CTRL from mailbox 0's path while injection is armed, with a count above 0 and a valid target and parameter, leaves that many occurrences pending, and for a detector that waits for no occurrence has them at once; a count of 0 is only stored; an invalid one is refused and leaves nothing pending (assumption 76). While injection is not armed, and from another path, the write changes nothing. At the end of its window nothing stays pending and FLT_ARMED_UNTIL reads 0. -/
def Obligations.InjectionRequests : Prop :=
  (∀ (s : State) (path : Path) (v : Word), onPath s path = true → path0 s = path →
    let n := v.extractLsb' 8 8
    let d := (s.flt.injTarget.extractLsb' 24 8).toNat
    (s.flt.armed = false → exec (.injectionRequest path v) s = .next s) ∧
    (s.flt.armed = true → n ≠ 0 → injectionOk { s with flt := { s.flt with injCount := n } } s.flt.injTarget s.flt.injParam = true →
      let u := { s with flt := { s.flt with injCount := n, injRefused := false
                                            pending := some { detector := d, target := s.flt.injTarget
                                                              param := s.flt.injParam, remaining := n.toNat } } }
      exec (.injectionRequest path v) s = .next (injectAll 256 u) ∧
      (d ∉ [0x06, 0x14, 0x22, 0x33, 0x67, 0x90] → injectAll 256 u = u)) ∧
    (s.flt.armed = true → n = 0 → exec (.injectionRequest path v) s = .next { s with flt := { s.flt with injCount := 0 } }) ∧
    (s.flt.armed = true → n ≠ 0 → injectionOk { s with flt := { s.flt with injCount := n } } s.flt.injTarget s.flt.injParam = false →
      exec (.injectionRequest path v) s = .next { s with flt := { s.flt with injCount := n, injRefused := true, pending := none } })) ∧
  (∀ (s : State) (path : Path) (v : Word), path0 s ≠ path → exec (.injectionRequest path v) s = .next s) ∧
  (∀ s : State, s.flt.armed = true → s.flt.armedUntil.toNat ≤ s.now →
    exec .injectionDisarm s = .next { s with flt := { s.flt with armed := false, armedUntil := 0, pending := none } })

/-- At a tick of the time base in ACTIVE or DROWSE the epochs cut off on the tick before freeze (log entry 157) and the stalled tiles are charged; then, with no force waiting, the time base steps, and with one it is forced. The step adds the increment in force and what is owed of a slew to the 96-bit sum of T and its fraction, counts one tick and takes a waiting increment for the next. Where no epoch is cut off and no force waits, the tick changes no register of a tile, no object, no memory and no register of the window but those of the time base. In STANDBY and KEEPER nothing changes. -/
def Obligations.TimeBaseSteps : Prop :=
  ∀ s : State,
    (timeRuns s = false → exec .timeBaseTick s = .next s) ∧
    (timeRuns s = true →
      let w := forEach (endTick s).tiles.keys (endTick s) (fun s t => chargeStall s (BitVec.ofNat 9 t))
      (w.time.force = none → exec .timeBaseTick s = .next { w with time := tickBase w.time }) ∧
      (∀ new m h, w.time.force = some (new, m, h) → exec .timeBaseTick s = .next (forceTime w new m h)) ∧
      (s.jobs.all (fun e => !(e.2.fuse.any (fun f => f.cutting))) = true → s.time.force = none →
        ∃ u, exec .timeBaseTick s = .next u ∧ u.time = tickBase s.time ∧ u.time.ticks = s.time.ticks + 1 ∧
          u.time.incr = s.time.incrNext.getD s.time.incr ∧ u.time.incrNext = none ∧
          u.time.t = (tickSum s.time).1 / 2 ^ 32 % 2 ^ 64 ∧ u.time.f = (tickSum s.time).1 % 2 ^ 32 ∧
          u.tiles = s.tiles ∧ u.objects = s.objects ∧ u.mem = s.mem ∧ u.hostMem = s.hostMem ∧ u.evt = s.evt ∧ u.flt = s.flt ∧
          u.mbx = s.mbx ∧ u.parts = s.parts ∧ u.out = s.out))

/-- On a port in SLAVE that hears its master: a one-step Sync measures the offset at once, a two-step one waits for its Follow_Up, and a Delay_Resp gives the mean path delay from the last Sync and the port's own Delay_Req. A master port answers a Delay_Req, a port with the peer mechanism answers a Pdelay_Req and measures the link from its responses. An Announce better than the port's master replaces it and decides both ports, a worse one changes nothing. Management messages are discarded. A port in INITIALIZING begins to listen; a master port sends Sync, the Follow_Up awaited and Announce, a slave port Delay_Req, a port with the peer mechanism Pdelay_Req. A master unheard for longer than 6 s is lost: a listening port becomes master, a slave port raises detector 0x42, and with no slave port left holdover begins. A stamp awaited for more than 1 ms is given up (the two limits pass on the tick after, log entry 157); the estimate of a holdover that passes its limit raises detector 0x43; while locked the calendar follows T. The formulas are those the model presumes from IEEE 1588. -/
def Obligations.PtpMessages : Prop :=
  (∀ (s : State) (p : BitVec 1) (sender dom : Nat) (rx org corr : Int), fromMaster s p sender dom = true →
    exec (.sync p sender dom rx org corr false) s = .next (takeSync s p rx org corr) ∧
    exec (.sync p sender dom rx org corr true) s = .next (setPport s p { pport s p with pendingSync := some (rx, corr) }) ∧
    (∀ x, (pport s p).pendingSync = some x → exec (.followUp p sender dom org corr) s = .next (takeSync s p x.1 org (x.2 + corr))) ∧
    (∀ t3, (pport s p).cfg.delay ≠ 1 → (pport s p).pendingDelay = some t3 → exec (.delayResp p sender dom rx corr) s = .next
      (setPport s p { pport s p with delay := ((pport s p).gap + (rx - t3 - corr)) / 2, pendingDelay := none })) ∧
    ((pport s p).pendingSync = none → exec (.followUp p sender dom org corr) s = .next s)) ∧
  (∀ (s : State) (p : BitVec 1) (sender dom : Nat) (rx y corr : Int), hears s p dom = true →
    ((pport s p).cfg.delay ≠ 1 → (pport s p).state = 6 → exec (.delayReq p sender dom rx) s = .next (s.emit (.ptp p.toNat 9 rx 0))) ∧
    ((pport s p).cfg.delay = 1 →
      exec (.pdelayReq p sender dom rx) s = .next (if (pport s p).cfg.step = 0 then (txStamp s).2.emit (.ptp p.toNat 3 rx (txStamp s).1)
        else ((txStamp s).2.emit (.ptp p.toNat 3 rx 0)).emit (.ptp p.toNat 0xA (txStamp s).1 0)) ∧
      (∀ t1, (pport s p).pendingPdelay = some (t1, none) →
        exec (.pdelayResp p sender dom rx y corr false) s = .next
          (setPport s p { pport s p with delay := (rx - t1 - corr) / 2, pendingPdelay := none }) ∧
        exec (.pdelayResp p sender dom rx y corr true) s = .next
          (setPport s p { pport s p with pendingPdelay := some (t1, some (rx, y - corr)) })) ∧
      (∀ t1 t4 t2, (pport s p).pendingPdelay = some (t1, some (t4, t2)) → exec (.pdelayRespFollowUp p sender dom y corr) s = .next
        (setPport s p { pport s p with delay := (t4 - t1 - (y - t2) - corr) / 2, pendingPdelay := none }))) ∧
    (∀ d : AnnounceData, d.sender ≠ Config.ptpIdentity → d.stepsRemoved < 255 → s.flt.pending = none →
      (∀ a, (pport s p).master = some a → a.sender = d.sender ∨ betterClock d a = true) →
      exec (.announce p dom d) s = .next
        (takeUtc (decidePorts (setPport s p { pport s p with master := some d, announceAt := s.now })) p d)) ∧
    (∀ (d a : AnnounceData), (pport s p).master = some a → a.sender ≠ d.sender → betterClock d a = false →
      exec (.announce p dom d) s = .next s)) ∧
  (∀ (s : State) (p : BitVec 1), timeRuns s = true → (pport s p).cfg.mode ≠ 0 →
    ((pport s p).state = 1 → ∀ k, exec (.ptpMessageSend p k) s = .next (setPport s p { pport s p with state := 4, announceAt := s.now })) ∧
    ((pport s p).state = 6 → exec (.ptpMessageSend p 0) s = .next (sendSync s p) ∧
      (∀ w, (pport s p).awaitingStamp = some w → exec (.ptpMessageSend p 8) s = .next
        ((setPport s p { pport s p with awaitingStamp := none }).emit (.ptp p.toNat 8 w.2 0))) ∧
      exec (.ptpMessageSend p 0xB) s = .next (s.emit (.ptp p.toNat 0xB (if s.time.utcFromMaster then s.time.utcOffset else 0) 0))) ∧
    ((pport s p).state = 9 → (pport s p).cfg.delay = 0 → exec (.ptpMessageSend p 1) s = .next (sendDelayReq s p 1)) ∧
    ((pport s p).state ≠ 1 → (pport s p).cfg.delay = 1 → exec (.ptpMessageSend p 2) s = .next (sendDelayReq s p 2)) ∧
    (s.now ≤ (pport s p).announceAt + 6000000000 → exec (.announceReceiptTimeout p) s = .next s) ∧
    ((pport s p).announceAt + 6000000000 < s.now →
      ((pport s p).state = 4 → exec (.announceReceiptTimeout p) s = .next
        (decidePorts (setPport s p { pport s p with master := none, state := 6, syncGood := 0 }))) ∧
      ((pport s p).state = 9 → s.flt.pending = none →
        let u := raiseAs (decidePorts (setPport s p { pport s p with master := none, state := 6, syncGood := 0 })) 1 0
          (mkEvent 0x42 0xFF 0 0 0 0)
        exec (.announceReceiptTimeout p) s = .next (if noSlave u.time then { u with time := enterHoldover u.time } else u)))) ∧
  (∀ (s : State) (p : BitVec 1), exec (.ptpMessageDiscard p) s = .next s ∧
    (∀ w, (pport s p).awaitingStamp = some w → w.1 + 1000000 < s.now →
      exec (.followUpAbandon p) s = .next (setPport s p { pport s p with awaitingStamp := none }))) ∧
  (∀ s : State, s.time.holdover = true → s.time.exceededRaised = false → s.flt.pending = none → s.time.holdoverLimit < s.time.holdoverEst →
    exec .holdoverExceeded s = .next (raiseAs { s with time := { s.time with holdoverExceeded := true, exceededRaised := true } } 1 0
      (mkEvent 0x43 0xFF 0 0 0 0))) ∧
  (∀ s : State, s.time.locked = true → exec .calendarUpdate s = .next { s with time := { s.time with
    calSec := s.time.t / 1000000000 - s.time.utcOffset, calNs := calStep (s.time.t % 1000000000), calLost := false } })

/-- With the ports working and the port enabled: a good service frame that is no MAC Control frame and no PTP message of the port enters the receive ring with its stamp, a MAC Control frame and a bad one are only counted, a PTP message goes no further; SERVICE_FRAME_TRANSMIT sends the head entry of the transmit ring where it has one; a boundary frame that is bad or finds 256 KiB held is dropped, one that no filter keeps is gone, any other is kept to its length and goes into the boundary ring. TRANSMIT_RING_POLL reads the producer index of a ring that no job writes. PERST_N disables every enabled mailbox of path 0 and the event ring. An inbound access of a root port below 2^37 and inside one working partition reads or writes T2 through the arbiter and the slice; any other is an Unsupported Request. -/
def Obligations.ServicePorts : Prop :=
  (∀ (s : State) (p : BitVec 1) (fr : List Byte) (ok ptp : Bool), portsWork s = true → enabledBit s p.toNat = true →
    (goodFrame fr ok = false → exec (.serviceFrameReceived p fr ok ptp) s = .next
      (setEthPort s p { ethPort s p with dropped := min 0xFFFFFFFF ((ethPort s p).dropped + 1) })) ∧
    (goodFrame fr ok = true → slice fr 12 2 = [0x88, 0x08] → exec (.serviceFrameReceived p fr ok ptp) s = .next
      (setEthPort s p { ethPort s p with macControl := min 0xFFFFFFFF ((ethPort s p).macControl + 1) })) ∧
    (goodFrame fr ok = true → slice fr 12 2 ≠ [0x88, 0x08] → ptp = true → (pport s p).cfg.mode ≠ 0 →
      exec (.serviceFrameReceived p fr ok ptp) s = .next s) ∧
    (goodFrame fr ok = true → slice fr 12 2 ≠ [0x88, 0x08] → ptp = false ∨ (pport s p).cfg.mode = 0 →
      let r := stampWithin s 3
      exec (.serviceFrameReceived p fr ok ptp) s = .next (portEntry
        (setEthPort r.2 p { ethPort s p with rxSeq := ((ethPort s p).rxSeq + 1) % 2 ^ 32 }) (0xFFFF0100 + p.toNat)
        (receiveEntry r.1 (fr.length - 4) 0 (ethPort s p).rxSeq (fr.take (fr.length - 4))))) ∧
    (∀ o off e, headEntry s (0xFFFF0110 + p.toNat) (ethPort s p).txProd = some (o, off, e) → exec (.serviceFrameTransmit p) s = .next
      (sendService (presentPort s (0xFFFF0110 + p.toNat) 2048) p o off e)) ∧
    (headEntry s (0xFFFF0110 + p.toNat) (ethPort s p).txProd = none → exec (.serviceFrameTransmit p) s = .next s)) ∧
  (∀ (s : State) (fr : List Byte) (ok : Bool), portsWork s = true → enabledBit s 2 = true →
    let u := flushBoundary s
    (goodFrame fr ok = false ∨ 0x40000 < (u.ports.boundaryHeld.map List.length).sum + 2048 →
      exec (.boundaryFrameReceived fr ok) s = .next (dropBoundary u)) ∧
    (goodFrame fr ok = true → (u.ports.boundaryHeld.map List.length).sum + 2048 ≤ 0x40000 →
      let fate := boundaryFate u (fr.take (fr.length - 4))
      (fate.1 = false → exec (.boundaryFrameReceived fr ok) s = .next u) ∧
      (fate.1 = true →
      let r := stampWithin u 3
      let kept := (fr.take (fr.length - 4)).take fate.2
      let e := receiveEntry r.1 (fr.length - 4) (if kept.length < fr.length - 4 then 1 else 0) u.ports.boundarySeq kept
      exec (.boundaryFrameReceived fr ok) s = .next (flushBoundary (presentPort { r.2 with ports := { r.2.ports with
        boundarySeq := (u.ports.boundarySeq + 1) % 2 ^ 32, boundaryHeld := u.ports.boundaryHeld ++ [e] } } 0xFFFF0200 2048))))) ∧
  (∀ (s : State) (o : Nat), portsWork s = true →
    exec (.transmitRingPoll o) s = .next (if jobWrites s o then s else readProducer s o)) ∧
  (∀ s : State, s.boot.rootPort = false → s.boot.mailboxReady = true → supplied s = true →
    ∃ u, exec .perstNAssert s = .next u ∧ u.evt = { s.evt with ringCtrl := s.evt.ringCtrl &&& ~~~1#32 } ∧
      (∀ m, (s.box m).path1 = true ∨ (s.box m).enabled = false → u.box m = s.box m) ∧
      (∀ m, (s.box m).path1 = false → (u.box m).enabled = false) ∧ u.jobs = s.jobs ∧ u.mem = s.mem) ∧
  (∀ (s : State) (a n : Nat), s.boot.rootPort = true → timeRuns s = true → supplied s = true →
    let refused := fun (n : Nat) => 2 ^ 37 < a + n ∨ n = 0 ∨ 0x400000000 < a % 0x400000000 + n ∨ t2Works s (a / 0x400000000) = false
    (refused n → exec (.downstreamInboundAccess a false n []) s = .next (s.emit .unsupportedRequest)) ∧
    (¬refused n → exec (.downstreamInboundAccess a false n []) s = .next ((bar2Fetch s a n).1.emit (.inboundData (bar2Fetch s a n).2))) ∧
    (∀ bs : List Byte, (refused bs.length → exec (.downstreamInboundAccess a true n bs) s = .next (s.emit .unsupportedRequest)) ∧
      (¬refused bs.length → let r := bar2Access s a bs.length true
        exec (.downstreamInboundAccess a true n bs) s = .next (if r.failed then r.s else { r.s with mem := r.s.mem.write a bs }))))

/-- With the port working: a frame start of the configured channel and type restarts the line count and, while the ring has room, claims a slot and clears it, and else is dropped; a packet of another channel or type is discarded, and a line or an end without a slot changes no memory; a line goes into the open slot while the frame has fewer lines than configured, is counted, and else only marks the frame as too tall; the frame end writes the header, advances the producer index and the sequence number. A frame sync output that is set pulses for an instant it has not pulsed for, and else not. A camera group that is powered on gets its register script. A CAN frame that passes the filter enters the receive ring and any other is dropped; the head entry of the transmit ring leaves in its window when it wins the bus, is abandoned once 10 ms have passed after it (on the tick after, log entry 157), and bus-off stops the channel until it recovers. -/
def Obligations.CameraAndCanPorts : Prop :=
  (∀ (s : State) (c : BitVec 3) (vc dt fn : Nat) (o : Obj) (off : Nat), cameraWorks s c = true →
    vc = (cameraSet s c.toNat).2.1 → dt = (cameraSet s c.toNat).1 →
    let r := stampWithin s 8
    let x := { camera r.2 c with startStamp := r.1, frameNumber := fn, lines := 0, flags := 0 }
    (openSlot r.2 c = some (o, off) → exec (.frameStart c vc dt fn) s = .next (if ringCap r.2 o ≤ ringHeld r.2 o then
        setCamera (ringDrop r.2 o) c { x with slotOpen := false, dropping := true, seq := (x.seq + 1) % 2 ^ 32 }
      else setCamera (objWriteBytes r.2 o off (List.replicate (ringEntry r.2 o) 0)) c { x with slotOpen := true, dropping := false })) ∧
    (openSlot r.2 c = none → exec (.frameStart c vc dt fn) s = .next (setCamera r.2 c { x with slotOpen := false, dropping := true }))) ∧
  (∀ (s : State) (c : BitVec 3) (vc dt : Nat) (o : Obj) (off : Nat) (samples : List Nat) (ecc crc : Bool), cameraWorks s c = true →
    let k := cameraSet s c.toNat; let x := camera s c
    vc = k.2.1 → dt = k.1 → x.slotOpen = true → openSlot s c = some (o, off) →
    (exec (.cameraLine c vc dt samples ecc crc) s = .next (if x.lines < k.2.2.2.1 then setCamera (writeLine s c o off x.lines samples) c
        { x with lines := min 0xFFFF (x.lines + 1), flags := x.flags ||| (flag ecc 1 + flag crc 2) }
      else setCamera s c { x with lines := min 0xFFFF (x.lines + 1), flags := x.flags ||| (flag ecc 1 + flag crc 2 + 16) })) ∧
    (let r := stampWithin s 8
     let flags := x.flags ||| (flag (x.lines == k.2.2.2.1) 0 + flag (decide (x.lines < k.2.2.2.1)) 3)
     let head := layout 64 [(0x00, leBytes 8 r.1), (0x08, leBytes 8 x.startStamp), (0x10, leBytes 2 x.frameNumber), (0x12, leBytes 2 flags),
       (0x14, leBytes 2 x.lines), (0x18, leBytes 4 x.seq)]
     let u := presentPort (objWriteBytes r.2 o off head) (cameraRing c) (ringEntry r.2 o)
     exec (.frameEnd c vc) s = .next (setCamera (objSetWord u o 0 ((objWord u o 0 + 1) % 2 ^ 32)) c
       { x with slotOpen := false, seq := (x.seq + 1) % 2 ^ 32 }))) ∧
  (∀ (s : State) (c : BitVec 3) (vc dt fn : Nat) (samples : List Nat) (ecc crc : Bool), cameraWorks s c = true → let k := cameraSet s c.toNat
    (vc ≠ k.2.1 ∨ dt ≠ k.1 → exec (.frameStart c vc dt fn) s = .next (discardPacket s c) ∧
      exec (.cameraLine c vc dt samples ecc crc) s = .next (discardPacket s c)) ∧
    (vc ≠ k.2.1 → exec (.frameEnd c vc) s = .next (discardPacket s c)) ∧
    ((camera s c).slotOpen = false → (vc = k.2.1 → dt = k.1 → exec (.cameraLine c vc dt samples ecc crc) s = .next s) ∧
      (vc = k.2.1 → exec (.frameEnd c vc) s = .next (setCamera s c { camera s c with dropping := false, slotOpen := false })))) ∧
  (∀ (s : State) (c : BitVec 3), portsWork s = true → exec (.frameSyncPulse c) s = .next (match syncSet s c.toNat with
    | none => s
    | some (p, ph) =>
      let at_ := (s.now - ph) / p * p + ph
      if ph ≤ s.now ∧ s.ports.syncPulses.toList.getD c.toNat 0 < at_ then
        { s with ports := { s.ports with syncPulses := s.ports.syncPulses.setIfInBounds c.toNat at_ } }.emit (.syncPulse c.toNat)
      else s)) ∧
  (∀ (s : State) (g : BitVec 1), portsWork s = true → s.power.state = 0 → exec (.cameraGroupPowerOn g) s = .next
    ({ s with power := { s.power with cameraOn0 := s.power.cameraOn0 || g == 0, cameraOn1 := s.power.cameraOn1 || g == 1 } }.emit
      (.i2cScript g.toNat ((settingBytes s 0x0250).getD [])))) ∧
  (∀ (s : State) (n : BitVec 2), canWorks s n = true →
    (∀ (id : Word) (data : List Byte), (canPort s n).busOff = false → data.length ≤ 64 →
      exec (.canFrameReceived n id data) s = .next (if passesFilter s n id then portEntry (stampWithin s 8).2 (0xFFFF0400 + n.toNat)
        (layout 96 [(0x00, leBytes 8 (stampWithin s 8).1), (0x08, leBytes 4 id.toNat), (0x0C, leBytes 1 data.length), (0x10, data)]) else s)) ∧
    (∀ o off e due, canHead s n = some (o, off, e, due) →
      ((canPort s n).busOff = false → due ≤ s.now → s.now ≤ due + 10000000 →
        let u := (presentPort s (0xFFFF0410 + n.toNat) 96).emit (.can n.toNat (BitVec.ofNat 32 (fld e 8 4)) (slice e 0x10 (fld e 0xC 1)))
        exec (.canFrameTransmit n true) s = .next (setCanPort (finishEntry u o (off + 0x0D) 1) n { canPort u n with headAt := u.now })) ∧
      (due + 10000000 < s.now → exec (.canFrameAbandon n) s = .next (setCanPort (finishEntry s o (off + 0x0D) 2) n
        { canPort s n with headAt := s.now, abandoned := min 0xFFFFFFFF ((canPort s n).abandoned + 1) }))) ∧
    ((canPort s n).busOff = false → exec (.canBusOff n) s = .next (setCanPort s n
      { canPort s n with busOff := true, busOffs := min 0xFFFFFFFF ((canPort s n).busOffs + 1) })) ∧
    exec (.canBusOffRecovery n) s = .next (setCanPort s n { canPort s n with busOff := false }))

/-- With the port working: a data-ready edge starts a transaction with its stamp, or is an overrun while one runs; a completed transaction enters the inertial ring. ENCODER_EDGE notes a quadrature step with its tick, or an illegal one, and keeps the levels; ENCODER_SAMPLE enters the counts. HALT_REQ latches the halt with its tick, increases halt_seq, writes it into the trajectory object, asserts RESTING and latches the headers of the plan pass in preparation. The JTAG instructions shift the bypass bit, the identification register and the boundary; debug access reads and writes the T0 aperture where it is permitted, reads the state word always and free values (log entry 123) of the internal state where permitted, and NOR programming writes the flash where debug is permitted or the module found no firmware. -/
def Obligations.SensorHaltAndTestPorts : Prop :=
  (∀ (s : State) (n : BitVec 2), spiWorks s n = true →
    ((spiPort s n).busy = false → exec (.dataReadyEdge n) s = .next ((setSpiPort (stampWithin s 8).2 n
      { spiPort s n with busy := true, stamp := (stampWithin s 8).1 }).emit (.spiStart n.toNat))) ∧
    ((spiPort s n).busy = true → exec (.dataReadyEdge n) s = .next (setSpiPort s n
      { spiPort s n with overrun := true, overruns := min 0xFFFFFFFF ((spiPort s n).overruns + 1) })) ∧
    (∀ resp : List Byte, (spiPort s n).busy = true → exec (.spiTransactionComplete n resp) s = .next (portEntry
      (setSpiPort s n { spiPort s n with busy := false, overrun := false, seq := ((spiPort s n).seq + 1) % 2 ^ 32 }) 0xFFFF0500
      (leBytes 8 (spiPort s n).stamp ++ leBytes 4 (spiPort s n).seq ++ leBytes 1 n.toNat ++ leBytes 1 (flag (spiPort s n).overrun 0) ++
        leBytes 2 0 ++ ((List.range 6).map (fun a => leBytes 4 (axisValue s n resp a))).flatten ++ List.replicate 8 0)))) ∧
  (∀ (s : State) (n : BitVec 3) (a b i : Bool), portsWork s = true → enabledBit s (19 + n.toNat) = true →
    ∀ old, s.ports.encoders[n.toNat]? = some old →
    let was := quadPhase old.a old.b; let new := quadPhase a b
    let bad := old.a != a && old.b != b
    let e : EncEdge := { stamp := firstTick s.time, delta := quadStep was new (portField s 0x0270 (1 + n.toNat)), illegal := bad,
                         index := i && !old.index }
    ∃ u, exec (.encoderEdge n a b i) s = .next u ∧ u.ports.encoders[n.toNat]? = some { old with
        a := a, b := b, index := i, recent := if was = new ∧ e.index = false then old.recent else old.recent ++ [e]
        illegals := if bad then min 0xFFFFFFFF (old.illegals + 1) else old.illegals } ∧
      u = { s with ports := { s.ports with encoders := u.ports.encoders } } ∧
      (∀ k : Nat, k ≠ n.toNat → u.ports.encoders[k]? = s.ports.encoders[k]?)) ∧
  (∀ s : State, portsWork s = true → (∃ e < 8, enabledBit s (19 + e) = true) → 250000 ≤ encoderPeriod s → encoderPeriod s ≤ 10000000 →
    encoderPeriod s % 8 = 0 → s.ports.encoderLast < s.now / encoderPeriod s * encoderPeriod s →
    let ts := s.now / encoderPeriod s * encoderPeriod s
    let r := s.ports.encoders.map (fun x => foldEdges x ts)
    let bitsOf := fun (f : Encoder × Bool × Bool → Bool) => ((r.toList.zipIdx.map (fun e => flag (f e.1) e.2)).sum)
    exec .encoderSample s = .next (portEntry { s with ports := { s.ports with
        encoders := r.map (fun x => x.1), encoderLast := ts, encoderSeq := (s.ports.encoderSeq + 1) % 2 ^ 32 } } 0xFFFF0600
      (leBytes 8 ts ++ leBytes 4 s.ports.encoderSeq ++ leBytes 1 (bitsOf (fun x => x.2.1)) ++ leBytes 1 (bitsOf (fun x => x.2.2)) ++
        leBytes 2 0 ++ (r.toList.map (fun x => leBytes 4 x.1.count.toNat)).flatten ++
        (r.toList.map (fun x => leBytes 8 x.1.edge.toNat)).flatten ++ List.replicate 16 0))) ∧
  (∀ s : State, portsWork s = true → let n := (s.haltSeq + 1) % 2 ^ 31
    let u := { writeHaltWord { s with haltLatched := true, haltAt := s.time.ticks, haltSeq := n } (2 ^ 31 + n) with resting := true }
    exec .haltReqAccept s = .next (latchHeaders u) ∧ u.haltLatched = true ∧ u.haltSeq = n) ∧
  (∀ s : State, jtagAlive s = true →
    (∀ tdi, exec (.jtagBypass tdi) s = .next
      ({ s with ports := { s.ports with jtagBypass := tdi, extest := false } }.emit (.jtag [s.ports.jtagBypass]))) ∧
    exec .jtagIdcode s = .next ({ s with ports := { s.ports with extest := false } }.emit
      (.jtag ((List.range 32).map (fun i => Config.jtagIdcode.getLsbD i)))) ∧
    (∀ bs, exec (.jtagSamplePreload bs) s = .next (captureBoundary s bs false)) ∧
    (∀ a bs, debugPermitted s = true → 0x4000000000 ≤ a → a + bs.length ≤ 0x4020000000 →
      exec (.jtagDebugAccess 0 a true bs) s = .next { s with mem := s.mem.write a bs } ∧
      exec (.jtagDebugAccess 0 a false bs) s = .next (s.emit (.jtagData (s.mem.read a bs.length)))) ∧
    (∀ a bs, debugPermitted s = false ∨ a < 0x4000000000 ∨ 0x4020000000 < a + bs.length →
      ∀ w, exec (.jtagDebugAccess 0 a w bs) s = .next s) ∧
    (∀ a bs, exec (.jtagDebugAccess 1 a false bs) s = .next (s.emit (.jtagData (leBytes 4 (idState s)))) ∧
      exec (.jtagDebugAccess 1 a true bs) s = .next s ∧
      (debugPermitted s = true → exec (.jtagDebugAccess 2 a false bs) s = .next
        ((s.freeBytes bs.length).2.emit (.jtagData (s.freeBytes bs.length).1)))) ∧
    (∀ f off bs, debugPermitted s = true ∨ s.boot.stage = 0xE1 → off + bs.length ≤ 0x4000000 →
      exec (.jtagNorProgram f off bs) s = .next (programFlash s f.toNat off bs))) ∧
  (∀ (s : State) (bs : List Bool), s.power.heldInReset = true → exec (.jtagExtest bs) s = .next (captureBoundary s bs true))

/-- A data frame that arrives in order and without error on a port that is UP, with no injection pending, is accepted and acknowledged, and one for another node is relayed. At its destination: a write or read request outside T2 and the pinned T1 of a partition in service is answered with its failure; within, the peer's request is presented and the access made through the slice: WRITE_REQUEST writes the data and acknowledges, READ_REQUEST answers the data read, a failed access FAULTED. READ_DATA, WRITE_ACKNOWLEDGEMENT and FAILURE_RESPONSE complete or fail the open request of their tag, and change nothing more where none is open. LINK_CONTROL that leaves no frame unacknowledged only takes its link field; one on a port that hears none changes nothing. RESERVED_FRAME_TYPE counts a CRC error and raises detector 0x50, as a data frame with a CRC error does; a port that is not UP takes no data frame. -/
def Obligations.FriezeDataFrames : Prop :=
  (∀ (s : State) (p : FriezePort) (h : FrameHdr), s.flt.pending = none → (fport s p.val).state = 3 → h.crcOk = true → h.fecOk = true →
    let t := takeLink s p.val h
    h.linkSeq = (fport t p.val).rxSeq →
    let got := fun (n : Nat) => acceptFrame t p.val h.vc.toNat (1 + (n + 63) / 64)
    let a := localOf h.address
    (h.dest.toNat ≠ t.fab.node → (∀ data : List Byte, exec (.writeRequest p h data) s = .next (relay (got data.length) h 0 0 data) ∧
        exec (.readData p h data) s = .next (relay (got data.length) h 2 0 data)) ∧
      (∀ k : BitVec 6, exec (.readRequest p h k) s = .next (relay (got 0) h 1 (64 * (k.toNat + 1)) [])) ∧
      exec (.writeAcknowledgement p h) s = .next (relay (got 0) h 3 0 []) ∧
      (∀ st : Nat, exec (.failureResponse p h st) s = .next (relay (got 64) h 6 0 (padTo 64 (leBytes 1 st))))) ∧
    (h.dest.toNat = t.fab.node →
      (∀ data : List Byte, let u := got data.length
        (∀ st, peerProblem u a data.length = some st → exec (.writeRequest p h data) s = .next (failPeer u h st)) ∧
        (peerProblem u a data.length = none → let r := localWrite (presentPeer u h data.length) a data
          exec (.writeRequest p h data) s = .next (if r.2 then answerPeer r.1 h 3 [] else failPeer r.1 h 0x07))) ∧
      (∀ k : BitVec 6, let n := 64 * (k.toNat + 1)
        (∀ st, peerProblem (got 0) a n = some st → exec (.readRequest p h k) s = .next (failPeer (got 0) h st)) ∧
        (peerProblem (got 0) a n = none → let r := localRead (presentPeer (got 0) h n) a n
          (∀ bs, r.2 = some bs → exec (.readRequest p h k) s = .next (answerPeer r.1 h 2 bs)) ∧
          (r.2 = none → exec (.readRequest p h k) s = .next (failPeer r.1 h 0x07)))) ∧
      (∀ data : List Byte, let u := got data.length
        (∀ r : T3Req, openT3 u h = some r → exec (.readData p h data) s = .next (if r.isRead then
          checkPhase { u with hostMem := u.hostMem.write (peerKey r.address) (padTo r.bytes data)
                              fab := { u.fab with t3 := u.fab.t3.erase r } } else u)) ∧
        (openT3 u h = none → exec (.readData p h data) s = .next u)) ∧
      (∀ r : T3Req, openT3 (got 0) h = some r → exec (.writeAcknowledgement p h) s = .next (if r.isRead then got 0 else
        checkPhase { got 0 with fab := { (got 0).fab with t3 := (got 0).fab.t3.erase r } })) ∧
      (openT3 (got 0) h = none → exec (.writeAcknowledgement p h) s = .next (got 0)) ∧
      (∀ st : Nat, (∀ r : T3Req, openT3 (got 64) h = some r → exec (.failureResponse p h st) s = .next (checkPhase (failT3 (got 64) r))) ∧
        (openT3 (got 64) h = none → exec (.failureResponse p h st) s = .next (got 64))))) ∧
  (∀ (s : State) (p : FriezePort) (h : FrameHdr), s.flt.pending = none →
    (fport s p.val).state = 2 ∨ (fport s p.val).state = 3 ∨ (fport s p.val).state = 4 → h.crcOk = true → h.fecOk = true →
    let u := takeLink (setFport s p.val { fport s p.val with partnerNode := h.src.toNat }) p.val h
    (fport u p.val).unacked = [] → exec (.linkControl p h) s = .next u) ∧
  (∀ (s : State) (p : FriezePort) (h : FrameHdr) (data : List Byte),
    ((fport s p.val).state ∉ [2, 3, 4] → exec (.linkControl p h) s = .next s) ∧
    ((fport s p.val).state ≠ 3 → exec (.writeRequest p h data) s = .next s ∧ exec (.readData p h data) s = .next s) ∧
    ((fport s p.val).state = 3 → s.flt.pending = none → h.crcOk = false → h.fecOk = true →
      exec (.writeRequest p h data) s = .next (crcError s p.val 0) ∧ exec (.readData p h data) s = .next (crcError s p.val 0))) ∧
  (∀ (s : State) (p : FriezePort) (ty : BitVec 4), (fport s p.val).state = 3 → 7 ≤ ty.toNat → exec (.reservedFrameType p ty) s = .next
    (sendControl (raiseAs (setFport s p.val { fport s p.val with crcErrors := capW ((fport s p.val).crcErrors + 1) }) 0 0
      (mkEvent 0x50 0xFF 0 0 0 p.val)) p.val 0 0))

/-- On a port that is UP each management message is accepted and acknowledged. A window read answers the value and a window write its effect, one too short BAD_PARAM; an undefined kind is answered with BAD_OPCODE. A lower identity makes its node the registrar, heard on that port (its node ID known where it is the neighbour, else 0xFFFF, log entry 159); a higher one on the port on which the registrar was heard means that it is gone (log entry 93); a new boot count of the registrar loses it. A report is taken by the registrar alone; an assignment gives this node its ID, or names a renumbered peer, and an ID past 1,023 is BAD_PARAM; route entries within their ranges start phase 1; a phase-done of the present generation counts at the registrar; a release of the present generation installs the entries; a window response ends its request. Idle identity broadcasts leave, transfers are reissued in a phase, and a request that times out fails its OBJ_PLACE. -/
def Obligations.FabricManagement : Prop :=
  (∀ (s : State) (p : FriezePort), (fport s p.val).state = 3 →
    let got := fun (n : Nat) => acceptFrame s p.val 3 (1 + (16 + n + 63) / 64)
    (∀ (node : BitVec 10) (seq : Word) (off size n : Nat), 8 ≤ n →
      let r := windowReadOf (got n) (.frieze node) off size
      exec (.windowRead p node seq off size n) s = .next (answer r.1 1 node.toNat 0 seq.toNat (leBytes 8 r.2))) ∧
    (∀ (node : BitVec 10) (seq : Word) (off size n : Nat) (v : Word64), 16 ≤ n → exec (.windowWrite p node seq off size v n) s = .next
      (answer (windowWriteOf (got n) (.frieze node) off size v) 2 node.toNat 0 seq.toNat [])) ∧
    (∀ (node : BitVec 10) (seq : Word) (off size n : Nat) (v : Word64),
      (n < 8 → exec (.windowRead p node seq off size n) s = .next (answer (got n) 1 node.toNat 0x03 seq.toNat [])) ∧
      (n < 16 → exec (.windowWrite p node seq off size v n) s = .next (answer (got n) 2 node.toNat 0x03 seq.toNat []))) ∧
    (∀ (node : BitVec 10) (seq : Word) (kind : Nat), knownKind kind = false → exec (.undefinedKindRequest p node seq kind) s = .next
      (answer (got 0) kind node.toNat 0x02 seq.toNat [])) ∧
    (∀ (id boot : Nat), let u := got 20
      let taken := fun (u : State) => reportOwn (broadcast { u with fab := { u.fab with
        registrarIdentity := id, registrarBoot := boot, registrar := false, hearPort := some p.val
        reports := [], topo := [], installed := [], phaseWait := []
        registrarNode := if (fport u p.val).partnerIdentity = id then (fport u p.val).partnerNode else 0xFFFF } })
      (id < u.fab.registrarIdentity → exec (.lowestIdentity p id boot) s = .next (taken u)) ∧
      (u.fab.registrarIdentity < id → u.fab.registrar = false → u.fab.hearPort = some p.val →
        exec (.lowestIdentity p id boot) s = .next
          (if id < (splitOff u).fab.registrarIdentity then taken (splitOff u) else splitOff u)) ∧
      (u.fab.registrarIdentity < id → u.fab.registrar = true ∨ u.fab.hearPort ≠ some p.val →
        exec (.lowestIdentity p id boot) s = .next u) ∧
      (id = u.fab.registrarIdentity → u.fab.registrar = false → boot ≠ u.fab.registrarBoot → exec (.lowestIdentity p id boot) s = .next
        (reportOwn (broadcast (loseNode { u with fab := { u.fab with registrarBoot := boot } } u.fab.registrarNode))))) ∧
    (∀ (seq : Word) (r : Report), exec (.report p seq r) s = .next (if (got 80).fab.registrar then
      answer (takeReport (got 80) r) 0x11 r.nodeId 0 seq.toNat [] else got 80)) ∧
    (∀ (seq : Word) (node k : Nat), node < 1024 → exec (.idAssignment p seq (got 32).boot.identity node k) s = .next
      (reportOwn (answer (takeId (got 32) node k) 0x12 (got 32).fab.registrarNode 0 seq.toNat []))) ∧
    (∀ (seq : Word) (id node k : Nat),
      (1024 ≤ node → exec (.idAssignment p seq id node k) s = .next (answer (got 32) 0x12 (got 32).fab.registrarNode 0x03 seq.toNat [])) ∧
      (node < 1024 → id ≠ (got 32).boot.identity → exec (.idAssignment p seq id node k) s = .next (peerRenumbered (got 32) id node))) ∧
    (∀ (seq : Word) (g : Nat) (es : List RouteEntry) (last : Bool), es ≠ [] → es.length ≤ 500 →
      (∀ e ∈ es, e.dest < 1024 ∧ (e.valid = true → e.port ≤ 5)) →
      let u := got (8 + 8 * es.length)
      exec (.routeEntries p seq g es last) s = .next (phaseOne (answer u 0x13 u.fab.registrarNode 0 seq.toNat []) g es last)) ∧
    (∀ (seq : Word) (node g : Nat), let u := answer (got 4) 0x14 node 0 seq.toNat []
      exec (.phaseDone p seq node g) s = .next (if u.fab.registrar ∧ g = u.fab.generation then phaseDoneBy u node else u)) ∧
    (∀ (seq : Word) (g : Nat), let u := answer (got 4) 0x15 (got 4).fab.registrarNode 0 seq.toNat []
      exec (.release p seq g) s = .next (if g = u.fab.generation then install u else u)) ∧
    (∀ (seq : Word) (st : Nat) (v : Word64),
      (∀ q : MgmtReq, (got 8).fab.mgmt.find? (fun q => q.seq == seq.toNat && (q.kind == 1 || q.kind == 2)) = some q →
        let u := { got 8 with fab := { (got 8).fab with mgmt := (got 8).fab.mgmt.erase q } }
        exec (.windowAccessResponse p seq st v) s = .next (if st = 0 then u.emit (.readValue 0 v) else u)) ∧
      ((got 8).fab.mgmt.find? (fun q => q.seq == seq.toNat && (q.kind == 1 || q.kind == 2)) = none →
        exec (.windowAccessResponse p seq st v) s = .next (got 8)))) ∧
  (∀ s : State, timeRuns s = true → exec .identityBroadcast s = .next (broadcast (fullService s))) ∧
  (∀ s : State, s.fab.updating ≠ 0 → exec .routePhaseReissue s = .next (reportPhaseDone (forEach (openToHeld s) s reissue))) ∧
  (∀ (s : State) (seq : Word) (q : MgmtReq), s.fab.mgmt.find? (fun q => q.seq == seq.toNat) = some q →
    let u := { s with fab := { s.fab with mgmt := s.fab.mgmt.erase q } }
    (∀ w, waitsFor u seq.toNat = some w → exec (.managementRequestTimeout seq) s = .next (complete u w.1 w.2.1 0x21 0x07 [])) ∧
    (waitsFor u seq.toNat = none → exec (.managementRequestTimeout seq) s = .next u))

/-- On a port that is UP: a reservation request of a whole number of blocks is granted with an ID and a base where the range is free, refused with NO_RESOURCE where it is not, and any other is BAD_PARAM; the response lets OBJ_PLACE go on or ends it with NO_RESOURCE or FAULTED, and one that nothing waits for is given back; a release frees the range; a failure notice fails the reservation. A T3 request without an answer raises detector 0x52 with cause 1. A trained port answers a nonce with its proof, a proof with its verdict: a proof that fails raises detector 0x70 and refuses the port, a partner that the join policy turns away is refused, and any other settles; a verdict that is not good refuses the port, a good one settles it: once both verdicts are good the port comes up, unless the merged island the partner counted has more than 1,024 nodes: then it is refused and detector 0x54 is raised with cause 1. -/
def Obligations.ReservationsAndHello : Prop :=
  (∀ (s : State) (p : FriezePort), (fport s p.val).state = 3 →
    let got := fun (n : Nat) => acceptFrame s p.val 3 (1 + (16 + n + 63) / 64)
    (∀ (node : BitVec 10) (seq : Word) (len boot : Nat) (part : Byte) (off : Word64), 
      let u := reclaim (got 24) (fun r => r.node == node.toNat && r.boot != boot)
      let bad := part.toNat / 8 % 16 ≠ 0 ∨ len % 256 ≠ 0 ∨ len = 0
      (bad → exec (.reservationRequest p node seq len part boot off) s = .next (answer u 0x20 node.toNat 0x03 seq.toNat [])) ∧
      (¬bad → grantAt u len (resvTier part) (part.toNat % 8) off.toNat = none → exec (.reservationRequest p node seq len part boot off) s = .next
        (answer u 0x20 node.toNat 0x04 seq.toNat [])) ∧
      (¬bad → ∀ o, grantAt u len (resvTier part) (part.toNat % 8) off.toNat = some o →
        let g := grantRange u.fresh.2 node.toNat len boot (resvTier part) (part.toNat % 8) o
        exec (.reservationRequest p node seq len part boot off) s = .next
          (answer g.1 0x20 node.toNat 0 seq.toNat (leBytes 4 g.2.id ++ leBytes 4 0 ++ leBytes 8 g.2.base)))) ∧
    (∀ (node : BitVec 10) (seq : Word) (rid base : Nat) (q : MgmtReq) (w : MbxId × CmdHdr × Nat),
      (got 16).fab.mgmt.find? (fun q => q.seq == seq.toNat && q.kind == 0x20 && q.node == node.toNat) = some q →
      waitsFor (got 16) seq.toNat = some w →
      let u := { got 16 with fab := { (got 16).fab with mgmt := (got 16).fab.mgmt.filter (fun q => q.seq != seq.toNat) } }
      exec (.reservationResponse p node seq 0 rid base) s = .next (placeGranted u w.1 w.2.1 w.2.2 node.toNat rid base) ∧
      ∀ st, st ≠ 0 → exec (.reservationResponse p node seq st rid base) s = .next
        (complete u w.1 w.2.1 0x21 (if st = 0x04 then 0x04 else 0x07) [])) ∧
    (∀ (node : BitVec 10) (seq : Word) (st rid base : Nat), waitsFor (got 16) seq.toNat = none →
      let u := { got 16 with fab := { (got 16).fab with mgmt := (got 16).fab.mgmt.filter (fun q => q.seq != seq.toNat) } }
      exec (.reservationResponse p node seq st rid base) s = .next (if st = 0 then ask u 0x21 0 node.toNat (leBytes 4 rid) else u)) ∧
    (∀ (node : BitVec 10) (seq : Word) (rid : Nat), exec (.reservationRelease p node seq rid) s = .next
      (answer { got 4 with fab := { (got 4).fab with
        granted := (got 4).fab.granted.filter (fun r => !(r.id == rid && r.node == node.toNat)) } } 0x21 node.toNat 0 seq.toNat [])) ∧
    (∀ (node : BitVec 10) (rid cause : Nat), exec (.reservationFailureNotice p node rid cause) s = .next
      (forEach ((got 8).fab.heldRes.filter (fun r => r.id == rid && r.node == node.toNat)) (got 8) failReservation))) ∧
  (∀ (s : State) (tag : BitVec 28) (r : T3Req), s.fab.t3.find? (fun r => r.tag == tag) = some r → (routeTo s r.node).isSome = true →
    exec (.t3RequestTimeout tag) s = .next (checkPhase (failT3 (raiseAs s 2 0 (mkEvent 0x52 0xFF r.job 1 r.job (r.node % 1024))) r))) ∧
  (∀ (s : State) (p : FriezePort), (fport s p.val).state = 2 → (fport s p.val).width ≠ 0 → s.flt.pending = none → s.boot.identityOk = true →
    (∀ (id : Nat) (nonce : List Byte),
      let u := acceptFrame s p.val 3 2
      let sig := ecdsaSign identityKey (sha256 nonce)
      let dev := fld Config.certChain 4 4
      let ca := fld Config.certChain (8 + dev) 4
      exec (.helloNonce p id nonce) s = .next (sendLocal (setFport u p.val { fport u p.val with partnerIdentity := id }) p.val 0x31
        (beBytes 32 sig.1 ++ beBytes 32 sig.2 ++ leBytes 2 dev ++ leBytes 2 ca ++ leBytes 4 0 ++
          slice Config.certChain 8 dev ++ slice Config.certChain (12 + dev) ca))) ∧
    (∀ (r q : Nat) (dev ca : List Byte),
      let u := acceptFrame s p.val 3 (1 + (16 + 72 + dev.length + ca.length + 63) / 64)
      let holds := proofHolds (fport u p.val) r q dev ca
      let verdict := if holds = false then 2 else if accepts u (fport u p.val).partnerIdentity then 0 else 1
      let v := sendLocal (setFport u p.val { fport u p.val with verdictSent := verdict }) p.val 0x32 (padTo 16 (leBytes 1 verdict))
      exec (.helloProof p r q dev ca) s = .next (
        if holds = false then refuse (raiseAs v 1 0 (mkEvent 0x70 0xFF 0 4 0 (certifiedKeyId dev ca))) p.val
        else if verdict = 0 then settle v p.val else refuse v p.val)) ∧
    (∀ st n : Nat, let u := acceptFrame s p.val 3 2
      let v := setFport u p.val { fport u p.val with verdictGot := min st 2, merged := n }
      exec (.helloVerdict p st n) s = .next (if st = 0 then settle v p.val else refuse v p.val))) ∧
  (∀ (s : State) (p : Nat), (fport s p).state = 2 → s.flt.pending = none → let x := fport s p
    (x.verdictSent = 3 ∨ x.verdictGot = 3 → settle s p = s) ∧
    (x.verdictSent = 0 → x.verdictGot = 0 → (x.merged ≤ 1024 → settle s p = portUp s p) ∧
      (1024 < x.merged → settle s p = raise (refuse s p) (mkEvent 0x54 0xFF 0 1 0 p))))

/-- SIGNAL_DETECT moves a port from DETECT to TRAIN, keeping its counts and what waits; TRAINING_COMPLETE with a usable lane chooses the width and sends the nonce, and without one, like TRAINING_BOUND_MISS, returns the port to DETECT; LINK_FULL_PATH_END ends the full path; WIDTH_CHANGE that takes a lane in use moves an UP port to RETRAIN at the width left with detector 0x53, or takes it down where none is left, and any other changes nothing; RETRAIN_COMPLETE returns it to UP and replays its unacknowledged frames; EQUALISATION_UPDATE and LINK_IDLE_FRAME_SEND send a link control frame; a starved channel raises detector 0x55 and takes the full path; an idle link and a lost signal take a port that carries frames down with detector 0x52, and a training port back to DETECT. -/
def Obligations.LinkStates : Prop :=
  ∀ (s : State) (q : FriezePort), s.flt.pending = none →
    let p := q.val; let x := fport s p
    (x.state = 1 → exec (.signalDetect q) s = .next (setFport (patCount s (0x3000 + 64 * p) 1) p { FPort.off with
      state := 2, trainings := capH (x.trainings + 1), fullPath := x.fullPath, waiting := x.waiting, partnerPort := x.partnerPort
      partnerNode := x.partnerNode, upSince := x.upSince, crcErrors := x.crcErrors, fecCorrected := x.fecCorrected
      fecUncorrectable := x.fecUncorrectable, replayed := x.replayed, widthChanges := x.widthChanges
      creditTimeouts := x.creditTimeouts })) ∧
    (x.state = 2 → exec (.trainingBoundMiss q) s = .next (setFport s p { x with state := 1 })) ∧
    (x.state = 2 → exec (.trainingComplete q 0) s = .next (setFport s p { x with state := 1 })) ∧
    (∀ u : BitVec 4, x.state = 2 → u ≠ 0 →
      let nonce := Config.helloNonce s.freeCount % 2 ^ 256
      exec (.trainingComplete q u) s = .next (sendLocal (setFport s.fresh.2 p { x with
        width := (widthOf u 4).1, lanes := (widthOf u 4).2, nonceSent := nonce, merged := 0, credits := freshCredits, txSeq := 0, rxSeq := 0, unacked := [] }) p 0x30
        (leBytes 16 s.boot.identity ++ leBytes 32 nonce))) ∧
    (x.fullPath = true → exec (.linkFullPathEnd q) s = .next
      (setFport s p { x with fullPath := false, state := if x.state = 2 then 1 else x.state })) ∧
    (x.state = 3 → exec (.equalisationUpdate q) s = .next (sendControl (setFport s.fresh.2 p
      { x with fecCorrected := capW (x.fecCorrected + Config.freeNat s.freeCount) }) p 0 0)) ∧
    (∀ u : BitVec 4, x.state = 3 → x.lanes &&& ~~~u ≠ 0 → (widthOf u x.width).1 ≠ 0 →
      let new := (widthOf u x.width).1; let lanes := (widthOf u x.width).2
      exec (.widthChange q u) s = .next (raiseAs (patCount (setFport s p
        { x with state := 5, width := new, lanes := lanes, widthChanges := capH (x.widthChanges + 1) }) (0x3004 + 64 * p) 1) 1 0
        (mkEvent 0x53 0xFF 0 0 0 (p + x.width * 2 ^ 8 + new * 2 ^ 16 + lanes.toNat * 2 ^ 24)))) ∧
    (∀ u : BitVec 4, x.state = 3 → x.lanes &&& ~~~u ≠ 0 → (widthOf u x.width).1 = 0 → exec (.widthChange q u) s = .next (portDown s p 0)) ∧
    (∀ u : BitVec 4, x.state ≠ 3 ∨ x.lanes &&& ~~~u = 0 → exec (.widthChange q u) s = .next s) ∧
    (x.state = 5 → exec (.retrainComplete q) s = .next (pumpPort (replayAll (setFport s p { x with state := 3 }) p) p)) ∧
    (fport (replayAll s p) p = { x with unacked := x.unacked.map (fun f => { f with replays := f.replays + 1 })
                                        replayed := capW (x.replayed + x.unacked.length) }) ∧
    (x.state = 3 ∨ x.state = 4 → x.waiting = [] → exec (.linkIdleFrameSend q) s = .next (sendControl s p 0 0)) ∧
    (∀ vc : BitVec 2, x.state = 3 → starved x (heldDest s) vc.toNat = true → exec (.creditTimeout q vc) s = .next
      (linkFullPath (raiseAs (setFport s p { x with creditTimeouts := capH (x.creditTimeouts + 1) }) 2 0
        (mkEvent 0x55 0xFF 0 0 0 (p + vc.toNat * 256))) p)) ∧
    (x.state = 3 → exec (.linkIdleTimeout q) s = .next (portDown s p 0) ∧ exec (.linkSignalLoss q) s = .next (portDown s p 0)) ∧
    (x.state = 2 → exec (.linkSignalLoss q) s = .next (setFport s p { x with state := 1 })) ∧
    (carries x = true → exec (.linkSignalLoss q) s = .next (portDown s p 0) ∧
      (x.state = 4 → exec (.linkIdleTimeout q) s = .next (portDown s p 0))) ∧
    (x.state ≠ 3 → x.state ≠ 4 → exec (.linkIdleTimeout q) s = .next s)

/-- POWER_ON in OFF starts cold with an input of at least 36 V, and in any other state changes nothing; FIRMWARE_START performs the stage it is in, the firmware, the Plinth or the memory; MAILBOX_READY in stage 0x06 with a serving partition opens the mailboxes in stage 0x07; POWER_FAIL_DETECT raises detector 0x67, stops every tile, stops fetching and asserts RESTING; at the end of the sequence everything volatile is lost and the module holds itself in reset; after a protective stop, and no other, it starts cold. WAKE_N wakes DROWSE at once and grants the waiting jobs their clusters, begins the wake of STANDBY, whose end returns to ACTIVE with the slices clear, and starts KEEPER cold with T as the keeper counted it. -/
def Obligations.PowerStates : Prop :=
  (∀ (s : State) (root cell puf : Bool), s.power.state = 4 → let u := coldStart s root cell puf false
    exec (.powerOn root cell puf) s = .next { u with power := { u.power with inputMv := max 36000 u.power.inputMv } }) ∧
  (∀ (s : State) (root cell puf : Bool) (t : Int), (s.power.state ≠ 4 → exec (.powerOn root cell puf) s = .next s) ∧
    (s.boot.stage ∉ [3, 4, 5] → exec (.firmwareStart t) s = .next s) ∧
    (s.power.heldInReset = false ∨ s.power.stopCause ≠ 1 → exec (.protectiveStopEnd root cell puf) s = .next s) ∧
    (s.power.state = 0 → exec (.wakeN root cell puf) s = .next s)) ∧
  (∀ (s : State) (t : Int), (s.boot.stage = 3 → exec (.firmwareStart t) s = .next (startFirmware s)) ∧
    (s.boot.stage = 4 → exec (.firmwareStart t) s = .next (startPlinth s)) ∧
    (s.boot.stage = 5 → startTraining s = false → exec (.firmwareStart t) s = .next (startDram s t))) ∧
  (∀ s : State, s.boot.stage = 6 → startTraining s = false → (∃ p < 8, (s.part p).state ≠ 3) →
    let u := forEach (List.range 8) s (fun s p => if (s.part p).state = 0 then s.setPart p { s.part p with step := .none } else s)
    let v := confirmSlot (confirmSlot u 0) 1
    exec .mailboxReady s = .next (fullService (createPorts (placeMailbox0
      { v with boot := { v.boot with stage := 7, mailboxReady := true, cold := false } })))) ∧
  (∀ s : State, supplied s = true → ∃ u, exec .powerFailDetect s = .next u ∧ u.resting = true ∧ u.boot.fetchStopped = true ∧
    u.power.failRunning = true ∧ u.power.stopCause = 0 ∧ u = powerFail (raiseAs s 3 0 (mkEvent 0x67 0xFF 0 0 0xFFFF 0)) 0) ∧
  (∀ s : State, s.power.failRunning = true → ∃ u, exec .powerFailSequenceEnd s = .next u ∧ u.power.state = 4 ∧
    u.power.heldInReset = true ∧ u.power.stopCause = s.power.stopCause) ∧
  (∀ (s : State) (root cell puf : Bool), s.power.heldInReset = true → s.power.stopCause = 1 →
    exec (.protectiveStopEnd root cell puf) s = .next (coldStart s root cell puf true)) ∧
  (∀ (s : State) (root cell puf : Bool), supplied s = true →
    (s.power.state = 1 → exec (.wakeN root cell puf) s = .next (grantQueue 64 (changePower s 0))) ∧
    (s.power.state = 2 → exec (.wakeN root cell puf) s = .next { s with power := { s.power with waking := true } }) ∧
    (s.power.state = 3 → exec (.wakeN root cell puf) s = .next (let u := coldStart (changePower { s with time := { s.time with t := s.time.keeper } } 0) root cell puf true
      { u with power := { u.power with waking := true } }))) ∧
  (∀ s : State, s.power.state = 2 → s.power.waking = true → s.power.failRunning = false →
    ∃ u, exec .wakeComplete s = .next u ∧ u.power.state = 0 ∧ u.power.waking = false ∧ u.boot.mailboxReady = true ∧
      ∀ p < 8, (u.part p).selfRefresh = false)

/-- With the module supplied and no injection pending: undervoltage at the input raises 0x60 and lowers the cap setting to 120 W, which returns when the input recovers; overvoltage raises 0x61, of a partition rail with cause 1 that takes the partition down, and its undervoltage resets it; warm and critical temperatures raise 0x63 and 0x64; a lost clock raises 0x65, with cause 0 or 3 stopping the module. The voltage loop steps by 5 mV between its limits and counts 156 stretches while it stretches at its limit, a stretch is counted, an excess raises 0x62 and the limit 0x66; the rail loop sets the rail, or after 3 failed accesses raises 0x60; the power window steps the duty of Ambient clusters. The Patina folds, commits, drains its log and notes a low cell. -/
def Obligations.MonitorsAndPatina : Prop :=
  ∀ s : State, supplied s = true → s.flt.pending = none →
    (∀ mV : Nat, mV < 36000 →
      let u := raiseAs { s with power := { s.power with inputMv := mV } } 2 0 (mkEvent 0x60 0xFF 0 0 0xFFFF mV)
      let v := { u with power := { u.power with capBefore := some (u.power.capBefore.getD (capSetting u)) } }
      exec (.inputUndervoltage mV) s = .next (if v.boot.mailboxReady then followCap v (min 120 (capSetting u))
        else { v with boot := { v.boot with runtime := v.boot.runtime.put 0x0050 (min 120 (capSetting u)) } })) ∧
    (∀ w, s.power.capBefore = some w → exec .inputRecovered s = .next
      (followCap { s with power := { s.power with capBefore := none, inputMv := max 37000 s.power.inputMv } } w)) ∧
    (∀ mV : Nat, (62000 < mV → exec (.overvoltage 0 mV) s = .next (powerFail (raiseAs s 3 0 (mkEvent 0x61 0xFF 0 0 0xFFFF mV)) 1)) ∧
      exec (.overvoltage 2 mV) s = .next (powerFail (raiseAs s 3 0 (mkEvent 0x61 0xFF 0 2 0xFFFF mV)) 1)) ∧
    (∀ (p : PartId) (mV : Nat), (s.part p.toNat).railOn = true → (s.part p.toNat).railMv + 50 < mV →
      exec (.partitionRailOvervoltage p mV) s = .next (let u := takeDown (raiseAs s 3 0 (mkEvent 0x61 p.toNat 0 1 p.toNat mV)) p.toNat
        u.setPart p.toNat { u.part p.toNat with railOn := false })) ∧
    (∀ (p : PartId) (mV : Nat), (s.part p.toNat).railOn = true → mV + 30 < (s.part p.toNat).railMv →
      exec (.partitionRailUndervoltage p mV) s = .next (resetCause s p.toNat 0 0 (mkEvent 0x60 p.toNat 0 1 p.toNat mV))) ∧
    (∀ (k : Nat) (t : Int), k ≤ 1 → (loopHalf s (if k = 0 then 0x0120 else 0x0121) 0 : Int) ≤ t →
      let u := raiseAs s 1 0 (mkEvent 0x63 0xFF 0 k (sensorUnit s k) (unsigned 32 t))
      exec (.temperatureWarning k t) s = .next { u with power := { u.power with
        caseWarn := u.power.caseWarn || k == 0, junctionWarn := u.power.junctionWarn || k == 1 } }) ∧
    (∀ (k : Nat) (t : Int), k ≤ 1 → (loopHalf s (if k = 0 then 0x0120 else 0x0121) 1 : Int) ≤ t → exec (.temperatureCritical k t) s = .next
      (powerFail (raiseAs s 3 0 (mkEvent 0x64 0xFF 0 k (sensorUnit s k) (unsigned 32 t))) 1)) ∧
    (s.power.caseWarn = true ∨ s.power.junctionWarn = true → exec .temperatureWarningClear s = .next
      (grantQueue 64 { s with power := { s.power with caseWarn := false, junctionWarn := false } })) ∧
    (∀ ppm : Int, exec (.clockLoss 0 ppm) s = .next (powerFail (raiseAs s 3 0 (mkEvent 0x65 0xFF 0 0 0xFFFF (unsigned 64 ppm))) 1) ∧
      exec (.clockLoss 1 ppm) s = .next (let u := raiseAs s 3 0 (mkEvent 0x65 0xFF 0 1 0xFFFF (unsigned 64 ppm))
        { u with power := { u.power with tcxoOk := false } }) ∧
      (exec (.clockLoss 2 ppm) s = .next (let u := raiseAs s 3 0 (mkEvent 0x65 0xFF 0 2 0xFFFF (unsigned 64 ppm))
        { u with power := { u.power with crystalOk := false }, time := { u.time with calStopped := true } })) ∧
      exec (.clockLoss 3 ppm) s = .next (powerFail (raiseAs s 3 0 (mkEvent 0x65 0xFF 0 3 0xFFFF (unsigned 64 ppm))) 1)) ∧
    (∀ r : LoopReading, let c := r.cluster.toNat; let x := s.cluster c
      x.powered = true →
      let limit := x.stretching && decide (r.margin < x.marginLow) && x.voltage == loopSetting s 0x0101
      let v := if r.margin < x.marginLow then min (loopSetting s 0x0101) (x.voltage + 5)
        else if (loopSetting s 0x0103 : Int) < r.margin then max (loopSetting s 0x0100) (x.voltage - 5) else x.voltage
      let u := s.setCluster c { x with voltage := v, margin := r.margin, temp := r.temp, stretching := limit }
      exec (.voltageLoopPeriod r) s = .next (if limit then countStretches u c 156 else u)) ∧
    (∀ c : ClusterId, let x := s.cluster c.toNat
      x.powered = true →
      exec (.droopStretch c) s = .next (countStretches s c.toNat 1) ∧
      (loopSetting s 0x0105 < x.stretches → exec (.excessDroopStretch c) s = .next (excessStretch s c.toNat 0)) ∧
      (x.voltage = loopSetting s 0x0101 → x.margin < x.marginLow → x.stretching = false →
        exec (.voltageLoopLimit c) s = .next (voltageLimit s c.toNat 0))) ∧
    (timeRuns s = true →
      (∀ (p : PartId) (t : Int), (s.part p.toNat).railOn = true →
        let u := s.setPart p.toNat { s.part p.toNat with sliceTemp := t }
        exec (.partitionRailLoop p true t) s = .next (u.setPart p.toNat { u.part p.toNat with railMv := railTarget u p.toNat, railFails := 0 }) ∧
        exec (.partitionRailLoop p false t) s = .next (let n := (s.part p.toNat).railFails + 1
          if n < 3 then u.setPart p.toNat { u.part p.toNat with railFails := n }
          else detect (u.setPart p.toNat { u.part p.toNat with railFails := 0 }) 0 (mkEvent 0x60 p.toNat 0 1 p.toNat (s.part p.toNat).railMv))) ∧
      (∀ (avg mv : Nat) (c0 c1 : Int), ∃ u, exec (.powerAverageWindow avg mv c0 c1) s = .next u ∧
        u.power = { s.power with inputTenthW := avg, inputMv := mv, case0 := c0, case1 := c1 } ∧ u.mem = s.mem ∧ u.jobs = s.jobs ∧
        u.parts = s.parts ∧ u.tiles = s.tiles ∧ (10 * capInForce s < avg → ∀ c ∈ allClusters, ambientCluster s c = true →
          (u.cluster c).duty = max 4 ((s.cluster c).duty - 10)) ∧
        (avg * 1000 < 9500 * capInForce s → ∀ c ∈ allClusters, ambientCluster s c = true →
          (u.cluster c).duty = min 16 ((s.cluster c).duty + 10))) ∧
      exec .patinaFold s = .next (fold s) ∧ (∀ k ≤ 4, exec (.patinaCommit k) s = .next (commitPatina s k))) ∧
    exec .eventLogDrain s = .next (drainLog s) ∧
    exec .backupCellLow s = .next { s with pat := { s.pat with cellLow := true } }
end

