-- ==== Sys2Proof/Laws/Bytes.lean ====
section
/-! SUPPORT. What reading gives back of bytes, fields and packed elements (R11, R89). -/

namespace Sys2Proof.Machine

@[simp] theorem leBytes_length (n v : Nat) : (leBytes n v).length = n := by
  induction n generalizing v with
  | zero => rfl
  | succ n ih => simp [leBytes, ih]

/-- The little-endian bytes of a number read back as the number, cut to their width (R11). -/
theorem ofLe_leBytes (n v : Nat) : ofLe (leBytes n v) = v % 256 ^ n := by
  induction n generalizing v with
  | zero => simp [leBytes, ofLe, Nat.mod_one]
  | succ n ih =>
    simp only [leBytes, ofLe, ih, BitVec.toNat_ofNat]
    rw [Nat.pow_succ (n := 256), Nat.mul_comm (256 ^ n) 256, Nat.mod_mul]

theorem leBytes_drop (n k v : Nat) (h : k ≤ n) : (leBytes n v).drop k = leBytes (n - k) (v / 256 ^ k) := by
  induction k generalizing n v with
  | zero => simp
  | succ k ih =>
    obtain ⟨n, rfl⟩ : ∃ m, n = m + 1 := ⟨n - 1, by omega⟩
    simp only [leBytes, List.drop_succ_cons]
    rw [ih n (v / 256) (by omega), Nat.div_div_eq_div_mul, Nat.pow_succ, Nat.mul_comm (256 ^ k)]
    congr 1
    omega

theorem leBytes_take (n k v : Nat) (h : k ≤ n) : (leBytes n v).take k = leBytes k v := by
  induction k generalizing n v with
  | zero => simp [leBytes]
  | succ k ih =>
    obtain ⟨n, rfl⟩ : ∃ m, n = m + 1 := ⟨n - 1, by omega⟩
    simp only [leBytes, List.take_succ_cons]
    rw [ih n (v / 256) (by omega)]

/-- A field of the bytes of a number is the number's digits there. -/
theorem fld_leBytes (N v off n : Nat) (h : off + n ≤ N) : fld (leBytes N v) off n = v / 256 ^ off % 256 ^ n := by
  unfold fld
  rw [leBytes_drop _ _ _ (by omega), leBytes_take _ _ _ (by omega), ofLe_leBytes]

/-- Element `i` of packed elements, as a digit of the packed number. -/
theorem packNat_digit (w : Nat) (xs : List Nat) (i : Nat) (h : i < xs.length) : packNat w xs / 2 ^ (w * i) % 2 ^ w = xs[i] % 2 ^ w := by
  induction xs generalizing i with
  | nil => simp at h
  | cons x xs ih =>
    have hp : 0 < 2 ^ w := Nat.two_pow_pos w
    cases i with
    | zero => simp [packNat, Nat.add_mul_mod_self_left]
    | succ i =>
      have e : packNat w (x :: xs) / 2 ^ (w * (i + 1)) = packNat w xs / 2 ^ (w * i) := by
        rw [show w * (i + 1) = w + w * i by rw [Nat.mul_succ]; omega, Nat.pow_add, ← Nat.div_div_eq_div_mul]
        congr 1
        simp only [packNat]
        rw [Nat.add_mul_div_left _ _ hp, Nat.div_eq_of_lt (Nat.mod_lt _ hp), Nat.zero_add]
      rw [e]
      simpa using ih i (by simpa using h)

@[simp] theorem packElems_length (w : Nat) (xs : List Nat) : (packElems w xs).length = xs.length * w / 8 := by
  simp [packElems]

/-- Every element of packed 4-, 8-, 16- and 32-bit elements reads back (R89). -/
theorem element_packElems (w : Nat) (hw : w = 4 ∨ w = 8 ∨ w = 16 ∨ w = 32) (xs : List Nat) (i : Nat) (h : i < xs.length)
    (he : 2 ∣ xs.length) : element w (packElems w xs) i = xs[i] % 2 ^ w := by
  rw [← packNat_digit w xs i h]
  have p256 : ∀ k, (256 : Nat) ^ k = 2 ^ (8 * k) := fun k => by rw [Nat.pow_mul]
  unfold element packElems
  rcases hw with rfl | rfl | rfl | rfl
  · simp only [show (4 : Nat) < 8 by decide, if_true]
    rw [fld_leBytes _ _ _ _ (by omega), p256, bits]
    obtain ⟨k, rfl | rfl⟩ : ∃ k, i = 2 * k ∨ i = 2 * k + 1 := ⟨i / 2, by omega⟩
    · rw [show 8 * (2 * k * 4 / 8) = 4 * (2 * k) by omega, show 2 * k * 4 % 8 = 0 by omega]
      simp only [Nat.pow_zero, Nat.div_one, Nat.pow_one]
      rw [Nat.mod_mod_of_dvd _ (by decide : (2 ^ 4 ∣ 256))]
    · rw [show 8 * ((2 * k + 1) * 4 / 8) = 4 * (2 * k) by omega, show (2 * k + 1) * 4 % 8 = 4 by omega, show 4 * (2 * k + 1) = 4 * (2 * k) + 4 by omega,
        Nat.pow_add, ← Nat.div_div_eq_div_mul]
      generalize packNat 4 xs / 2 ^ (4 * (2 * k)) = z
      omega
  · simp only [show ¬ (8 : Nat) < 8 by decide, if_false]
    rw [fld_leBytes _ _ _ _ (by omega), p256, p256]
    simp [Nat.mul_comm]
  · simp only [show ¬ (16 : Nat) < 8 by decide, if_false]
    rw [fld_leBytes _ _ _ _ (by omega), p256, p256]
    congr 3
    omega
  · simp only [show ¬ (32 : Nat) < 8 by decide, if_false]
    rw [fld_leBytes _ _ _ _ (by omega), p256, p256]
    congr 3
    omega

end Sys2Proof.Machine
end

