-- ==== Sys2Proof/Laws/Tables.lean ====
section
/-! SUPPORT. Reading a table after writing it. -/

namespace Sys2Proof.Machine

variable {α : Type}

theorem find?_filter_of_imp (p q : α → Bool) (h : ∀ x, q x = true → p x = true) (l : List α) :
    (l.filter p).find? q = l.find? q := by
  induction l with
  | nil => rfl
  | cons x xs ih =>
    by_cases hq : q x = true
    · simp [h x hq, hq]
    · by_cases hp : p x = true <;> simp [hp, hq, ih]

theorem find?_filter_none (p q : α → Bool) (h : ∀ x, q x = true → p x = false) (l : List α) :
    (l.filter p).find? q = none := by
  induction l with
  | nil => rfl
  | cons x xs ih =>
    by_cases hp : p x = true
    · have hq : q x = false := by
        cases hqx : q x
        · rfl
        · exact absurd hp (by simp [h x hqx])
      simp [hp, hq, ih]
    · simp [hp, ih]

@[simp] theorem Tab.get?_put_self (t : Tab α) (k : Nat) (v : α) : (t.put k v).get? k = some v := by
  have h : (t.filter (fun e => e.1 < k)).find? (fun e => e.1 == k) = none :=
    find?_filter_none _ _ (fun x hx => by simp_all) t
  simp [Tab.get?, Tab.put, List.find?_append, h]

theorem Tab.get?_put_ne (t : Tab α) {j k : Nat} (v : α) (h : j ≠ k) : (t.put k v).get? j = t.get? j := by
  unfold Tab.get? Tab.put
  rw [List.find?_append]
  rcases Nat.lt_or_gt_of_ne h with hlt | hgt
  · rw [find?_filter_of_imp _ _ (fun x hx => by simp at hx ⊢; omega)]
    have hn : (List.filter (fun e => decide (k < e.1)) t).find? (fun e => e.1 == j) = none :=
      find?_filter_none _ _ (fun x hx => by simp at hx ⊢; omega) t
    have hk : (k == j) = false := by simp; omega
    simp [hn, hk]
  · have hn : (List.filter (fun e => decide (e.1 < k)) t).find? (fun e => e.1 == j) = none :=
      find?_filter_none _ _ (fun x hx => by simp at hx ⊢; omega) t
    have hk : (k == j) = false := by simp; omega
    rw [hn, Option.none_or, List.find?_cons, hk, find?_filter_of_imp _ _ (fun x hx => by simp at hx ⊢; omega)]

@[simp] theorem Tab.put_put (t : Tab α) (k : Nat) (v w : α) : (t.put k v).put k w = t.put k w := by
  have h1 : ∀ l : List (Nat × α), List.filter (fun e => decide (e.1 < k)) (List.filter (fun e => decide (k < e.1)) l) = [] := by
    intro l
    simp only [List.filter_filter, List.filter_eq_nil_iff]
    intro a _
    simp; omega
  have h2 : ∀ l : List (Nat × α), List.filter (fun e => decide (k < e.1)) (List.filter (fun e => decide (e.1 < k)) l) = [] := by
    intro l
    simp only [List.filter_filter, List.filter_eq_nil_iff]
    intro a _
    simp; omega
  simp only [Tab.put, List.filter_append, List.filter_cons, h1, h2, List.filter_filter]
  simp

theorem Tab.get?_erase_ne (t : Tab α) {j k : Nat} (h : j ≠ k) : (t.erase k).get? j = t.get? j := by
  unfold Tab.get? Tab.erase
  rw [find?_filter_of_imp _ _ (fun x hx => by simp at hx ⊢; omega)]

@[simp] theorem Tab.get?_erase_self (t : Tab α) (k : Nat) : (t.erase k).get? k = none := by
  unfold Tab.get? Tab.erase
  rw [find?_filter_none _ _ (fun x hx => by simp_all)]

end Sys2Proof.Machine
end

