-- ==== Sys2Proof/Laws/State.lean ====
section
/-! SUPPORT. What each update of the state leaves as it was, one lemma for each field and update, and what it writes. -/

namespace Sys2Proof.Machine

@[simp] theorem State.setTile_pending (s : State) (t : TileId) (x : TileState) : (s.setTile t x).pending = s.pending := rfl
@[simp] theorem State.setTile_mem (s : State) (t : TileId) (x : TileState) : (s.setTile t x).mem = s.mem := rfl
@[simp] theorem State.setTile_hostMem (s : State) (t : TileId) (x : TileState) : (s.setTile t x).hostMem = s.hostMem := rfl
@[simp] theorem State.setTile_clusters (s : State) (t : TileId) (x : TileState) : (s.setTile t x).clusters = s.clusters := rfl
@[simp] theorem State.setTile_parts (s : State) (t : TileId) (x : TileState) : (s.setTile t x).parts = s.parts := rfl
@[simp] theorem State.setTile_mbx (s : State) (t : TileId) (x : TileState) : (s.setTile t x).mbx = s.mbx := rfl
@[simp] theorem State.setTile_bar2Base (s : State) (t : TileId) (x : TileState) : (s.setTile t x).bar2Base = s.bar2Base := rfl
@[simp] theorem State.setTile_lows (s : State) (t : TileId) (x : TileState) : (s.setTile t x).lows = s.lows := rfl
@[simp] theorem State.setTile_highs (s : State) (t : TileId) (x : TileState) : (s.setTile t x).highs = s.highs := rfl
@[simp] theorem State.setTile_evt (s : State) (t : TileId) (x : TileState) : (s.setTile t x).evt = s.evt := rfl
@[simp] theorem State.setTile_flt (s : State) (t : TileId) (x : TileState) : (s.setTile t x).flt = s.flt := rfl
@[simp] theorem State.setTile_objects (s : State) (t : TileId) (x : TileState) : (s.setTile t x).objects = s.objects := rfl
@[simp] theorem State.setTile_images (s : State) (t : TileId) (x : TileState) : (s.setTile t x).images = s.images := rfl
@[simp] theorem State.setTile_jobs (s : State) (t : TileId) (x : TileState) : (s.setTile t x).jobs = s.jobs := rfl
@[simp] theorem State.setTile_jobCounter (s : State) (t : TileId) (x : TileState) : (s.setTile t x).jobCounter = s.jobCounter := rfl
@[simp] theorem State.setTile_kv (s : State) (t : TileId) (x : TileState) : (s.setTile t x).kv = s.kv := rfl
@[simp] theorem State.setTile_haltLatched (s : State) (t : TileId) (x : TileState) : (s.setTile t x).haltLatched = s.haltLatched := rfl
@[simp] theorem State.setTile_haltAt (s : State) (t : TileId) (x : TileState) : (s.setTile t x).haltAt = s.haltAt := rfl
@[simp] theorem State.setTile_haltSeq (s : State) (t : TileId) (x : TileState) : (s.setTile t x).haltSeq = s.haltSeq := rfl
@[simp] theorem State.setTile_resting (s : State) (t : TileId) (x : TileState) : (s.setTile t x).resting = s.resting := rfl
@[simp] theorem State.setTile_time (s : State) (t : TileId) (x : TileState) : (s.setTile t x).time = s.time := rfl
@[simp] theorem State.setTile_tsq0 (s : State) (t : TileId) (x : TileState) : (s.setTile t x).tsq0 = s.tsq0 := rfl
@[simp] theorem State.setTile_tsq1 (s : State) (t : TileId) (x : TileState) : (s.setTile t x).tsq1 = s.tsq1 := rfl
@[simp] theorem State.setTile_boot (s : State) (t : TileId) (x : TileState) : (s.setTile t x).boot = s.boot := rfl
@[simp] theorem State.setTile_power (s : State) (t : TileId) (x : TileState) : (s.setTile t x).power = s.power := rfl
@[simp] theorem State.setTile_pat (s : State) (t : TileId) (x : TileState) : (s.setTile t x).pat = s.pat := rfl
@[simp] theorem State.setTile_fab (s : State) (t : TileId) (x : TileState) : (s.setTile t x).fab = s.fab := rfl
@[simp] theorem State.setTile_ports (s : State) (t : TileId) (x : TileState) : (s.setTile t x).ports = s.ports := rfl
@[simp] theorem State.setTile_hangCycle (s : State) (t : TileId) (x : TileState) : (s.setTile t x).hangCycle = s.hangCycle := rfl
@[simp] theorem State.setTile_hangSets (s : State) (t : TileId) (x : TileState) : (s.setTile t x).hangSets = s.hangSets := rfl
@[simp] theorem State.setTile_hangSeen (s : State) (t : TileId) (x : TileState) : (s.setTile t x).hangSeen = s.hangSeen := rfl
@[simp] theorem State.setTile_runIds (s : State) (t : TileId) (x : TileState) : (s.setTile t x).runIds = s.runIds := rfl
@[simp] theorem State.setTile_freeCount (s : State) (t : TileId) (x : TileState) : (s.setTile t x).freeCount = s.freeCount := rfl
@[simp] theorem State.setTile_out (s : State) (t : TileId) (x : TileState) : (s.setTile t x).out = s.out := rfl

@[simp] theorem State.setCluster_pending (s : State) (c : Nat) (x : Cluster) : (s.setCluster c x).pending = s.pending := rfl
@[simp] theorem State.setCluster_mem (s : State) (c : Nat) (x : Cluster) : (s.setCluster c x).mem = s.mem := rfl
@[simp] theorem State.setCluster_hostMem (s : State) (c : Nat) (x : Cluster) : (s.setCluster c x).hostMem = s.hostMem := rfl
@[simp] theorem State.setCluster_tiles (s : State) (c : Nat) (x : Cluster) : (s.setCluster c x).tiles = s.tiles := rfl
@[simp] theorem State.setCluster_parts (s : State) (c : Nat) (x : Cluster) : (s.setCluster c x).parts = s.parts := rfl
@[simp] theorem State.setCluster_mbx (s : State) (c : Nat) (x : Cluster) : (s.setCluster c x).mbx = s.mbx := rfl
@[simp] theorem State.setCluster_bar2Base (s : State) (c : Nat) (x : Cluster) : (s.setCluster c x).bar2Base = s.bar2Base := rfl
@[simp] theorem State.setCluster_lows (s : State) (c : Nat) (x : Cluster) : (s.setCluster c x).lows = s.lows := rfl
@[simp] theorem State.setCluster_highs (s : State) (c : Nat) (x : Cluster) : (s.setCluster c x).highs = s.highs := rfl
@[simp] theorem State.setCluster_evt (s : State) (c : Nat) (x : Cluster) : (s.setCluster c x).evt = s.evt := rfl
@[simp] theorem State.setCluster_flt (s : State) (c : Nat) (x : Cluster) : (s.setCluster c x).flt = s.flt := rfl
@[simp] theorem State.setCluster_objects (s : State) (c : Nat) (x : Cluster) : (s.setCluster c x).objects = s.objects := rfl
@[simp] theorem State.setCluster_images (s : State) (c : Nat) (x : Cluster) : (s.setCluster c x).images = s.images := rfl
@[simp] theorem State.setCluster_jobs (s : State) (c : Nat) (x : Cluster) : (s.setCluster c x).jobs = s.jobs := rfl
@[simp] theorem State.setCluster_jobCounter (s : State) (c : Nat) (x : Cluster) : (s.setCluster c x).jobCounter = s.jobCounter := rfl
@[simp] theorem State.setCluster_kv (s : State) (c : Nat) (x : Cluster) : (s.setCluster c x).kv = s.kv := rfl
@[simp] theorem State.setCluster_haltLatched (s : State) (c : Nat) (x : Cluster) : (s.setCluster c x).haltLatched = s.haltLatched := rfl
@[simp] theorem State.setCluster_haltAt (s : State) (c : Nat) (x : Cluster) : (s.setCluster c x).haltAt = s.haltAt := rfl
@[simp] theorem State.setCluster_haltSeq (s : State) (c : Nat) (x : Cluster) : (s.setCluster c x).haltSeq = s.haltSeq := rfl
@[simp] theorem State.setCluster_resting (s : State) (c : Nat) (x : Cluster) : (s.setCluster c x).resting = s.resting := rfl
@[simp] theorem State.setCluster_time (s : State) (c : Nat) (x : Cluster) : (s.setCluster c x).time = s.time := rfl
@[simp] theorem State.setCluster_tsq0 (s : State) (c : Nat) (x : Cluster) : (s.setCluster c x).tsq0 = s.tsq0 := rfl
@[simp] theorem State.setCluster_tsq1 (s : State) (c : Nat) (x : Cluster) : (s.setCluster c x).tsq1 = s.tsq1 := rfl
@[simp] theorem State.setCluster_boot (s : State) (c : Nat) (x : Cluster) : (s.setCluster c x).boot = s.boot := rfl
@[simp] theorem State.setCluster_power (s : State) (c : Nat) (x : Cluster) : (s.setCluster c x).power = s.power := rfl
@[simp] theorem State.setCluster_pat (s : State) (c : Nat) (x : Cluster) : (s.setCluster c x).pat = s.pat := rfl
@[simp] theorem State.setCluster_fab (s : State) (c : Nat) (x : Cluster) : (s.setCluster c x).fab = s.fab := rfl
@[simp] theorem State.setCluster_ports (s : State) (c : Nat) (x : Cluster) : (s.setCluster c x).ports = s.ports := rfl
@[simp] theorem State.setCluster_hangCycle (s : State) (c : Nat) (x : Cluster) : (s.setCluster c x).hangCycle = s.hangCycle := rfl
@[simp] theorem State.setCluster_hangSets (s : State) (c : Nat) (x : Cluster) : (s.setCluster c x).hangSets = s.hangSets := rfl
@[simp] theorem State.setCluster_hangSeen (s : State) (c : Nat) (x : Cluster) : (s.setCluster c x).hangSeen = s.hangSeen := rfl
@[simp] theorem State.setCluster_runIds (s : State) (c : Nat) (x : Cluster) : (s.setCluster c x).runIds = s.runIds := rfl
@[simp] theorem State.setCluster_freeCount (s : State) (c : Nat) (x : Cluster) : (s.setCluster c x).freeCount = s.freeCount := rfl
@[simp] theorem State.setCluster_out (s : State) (c : Nat) (x : Cluster) : (s.setCluster c x).out = s.out := rfl

@[simp] theorem State.setPart_pending (s : State) (p : Nat) (x : Part) : (s.setPart p x).pending = s.pending := rfl
@[simp] theorem State.setPart_mem (s : State) (p : Nat) (x : Part) : (s.setPart p x).mem = s.mem := rfl
@[simp] theorem State.setPart_hostMem (s : State) (p : Nat) (x : Part) : (s.setPart p x).hostMem = s.hostMem := rfl
@[simp] theorem State.setPart_tiles (s : State) (p : Nat) (x : Part) : (s.setPart p x).tiles = s.tiles := rfl
@[simp] theorem State.setPart_clusters (s : State) (p : Nat) (x : Part) : (s.setPart p x).clusters = s.clusters := rfl
@[simp] theorem State.setPart_mbx (s : State) (p : Nat) (x : Part) : (s.setPart p x).mbx = s.mbx := rfl
@[simp] theorem State.setPart_bar2Base (s : State) (p : Nat) (x : Part) : (s.setPart p x).bar2Base = s.bar2Base := rfl
@[simp] theorem State.setPart_lows (s : State) (p : Nat) (x : Part) : (s.setPart p x).lows = s.lows := rfl
@[simp] theorem State.setPart_highs (s : State) (p : Nat) (x : Part) : (s.setPart p x).highs = s.highs := rfl
@[simp] theorem State.setPart_evt (s : State) (p : Nat) (x : Part) : (s.setPart p x).evt = s.evt := rfl
@[simp] theorem State.setPart_flt (s : State) (p : Nat) (x : Part) : (s.setPart p x).flt = s.flt := rfl
@[simp] theorem State.setPart_objects (s : State) (p : Nat) (x : Part) : (s.setPart p x).objects = s.objects := rfl
@[simp] theorem State.setPart_images (s : State) (p : Nat) (x : Part) : (s.setPart p x).images = s.images := rfl
@[simp] theorem State.setPart_jobs (s : State) (p : Nat) (x : Part) : (s.setPart p x).jobs = s.jobs := rfl
@[simp] theorem State.setPart_jobCounter (s : State) (p : Nat) (x : Part) : (s.setPart p x).jobCounter = s.jobCounter := rfl
@[simp] theorem State.setPart_kv (s : State) (p : Nat) (x : Part) : (s.setPart p x).kv = s.kv := rfl
@[simp] theorem State.setPart_haltLatched (s : State) (p : Nat) (x : Part) : (s.setPart p x).haltLatched = s.haltLatched := rfl
@[simp] theorem State.setPart_haltAt (s : State) (p : Nat) (x : Part) : (s.setPart p x).haltAt = s.haltAt := rfl
@[simp] theorem State.setPart_haltSeq (s : State) (p : Nat) (x : Part) : (s.setPart p x).haltSeq = s.haltSeq := rfl
@[simp] theorem State.setPart_resting (s : State) (p : Nat) (x : Part) : (s.setPart p x).resting = s.resting := rfl
@[simp] theorem State.setPart_time (s : State) (p : Nat) (x : Part) : (s.setPart p x).time = s.time := rfl
@[simp] theorem State.setPart_tsq0 (s : State) (p : Nat) (x : Part) : (s.setPart p x).tsq0 = s.tsq0 := rfl
@[simp] theorem State.setPart_tsq1 (s : State) (p : Nat) (x : Part) : (s.setPart p x).tsq1 = s.tsq1 := rfl
@[simp] theorem State.setPart_boot (s : State) (p : Nat) (x : Part) : (s.setPart p x).boot = s.boot := rfl
@[simp] theorem State.setPart_power (s : State) (p : Nat) (x : Part) : (s.setPart p x).power = s.power := rfl
@[simp] theorem State.setPart_pat (s : State) (p : Nat) (x : Part) : (s.setPart p x).pat = s.pat := rfl
@[simp] theorem State.setPart_fab (s : State) (p : Nat) (x : Part) : (s.setPart p x).fab = s.fab := rfl
@[simp] theorem State.setPart_ports (s : State) (p : Nat) (x : Part) : (s.setPart p x).ports = s.ports := rfl
@[simp] theorem State.setPart_hangCycle (s : State) (p : Nat) (x : Part) : (s.setPart p x).hangCycle = s.hangCycle := rfl
@[simp] theorem State.setPart_hangSets (s : State) (p : Nat) (x : Part) : (s.setPart p x).hangSets = s.hangSets := rfl
@[simp] theorem State.setPart_hangSeen (s : State) (p : Nat) (x : Part) : (s.setPart p x).hangSeen = s.hangSeen := rfl
@[simp] theorem State.setPart_runIds (s : State) (p : Nat) (x : Part) : (s.setPart p x).runIds = s.runIds := rfl
@[simp] theorem State.setPart_freeCount (s : State) (p : Nat) (x : Part) : (s.setPart p x).freeCount = s.freeCount := rfl
@[simp] theorem State.setPart_out (s : State) (p : Nat) (x : Part) : (s.setPart p x).out = s.out := rfl

@[simp] theorem State.setBox_pending (s : State) (m : MbxId) (x : Mailbox) : (s.setBox m x).pending = s.pending := rfl
@[simp] theorem State.setBox_mem (s : State) (m : MbxId) (x : Mailbox) : (s.setBox m x).mem = s.mem := rfl
@[simp] theorem State.setBox_hostMem (s : State) (m : MbxId) (x : Mailbox) : (s.setBox m x).hostMem = s.hostMem := rfl
@[simp] theorem State.setBox_tiles (s : State) (m : MbxId) (x : Mailbox) : (s.setBox m x).tiles = s.tiles := rfl
@[simp] theorem State.setBox_clusters (s : State) (m : MbxId) (x : Mailbox) : (s.setBox m x).clusters = s.clusters := rfl
@[simp] theorem State.setBox_parts (s : State) (m : MbxId) (x : Mailbox) : (s.setBox m x).parts = s.parts := rfl
@[simp] theorem State.setBox_bar2Base (s : State) (m : MbxId) (x : Mailbox) : (s.setBox m x).bar2Base = s.bar2Base := rfl
@[simp] theorem State.setBox_lows (s : State) (m : MbxId) (x : Mailbox) : (s.setBox m x).lows = s.lows := rfl
@[simp] theorem State.setBox_highs (s : State) (m : MbxId) (x : Mailbox) : (s.setBox m x).highs = s.highs := rfl
@[simp] theorem State.setBox_evt (s : State) (m : MbxId) (x : Mailbox) : (s.setBox m x).evt = s.evt := rfl
@[simp] theorem State.setBox_flt (s : State) (m : MbxId) (x : Mailbox) : (s.setBox m x).flt = s.flt := rfl
@[simp] theorem State.setBox_objects (s : State) (m : MbxId) (x : Mailbox) : (s.setBox m x).objects = s.objects := rfl
@[simp] theorem State.setBox_images (s : State) (m : MbxId) (x : Mailbox) : (s.setBox m x).images = s.images := rfl
@[simp] theorem State.setBox_jobs (s : State) (m : MbxId) (x : Mailbox) : (s.setBox m x).jobs = s.jobs := rfl
@[simp] theorem State.setBox_jobCounter (s : State) (m : MbxId) (x : Mailbox) : (s.setBox m x).jobCounter = s.jobCounter := rfl
@[simp] theorem State.setBox_kv (s : State) (m : MbxId) (x : Mailbox) : (s.setBox m x).kv = s.kv := rfl
@[simp] theorem State.setBox_haltLatched (s : State) (m : MbxId) (x : Mailbox) : (s.setBox m x).haltLatched = s.haltLatched := rfl
@[simp] theorem State.setBox_haltAt (s : State) (m : MbxId) (x : Mailbox) : (s.setBox m x).haltAt = s.haltAt := rfl
@[simp] theorem State.setBox_haltSeq (s : State) (m : MbxId) (x : Mailbox) : (s.setBox m x).haltSeq = s.haltSeq := rfl
@[simp] theorem State.setBox_resting (s : State) (m : MbxId) (x : Mailbox) : (s.setBox m x).resting = s.resting := rfl
@[simp] theorem State.setBox_time (s : State) (m : MbxId) (x : Mailbox) : (s.setBox m x).time = s.time := rfl
@[simp] theorem State.setBox_tsq0 (s : State) (m : MbxId) (x : Mailbox) : (s.setBox m x).tsq0 = s.tsq0 := rfl
@[simp] theorem State.setBox_tsq1 (s : State) (m : MbxId) (x : Mailbox) : (s.setBox m x).tsq1 = s.tsq1 := rfl
@[simp] theorem State.setBox_boot (s : State) (m : MbxId) (x : Mailbox) : (s.setBox m x).boot = s.boot := rfl
@[simp] theorem State.setBox_power (s : State) (m : MbxId) (x : Mailbox) : (s.setBox m x).power = s.power := rfl
@[simp] theorem State.setBox_pat (s : State) (m : MbxId) (x : Mailbox) : (s.setBox m x).pat = s.pat := rfl
@[simp] theorem State.setBox_fab (s : State) (m : MbxId) (x : Mailbox) : (s.setBox m x).fab = s.fab := rfl
@[simp] theorem State.setBox_ports (s : State) (m : MbxId) (x : Mailbox) : (s.setBox m x).ports = s.ports := rfl
@[simp] theorem State.setBox_hangCycle (s : State) (m : MbxId) (x : Mailbox) : (s.setBox m x).hangCycle = s.hangCycle := rfl
@[simp] theorem State.setBox_hangSets (s : State) (m : MbxId) (x : Mailbox) : (s.setBox m x).hangSets = s.hangSets := rfl
@[simp] theorem State.setBox_hangSeen (s : State) (m : MbxId) (x : Mailbox) : (s.setBox m x).hangSeen = s.hangSeen := rfl
@[simp] theorem State.setBox_runIds (s : State) (m : MbxId) (x : Mailbox) : (s.setBox m x).runIds = s.runIds := rfl
@[simp] theorem State.setBox_freeCount (s : State) (m : MbxId) (x : Mailbox) : (s.setBox m x).freeCount = s.freeCount := rfl
@[simp] theorem State.setBox_out (s : State) (m : MbxId) (x : Mailbox) : (s.setBox m x).out = s.out := rfl

@[simp] theorem State.setObj_pending (s : State) (o : Nat) (x : Obj) : (s.setObj o x).pending = s.pending := rfl
@[simp] theorem State.setObj_mem (s : State) (o : Nat) (x : Obj) : (s.setObj o x).mem = s.mem := rfl
@[simp] theorem State.setObj_hostMem (s : State) (o : Nat) (x : Obj) : (s.setObj o x).hostMem = s.hostMem := rfl
@[simp] theorem State.setObj_tiles (s : State) (o : Nat) (x : Obj) : (s.setObj o x).tiles = s.tiles := rfl
@[simp] theorem State.setObj_clusters (s : State) (o : Nat) (x : Obj) : (s.setObj o x).clusters = s.clusters := rfl
@[simp] theorem State.setObj_parts (s : State) (o : Nat) (x : Obj) : (s.setObj o x).parts = s.parts := rfl
@[simp] theorem State.setObj_mbx (s : State) (o : Nat) (x : Obj) : (s.setObj o x).mbx = s.mbx := rfl
@[simp] theorem State.setObj_bar2Base (s : State) (o : Nat) (x : Obj) : (s.setObj o x).bar2Base = s.bar2Base := rfl
@[simp] theorem State.setObj_lows (s : State) (o : Nat) (x : Obj) : (s.setObj o x).lows = s.lows := rfl
@[simp] theorem State.setObj_highs (s : State) (o : Nat) (x : Obj) : (s.setObj o x).highs = s.highs := rfl
@[simp] theorem State.setObj_evt (s : State) (o : Nat) (x : Obj) : (s.setObj o x).evt = s.evt := rfl
@[simp] theorem State.setObj_flt (s : State) (o : Nat) (x : Obj) : (s.setObj o x).flt = s.flt := rfl
@[simp] theorem State.setObj_images (s : State) (o : Nat) (x : Obj) : (s.setObj o x).images = s.images := rfl
@[simp] theorem State.setObj_jobs (s : State) (o : Nat) (x : Obj) : (s.setObj o x).jobs = s.jobs := rfl
@[simp] theorem State.setObj_jobCounter (s : State) (o : Nat) (x : Obj) : (s.setObj o x).jobCounter = s.jobCounter := rfl
@[simp] theorem State.setObj_kv (s : State) (o : Nat) (x : Obj) : (s.setObj o x).kv = s.kv := rfl
@[simp] theorem State.setObj_haltLatched (s : State) (o : Nat) (x : Obj) : (s.setObj o x).haltLatched = s.haltLatched := rfl
@[simp] theorem State.setObj_haltAt (s : State) (o : Nat) (x : Obj) : (s.setObj o x).haltAt = s.haltAt := rfl
@[simp] theorem State.setObj_haltSeq (s : State) (o : Nat) (x : Obj) : (s.setObj o x).haltSeq = s.haltSeq := rfl
@[simp] theorem State.setObj_resting (s : State) (o : Nat) (x : Obj) : (s.setObj o x).resting = s.resting := rfl
@[simp] theorem State.setObj_time (s : State) (o : Nat) (x : Obj) : (s.setObj o x).time = s.time := rfl
@[simp] theorem State.setObj_tsq0 (s : State) (o : Nat) (x : Obj) : (s.setObj o x).tsq0 = s.tsq0 := rfl
@[simp] theorem State.setObj_tsq1 (s : State) (o : Nat) (x : Obj) : (s.setObj o x).tsq1 = s.tsq1 := rfl
@[simp] theorem State.setObj_boot (s : State) (o : Nat) (x : Obj) : (s.setObj o x).boot = s.boot := rfl
@[simp] theorem State.setObj_power (s : State) (o : Nat) (x : Obj) : (s.setObj o x).power = s.power := rfl
@[simp] theorem State.setObj_pat (s : State) (o : Nat) (x : Obj) : (s.setObj o x).pat = s.pat := rfl
@[simp] theorem State.setObj_fab (s : State) (o : Nat) (x : Obj) : (s.setObj o x).fab = s.fab := rfl
@[simp] theorem State.setObj_ports (s : State) (o : Nat) (x : Obj) : (s.setObj o x).ports = s.ports := rfl
@[simp] theorem State.setObj_hangCycle (s : State) (o : Nat) (x : Obj) : (s.setObj o x).hangCycle = s.hangCycle := rfl
@[simp] theorem State.setObj_hangSets (s : State) (o : Nat) (x : Obj) : (s.setObj o x).hangSets = s.hangSets := rfl
@[simp] theorem State.setObj_hangSeen (s : State) (o : Nat) (x : Obj) : (s.setObj o x).hangSeen = s.hangSeen := rfl
@[simp] theorem State.setObj_runIds (s : State) (o : Nat) (x : Obj) : (s.setObj o x).runIds = s.runIds := rfl
@[simp] theorem State.setObj_freeCount (s : State) (o : Nat) (x : Obj) : (s.setObj o x).freeCount = s.freeCount := rfl
@[simp] theorem State.setObj_out (s : State) (o : Nat) (x : Obj) : (s.setObj o x).out = s.out := rfl

@[simp] theorem State.setJob_pending (s : State) (j : Nat) (x : Job) : (s.setJob j x).pending = s.pending := rfl
@[simp] theorem State.setJob_mem (s : State) (j : Nat) (x : Job) : (s.setJob j x).mem = s.mem := rfl
@[simp] theorem State.setJob_hostMem (s : State) (j : Nat) (x : Job) : (s.setJob j x).hostMem = s.hostMem := rfl
@[simp] theorem State.setJob_tiles (s : State) (j : Nat) (x : Job) : (s.setJob j x).tiles = s.tiles := rfl
@[simp] theorem State.setJob_clusters (s : State) (j : Nat) (x : Job) : (s.setJob j x).clusters = s.clusters := rfl
@[simp] theorem State.setJob_parts (s : State) (j : Nat) (x : Job) : (s.setJob j x).parts = s.parts := rfl
@[simp] theorem State.setJob_mbx (s : State) (j : Nat) (x : Job) : (s.setJob j x).mbx = s.mbx := rfl
@[simp] theorem State.setJob_bar2Base (s : State) (j : Nat) (x : Job) : (s.setJob j x).bar2Base = s.bar2Base := rfl
@[simp] theorem State.setJob_lows (s : State) (j : Nat) (x : Job) : (s.setJob j x).lows = s.lows := rfl
@[simp] theorem State.setJob_highs (s : State) (j : Nat) (x : Job) : (s.setJob j x).highs = s.highs := rfl
@[simp] theorem State.setJob_evt (s : State) (j : Nat) (x : Job) : (s.setJob j x).evt = s.evt := rfl
@[simp] theorem State.setJob_flt (s : State) (j : Nat) (x : Job) : (s.setJob j x).flt = s.flt := rfl
@[simp] theorem State.setJob_objects (s : State) (j : Nat) (x : Job) : (s.setJob j x).objects = s.objects := rfl
@[simp] theorem State.setJob_images (s : State) (j : Nat) (x : Job) : (s.setJob j x).images = s.images := rfl
@[simp] theorem State.setJob_jobCounter (s : State) (j : Nat) (x : Job) : (s.setJob j x).jobCounter = s.jobCounter := rfl
@[simp] theorem State.setJob_kv (s : State) (j : Nat) (x : Job) : (s.setJob j x).kv = s.kv := rfl
@[simp] theorem State.setJob_haltLatched (s : State) (j : Nat) (x : Job) : (s.setJob j x).haltLatched = s.haltLatched := rfl
@[simp] theorem State.setJob_haltAt (s : State) (j : Nat) (x : Job) : (s.setJob j x).haltAt = s.haltAt := rfl
@[simp] theorem State.setJob_haltSeq (s : State) (j : Nat) (x : Job) : (s.setJob j x).haltSeq = s.haltSeq := rfl
@[simp] theorem State.setJob_resting (s : State) (j : Nat) (x : Job) : (s.setJob j x).resting = s.resting := rfl
@[simp] theorem State.setJob_time (s : State) (j : Nat) (x : Job) : (s.setJob j x).time = s.time := rfl
@[simp] theorem State.setJob_tsq0 (s : State) (j : Nat) (x : Job) : (s.setJob j x).tsq0 = s.tsq0 := rfl
@[simp] theorem State.setJob_tsq1 (s : State) (j : Nat) (x : Job) : (s.setJob j x).tsq1 = s.tsq1 := rfl
@[simp] theorem State.setJob_boot (s : State) (j : Nat) (x : Job) : (s.setJob j x).boot = s.boot := rfl
@[simp] theorem State.setJob_power (s : State) (j : Nat) (x : Job) : (s.setJob j x).power = s.power := rfl
@[simp] theorem State.setJob_pat (s : State) (j : Nat) (x : Job) : (s.setJob j x).pat = s.pat := rfl
@[simp] theorem State.setJob_fab (s : State) (j : Nat) (x : Job) : (s.setJob j x).fab = s.fab := rfl
@[simp] theorem State.setJob_ports (s : State) (j : Nat) (x : Job) : (s.setJob j x).ports = s.ports := rfl
@[simp] theorem State.setJob_hangCycle (s : State) (j : Nat) (x : Job) : (s.setJob j x).hangCycle = s.hangCycle := rfl
@[simp] theorem State.setJob_hangSets (s : State) (j : Nat) (x : Job) : (s.setJob j x).hangSets = s.hangSets := rfl
@[simp] theorem State.setJob_hangSeen (s : State) (j : Nat) (x : Job) : (s.setJob j x).hangSeen = s.hangSeen := rfl
@[simp] theorem State.setJob_runIds (s : State) (j : Nat) (x : Job) : (s.setJob j x).runIds = s.runIds := rfl
@[simp] theorem State.setJob_freeCount (s : State) (j : Nat) (x : Job) : (s.setJob j x).freeCount = s.freeCount := rfl
@[simp] theorem State.setJob_out (s : State) (j : Nat) (x : Job) : (s.setJob j x).out = s.out := rfl

@[simp] theorem State.emit_pending (s : State) (e : Emission) : (s.emit e).pending = s.pending := rfl
@[simp] theorem State.emit_mem (s : State) (e : Emission) : (s.emit e).mem = s.mem := rfl
@[simp] theorem State.emit_hostMem (s : State) (e : Emission) : (s.emit e).hostMem = s.hostMem := rfl
@[simp] theorem State.emit_tiles (s : State) (e : Emission) : (s.emit e).tiles = s.tiles := rfl
@[simp] theorem State.emit_clusters (s : State) (e : Emission) : (s.emit e).clusters = s.clusters := rfl
@[simp] theorem State.emit_parts (s : State) (e : Emission) : (s.emit e).parts = s.parts := rfl
@[simp] theorem State.emit_mbx (s : State) (e : Emission) : (s.emit e).mbx = s.mbx := rfl
@[simp] theorem State.emit_bar2Base (s : State) (e : Emission) : (s.emit e).bar2Base = s.bar2Base := rfl
@[simp] theorem State.emit_lows (s : State) (e : Emission) : (s.emit e).lows = s.lows := rfl
@[simp] theorem State.emit_highs (s : State) (e : Emission) : (s.emit e).highs = s.highs := rfl
@[simp] theorem State.emit_evt (s : State) (e : Emission) : (s.emit e).evt = s.evt := rfl
@[simp] theorem State.emit_flt (s : State) (e : Emission) : (s.emit e).flt = s.flt := rfl
@[simp] theorem State.emit_objects (s : State) (e : Emission) : (s.emit e).objects = s.objects := rfl
@[simp] theorem State.emit_images (s : State) (e : Emission) : (s.emit e).images = s.images := rfl
@[simp] theorem State.emit_jobs (s : State) (e : Emission) : (s.emit e).jobs = s.jobs := rfl
@[simp] theorem State.emit_jobCounter (s : State) (e : Emission) : (s.emit e).jobCounter = s.jobCounter := rfl
@[simp] theorem State.emit_kv (s : State) (e : Emission) : (s.emit e).kv = s.kv := rfl
@[simp] theorem State.emit_haltLatched (s : State) (e : Emission) : (s.emit e).haltLatched = s.haltLatched := rfl
@[simp] theorem State.emit_haltAt (s : State) (e : Emission) : (s.emit e).haltAt = s.haltAt := rfl
@[simp] theorem State.emit_haltSeq (s : State) (e : Emission) : (s.emit e).haltSeq = s.haltSeq := rfl
@[simp] theorem State.emit_resting (s : State) (e : Emission) : (s.emit e).resting = s.resting := rfl
@[simp] theorem State.emit_time (s : State) (e : Emission) : (s.emit e).time = s.time := rfl
@[simp] theorem State.emit_tsq0 (s : State) (e : Emission) : (s.emit e).tsq0 = s.tsq0 := rfl
@[simp] theorem State.emit_tsq1 (s : State) (e : Emission) : (s.emit e).tsq1 = s.tsq1 := rfl
@[simp] theorem State.emit_boot (s : State) (e : Emission) : (s.emit e).boot = s.boot := rfl
@[simp] theorem State.emit_power (s : State) (e : Emission) : (s.emit e).power = s.power := rfl
@[simp] theorem State.emit_pat (s : State) (e : Emission) : (s.emit e).pat = s.pat := rfl
@[simp] theorem State.emit_fab (s : State) (e : Emission) : (s.emit e).fab = s.fab := rfl
@[simp] theorem State.emit_ports (s : State) (e : Emission) : (s.emit e).ports = s.ports := rfl
@[simp] theorem State.emit_hangCycle (s : State) (e : Emission) : (s.emit e).hangCycle = s.hangCycle := rfl
@[simp] theorem State.emit_hangSets (s : State) (e : Emission) : (s.emit e).hangSets = s.hangSets := rfl
@[simp] theorem State.emit_hangSeen (s : State) (e : Emission) : (s.emit e).hangSeen = s.hangSeen := rfl
@[simp] theorem State.emit_runIds (s : State) (e : Emission) : (s.emit e).runIds = s.runIds := rfl
@[simp] theorem State.emit_freeCount (s : State) (e : Emission) : (s.emit e).freeCount = s.freeCount := rfl

@[simp] theorem State.fresh_pending (s : State) : s.fresh.2.pending = s.pending := rfl
@[simp] theorem State.freeBytes_pending (s : State) (n : Nat) : (s.freeBytes n).2.pending = s.pending := rfl
@[simp] theorem State.fresh_mem (s : State) : s.fresh.2.mem = s.mem := rfl
@[simp] theorem State.freeBytes_mem (s : State) (n : Nat) : (s.freeBytes n).2.mem = s.mem := rfl
@[simp] theorem State.fresh_hostMem (s : State) : s.fresh.2.hostMem = s.hostMem := rfl
@[simp] theorem State.freeBytes_hostMem (s : State) (n : Nat) : (s.freeBytes n).2.hostMem = s.hostMem := rfl
@[simp] theorem State.fresh_tiles (s : State) : s.fresh.2.tiles = s.tiles := rfl
@[simp] theorem State.freeBytes_tiles (s : State) (n : Nat) : (s.freeBytes n).2.tiles = s.tiles := rfl
@[simp] theorem State.fresh_clusters (s : State) : s.fresh.2.clusters = s.clusters := rfl
@[simp] theorem State.freeBytes_clusters (s : State) (n : Nat) : (s.freeBytes n).2.clusters = s.clusters := rfl
@[simp] theorem State.fresh_parts (s : State) : s.fresh.2.parts = s.parts := rfl
@[simp] theorem State.freeBytes_parts (s : State) (n : Nat) : (s.freeBytes n).2.parts = s.parts := rfl
@[simp] theorem State.fresh_mbx (s : State) : s.fresh.2.mbx = s.mbx := rfl
@[simp] theorem State.freeBytes_mbx (s : State) (n : Nat) : (s.freeBytes n).2.mbx = s.mbx := rfl
@[simp] theorem State.fresh_bar2Base (s : State) : s.fresh.2.bar2Base = s.bar2Base := rfl
@[simp] theorem State.freeBytes_bar2Base (s : State) (n : Nat) : (s.freeBytes n).2.bar2Base = s.bar2Base := rfl
@[simp] theorem State.fresh_lows (s : State) : s.fresh.2.lows = s.lows := rfl
@[simp] theorem State.freeBytes_lows (s : State) (n : Nat) : (s.freeBytes n).2.lows = s.lows := rfl
@[simp] theorem State.fresh_highs (s : State) : s.fresh.2.highs = s.highs := rfl
@[simp] theorem State.freeBytes_highs (s : State) (n : Nat) : (s.freeBytes n).2.highs = s.highs := rfl
@[simp] theorem State.fresh_evt (s : State) : s.fresh.2.evt = s.evt := rfl
@[simp] theorem State.freeBytes_evt (s : State) (n : Nat) : (s.freeBytes n).2.evt = s.evt := rfl
@[simp] theorem State.fresh_flt (s : State) : s.fresh.2.flt = s.flt := rfl
@[simp] theorem State.freeBytes_flt (s : State) (n : Nat) : (s.freeBytes n).2.flt = s.flt := rfl
@[simp] theorem State.fresh_objects (s : State) : s.fresh.2.objects = s.objects := rfl
@[simp] theorem State.freeBytes_objects (s : State) (n : Nat) : (s.freeBytes n).2.objects = s.objects := rfl
@[simp] theorem State.fresh_images (s : State) : s.fresh.2.images = s.images := rfl
@[simp] theorem State.freeBytes_images (s : State) (n : Nat) : (s.freeBytes n).2.images = s.images := rfl
@[simp] theorem State.fresh_jobs (s : State) : s.fresh.2.jobs = s.jobs := rfl
@[simp] theorem State.freeBytes_jobs (s : State) (n : Nat) : (s.freeBytes n).2.jobs = s.jobs := rfl
@[simp] theorem State.fresh_jobCounter (s : State) : s.fresh.2.jobCounter = s.jobCounter := rfl
@[simp] theorem State.freeBytes_jobCounter (s : State) (n : Nat) : (s.freeBytes n).2.jobCounter = s.jobCounter := rfl
@[simp] theorem State.fresh_kv (s : State) : s.fresh.2.kv = s.kv := rfl
@[simp] theorem State.freeBytes_kv (s : State) (n : Nat) : (s.freeBytes n).2.kv = s.kv := rfl
@[simp] theorem State.fresh_haltLatched (s : State) : s.fresh.2.haltLatched = s.haltLatched := rfl
@[simp] theorem State.fresh_haltAt (s : State) : s.fresh.2.haltAt = s.haltAt := rfl
@[simp] theorem State.freeBytes_haltLatched (s : State) (n : Nat) : (s.freeBytes n).2.haltLatched = s.haltLatched := rfl
@[simp] theorem State.freeBytes_haltAt (s : State) (n : Nat) : (s.freeBytes n).2.haltAt = s.haltAt := rfl
@[simp] theorem State.fresh_haltSeq (s : State) : s.fresh.2.haltSeq = s.haltSeq := rfl
@[simp] theorem State.freeBytes_haltSeq (s : State) (n : Nat) : (s.freeBytes n).2.haltSeq = s.haltSeq := rfl
@[simp] theorem State.fresh_resting (s : State) : s.fresh.2.resting = s.resting := rfl
@[simp] theorem State.freeBytes_resting (s : State) (n : Nat) : (s.freeBytes n).2.resting = s.resting := rfl
@[simp] theorem State.fresh_time (s : State) : s.fresh.2.time = s.time := rfl
@[simp] theorem State.freeBytes_time (s : State) (n : Nat) : (s.freeBytes n).2.time = s.time := rfl
@[simp] theorem State.fresh_tsq0 (s : State) : s.fresh.2.tsq0 = s.tsq0 := rfl
@[simp] theorem State.freeBytes_tsq0 (s : State) (n : Nat) : (s.freeBytes n).2.tsq0 = s.tsq0 := rfl
@[simp] theorem State.fresh_tsq1 (s : State) : s.fresh.2.tsq1 = s.tsq1 := rfl
@[simp] theorem State.freeBytes_tsq1 (s : State) (n : Nat) : (s.freeBytes n).2.tsq1 = s.tsq1 := rfl
@[simp] theorem State.fresh_boot (s : State) : s.fresh.2.boot = s.boot := rfl
@[simp] theorem State.freeBytes_boot (s : State) (n : Nat) : (s.freeBytes n).2.boot = s.boot := rfl
@[simp] theorem State.fresh_power (s : State) : s.fresh.2.power = s.power := rfl
@[simp] theorem State.freeBytes_power (s : State) (n : Nat) : (s.freeBytes n).2.power = s.power := rfl
@[simp] theorem State.fresh_pat (s : State) : s.fresh.2.pat = s.pat := rfl
@[simp] theorem State.freeBytes_pat (s : State) (n : Nat) : (s.freeBytes n).2.pat = s.pat := rfl
@[simp] theorem State.fresh_fab (s : State) : s.fresh.2.fab = s.fab := rfl
@[simp] theorem State.freeBytes_fab (s : State) (n : Nat) : (s.freeBytes n).2.fab = s.fab := rfl
@[simp] theorem State.fresh_ports (s : State) : s.fresh.2.ports = s.ports := rfl
@[simp] theorem State.freeBytes_ports (s : State) (n : Nat) : (s.freeBytes n).2.ports = s.ports := rfl
@[simp] theorem State.fresh_hangCycle (s : State) : s.fresh.2.hangCycle = s.hangCycle := rfl
@[simp] theorem State.freeBytes_hangCycle (s : State) (n : Nat) : (s.freeBytes n).2.hangCycle = s.hangCycle := rfl
@[simp] theorem State.fresh_hangSets (s : State) : s.fresh.2.hangSets = s.hangSets := rfl
@[simp] theorem State.freeBytes_hangSets (s : State) (n : Nat) : (s.freeBytes n).2.hangSets = s.hangSets := rfl
@[simp] theorem State.fresh_hangSeen (s : State) : s.fresh.2.hangSeen = s.hangSeen := rfl
@[simp] theorem State.freeBytes_hangSeen (s : State) (n : Nat) : (s.freeBytes n).2.hangSeen = s.hangSeen := rfl
@[simp] theorem State.fresh_runIds (s : State) : s.fresh.2.runIds = s.runIds := rfl
@[simp] theorem State.freeBytes_runIds (s : State) (n : Nat) : (s.freeBytes n).2.runIds = s.runIds := rfl
@[simp] theorem State.fresh_out (s : State) : s.fresh.2.out = s.out := rfl
@[simp] theorem State.freeBytes_out (s : State) (n : Nat) : (s.freeBytes n).2.out = s.out := rfl

/-! ### The tables' own entries -/

@[simp] theorem State.tile_setTile (s : State) (t : TileId) (x : TileState) : (s.setTile t x).tile t = x := by
  simp [State.tile, State.setTile]

theorem State.tile_setTile_ne (s : State) {t u : TileId} (x : TileState) (h : u ≠ t) :
    (s.setTile t x).tile u = s.tile u := by
  have h' : u.toNat ≠ t.toNat := fun e => h (BitVec.eq_of_toNat_eq e)
  simp [State.tile, State.setTile, Tab.get?_put_ne _ _ h']

@[simp] theorem State.setTile_setTile (s : State) (t : TileId) (x y : TileState) :
    (s.setTile t x).setTile t y = s.setTile t y := by
  simp [State.setTile]

@[simp] theorem State.cluster_setCluster (s : State) (c : Nat) (x : Cluster) : (s.setCluster c x).cluster c = x := by
  simp [State.cluster, State.setCluster]

theorem State.cluster_setCluster_ne (s : State) {c d : Nat} (x : Cluster) (h : d ≠ c) :
    (s.setCluster c x).cluster d = s.cluster d := by
  simp [State.cluster, State.setCluster, Tab.get?_put_ne _ _ h]

@[simp] theorem State.setCluster_setCluster (s : State) (c : Nat) (x y : Cluster) :
    (s.setCluster c x).setCluster c y = s.setCluster c y := by
  simp [State.setCluster]

@[simp] theorem State.part_setPart (s : State) (p : Nat) (x : Part) : (s.setPart p x).part p = x := by
  simp [State.part, State.setPart]

theorem State.part_setPart_ne (s : State) {p q : Nat} (x : Part) (h : q ≠ p) : (s.setPart p x).part q = s.part q := by
  simp [State.part, State.setPart, Tab.get?_put_ne _ _ h]

@[simp] theorem State.setPart_setPart (s : State) (p : Nat) (x y : Part) : (s.setPart p x).setPart p y = s.setPart p y := by
  simp [State.setPart]

@[simp] theorem State.box_setBox (s : State) (m : MbxId) (x : Mailbox) : (s.setBox m x).box m = x := by
  simp [State.box, State.setBox]

theorem State.box_setBox_ne (s : State) {m n : MbxId} (x : Mailbox) (h : n ≠ m) : (s.setBox m x).box n = s.box n := by
  have h' : n.toNat ≠ m.toNat := fun e => h (BitVec.eq_of_toNat_eq e)
  simp [State.box, State.setBox, Tab.get?_put_ne _ _ h']

@[simp] theorem State.setBox_setBox (s : State) (m : MbxId) (x y : Mailbox) : (s.setBox m x).setBox m y = s.setBox m y := by
  simp [State.setBox]

@[simp] theorem State.obj?_setObj (s : State) (o : Nat) (x : Obj) : (s.setObj o x).obj? o = some x := by
  simp [State.obj?, State.setObj]

theorem State.obj?_setObj_ne (s : State) {o k : Nat} (x : Obj) (h : k ≠ o) : (s.setObj o x).obj? k = s.obj? k := by
  simp [State.obj?, State.setObj, Tab.get?_put_ne _ _ h]

@[simp] theorem State.job?_setJob (s : State) (j : Nat) (x : Job) : (s.setJob j x).job? j = some x := by
  simp [State.job?, State.setJob]

theorem State.job?_setJob_ne (s : State) {j k : Nat} (x : Job) (h : k ≠ j) : (s.setJob j x).job? k = s.job? k := by
  simp [State.job?, State.setJob, Tab.get?_put_ne _ _ h]

/-! ### Readers of other tables -/

@[simp] theorem State.cluster_setTile (s : State) (t : TileId) (x : TileState) (d : Nat) : (s.setTile t x).cluster d = s.cluster d := rfl
@[simp] theorem State.part_setTile (s : State) (t : TileId) (x : TileState) (q : Nat) : (s.setTile t x).part q = s.part q := rfl
@[simp] theorem State.box_setTile (s : State) (t : TileId) (x : TileState) (n : MbxId) : (s.setTile t x).box n = s.box n := rfl
@[simp] theorem State.obj?_setTile (s : State) (t : TileId) (x : TileState) (k : Nat) : (s.setTile t x).obj? k = s.obj? k := rfl
@[simp] theorem State.job?_setTile (s : State) (t : TileId) (x : TileState) (k : Nat) : (s.setTile t x).job? k = s.job? k := rfl
@[simp] theorem State.image?_setTile (s : State) (t : TileId) (x : TileState) (k : Nat) : (s.setTile t x).image? k = s.image? k := rfl
@[simp] theorem State.now_setTile (s : State) (t : TileId) (x : TileState) : (s.setTile t x).now = s.now := rfl
@[simp] theorem State.tile_setCluster (s : State) (c : Nat) (x : Cluster) (u : TileId) : (s.setCluster c x).tile u = s.tile u := rfl
@[simp] theorem State.part_setCluster (s : State) (c : Nat) (x : Cluster) (q : Nat) : (s.setCluster c x).part q = s.part q := rfl
@[simp] theorem State.box_setCluster (s : State) (c : Nat) (x : Cluster) (n : MbxId) : (s.setCluster c x).box n = s.box n := rfl
@[simp] theorem State.obj?_setCluster (s : State) (c : Nat) (x : Cluster) (k : Nat) : (s.setCluster c x).obj? k = s.obj? k := rfl
@[simp] theorem State.job?_setCluster (s : State) (c : Nat) (x : Cluster) (k : Nat) : (s.setCluster c x).job? k = s.job? k := rfl
@[simp] theorem State.image?_setCluster (s : State) (c : Nat) (x : Cluster) (k : Nat) : (s.setCluster c x).image? k = s.image? k := rfl
@[simp] theorem State.now_setCluster (s : State) (c : Nat) (x : Cluster) : (s.setCluster c x).now = s.now := rfl
@[simp] theorem State.tile_setPart (s : State) (p : Nat) (x : Part) (u : TileId) : (s.setPart p x).tile u = s.tile u := rfl
@[simp] theorem State.cluster_setPart (s : State) (p : Nat) (x : Part) (d : Nat) : (s.setPart p x).cluster d = s.cluster d := rfl
@[simp] theorem State.box_setPart (s : State) (p : Nat) (x : Part) (n : MbxId) : (s.setPart p x).box n = s.box n := rfl
@[simp] theorem State.obj?_setPart (s : State) (p : Nat) (x : Part) (k : Nat) : (s.setPart p x).obj? k = s.obj? k := rfl
@[simp] theorem State.job?_setPart (s : State) (p : Nat) (x : Part) (k : Nat) : (s.setPart p x).job? k = s.job? k := rfl
@[simp] theorem State.image?_setPart (s : State) (p : Nat) (x : Part) (k : Nat) : (s.setPart p x).image? k = s.image? k := rfl
@[simp] theorem State.now_setPart (s : State) (p : Nat) (x : Part) : (s.setPart p x).now = s.now := rfl
@[simp] theorem State.tile_setBox (s : State) (m : MbxId) (x : Mailbox) (u : TileId) : (s.setBox m x).tile u = s.tile u := rfl
@[simp] theorem State.cluster_setBox (s : State) (m : MbxId) (x : Mailbox) (d : Nat) : (s.setBox m x).cluster d = s.cluster d := rfl
@[simp] theorem State.part_setBox (s : State) (m : MbxId) (x : Mailbox) (q : Nat) : (s.setBox m x).part q = s.part q := rfl
@[simp] theorem State.obj?_setBox (s : State) (m : MbxId) (x : Mailbox) (k : Nat) : (s.setBox m x).obj? k = s.obj? k := rfl
@[simp] theorem State.job?_setBox (s : State) (m : MbxId) (x : Mailbox) (k : Nat) : (s.setBox m x).job? k = s.job? k := rfl
@[simp] theorem State.image?_setBox (s : State) (m : MbxId) (x : Mailbox) (k : Nat) : (s.setBox m x).image? k = s.image? k := rfl
@[simp] theorem State.now_setBox (s : State) (m : MbxId) (x : Mailbox) : (s.setBox m x).now = s.now := rfl
@[simp] theorem State.tile_setObj (s : State) (o : Nat) (x : Obj) (u : TileId) : (s.setObj o x).tile u = s.tile u := rfl
@[simp] theorem State.cluster_setObj (s : State) (o : Nat) (x : Obj) (d : Nat) : (s.setObj o x).cluster d = s.cluster d := rfl
@[simp] theorem State.part_setObj (s : State) (o : Nat) (x : Obj) (q : Nat) : (s.setObj o x).part q = s.part q := rfl
@[simp] theorem State.box_setObj (s : State) (o : Nat) (x : Obj) (n : MbxId) : (s.setObj o x).box n = s.box n := rfl
@[simp] theorem State.job?_setObj (s : State) (o : Nat) (x : Obj) (k : Nat) : (s.setObj o x).job? k = s.job? k := rfl
@[simp] theorem State.image?_setObj (s : State) (o : Nat) (x : Obj) (k : Nat) : (s.setObj o x).image? k = s.image? k := rfl
@[simp] theorem State.now_setObj (s : State) (o : Nat) (x : Obj) : (s.setObj o x).now = s.now := rfl
@[simp] theorem State.tile_setJob (s : State) (j : Nat) (x : Job) (u : TileId) : (s.setJob j x).tile u = s.tile u := rfl
@[simp] theorem State.cluster_setJob (s : State) (j : Nat) (x : Job) (d : Nat) : (s.setJob j x).cluster d = s.cluster d := rfl
@[simp] theorem State.part_setJob (s : State) (j : Nat) (x : Job) (q : Nat) : (s.setJob j x).part q = s.part q := rfl
@[simp] theorem State.box_setJob (s : State) (j : Nat) (x : Job) (n : MbxId) : (s.setJob j x).box n = s.box n := rfl
@[simp] theorem State.obj?_setJob (s : State) (j : Nat) (x : Job) (k : Nat) : (s.setJob j x).obj? k = s.obj? k := rfl
@[simp] theorem State.image?_setJob (s : State) (j : Nat) (x : Job) (k : Nat) : (s.setJob j x).image? k = s.image? k := rfl
@[simp] theorem State.now_setJob (s : State) (j : Nat) (x : Job) : (s.setJob j x).now = s.now := rfl
@[simp] theorem State.tile_emit (s : State) (e : Emission) (u : TileId) : (s.emit e).tile u = s.tile u := rfl
@[simp] theorem State.cluster_emit (s : State) (e : Emission) (d : Nat) : (s.emit e).cluster d = s.cluster d := rfl
@[simp] theorem State.part_emit (s : State) (e : Emission) (q : Nat) : (s.emit e).part q = s.part q := rfl
@[simp] theorem State.box_emit (s : State) (e : Emission) (n : MbxId) : (s.emit e).box n = s.box n := rfl
@[simp] theorem State.obj?_emit (s : State) (e : Emission) (k : Nat) : (s.emit e).obj? k = s.obj? k := rfl
@[simp] theorem State.job?_emit (s : State) (e : Emission) (k : Nat) : (s.emit e).job? k = s.job? k := rfl
@[simp] theorem State.image?_emit (s : State) (e : Emission) (k : Nat) : (s.emit e).image? k = s.image? k := rfl
@[simp] theorem State.now_emit (s : State) (e : Emission) : (s.emit e).now = s.now := rfl

end Sys2Proof.Machine
end

