-- ==== Sys2Proof/Laws/Memory.lean ====
section
/-! SUPPORT. The canonical form of memory: every memory operation keeps it, and what a read gives after a write. -/

namespace Sys2Proof.Machine

theorem Memory.wf_iff (m : Memory) :
    m.wf = true ↔ m.Pairwise (fun x y => x.1 < y.1) ∧ ∀ c ∈ m, c.2 ≠ Memory.unlisted := by
  simp [Memory.wf]

theorem Memory.wf_nil : Memory.wf [] = true := rfl

/-! ### The cells of a byte sequence -/

theorem Memory.cells_bounds (bs : List Byte) (a : Nat) :
    ∀ c ∈ Memory.cells a bs, a ≤ c.1 ∧ c.1 < a + bs.length ∧ c.2 ≠ Memory.unlisted := by
  induction bs generalizing a with
  | nil => simp [Memory.cells]
  | cons b bs ih =>
    intro c hc
    unfold Memory.cells at hc
    split at hc
    · obtain ⟨h1, h2, h3⟩ := ih (a + 1) c hc
      rw [List.length_cons]
      exact ⟨by omega, by omega, h3⟩
    · rcases List.mem_cons.mp hc with rfl | hc
      · exact ⟨Nat.le_refl _, by simp, ‹_›⟩
      · obtain ⟨h1, h2, h3⟩ := ih (a + 1) c hc
        rw [List.length_cons]
        exact ⟨by omega, by omega, h3⟩

theorem Memory.cells_sorted (bs : List Byte) (a : Nat) : (Memory.cells a bs).Pairwise (fun x y => x.1 < y.1) := by
  induction bs generalizing a with
  | nil => simp [Memory.cells]
  | cons b bs ih =>
    unfold Memory.cells
    split
    · exact ih (a + 1)
    · exact List.pairwise_cons.mpr ⟨fun c hc => by have := cells_bounds bs (a + 1) c hc; simp only; omega, ih (a + 1)⟩

/-! ### Operations keep the canonical form -/

theorem Memory.write_wf {m : Memory} (h : m.wf = true) (a : Nat) (bs : List Byte) : (m.write a bs).wf = true := by
  rw [wf_iff] at h ⊢
  obtain ⟨hs, hz⟩ := h
  unfold Memory.write
  constructor
  · rw [List.pairwise_append, List.pairwise_append]
    refine ⟨⟨hs.filter _, cells_sorted bs a, ?_⟩, hs.filter _, ?_⟩
    · intro x hx y hy
      have := (cells_bounds bs a y hy).1
      simp only [List.mem_filter, decide_eq_true_eq] at hx
      omega
    · intro x hx y hy
      simp only [List.mem_filter, decide_eq_true_eq] at hy
      rcases List.mem_append.mp hx with hx | hx
      · simp only [List.mem_filter, decide_eq_true_eq] at hx
        omega
      · have := (cells_bounds bs a x hx).2.1
        omega
  · intro c hc
    simp only [List.mem_append, List.mem_filter] at hc
    rcases hc with (hc | hc) | hc
    · exact hz c hc.1
    · exact (cells_bounds bs a c hc).2.2
    · exact hz c hc.1

theorem Memory.clear_wf {m : Memory} (h : m.wf = true) (a n : Nat) : (m.clear a n).wf = true := by
  rw [wf_iff] at h ⊢
  obtain ⟨hs, hz⟩ := h
  unfold Memory.clear
  constructor
  · rw [List.pairwise_append]
    refine ⟨hs.filter _, hs.filter _, ?_⟩
    intro x hx y hy
    simp only [List.mem_filter, decide_eq_true_eq] at hx hy
    omega
  · intro c hc
    simp only [List.mem_append, List.mem_filter] at hc
    rcases hc with hc | hc <;> exact hz c hc.1

/-! ### Reads after writes -/

theorem Memory.find?_cells_none (bs : List Byte) {a b : Nat} (h : b < a) :
    (Memory.cells a bs).find? (fun c => c.1 == b) = none := by
  rw [List.find?_eq_none]
  intro c hc
  have := (cells_bounds bs a c hc).1
  simp; omega

theorem Memory.byte_cells (bs : List Byte) (a i : Nat) (h : i < bs.length) :
    Memory.byte (Memory.cells a bs) (a + i) = bs[i] := by
  induction bs generalizing a i with
  | nil => simp at h
  | cons b bs ih =>
    cases i with
    | zero =>
      unfold Memory.cells
      split
      · rename_i hb
        simp [Memory.byte, find?_cells_none bs (Nat.lt_succ_self a), hb]
      · simp [Memory.byte]
    | succ i =>
      have e : a + (i + 1) = a + 1 + i := by omega
      have hi : i < bs.length := by simpa using h
      unfold Memory.cells
      split
      · rw [e, ih (a + 1) i hi, List.getElem_cons_succ]
      · have hne : ((a, b).1 == a + (i + 1)) = false := by simp
        simp only [Memory.byte, List.find?_cons, hne]
        have := ih (a + 1) i hi
        simp only [Memory.byte] at this
        rw [e, this, List.getElem_cons_succ]

/-- A write leaves every byte outside its range. -/
theorem Memory.byte_write_outside (m : Memory) (a : Nat) (bs : List Byte) (b : Nat) (h : b < a ∨ a + bs.length ≤ b) :
    (m.write a bs).byte b = m.byte b := by
  unfold Memory.byte Memory.write
  rw [List.find?_append, List.find?_append]
  have hc : (Memory.cells a bs).find? (fun c => c.1 == b) = none := by
    rw [List.find?_eq_none]
    intro c hc
    have := cells_bounds bs a c hc
    simp; omega
  rw [hc]
  rcases h with h | h
  · rw [find?_filter_of_imp _ _ (fun x hx => by simp at hx ⊢; omega),
      find?_filter_none _ _ (fun x hx => by simp at hx ⊢; omega)]
    simp
  · rw [find?_filter_none _ _ (fun x hx => by simp at hx ⊢; omega),
      find?_filter_of_imp _ _ (fun x hx => by simp at hx ⊢; omega)]
    simp

/-- A write puts each of its bytes at its address. -/
theorem Memory.byte_write_inside (m : Memory) (a : Nat) (bs : List Byte) (i : Nat) (h : i < bs.length) :
    (m.write a bs).byte (a + i) = bs[i] := by
  have hb := byte_cells bs a i h
  unfold Memory.byte at hb ⊢
  unfold Memory.write
  have hi : (m.filter fun c => decide (a + bs.length ≤ c.1)).find? (fun c => c.1 == a + i) = none :=
    find?_filter_none _ _ (fun x hx => by simp at hx ⊢; omega) _
  rw [List.find?_append, List.find?_append,
    find?_filter_none _ _ (fun x hx => by simp at hx ⊢; omega), Option.none_or, hi, Option.or_none]
  exact hb

/-- A read of a whole write gives the bytes written. -/
theorem Memory.read_write (m : Memory) (a : Nat) (bs : List Byte) : (m.write a bs).read a bs.length = bs := by
  apply List.ext_getElem
  · simp [Memory.read]
  · intro i h1 h2
    simp [Memory.read, byte_write_inside m a bs i h2]

/-- A cleared range reads as an address that nothing has written. -/
theorem Memory.byte_clear_inside (m : Memory) (a n b : Nat) (h : a ≤ b) (h' : b < a + n) : (m.clear a n).byte b = Memory.unlisted := by
  unfold Memory.byte Memory.clear
  rw [List.find?_append, find?_filter_none _ _ (fun x hx => by simp at hx ⊢; omega),
    find?_filter_none _ _ (fun x hx => by simp at hx ⊢; omega)]
  rfl

theorem Memory.byte_clear_outside (m : Memory) (a n b : Nat) (h : b < a ∨ a + n ≤ b) : (m.clear a n).byte b = m.byte b := by
  unfold Memory.byte Memory.clear
  rw [List.find?_append]
  rcases h with h | h
  · rw [find?_filter_of_imp _ _ (fun x hx => by simp at hx ⊢; omega),
      find?_filter_none _ _ (fun x hx => by simp at hx ⊢; omega)]
    simp
  · rw [find?_filter_none _ _ (fun x hx => by simp at hx ⊢; omega),
      find?_filter_of_imp _ _ (fun x hx => by simp at hx ⊢; omega)]
    simp

/-! ### The named operations over the state's memories -/

/-- Both memories of a state are in canonical form. -/
def State.memWf (s : State) : Bool := s.mem.wf && s.hostMem.wf

theorem State.memWf_iff (s : State) : s.memWf = true ↔ s.mem.wf = true ∧ s.hostMem.wf = true := by
  simp [State.memWf]

theorem State.memWf_reset : State.reset.memWf = true := rfl

theorem scratchWrite_wf {s : State} (h : s.mem.wf = true) (t : TileId) (a : Nat) (bs : List Byte) :
    (scratchWrite s t a bs).mem.wf = true := by
  unfold scratchWrite
  exact Memory.write_wf (Memory.write_wf h _ _) _ _

end Sys2Proof.Machine
end

