-- ==== Sys2Proof/Laws/Words.lean ====
section
/-! SUPPORT. What the shared operations of the sequencer do: issue, unit queues, guarded reads, barriers. -/

namespace Sys2Proof.Machine

/-! ### Injection (R413) -/

@[simp] theorem takeInjection_none {s : State} (h : s.flt.pending = none) (d : Nat) (hit : Injection → Bool) :
    takeInjection s d hit = (none, s) := by
  simp [takeInjection, h]

/-- A taken injection changes only the fault block. -/
theorem takeInjection_frame (s : State) (d : Nat) (hit : Injection → Bool) :
    (takeInjection s d hit).2 = { s with flt := (takeInjection s d hit).2.flt } := by
  unfold takeInjection
  split
  · rfl
  · split <;> rfl

/-! ### Issue (R40, R53) -/

/-- A word on a tile that issues, without an injection, takes its own effect. -/
theorem word_issuing {s : State} {t : TileId} (h : Issuing s t) (f : State → State) : word s t f = .next (f s) := by
  simp [word, onlyIf, h.1, h.2]

/-- A word on a tile that issues nothing changes nothing. -/
theorem word_idle {s : State} {t : TileId} (h : (s.tile t).issues = false) (f : State → State) : word s t f = .next s := by
  simp [word, onlyIf, h]

@[simp] theorem updTile_setTile (s : State) (t : TileId) (x : TileState) (f : TileState → TileState) :
    updTile (s.setTile t x) t f = s.setTile t (f x) := by
  simp [updTile]

theorem goOn_eq (s : State) (t : TileId) : goOn s t = s.setTile t (s.tile t).advance := rfl

@[simp] theorem goOn_setTile (s : State) (t : TileId) (x : TileState) : goOn (s.setTile t x) t = s.setTile t x.advance := by
  simp [goOn]

/-! ### Units (R40, R43) -/

/-- A unit with room takes the word, and the word's effect follows. -/
theorem toUnit_room {s : State} {t : TileId} {u : UnitId} (h : (unitQ (s.tile t) u).length < 5) (w : SeqWord) (f : State → State) :
    toUnit s t u w f = f (queued s t u w) := by
  have : ¬ 5 ≤ (unitQ (s.tile t) u).length := by omega
  simp [toUnit, unitFull, this, queued]

/-- A full unit stalls the sequencer before the word and changes nothing else. -/
theorem toUnit_full {s : State} {t : TileId} {u : UnitId} (h : 5 ≤ (unitQ (s.tile t) u).length) (w : SeqWord) (f : State → State) :
    toUnit s t u w f = s.setTile t { s.tile t with stall := .queueFull w } := by
  simp [toUnit, unitFull, h]

theorem queued_eq (s : State) (t : TileId) (u : UnitId) (w : SeqWord) :
    queued s t u w = s.setTile t (TileState.advance (setUnitQ (s.tile t) u (unitQ (s.tile t) u ++ [w]))) := by
  simp [queued]

@[simp] theorem queued_mem (s : State) (t : TileId) (u : UnitId) (w : SeqWord) : (queued s t u w).mem = s.mem := by simp [queued_eq]
@[simp] theorem queued_flt (s : State) (t : TileId) (u : UnitId) (w : SeqWord) : (queued s t u w).flt = s.flt := by simp [queued_eq]
@[simp] theorem queued_freeCount (s : State) (t : TileId) (u : UnitId) (w : SeqWord) : (queued s t u w).freeCount = s.freeCount := by
  simp [queued_eq]

@[simp] theorem scratchRead_queued (s : State) (t v : TileId) (u : UnitId) (w : SeqWord) (a n : Nat) :
    scratchRead (queued s t u w) v a n = scratchRead s v a n := by
  simp [scratchRead]

@[simp] theorem scratchRead_setTile (s : State) (t v : TileId) (x : TileState) (a n : Nat) :
    scratchRead (s.setTile t x) v a n = scratchRead s v a n := by
  simp [scratchRead]

/-! ### Guarded reads (R35) -/

@[simp] theorem eccReads_none {s : State} (h : s.flt.pending = none) (t : TileId) (rs : List Span) : eccReads s t rs = (s, false) := by
  simp [eccReads, h]

@[simp] theorem withReads_none {s : State} (h : s.flt.pending = none) (t : TileId) (rs : List Span) (f : State → State) :
    withReads s t rs f = f s := by
  simp [withReads, h]

/-! ### Advancing keeps everything but the sequencer's place -/

theorem TileState.advance_eq (x : TileState) : x.advance =
    { x with pc := (branchBack x.pc x.loops x.counters).1, loops := (branchBack x.pc x.loops x.counters).2.1
             counters := (branchBack x.pc x.loops x.counters).2.2, issued := x.issued + 1 } := rfl

/-! ### Scratchpad writes (R54) -/

theorem scratchWrite_eq (s : State) (t : TileId) (a : Nat) (bs : List Byte) :
    scratchWrite s t a bs = { s with mem := (scratchWrite s t a bs).mem } := rfl

/-- A scratchpad write of at most 1 MiB leaves every byte outside its range. -/
theorem scratchWrite_outside (s : State) (t : TileId) (a : Nat) (bs : List Byte) (b : Nat)
    (hn : bs.length ≤ 0x100000) (h : ∀ i < bs.length, b ≠ t0Base t + (a + i) % 0x100000) : (scratchWrite s t a bs).mem.byte b = s.mem.byte b := by
  unfold scratchWrite
  simp only
  have hlen : (bs.take (0x100000 - a % 0x100000)).length = min (0x100000 - a % 0x100000) bs.length := List.length_take
  have hlen2 : (bs.drop (0x100000 - a % 0x100000)).length = bs.length - (0x100000 - a % 0x100000) := List.length_drop
  rw [Memory.byte_write_outside, Memory.byte_write_outside]
  · rw [hlen]
    by_cases h1 : b < t0Base t + a % 0x100000
    · exact .inl h1
    · refine .inr ?_
      apply Classical.byContradiction
      intro h2
      have hi : b - (t0Base t + a % 0x100000) < bs.length := by omega
      have := h _ hi
      omega
  · rw [hlen2]
    by_cases h1 : b < t0Base t
    · exact .inl h1
    · refine .inr ?_
      apply Classical.byContradiction
      intro h2
      have hi : b - t0Base t + (0x100000 - a % 0x100000) < bs.length := by omega
      have := h _ hi
      omega

/-- A scratchpad write of at most 1 MiB puts each of its bytes at its place. -/
theorem scratchWrite_inside (s : State) (t : TileId) (a : Nat) (bs : List Byte) (i : Nat) (hn : bs.length ≤ 0x100000) (hi : i < bs.length) :
    (scratchWrite s t a bs).mem.byte (t0Base t + (a + i) % 0x100000) = bs[i] := by
  unfold scratchWrite
  simp only
  have hlen : (bs.take (0x100000 - a % 0x100000)).length = min (0x100000 - a % 0x100000) bs.length := List.length_take
  have hlen2 : (bs.drop (0x100000 - a % 0x100000)).length = bs.length - (0x100000 - a % 0x100000) := List.length_drop
  by_cases h1 : i < 0x100000 - a % 0x100000
  · have e : t0Base t + (a + i) % 0x100000 = t0Base t + a % 0x100000 + i := by omega
    rw [Memory.byte_write_outside _ _ _ _ (.inr (by rw [hlen2]; omega)), e, Memory.byte_write_inside _ _ _ i (by rw [hlen]; omega)]
    simp
  · have e : t0Base t + (a + i) % 0x100000 = t0Base t + (i - (0x100000 - a % 0x100000)) := by omega
    rw [e, Memory.byte_write_inside _ _ _ (i - (0x100000 - a % 0x100000)) (by rw [hlen2]; omega)]
    simp only [List.getElem_drop]
    congr 1
    omega

/-- A read of a whole scratchpad write of at most 1 MiB gives the bytes written. -/
theorem scratchRead_scratchWrite (s : State) (t : TileId) (a : Nat) (bs : List Byte) (hn : bs.length ≤ 0x100000) :
    scratchRead (scratchWrite s t a bs) t a bs.length = bs := by
  apply List.ext_getElem
  · simp [scratchRead]
  · intro i h1 h2
    simp only [scratchRead, List.getElem_map, List.getElem_range]
    exact scratchWrite_inside s t a bs i hn h2

end Sys2Proof.Machine
end

