-- ==== Sys2Proof/Laws/Rows.lean ====
section
/-! SUPPORT. What words over rows do: the length of a written row, the bytes a fold of row writes leaves, and the frame of a row word. -/

namespace Sys2Proof.Machine

/-! ### Lengths (R89, R96) -/

@[simp] theorem padTo_length (n : Nat) (bs : List Byte) : (padTo n bs).length = n := by
  simp [padTo]
  omega

@[simp] theorem scratchRead_length (s : State) (t : TileId) (a n : Nat) : (scratchRead s t a n).length = n := by
  simp [scratchRead]

/-- A row that is written is never longer than a row of its format. -/
theorem writeRow_length_le (f : Fmt) (b : Nat) (sr : Bool) (gens : List Word) (lanes : List Lane) (h : lanes.length ≤ 64) :
    (writeRow f b sr gens lanes).bytes.length ≤ f.rowBytes := by
  have key : ∀ rds : List Rounding, ∀ w : Nat, (List.zipWith (fun l rd => narrow f b rd l) lanes rds).length * w / 8 ≤ 8 * w := by
    intro rds w
    have : (List.zipWith (fun l rd => narrow f b rd l) lanes rds).length ≤ 64 := by simp; omega
    have := Nat.mul_le_mul_right w this
    omega
  cases f <;> simp only [writeRow, padTo_length, packElems_length, List.length_map, Fmt.rowBytes] <;>
    first | exact Nat.le_refl _ | exact key _ _

/-- Without stochastic rounding a row of 64 lanes has the length of its format. -/
theorem writeRow_length (f : Fmt) (b : Nat) (gens : List Word) (lanes : List Lane) (h : lanes.length = 64) :
    (writeRow f b false gens lanes).bytes.length = f.rowBytes := by
  cases f <;> simp [writeRow, Fmt.rowBytes, h] <;> omega

theorem Fmt.rowBytes_le (f : Fmt) : f.rowBytes ≤ 256 := by cases f <;> decide

/-! ### A fold of row writes (R54) -/

/-- Rows written one after the other change memory only, and only inside the destination rows. -/
theorem foldRows_frame {α : Type} (π : α → State) (go : α → Nat → α) (t : TileId) (d db n : Nat) (a0 : α) (hdb : db ≤ 0x100000)
    (hgo : ∀ x r, r < n → ∃ bs : List Byte, bs.length ≤ db ∧ π (go x r) = scratchWrite (π x) t (d + db * r) bs) :
    π ((List.range n).foldl go a0) = { π a0 with mem := (π ((List.range n).foldl go a0)).mem } ∧
    ∀ a, (∀ i < n * db, a ≠ t0Base t + (d + i) % 0x100000) →
      (π ((List.range n).foldl go a0)).mem.byte a = (π a0).mem.byte a := by
  induction n with
  | zero => exact ⟨rfl, fun _ _ => rfl⟩
  | succ n ih =>
    obtain ⟨h1, h2⟩ := ih (fun x r hr => hgo x r (by omega))
    obtain ⟨bs, hb, he⟩ := hgo ((List.range n).foldl go a0) n (by omega)
    rw [List.range_succ, List.foldl_append, List.foldl_cons, List.foldl_nil, he]
    constructor
    · rw [scratchWrite_eq, h1]
    · intro a ha
      rw [scratchWrite_outside _ _ _ _ _ (by omega), h2]
      · intro i hi
        exact ha i (by rw [Nat.succ_mul]; omega)
      · intro i hi
        have := ha (db * n + i) (by rw [Nat.succ_mul, Nat.mul_comm n db]; omega)
        rwa [← Nat.add_assoc] at this

@[simp] theorem drawIf_mem (c : Bool) (s : State) : (drawIf c s).mem = s.mem := by
  unfold drawIf; split <;> rfl

/-- The end of a word over rows: of a state that differs from `s` in the tile and in memory, the generators, the counts, memory and the count of free values. -/
theorem rowFrame_end {s u : State} {t : TileId} {x : TileState} {d n : Nat} {g : List Word} {sat anom c : Bool}
    (hu : u = { s.setTile t x with mem := u.mem })
    (hm : ∀ a, (∀ i < n, a ≠ t0Base t + (d + i) % 0x100000) → u.mem.byte a = s.mem.byte a) :
    RowFrame s (drawIf c (updTile u t (fun y => { y with gens := g }.count sat anom))) t x d n := by
  constructor
  · refine ⟨u.mem, g, (TileState.count { x with gens := g } sat anom).satCount, (TileState.count { x with gens := g } sat anom).anomCount,
      (drawIf c (updTile u t (fun y => { y with gens := g }.count sat anom))).freeCount, ?_⟩
    have h : updTile u t (fun y => { y with gens := g }.count sat anom) =
        { s.setTile t (TileState.count { x with gens := g } sat anom) with mem := u.mem } := by
      have e : ∀ k, updTile { s.setTile t x with mem := k } t (fun y => { y with gens := g }.count sat anom) =
          { updTile (s.setTile t x) t (fun y => { y with gens := g }.count sat anom) with mem := k } := fun _ => rfl
      rw [hu, e, updTile_setTile]
    rw [h]
    unfold drawIf
    split <;> rfl
  · intro a ha
    simp only [drawIf_mem, updTile, State.setTile_mem]
    exact hm a ha

theorem updTile_drawIf (c : Bool) (s : State) (t : TileId) (f : TileState → TileState) :
    updTile (drawIf c s) t f = drawIf c (updTile s t f) := by
  cases c <;> rfl

/-- A word over rows that its unit has accepted: each row is written at its place, then the generators and the counts are set. `π` shows the state that the fold carries. -/
theorem rowWord_frame {s : State} {t : TileId} {u : UnitId} {w : SeqWord} {α : Type} (π : α → State) {go : α → Nat → α} {d db n : Nat} {a0 : α}
    {g : List Word} {sat anom c : Bool} (hdb : db ≤ 0x100000) (h0 : π a0 = queued s t u w)
    (hgo : ∀ x r, r < n → ∃ bs : List Byte, bs.length ≤ db ∧ π (go x r) = scratchWrite (π x) t (d + db * r) bs) :
    RowFrame s (drawIf c (updTile (π ((List.range n).foldl go a0)) t (fun y => { y with gens := g }.count sat anom))) t
      (TileState.advance (setUnitQ (s.tile t) u (unitQ (s.tile t) u ++ [w]))) d (n * db) := by
  obtain ⟨h1, h2⟩ := foldRows_frame π go t d db n a0 hdb hgo
  refine rowFrame_end ?_ ?_
  · rw [h1, h0, queued_eq]
  · intro a ha
    rw [h2 a ha, h0, queued_mem]

/-- A word over rows that its unit has accepted and that counts nothing: each row is written at its place. -/
theorem rowMove_frame {s : State} {t : TileId} {u : UnitId} {w : SeqWord} {α : Type} (π : α → State) {go : α → Nat → α} {d db n : Nat} {a0 : α}
    {c : Bool} (hdb : db ≤ 0x100000) (h0 : π a0 = queued s t u w)
    (hgo : ∀ x r, r < n → ∃ bs : List Byte, bs.length ≤ db ∧ π (go x r) = scratchWrite (π x) t (d + db * r) bs) :
    RowFrame s (drawIf c (π ((List.range n).foldl go a0))) t
      (TileState.advance (setUnitQ (s.tile t) u (unitQ (s.tile t) u ++ [w]))) d (n * db) := by
  obtain ⟨h1, h2⟩ := foldRows_frame π go t d db n a0 hdb hgo
  refine ⟨⟨(π ((List.range n).foldl go a0)).mem, (TileState.advance (setUnitQ (s.tile t) u (unitQ (s.tile t) u ++ [w]))).gens,
    (TileState.advance (setUnitQ (s.tile t) u (unitQ (s.tile t) u ++ [w]))).satCount,
    (TileState.advance (setUnitQ (s.tile t) u (unitQ (s.tile t) u ++ [w]))).anomCount,
    (drawIf c (π ((List.range n).foldl go a0))).freeCount, ?_⟩, ?_⟩
  · rw [h1, h0, queued_eq]
    unfold drawIf
    split <;> rfl
  · intro a ha
    rw [drawIf_mem, h2 a ha, h0, queued_mem]

@[simp] theorem readOver_length (old new : State) (t : TileId) (d w a n key : Nat) : (readOver old new t d w a n key).length = n := by
  simp [readOver]

/-- A shuffled row is as long as the row. -/
theorem shuffleRow_length (f : Fmt) (table row : List Byte) (h : row.length = f.rowBytes) : (shuffleRow f table row).length = f.rowBytes := by
  cases f <;> simp [shuffleRow, h, Fmt.rowBytes, Fmt.elemBits]

/-! ### Reads beside a write (R54, R567) -/

/-- Bytes that a write of at most 1 MiB does not meet read as before. -/
theorem scratchRead_scratchWrite_apart (s : State) (t : TileId) (a n b : Nat) (bs : List Byte) (hn : bs.length ≤ 0x100000)
    (h : ∀ i < n, ∀ j < bs.length, (b + i) % 0x100000 ≠ (a + j) % 0x100000) : scratchRead (scratchWrite s t a bs) t b n = scratchRead s t b n := by
  apply List.ext_getElem (by simp)
  intro i h1 h2
  simp only [scratchRead, List.getElem_map, List.getElem_range]
  apply scratchWrite_outside _ _ _ _ _ hn
  intro j hj
  have := h i (by simpa using h1) j hj
  omega

end Sys2Proof.Machine
end

