-- ==== Sys2Proof/Laws/Commands.lean ====
section
/-! SUPPORT. Lemmas on mailbox commands: the checks before a command's effect, buffers, completion entries. -/

namespace Sys2Proof.Machine

open Sys2Proof

@[simp] theorem onlyIf_true (s t : State) : onlyIf true s t = t := rfl

@[simp] theorem onlyIf_false (s t : State) : onlyIf false s t = s := rfl

/-- A command in hand that passes every check has its effect. -/
theorem command_of_commanded {s : State} {m : MbxId} {h : CmdHdr} {op len : Nat} (c : Commanded s m h op len) (f : State → State) :
    command s m h op len f = .next (f s) := by
  obtain ⟨h1, h2, h3, h4⟩ := c
  have : ¬ (h.length ≠ len ∨ 60000000 < h.timeout ∨ reservedOk ((s.box m).current.getD []) op len = false) := by
    simp [h2, h4]; omega
  simp only [command, h1, onlyIf_true, if_neg this]

/-- A privileged command in hand on mailbox 0 that passes every check has its effect. -/
theorem command0_of_commanded {s : State} {h : CmdHdr} {op len : Nat} (c : Commanded s 0 h op len) (f : State → State) :
    command0 s 0 h op len f = .next (f s) := by
  simp only [command0, command_of_commanded c]
  rfl

/-- A reply whose buffer can be written goes on from the state with the buffer written. -/
theorem replyBuf_of_writable {s : State} {m : MbxId} {b : Bref} {bs : List Byte} {t : State} (w : Writable s m b bs t)
    (h : CmdHdr) (op : Nat) (f : State → State) : replyBuf s m h op b bs f = f t := by
  obtain ⟨h1, h2⟩ := w
  simp [replyBuf, Nat.not_lt.mpr h1, h2]

/-- A buffer long enough and readable is read, and the command goes on from the state that the read leaves. -/
theorem withBuf_of_read {s t : State} {m : MbxId} {b : Bref} {n : Nat} {bs : List Byte} (hn : n ≤ b.len) (hr : bufRead s m b n = (t, some bs))
    (h : CmdHdr) (op : Nat) (f : State → List Byte → State) : withBuf s m h op b n f = f t bs := by
  simp [withBuf, Nat.not_lt.mpr hn, hr]

/-- Every completion entry is 128 bytes. -/
theorem CplEntry.bytes_length (e : CplEntry) (time : Nat) : (e.bytes time).length = 128 := by
  simp [CplEntry.bytes]

/-- Setting a bit of EVT_STATUS changes that register and may send an interrupt message, and nothing else. -/
theorem setEvt_frame (s : State) (n : Nat) : ∃ o, setEvt s n =
    { s with evt := { s.evt with status := s.evt.status ||| (1#32 <<< n) }, out := o } := by
  simp only [setEvt]
  split
  · exact ⟨_, rfl⟩
  · exact ⟨s.out, rfl⟩

end Sys2Proof.Machine
end

