-- ==== Sys2Proof/Laws/Events.lean ====
section
/-! SUPPORT. All that an event can change, said once for each operation that raises one; and all that an access through the slice can change. -/

namespace Sys2Proof.Machine

/-- The second state is the first but for what an event writes: the event and fault blocks without the pending injection, the Patina, the event ring in the host's memory, which keeps its canonical form, and the record of outputs. -/
def EventFrame (s t : State) : Prop :=
  ∃ e f p h o, t = { s with evt := e, flt := f, pat := p, hostMem := h, out := o } ∧
    f.pending = s.flt.pending ∧ (s.hostMem.wf = true → h.wf = true)

theorem EventFrame.refl (s : State) : EventFrame s s := ⟨s.evt, s.flt, s.pat, s.hostMem, s.out, rfl, rfl, id⟩

theorem EventFrame.trans {s t u : State} (a : EventFrame s t) (b : EventFrame t u) : EventFrame s u := by
  obtain ⟨_, _, _, _, _, rfl, p, w⟩ := a
  obtain ⟨_, _, _, _, _, rfl, q, v⟩ := b
  exact ⟨_, _, _, _, _, rfl, q.trans p, fun h => v (w h)⟩

theorem setEvt_event (s : State) (n : Nat) : EventFrame s (setEvt s n) := by
  obtain ⟨o, e⟩ := setEvt_frame s n
  rw [e]; exact ⟨_, _, _, _, _, rfl, rfl, id⟩

theorem patLog_event (s : State) (e : LogEntry) : EventFrame s (patLog s e) := by
  unfold patLog; split <;> exact ⟨_, _, _, _, _, rfl, rfl, id⟩

theorem patCount_event (s : State) (off n : Nat) : EventFrame s (patCount s off n) := ⟨_, _, _, _, _, rfl, rfl, id⟩

theorem countDetector_event (s : State) (d : Nat) : EventFrame s (countDetector s d) := ⟨_, _, _, _, _, rfl, rfl, id⟩

theorem noteSeverity_event (s : State) (sev : Nat) (e : DetEvent) : EventFrame s (noteSeverity s sev e) :=
  ⟨_, _, _, _, _, rfl, rfl, id⟩

/-- Entries written into the ring change the host's memory alone. -/
theorem ringWrite_event (s : State) (i : BitVec 16) (es : List LogEntry) : EventFrame s (ringWrite s i es) := by
  unfold ringWrite forEach
  generalize es.zipIdx = xs
  induction xs generalizing s with
  | nil => exact .refl s
  | cons x xs ih => exact .trans ⟨_, _, _, _, _, rfl, rfl, fun h => Memory.write_wf h _ _⟩ (ih _)

/-- The event ring holds entries in the host's memory. -/
theorem ringEvent_event (s : State) (e : LogEntry) : EventFrame s (ringEvent s e) := by
  unfold ringEvent
  split
  · exact .refl s
  · split
    · exact setEvt_event s 17
    · exact .trans (ringWrite_event s _ _) (.trans ⟨_, _, _, _, _, rfl, rfl, id⟩ (setEvt_event _ 16))

/-- Raising an event at a severity changes the event block, the fault block but for its pending injection, the Patina, the event ring and the outputs, and nothing else. -/
theorem raiseAs_event (s : State) (sev flags : Nat) (e : DetEvent) : EventFrame s (raiseAs s sev flags e) := by
  unfold raiseAs
  dsimp only
  split
  · exact countDetector_event s _
  · refine .trans (countDetector_event s e.detector) (.trans ?_ (ringEvent_event _ _))
    refine .trans ?_ (patLog_event _ _)
    refine .trans ?_ (noteSeverity_event _ _ _)
    exact ⟨_, _, _, _, _, rfl, rfl, id⟩

theorem raise_event (s : State) (e : DetEvent) : EventFrame s (raise s e) := raiseAs_event s _ _ e

theorem logRecord_event (s : State) (kind value : Nat) : EventFrame s (logRecord s kind value) := patLog_event s _

/-- Events raised one after another change no more than one does. -/
theorem forEach_event {α : Type} (f : State → α → State) (hf : ∀ s x, EventFrame s (f s x)) (xs : List α) (s : State) :
    EventFrame s (forEach xs s f) := by
  induction xs generalizing s with
  | nil => exact .refl s
  | cons x xs ih => exact .trans (hf s x) (ih _)

/-- The second state is the first but for what an access through the slice of a partition changes: what events write, the pending injection, that partition but for its arbiter, and the memory, where a decoder delivered other bytes; both memories keep their canonical form. -/
def SliceFrame (p : Nat) (s t : State) : Prop :=
  ∃ e f pa m h o ps, t = { s with evt := e, flt := f, pat := pa, mem := m, hostMem := h, out := o, parts := ps } ∧
    (∀ q, q ≠ p → t.part q = s.part q) ∧ (s.mem.wf = true → m.wf = true) ∧ (s.hostMem.wf = true → h.wf = true) ∧
    (t.part p).arb = (s.part p).arb

theorem SliceFrame.refl (p : Nat) (s : State) : SliceFrame p s s :=
  ⟨s.evt, s.flt, s.pat, s.mem, s.hostMem, s.out, s.parts, rfl, fun _ _ => rfl, id, id, rfl⟩

theorem SliceFrame.trans {p : Nat} {s t u : State} (a : SliceFrame p s t) (b : SliceFrame p t u) : SliceFrame p s u := by
  obtain ⟨_, _, _, _, _, _, _, rfl, x, m, w, g⟩ := a
  obtain ⟨_, _, _, _, _, _, _, rfl, y, n, v, k⟩ := b
  exact ⟨_, _, _, _, _, _, _, rfl, fun q k => (y q k).trans (x q k), fun h => n (m h), fun h => v (w h), k.trans g⟩

theorem EventFrame.slice {p : Nat} {s t : State} (a : EventFrame s t) : SliceFrame p s t := by
  obtain ⟨_, _, _, _, _, rfl, _, w⟩ := a
  exact ⟨_, _, _, _, _, _, _, rfl, fun _ _ => rfl, id, w, rfl⟩

theorem useLine_arb (x : Part) (o : Nat) (w : Bool) : (useLine x o w).arb = x.arb := by
  unfold useLine; split <;> rfl

theorem setPart_slice (p : Nat) (s : State) (x : Part) (h : x.arb = (s.part p).arb) : SliceFrame p s (s.setPart p x) :=
  ⟨_, _, _, _, _, _, _, rfl, fun _ n => by simp [State.part, State.setPart, Tab.get?_put_ne _ _ n], id, id, by simp [h]⟩

theorem writeMem_slice (p : Nat) (s : State) (a : Nat) (bs : List Byte) : SliceFrame p s { s with mem := s.mem.write a bs } :=
  ⟨_, _, _, _, _, _, _, rfl, fun _ _ => rfl, fun h => Memory.write_wf h _ _, id, rfl⟩

theorem takeInjection_slice (p : Nat) (s : State) (d : Nat) (hit : Injection → Bool) :
    SliceFrame p s (takeInjection s d hit).2 := by
  unfold takeInjection
  split
  · exact .refl p s
  · split
    · exact ⟨_, _, _, _, _, _, _, rfl, fun _ _ => rfl, id, id, rfl⟩
    · exact .refl p s

theorem injectT2_slice (s : State) (p : Nat) : SliceFrame p s (injectT2 s p).2.2 := by
  unfold injectT2
  dsimp only
  split
  · exact takeInjection_slice p s _ _
  · split
    · exact takeInjection_slice p s _ _
    · exact .refl p s

theorem injectT1_slice (s : State) (p : Nat) : SliceFrame p s (injectT1 s p).2.2 := by
  unfold injectT1
  dsimp only
  split
  · exact takeInjection_slice p s _ _
  · split
    · exact takeInjection_slice p s _ _
    · exact .refl p s

theorem raiseCorrected_event (s : State) (flags : Nat) (cs : List (Nat × Nat)) (ev : Nat × Nat → DetEvent) :
    EventFrame s (raiseCorrected s flags cs ev) := forEach_event _ (fun s c => raiseAs_event s 0 flags (ev c)) cs s

theorem countPins_event (s : State) (p : Nat) (fixed : List (Nat × Nat)) : EventFrame s (countPins s p fixed) :=
  forEach_event _ (fun s _ => patCount_event s _ _) fixed s

theorem countCorrected_slice (s : State) (p n : Nat) : SliceFrame p s (countCorrected s p n) :=
  (setPart_slice p s _ (by rfl)).trans (patCount_event _ _ _).slice

theorem evictLine_slice (s : State) (p : Nat) (l : CacheLine) : SliceFrame p s (evictLine s p l) := by
  unfold evictLine
  dsimp only
  split
  · exact setPart_slice p s _ (by rfl)
  · split
    · exact setPart_slice p s _ (by rfl)
    · exact (setPart_slice p s _ (by rfl)).trans (writeMem_slice p _ _ _)

theorem installLine_slice (s : State) (p o : Nat) (dirty staged : Bool) (under : List Byte) :
    SliceFrame p s (installLine s p o dirty staged under) := by
  unfold installLine
  dsimp only
  split
  · exact (evictLine_slice s p _).trans (setPart_slice p _ _ (by rfl))
  · exact setPart_slice p s _ (by rfl)

theorem fillLine_slice (s : State) (p burst : Nat) (dirty staged : Bool) (bytes : List Byte) :
    SliceFrame p s (fillLine s p burst dirty staged bytes) := by
  unfold fillLine
  dsimp only
  split
  · exact installLine_slice s p _ _ _ _
  · exact (writeMem_slice p s _ _).trans (installLine_slice _ p _ _ _ _)

/-- A burst read from the devices changes its partition and what events write. -/
theorem readT2_slice (s : State) (p burst job : Nat) (errs : List SymErr) : SliceFrame p s (readT2 s p burst job errs).s := by
  unfold readT2
  dsimp only
  have hi := injectT2_slice s p
  generalize injectT2 s p = i at hi ⊢
  generalize (if i.2.1 = true then 1 else 0) = flags
  generalize readBurst (deviceBytes s p burst) ((s.part p).poisoned.contains burst) (errs ++ i.1) = r
  have base := hi.trans ((raiseCorrected_event i.2.2 flags r.fixed (t2Corrected p burst job)).slice.trans
    ((countCorrected_slice _ p r.fixed.length).trans (countPins_event _ p r.fixed).slice))
  split
  · exact base.trans ((raiseAs_event _ 2 flags (t2Bad p burst job (errs ++ i.1))).slice.trans (setPart_slice p _ _ (by rfl)))
  · exact base

/-- A line read changes its partition, what events write and, where a clean line is fetched again, the memory. -/
theorem readT1_slice (s : State) (p way value job : Nat) (line : Option CacheLine) (bytes : List Byte) (errs : List SymErr) :
    SliceFrame p s (readT1 s p way value job line bytes errs).s := by
  unfold readT1
  dsimp only
  have hi := injectT1_slice s p
  generalize injectT1 s p = i at hi ⊢
  generalize (if i.2.1 = true then 1 else 0) = flags
  generalize readBurst bytes false (errs ++ i.1) = r
  have base := hi.trans (raiseCorrected_event i.2.2 flags r.fixed (fun c => mkEvent 0x03 p job c.2 (p * 16 + way) value)).slice
  split
  · exact base
  · refine base.trans ?_
    generalize raiseCorrected i.2.2 flags r.fixed (fun c => mkEvent 0x03 p job c.2 (p * 16 + way) value) = u
    split
    · dsimp only; exact (raiseAs_event _ _ _ _).slice
    · next l _ =>
      have q := ((raiseAs_event u 1 flags { mkEvent 0x04 p job 0xFF (p * 16 + way) value with mild := true }).slice.trans
        (evictLine_slice _ p l)).trans (readT2_slice _ p l.burst job [])
      split
      · exact q
      · exact q.trans (fillLine_slice _ p _ _ _ _)

/-- An access to a burst through the slice changes its partition, what events write and, where a line is filled, the memory. -/
theorem accessBurst_slice (s : State) (p burst job : Nat) (write whole noAlloc : Bool) (errs : List SymErr) :
    SliceFrame p s (accessBurst s p burst job write whole noAlloc errs).s := by
  unfold accessBurst
  split
  · unfold accessHit
    dsimp only
    split
    · dsimp only
      split
      · exact (setPart_slice p s _ (useLine_arb _ _ _)).trans (setPart_slice p _ _ (by rfl))
      · exact setPart_slice p s _ (useLine_arb _ _ _)
    · exact (setPart_slice p s _ (useLine_arb _ _ _)).trans (readT1_slice _ p _ _ _ _ _ _)
  · unfold accessMiss
    dsimp only
    split
    · dsimp only
      split
      · exact setPart_slice p s _ (by rfl)
      · exact (setPart_slice p s _ (by rfl)).trans (installLine_slice _ p _ _ _ _)
    · dsimp only
      have q := readT2_slice s p burst job errs
      split
      · exact q
      · split
        · exact q.trans (fillLine_slice _ p _ _ _ _)
        · split
          · exact q.trans (writeMem_slice p _ _ _)
          · exact q

end Sys2Proof.Machine
end

