-- ==== Sys2Proof/Laws/Kept.lean ====
section
/-! SUPPORT. The vocabulary in which every operation is shown to keep both memories in canonical form and to leave the queue of commands alone (the files whose names begin with Kept), and how it goes through records, folds, options and pairs. -/

open Sys2Proof

namespace Sys2Proof.Machine

/-- Both memories are in canonical form, and these commands wait. -/
def Kept (q : List Instr) (s : State) : Prop := MemoryCanonical s ∧ s.pending = q

/-- The same of the next state of an outcome, if it has one. -/
def KeptOut (q : List Instr) : Out → Prop
  | .next t => Kept q t
  | _ => True

/-- The same of a state that may be absent. -/
def KeptOpt (q : List Instr) (p : Option State) : Prop := ∀ o, p = some o → Kept q o

/-- The same of the state of a pair that may be absent. -/
def KeptOpt1 (q : List Instr) {β : Type} (p : Option (State × β)) : Prop := ∀ o, p = some o → Kept q o.1

/-- The same of both states of a preparation. -/
def KeptPrep (q : List Instr) (p : Option State × State) : Prop := (∀ o, p.1 = some o → Kept q o) ∧ Kept q p.2

variable {q : List Instr}

theorem kept_of_next {o : Out} {t : State} (h : KeptOut q o) (e : o = .next t) : Kept q t := by subst e; exact h
theorem kept_next {t : State} (h : Kept q t) : KeptOut q (.next t) := h
theorem State_reset_kept : Kept [] State.reset := ⟨⟨rfl, rfl⟩, rfl⟩

/-! ### Records and memories -/

theorem kept_mk2 {p m h t c pa mb b l hi ev fl ob im jo jc kv hl ha hs re ti t0 t1 bo po pt fa pr hc hse hsn ri fc o}
    (a : m.wf = true) (d : h.wf = true) (e : p = q) :
    Kept q (State.mk p m h t c pa mb b l hi ev fl ob im jo jc kv hl ha hs re ti t0 t1 bo po pt fa pr hc hse hsn ri fc o) :=
  ⟨⟨a, d⟩, e⟩
theorem kept_mem {s : State} (h : Kept q s) : s.mem.wf = true := h.1.1
theorem kept_host {s : State} (h : Kept q s) : s.hostMem.wf = true := h.1.2
theorem kept_pending {s : State} (h : Kept q s) : s.pending = q := h.2
theorem kept_write {m : Memory} {a : Nat} {bs : List Byte} (h : m.wf = true) : (m.write a bs).wf = true := Memory.write_wf h a bs
theorem kept_clear {m : Memory} {a n : Nat} (h : m.wf = true) : (m.clear a n).wf = true := Memory.clear_wf h a n

/-! ### Folds -/

theorem kept_foldl {β : Type} (f : State → β → State) (l : List β) (s : State) (hf : ∀ s x, Kept q s → Kept q (f s x))
    (h : Kept q s) : Kept q (l.foldl f s) := by
  induction l generalizing s with
  | nil => exact h
  | cons x xs ih => exact ih _ (hf _ _ h)

theorem kept_foldl_fst {α β : Type} (f : State × α → β → State × α) (l : List β) (s : State × α)
    (hf : ∀ s x, Kept q s.1 → Kept q (f s x).1) (h : Kept q s.1) : Kept q (l.foldl f s).1 := by
  induction l generalizing s with
  | nil => exact h
  | cons x xs ih => exact ih _ (hf _ _ h)

theorem kept_foldl_s {β : Type} (f : RangeOut → β → RangeOut) (l : List β) (s : RangeOut)
    (hf : ∀ s x, Kept q s.s → Kept q (f s x).s) (h : Kept q s.s) : Kept q (l.foldl f s).s := by
  induction l generalizing s with
  | nil => exact h
  | cons x xs ih => exact ih _ (hf _ _ h)

theorem kept_foldl_r {β : Type} (f : RowRun → β → RowRun) (l : List β) (s : RowRun)
    (hf : ∀ s x, Kept q s.s → Kept q (f s x).s) (h : Kept q s.s) : Kept q (l.foldl f s).s := by
  induction l generalizing s with
  | nil => exact h
  | cons x xs ih => exact ih _ (hf _ _ h)

theorem keptOpt_foldl {β : Type} (f : Option State → β → Option State) (l : List β) (s : Option State)
    (hf : ∀ s x, KeptOpt q s → KeptOpt q (f s x)) (h : KeptOpt q s) : KeptOpt q (l.foldl f s) := by
  induction l generalizing s with
  | nil => exact h
  | cons x xs ih => exact ih _ (hf _ _ h)

theorem forEach_kept {α : Type} (xs : List α) (s : State) (f : State → α → State) (hf : ∀ s x, Kept q s → Kept q (f s x))
    (h : Kept q s) : Kept q (forEach xs s f) := kept_foldl f xs s hf h

/-! ### Pairs -/

theorem kept_fst {β : Type} {p : State × β} {a : State} {b : β} (e : p = (a, b)) (h : Kept q p.1) : Kept q a := by
  subst e; exact h
theorem kept_p1 {β : Type} {a : State} {b : β} (h : Kept q a) : Kept q (a, b).1 := h
theorem keptPrep_mk {o : Option State} {s : State} (h : ∀ t, o = some t → Kept q t) (k : Kept q s) : KeptPrep q (o, s) := ⟨h, k⟩
theorem keptPrep_fst {p : Option State × State} (h : KeptPrep q p) : KeptOpt q p.1 := h.1
theorem keptPrep_2 {p : Option State × State} (h : KeptPrep q p) : Kept q p.2 := h.2

/-! ### Options -/

theorem keptOpt_none : KeptOpt q none := by intro o e; cases e
theorem keptOpt_mk {s : State} (h : Kept q s) : KeptOpt q (some s) := by intro o e; cases e; exact h
theorem keptOpt_some {p : Option State} {s : State} (e : p = some s) (h : KeptOpt q p) : Kept q s := h s e
theorem kept_getD {p : Option State} {s : State} (h : KeptOpt q p) (k : Kept q s) : Kept q (p.getD s) := by
  cases p with
  | none => exact k
  | some t => exact h t rfl

theorem keptOpt1_none {β : Type} : KeptOpt1 q (none : Option (State × β)) := by intro o e; cases e
theorem keptOpt1_mk {β : Type} {s : State × β} (h : Kept q s.1) : KeptOpt1 q (some s) := by intro o e; cases e; exact h
theorem keptOpt1_pair {β : Type} {p : Option (State × β)} {s : State} {b : β} (e : p = some (s, b)) (h : KeptOpt1 q p) :
    Kept q s := h _ e

theorem keptOpt_bind {p : Option State} {f : State → Option State} (hf : ∀ s, Kept q s → KeptOpt q (f s)) (h : KeptOpt q p) :
    KeptOpt q (p.bind f) := by
  intro o e; cases p with
  | none => cases e
  | some s => exact hf s (h s rfl) o e

theorem keptOpt_map_any {α : Type} {p : Option α} {f : α → State} (hf : ∀ a, Kept q (f a)) : KeptOpt q (p.map f) := by
  intro o e; cases p with
  | none => cases e
  | some s => cases e; exact hf _

theorem keptOpt1_map {β : Type} {p : Option State} {f : State → State × β} (hf : ∀ s, Kept q s → Kept q (f s).1)
    (h : KeptOpt q p) : KeptOpt1 q (p.map f) := by
  intro o e; cases p with
  | none => cases e
  | some s => cases e; exact hf _ (h s rfl)

theorem keptOpt1_map_any {α β : Type} {p : Option α} {f : α → State × β} (hf : ∀ a, Kept q (f a).1) : KeptOpt1 q (p.map f) := by
  intro o e; cases p with
  | none => cases e
  | some s => cases e; exact hf _

theorem keptOpt1_bind {β : Type} {p : Option State} {f : State → Option (State × β)} (hf : ∀ s, Kept q s → KeptOpt1 q (f s))
    (h : KeptOpt q p) : KeptOpt1 q (p.bind f) := by
  intro o e; cases p with
  | none => cases e
  | some s => exact hf s (h s rfl) o e

theorem kept_memFold {β : Type} (f : Memory → β → Memory) (l : List β) (m : Memory) (hf : ∀ m x, m.wf = true → (f m x).wf = true)
    (h : m.wf = true) : (l.foldl f m).wf = true := by
  induction l generalizing m with
  | nil => exact h
  | cons x xs ih => exact ih _ (hf _ _ h)

end Sys2Proof.Machine
end

