-- ==== Sys2Proof/Laws/KeptShared.lean ====
section
/-! SUPPORT. What keeps both memories in canonical form and leaves the queue of commands alone: the shared operations, the leases, the KV store and the streams. -/

open Sys2Proof

namespace Sys2Proof.Machine

theorem State_setTile_kept {q : List Instr} : ∀ x0 x1 x2, Kept q x0 → Kept q (State.setTile x0 x1 x2) := by
  intro x0 x1 x2 h0; unfold State.setTile; apply kept_mk2; apply kept_mem (q := q); assumption; apply kept_host (q := q); assumption
  apply kept_pending; assumption

theorem State_setCluster_kept {q : List Instr} : ∀ x0 x1 x2, Kept q x0 → Kept q (State.setCluster x0 x1 x2) := by
  intro x0 x1 x2 h0; unfold State.setCluster; apply kept_mk2; apply kept_mem (q := q); assumption; apply kept_host (q := q); assumption
  apply kept_pending; assumption

theorem State_setPart_kept {q : List Instr} : ∀ x0 x1 x2, Kept q x0 → Kept q (State.setPart x0 x1 x2) := by
  intro x0 x1 x2 h0; unfold State.setPart; apply kept_mk2; apply kept_mem (q := q); assumption; apply kept_host (q := q); assumption
  apply kept_pending; assumption

theorem State_setBox_kept {q : List Instr} : ∀ x0 x1 x2, Kept q x0 → Kept q (State.setBox x0 x1 x2) := by
  intro x0 x1 x2 h0; unfold State.setBox; apply kept_mk2; apply kept_mem (q := q); assumption; apply kept_host (q := q); assumption
  apply kept_pending; assumption

theorem State_setObj_kept {q : List Instr} : ∀ x0 x1 x2, Kept q x0 → Kept q (State.setObj x0 x1 x2) := by
  intro x0 x1 x2 h0; unfold State.setObj; apply kept_mk2; apply kept_mem (q := q); assumption; apply kept_host (q := q); assumption
  apply kept_pending; assumption

theorem State_setJob_kept {q : List Instr} : ∀ x0 x1 x2, Kept q x0 → Kept q (State.setJob x0 x1 x2) := by
  intro x0 x1 x2 h0; unfold State.setJob; apply kept_mk2; apply kept_mem (q := q); assumption; apply kept_host (q := q); assumption
  apply kept_pending; assumption

theorem State_emit_kept {q : List Instr} : ∀ x0 x1, Kept q x0 → Kept q (State.emit x0 x1) := by
  intro x0 x1 h0; unfold State.emit; apply kept_mk2; apply kept_mem (q := q); assumption; apply kept_host (q := q); assumption
  apply kept_pending; assumption

theorem State_fresh_kept {q : List Instr} : ∀ x0, Kept q x0 → Kept q (State.fresh x0).2 := by
  intro x0 h0; unfold State.fresh; with_reducible apply kept_p1; assumption; apply kept_mk2; apply kept_mem (q := q); assumption
  apply kept_host (q := q); assumption; apply kept_pending; assumption

theorem State_freeBytes_kept {q : List Instr} : ∀ x0 x1, Kept q x0 → Kept q (State.freeBytes x0 x1).2 := by
  intro x0 x1 h0; unfold State.freeBytes; with_reducible apply kept_p1; assumption; apply kept_mk2; apply kept_mem (q := q); assumption
  apply kept_host (q := q); assumption; apply kept_pending; assumption

theorem onlyIf_kept {q : List Instr} : ∀ x0 x1 x2, Kept q x1 → Kept q x2 → Kept q (onlyIf x0 x1 x2) := by
  intro x0 x1 x2 h0 h1; unfold onlyIf; split; assumption; assumption

theorem scratchWrite_kept {q : List Instr} : ∀ x0 x1 x2 x3, Kept q x0 → Kept q (scratchWrite x0 x1 x2 x3) := by
  intro x0 x1 x2 x3 h0; unfold scratchWrite; extract_lets +onlyGivenNames l1; clear_value l1; extract_lets +onlyGivenNames l2
  clear_value l2; extract_lets +onlyGivenNames l3; clear_value l3; apply kept_mk2; apply kept_write; apply kept_write
  apply kept_mem (q := q); assumption; apply kept_host (q := q); assumption; apply kept_pending; assumption

theorem setEvt_kept {q : List Instr} : ∀ x0 x1, Kept q x0 → Kept q (setEvt x0 x1) := by
  intro x0 x1 h0; unfold setEvt; extract_lets +onlyGivenNames l1; clear_value l1; extract_lets +onlyGivenNames l2; clear_value l2
  extract_lets +onlyGivenNames l3; (have k3 : Kept q l3 := ?_; clear_value l3); extract_lets +onlyGivenNames l4; clear_value l4
  extract_lets +onlyGivenNames l5; clear_value l5; split; apply State_emit_kept; assumption; assumption; unfold l3; apply kept_mk2
  apply kept_mem (q := q); assumption; apply kept_host (q := q); assumption; apply kept_pending; assumption

theorem patLog_kept {q : List Instr} : ∀ x0 x1, Kept q x0 → Kept q (patLog x0 x1) := by
  intro x0 x1 h0; unfold patLog; split; apply kept_mk2; apply kept_mem (q := q); assumption; apply kept_host (q := q); assumption
  apply kept_pending; assumption; apply kept_mk2; apply kept_mem (q := q); assumption; apply kept_host (q := q); assumption; apply kept_pending
  assumption

theorem logRecord_kept {q : List Instr} : ∀ x0 x1 x2, Kept q x0 → Kept q (logRecord x0 x1 x2) := by
  intro x0 x1 x2 h0; unfold logRecord; apply patLog_kept; assumption

theorem patCount_kept {q : List Instr} : ∀ x0 x1 x2, Kept q x0 → Kept q (patCount x0 x1 x2) := by
  intro x0 x1 x2 h0; unfold patCount; apply kept_mk2; apply kept_mem (q := q); assumption; apply kept_host (q := q); assumption
  apply kept_pending; assumption

theorem countDetector_kept {q : List Instr} : ∀ x0 x1, Kept q x0 → Kept q (countDetector x0 x1) := by
  intro x0 x1 h0; unfold countDetector; apply patCount_kept; apply kept_mk2; apply kept_mem (q := q); assumption; apply kept_host (q := q)
  assumption; apply kept_pending; assumption

theorem ringWrite_kept {q : List Instr} : ∀ x0 x1 x2, Kept q x0 → Kept q (ringWrite x0 x1 x2) := by
  intro x0 x1 x2 h0; unfold ringWrite; apply forEach_kept; intro _ _ _; apply kept_mk2; apply kept_mem (q := q); assumption
  apply kept_write; apply kept_host (q := q); assumption; apply kept_pending; assumption; assumption

theorem ringEvent_kept {q : List Instr} : ∀ x0 x1, Kept q x0 → Kept q (ringEvent x0 x1) := by
  intro x0 x1 h0; unfold ringEvent; split; assumption; split; apply setEvt_kept; assumption; extract_lets +onlyGivenNames l6
  clear_value l6; extract_lets +onlyGivenNames l7; clear_value l7; extract_lets +onlyGivenNames l8; clear_value l8
  extract_lets +onlyGivenNames l9; (have k9 : Kept q l9 := ringWrite_kept _ _ _ h0; clear_value l9); apply setEvt_kept; apply kept_mk2
  apply kept_mem (q := q); assumption; apply kept_host (q := q); assumption; apply kept_pending; assumption

theorem noteSeverity_kept {q : List Instr} : ∀ x0 x1 x2, Kept q x0 → Kept q (noteSeverity x0 x1 x2) := by
  intro x0 x1 x2 h0; unfold noteSeverity; extract_lets +onlyGivenNames l1; clear_value l1; apply kept_mk2; apply kept_mem (q := q)
  assumption; apply kept_host (q := q); assumption; apply kept_pending; assumption

theorem raiseAs_kept {q : List Instr} : ∀ x0 x1 x2 x3, Kept q x0 → Kept q (raiseAs x0 x1 x2 x3) := by
  intro x0 x1 x2 x3 h0; unfold raiseAs; extract_lets +onlyGivenNames l1; (have k1 : Kept q l1 := ?_; clear_value l1); split; assumption
  extract_lets +onlyGivenNames l4; clear_value l4; extract_lets +onlyGivenNames l5; clear_value l5; extract_lets +onlyGivenNames l6
  clear_value l6; extract_lets +onlyGivenNames l7; (have k7 : Kept q l7 := ?_; clear_value l7); apply ringEvent_kept; apply patLog_kept
  apply noteSeverity_kept; assumption; unfold l7; apply kept_mk2; apply kept_mem (q := q); assumption; apply kept_host (q := q); assumption
  apply kept_pending; assumption; unfold l1; apply countDetector_kept; assumption

theorem raise_kept {q : List Instr} : ∀ x0 x1, Kept q x0 → Kept q (raise x0 x1) := by
  intro x0 x1 h0; unfold raise; apply raiseAs_kept; assumption

theorem takeInjection_kept {q : List Instr} : ∀ x0 x1 x2, Kept q x0 → Kept q (takeInjection x0 x1 x2).2 := by
  intro x0 x1 x2 h0; unfold takeInjection; split; with_reducible apply kept_p1; assumption; assumption; split
  extract_lets +onlyGivenNames l6; clear_value l6; with_reducible apply kept_p1; assumption; apply kept_mk2; apply kept_mem (q := q)
  assumption; apply kept_host (q := q); assumption; apply kept_pending; assumption; with_reducible apply kept_p1; assumption; assumption

theorem haltBox_kept {q : List Instr} : ∀ x0 x1 x2, Kept q x0 → Kept q (haltBox x0 x1 x2) := by
  intro x0 x1 x2 h0; unfold haltBox; apply State_setBox_kept; assumption

theorem loseEntry_kept {q : List Instr} : ∀ x0 x1, Kept q x0 → Kept q (loseEntry x0 x1) := by
  intro x0 x1 h0; unfold loseEntry; apply State_setBox_kept; assumption

theorem setFport_kept {q : List Instr} : ∀ x0 x1 x2, Kept q x0 → Kept q (setFport x0 x1 x2) := by
  intro x0 x1 x2 h0; unfold setFport; apply kept_mk2; apply kept_mem (q := q); assumption; apply kept_host (q := q); assumption
  apply kept_pending; assumption

theorem transmit_kept {q : List Instr} : ∀ x0 x1 x2, Kept q x0 → Kept q (transmit x0 x1 x2) := by
  intro x0 x1 x2 h0; unfold transmit; extract_lets +onlyGivenNames l1; clear_value l1; extract_lets +onlyGivenNames l2
  clear_value l2; extract_lets +onlyGivenNames l3; clear_value l3; extract_lets +onlyGivenNames l4
  (have k4 : Kept q l4 := ?_; clear_value l4); apply State_emit_kept; assumption; unfold l4; apply setFport_kept; assumption

theorem pump_kept {q : List Instr} : ∀ x0 x1 x2, Kept q x1 → Kept q (pump x0 x1 x2) := by
  intro x0; induction x0 with
  | zero => intro _ _ h0; exact h0
  | succ n ih =>
  intro x1 x2 h0; unfold pump; extract_lets +onlyGivenNames l1; clear_value l1; split; assumption; split; apply ih; apply transmit_kept
  assumption; assumption

theorem pumpPort_kept {q : List Instr} : ∀ x0 x1, Kept q x0 → Kept q (pumpPort x0 x1) := by
  intro x0 x1 h0; unfold pumpPort; apply pump_kept; assumption

theorem sendOn_kept {q : List Instr} : ∀ x0 x1 x2, Kept q x0 → Kept q (sendOn x0 x1 x2) := by
  intro x0 x1 x2 h0; unfold sendOn; extract_lets +onlyGivenNames l1; clear_value l1; apply pumpPort_kept; apply setFport_kept; assumption

theorem forward_kept {q : List Instr} : ∀ x0 x1, Kept q x0 → Kept q (forward x0 x1).1 := by
  intro x0 x1 h0; unfold forward; split; with_reducible apply kept_p1; assumption; split; with_reducible apply kept_p1; assumption; split
  extract_lets +onlyGivenNames l8; clear_value l8; with_reducible apply kept_p1; apply setFport_kept; assumption
  with_reducible apply kept_p1; apply sendOn_kept; assumption

theorem sendFrame_kept {q : List Instr} : ∀ x0 x1 x2 x3 x4 x5 x6 x7, Kept q x0 → Kept q (sendFrame x0 x1 x2 x3 x4 x5 x6 x7).1 := by
  intro x0 x1 x2 x3 x4 x5 x6 x7 h0; unfold sendFrame; apply forward_kept; assumption

theorem sendMgmt_kept {q : List Instr} : ∀ x0 x1 x2 x3 x4 x5 x6, Kept q x0 → Kept q (sendMgmt x0 x1 x2 x3 x4 x5 x6) := by
  intro x0 x1 x2 x3 x4 x5 x6 h0; unfold sendMgmt; apply sendFrame_kept; apply State_emit_kept; assumption

theorem sendLocal_kept {q : List Instr} : ∀ x0 x1 x2 x3, Kept q x0 → Kept q (sendLocal x0 x1 x2 x3) := by
  intro x0 x1 x2 x3 h0; unfold sendLocal; extract_lets +onlyGivenNames l1; clear_value l1; extract_lets +onlyGivenNames l2
  clear_value l2; split; apply sendOn_kept; assumption; split; apply transmit_kept; assumption; assumption

theorem answer_kept {q : List Instr} : ∀ x0 x1 x2 x3 x4 x5, Kept q x0 → Kept q (answer x0 x1 x2 x3 x4 x5) := by
  intro x0 x1 x2 x3 x4 x5 h0; unfold answer; apply sendMgmt_kept; assumption

theorem evictLine_kept {q : List Instr} : ∀ x0 x1 x2, Kept q x0 → Kept q (evictLine x0 x1 x2) := by
  intro x0 x1 x2 h0; unfold evictLine; extract_lets +onlyGivenNames l1; clear_value l1; extract_lets +onlyGivenNames l2
  clear_value l2; split; apply State_setPart_kept; assumption; extract_lets +onlyGivenNames l6
  (have k6 : Kept q l6 := ?_; clear_value l6); split; assumption; apply kept_mk2; apply kept_write; apply kept_mem (q := q); assumption
  apply kept_host (q := q); assumption; apply kept_pending; assumption; unfold l6; apply State_setPart_kept; assumption

theorem installLine_kept {q : List Instr} : ∀ x0 x1 x2 x3 x4 x5, Kept q x0 → Kept q (installLine x0 x1 x2 x3 x4 x5) := by
  intro x0 x1 x2 x3 x4 x5 h0; unfold installLine; extract_lets +onlyGivenNames l1; clear_value l1; extract_lets +onlyGivenNames l2
  clear_value l2; extract_lets +onlyGivenNames l3; (have k3 : Kept q l3 := ?_; clear_value l3); extract_lets +onlyGivenNames l4
  clear_value l4; apply State_setPart_kept; assumption; unfold l3; split; apply evictLine_kept; assumption; assumption

theorem raiseCorrected_kept {q : List Instr} : ∀ x0 x1 x2 x3, Kept q x0 → Kept q (raiseCorrected x0 x1 x2 x3) := by
  intro x0 x1 x2 x3 h0; unfold raiseCorrected; apply forEach_kept; intro _ _ _; apply raiseAs_kept; assumption; assumption

theorem countCorrected_kept {q : List Instr} : ∀ x0 x1 x2, Kept q x0 → Kept q (countCorrected x0 x1 x2) := by
  intro x0 x1 x2 h0; unfold countCorrected; apply patCount_kept; apply State_setPart_kept; assumption

theorem countPins_kept {q : List Instr} : ∀ x0 x1 x2, Kept q x0 → Kept q (countPins x0 x1 x2) := by
  intro x0 x1 x2 h0; unfold countPins; apply forEach_kept; intro _ _ _; apply patCount_kept; assumption; assumption

theorem injectT2_kept {q : List Instr} : ∀ x0 x1, Kept q x0 → Kept q ((injectT2 x0 x1).2).2 := by
  intro x0 x1 h0; unfold injectT2; extract_lets +onlyGivenNames l1; (have k1 : Kept q l1.2 := ?_; clear_value l1); split
  with_reducible apply kept_p1; assumption; assumption; extract_lets +onlyGivenNames l6; (have k6 : Kept q l6.2 := ?_; clear_value l6)
  split; with_reducible apply kept_p1; assumption; assumption; with_reducible apply kept_p1; assumption; assumption; unfold l6
  apply takeInjection_kept; assumption; unfold l1; apply takeInjection_kept; assumption

theorem readT2_kept {q : List Instr} : ∀ x0 x1 x2 x3 x4, Kept q x0 → Kept q (readT2 x0 x1 x2 x3 x4).s := by
  intro x0 x1 x2 x3 x4 h0; unfold readT2; extract_lets +onlyGivenNames l1; (have k1 : Kept q l1.2.2 := ?_; clear_value l1)
  extract_lets +onlyGivenNames l2; clear_value l2; extract_lets +onlyGivenNames l3; clear_value l3; extract_lets +onlyGivenNames l4
  clear_value l4; extract_lets +onlyGivenNames l5; (have k5 : Kept q l5 := ?_; clear_value l5); split; extract_lets +onlyGivenNames l7
  (have k7 : Kept q l7 := ?_; clear_value l7); assumption; unfold l7; apply raiseAs_kept; assumption; assumption; unfold l5
  apply countPins_kept; apply countCorrected_kept; apply raiseCorrected_kept; assumption; unfold l1; apply injectT2_kept; assumption

theorem injectT1_kept {q : List Instr} : ∀ x0 x1, Kept q x0 → Kept q ((injectT1 x0 x1).2).2 := by
  intro x0 x1 h0; unfold injectT1; extract_lets +onlyGivenNames l1; clear_value l1; extract_lets +onlyGivenNames l2
  (have k2 : Kept q l2.2 := ?_; clear_value l2); split; with_reducible apply kept_p1; assumption; assumption
  extract_lets +onlyGivenNames l7; (have k7 : Kept q l7.2 := ?_; clear_value l7); split; with_reducible apply kept_p1; assumption
  assumption; with_reducible apply kept_p1; assumption; assumption; unfold l7; apply takeInjection_kept; assumption; unfold l2
  apply takeInjection_kept; assumption

theorem fillLine_kept {q : List Instr} : ∀ x0 x1 x2 x3 x4 x5, Kept q x0 → Kept q (fillLine x0 x1 x2 x3 x4 x5) := by
  intro x0 x1 x2 x3 x4 x5 h0; unfold fillLine; extract_lets +onlyGivenNames l1; clear_value l1; split; apply installLine_kept
  assumption; apply installLine_kept; apply kept_mk2; apply kept_write; apply kept_mem (q := q); assumption; apply kept_host (q := q)
  assumption; apply kept_pending; assumption

theorem readT1_kept {q : List Instr} : ∀ x0 x1 x2 x3 x4 x5 x6 x7, Kept q x0 → Kept q (readT1 x0 x1 x2 x3 x4 x5 x6 x7).s := by
  intro x0 x1 x2 x3 x4 x5 x6 x7 h0; unfold readT1; extract_lets +onlyGivenNames l1; (have k1 : Kept q l1.2.2 := ?_; clear_value l1)
  extract_lets +onlyGivenNames l2; clear_value l2; extract_lets +onlyGivenNames l3; clear_value l3; extract_lets +onlyGivenNames l4
  (have k4 : Kept q l4 := ?_; clear_value l4); split; assumption; extract_lets +onlyGivenNames l7; clear_value l7; split; dsimp only
  apply raiseAs_kept; assumption; extract_lets +onlyGivenNames l12; (have k12 : Kept q l12.s := ?_; clear_value l12); split; assumption
  dsimp only; apply fillLine_kept; assumption; unfold l12; apply readT2_kept; apply evictLine_kept; apply raiseAs_kept; assumption; unfold l4
  apply raiseCorrected_kept; assumption; unfold l1; apply injectT1_kept; assumption

theorem writeBackLine_kept {q : List Instr} : ∀ x0 x1 x2, Kept q x0 → Kept q (writeBackLine x0 x1 x2).1 := by
  intro x0 x1 x2 h0; unfold writeBackLine; split; extract_lets +onlyGivenNames l2; clear_value l2; extract_lets +onlyGivenNames l3
  (have k3 : Kept q l3.s := ?_; clear_value l3); split; with_reducible apply kept_p1; assumption; with_reducible apply kept_p1
  apply evictLine_kept; extract_lets +onlyGivenNames l9; (have k9 : Kept q l9 := ?_; clear_value l9); apply kept_mk2; apply kept_write
  apply kept_mem (q := q); assumption; apply kept_host (q := q); assumption; apply kept_pending; assumption; unfold l9; assumption
  unfold l3; apply readT1_kept; assumption; with_reducible apply kept_p1; apply evictLine_kept; assumption

theorem writeBackLines_kept {q : List Instr} : ∀ x0 x1 x2, Kept q x0 → Kept q (writeBackLines x0 x1 x2).1 := by
  intro x0 x1 x2 h0; unfold writeBackLines; apply kept_foldl_fst; intro _ _ _; split; apply writeBackLine_kept; assumption; assumption
  with_reducible apply kept_p1; assumption

theorem accessHit_kept {q : List Instr} : ∀ x0 x1 x2 x3 x4 x5 x6 x7, Kept q x0 → Kept q (accessHit x0 x1 x2 x3 x4 x5 x6 x7).s := by
  intro x0 x1 x2 x3 x4 x5 x6 x7 h0; unfold accessHit; extract_lets +onlyGivenNames l1; clear_value l1
  extract_lets +onlyGivenNames l2; (have k2 : Kept q l2 := ?_; clear_value l2); split; extract_lets +onlyGivenNames l4
  (have k4 : Kept q l4 := ?_; clear_value l4); assumption; unfold l4; split; apply State_setPart_kept; assumption; assumption
  extract_lets +onlyGivenNames l11; (have k11 : Kept q l11.s := ?_; clear_value l11); assumption; unfold l11; apply readT1_kept
  assumption; unfold l2; apply State_setPart_kept; assumption

theorem accessMiss_kept {q : List Instr} : ∀ x0 x1 x2 x3 x4 x5 x6 x7, Kept q x0 → Kept q (accessMiss x0 x1 x2 x3 x4 x5 x6 x7).s := by
  intro x0 x1 x2 x3 x4 x5 x6 x7 h0; unfold accessMiss; extract_lets +onlyGivenNames l1; clear_value l1; split
  extract_lets +onlyGivenNames l3; (have k3 : Kept q l3 := ?_; clear_value l3); split; assumption; dsimp only; apply installLine_kept
  assumption; unfold l3; apply State_setPart_kept; assumption; extract_lets +onlyGivenNames l12
  (have k12 : Kept q l12.s := ?_; clear_value l12); extract_lets +onlyGivenNames l13; clear_value l13; extract_lets +onlyGivenNames l14
  (have k14 : Kept q l14 := ?_; clear_value l14); extract_lets +onlyGivenNames l15; (have k15 : Kept q l15 := ?_; clear_value l15)
  assumption; unfold l15; split; assumption; split; apply fillLine_kept; assumption; split; apply kept_mk2; apply kept_write
  apply kept_mem (q := q); assumption; apply kept_host (q := q); assumption; apply kept_pending; assumption; assumption; unfold l14
  assumption; unfold l12; apply readT2_kept; assumption

theorem accessBurst_kept {q : List Instr} : ∀ x0 x1 x2 x3 x4 x5 x6 x7, Kept q x0 → Kept q (accessBurst x0 x1 x2 x3 x4 x5 x6 x7).s := by
  intro x0 x1 x2 x3 x4 x5 x6 x7 h0; unfold accessBurst; split; apply accessHit_kept; assumption; apply accessMiss_kept; assumption

theorem RangeOut_join_kept {q : List Instr} : ∀ x0 x1 x2 x3, Kept q x0.s → Kept q x1.s → Kept q (RangeOut.join x0 x1 x2 x3).s := by
  intro x0 x1 x2 x3 h0 h1; unfold RangeOut.join; assumption

theorem accessBursts_kept {q : List Instr} : ∀ x0 x1 x2 x3 x4 x5, Kept q x0.s → Kept q (accessBursts x0 x1 x2 x3 x4 x5).s := by
  intro x0 x1 x2 x3 x4 x5 h0; unfold accessBursts; apply kept_foldl_s; intro _ _ _; split; assumption; apply RangeOut_join_kept
  assumption; apply accessBurst_kept; assumption; assumption

theorem accessRange_kept {q : List Instr} : ∀ x0 x1 x2 x3 x4 x5 x6, Kept q x0.s → Kept q (accessRange x0 x1 x2 x3 x4 x5 x6).s := by
  intro x0 x1 x2 x3 x4 x5 x6 h0; unfold accessRange; apply accessBursts_kept; assumption

theorem startRange_kept {q : List Instr} : ∀ x0 x1, Kept q x0 → Kept q (startRange x0 x1).s := by
  intro x0 x1 h0; unfold startRange; assumption

theorem accessPinned_kept {q : List Instr} : ∀ x0 x1 x2 x3 x4, Kept q x0.s → Kept q (accessPinned x0 x1 x2 x3 x4).s := by
  intro x0 x1 x2 x3 x4 h0; unfold accessPinned; apply kept_foldl_s; intro _ _ _; split; assumption; extract_lets +onlyGivenNames l7
  clear_value l7; extract_lets +onlyGivenNames l8; (have k8 : Kept q l8.s := ?_; clear_value l8); apply RangeOut_join_kept; assumption
  assumption; unfold l8; apply readT1_kept; assumption; assumption

theorem stageLines_kept {q : List Instr} : ∀ x0 x1 x2 x3, Kept q x0 → Kept q (stageLines x0 x1 x2 x3) := by
  intro x0 x1 x2 x3 h0; unfold stageLines; apply forEach_kept; intro _ _ _; split; assumption; extract_lets +onlyGivenNames l7
  (have k7 : Kept q l7.s := ?_; clear_value l7); split; assumption; apply fillLine_kept; assumption; unfold l7; apply readT2_kept
  assumption; assumption

theorem localBurst_kept {q : List Instr} : ∀ x0 x1 x2, Kept q x0.s → Kept q (localBurst x0 x1 x2).s := by
  intro x0 x1 x2 h0; unfold localBurst; split; assumption; split; split; apply accessBursts_kept; assumption; assumption; split
  apply accessPinned_kept; assumption; assumption; assumption

theorem localAccess_kept {q : List Instr} : ∀ x0 x1 x2 x3, Kept q x0 → Kept q (localAccess x0 x1 x2 x3).s := by
  intro x0 x1 x2 x3 h0; unfold localAccess; extract_lets +onlyGivenNames l1; clear_value l1; extract_lets +onlyGivenNames l2
  (have k2 : Kept q l2.s := ?_; clear_value l2); split; dsimp only; apply raise_kept; assumption; assumption; unfold l2; apply kept_foldl_s
  intro _ _ _; apply localBurst_kept; assumption; apply startRange_kept; assumption

theorem localRead_kept {q : List Instr} : ∀ x0 x1 x2, Kept q x0 → Kept q (localRead x0 x1 x2).1 := by
  intro x0 x1 x2 h0; unfold localRead; extract_lets +onlyGivenNames l1; (have k1 : Kept q l1.s := ?_; clear_value l1); split
  with_reducible apply kept_p1; assumption; split; extract_lets +onlyGivenNames l6; (have k6 : Kept q l6.2 := ?_; clear_value l6)
  with_reducible apply kept_p1; assumption; unfold l6; apply State_freeBytes_kept; assumption; with_reducible apply kept_p1; assumption
  unfold l1; apply localAccess_kept; assumption

theorem localWrite_kept {q : List Instr} : ∀ x0 x1 x2, Kept q x0 → Kept q (localWrite x0 x1 x2).1 := by
  intro x0 x1 x2 h0
  unfold localWrite
  dsimp only
  have hr : Kept q (localAccess x0 x1 x2.length true).s := localAccess_kept x0 x1 x2.length true h0
  split
  · exact hr
  · refine kept_mk2 (kept_memFold _ _ _ (fun m b h => ?_) (kept_mem hr)) (kept_host hr) (kept_pending hr)
    split
    · exact h
    · exact kept_write h

theorem globalRead_kept {q : List Instr} : ∀ x0 x1 x2, Kept q x0 → Kept q (globalRead x0 x1 x2).1 := by
  intro x0 x1 x2 h0; unfold globalRead; split; apply localRead_kept; assumption; with_reducible apply kept_p1; assumption

theorem globalWrite_kept {q : List Instr} : ∀ x0 x1 x2, Kept q x0 → Kept q (globalWrite x0 x1 x2).1 := by
  intro x0 x1 x2 h0; unfold globalWrite; split; apply localWrite_kept; assumption; split; with_reducible apply kept_p1; apply kept_mk2
  apply kept_mem (q := q); assumption; apply kept_write; apply kept_host (q := q); assumption; apply kept_pending; assumption
  with_reducible apply kept_p1; assumption

theorem busRead_kept {q : List Instr} : ∀ x0 x1 x2 x3, Kept q x0 → Kept q (busRead x0 x1 x2 x3).1 := by
  intro x0 x1 x2 x3 h0; unfold busRead; split; with_reducible apply kept_p1; assumption; split; apply globalRead_kept; assumption
  with_reducible apply kept_p1; assumption

theorem busWrite_kept {q : List Instr} : ∀ x0 x1 x2 x3, Kept q x0 → Kept q (busWrite x0 x1 x2 x3).1 := by
  intro x0 x1 x2 x3 h0; unfold busWrite; split; with_reducible apply kept_p1; assumption; split; apply globalWrite_kept; assumption
  with_reducible apply kept_p1; apply kept_mk2; apply kept_mem (q := q); assumption; apply kept_write; apply kept_host (q := q); assumption
  apply kept_pending; assumption

theorem bufRead_kept {q : List Instr} : ∀ x0 x1 x2 x3, Kept q x0 → Kept q (bufRead x0 x1 x2 x3).1 := by
  intro x0 x1 x2 x3 h0; unfold bufRead; apply busRead_kept; assumption

theorem spoilBuf_kept {q : List Instr} : ∀ x0 x1 x2 x3, Kept q x0 → Kept q (spoilBuf x0 x1 x2 x3) := by
  intro x0 x1 x2 x3 h0; unfold spoilBuf; extract_lets +onlyGivenNames l1; (have k1 : Kept q l1.2 := ?_; clear_value l1); split
  assumption; split; extract_lets +onlyGivenNames l5; (have k5 : Kept q l5 := ?_; clear_value l5); apply kept_mk2; apply kept_mem (q := q)
  assumption; apply kept_write; apply kept_host (q := q); assumption; apply kept_pending; assumption; unfold l5; assumption; split
  extract_lets +onlyGivenNames l17; (have k17 : Kept q l17 := ?_; clear_value l17); apply kept_mk2; apply kept_mem (q := q); assumption
  apply kept_write; apply kept_host (q := q); assumption; apply kept_pending; assumption; unfold l17; assumption; split
  extract_lets +onlyGivenNames l29; (have k29 : Kept q l29 := ?_; clear_value l29); apply kept_mk2; apply kept_write; apply kept_mem (q := q)
  assumption; apply kept_host (q := q); assumption; apply kept_pending; assumption; unfold l29; assumption; assumption; unfold l1
  apply State_freeBytes_kept; assumption

theorem bufWrite_kept {q : List Instr} : ∀ x0 x1 x2 x3, Kept q x0 → Kept q (bufWrite x0 x1 x2 x3).1 := by
  intro x0 x1 x2 x3 h0; unfold bufWrite; extract_lets +onlyGivenNames l1; (have k1 : Kept q l1.1 := ?_; clear_value l1); split
  assumption; with_reducible apply kept_p1; apply spoilBuf_kept; assumption; unfold l1; apply busWrite_kept; assumption

theorem writeEntry_kept {q : List Instr} : ∀ x0 x1 x2, Kept q x0 → Kept q (writeEntry x0 x1 x2) := by
  intro x0 x1 x2 h0; unfold writeEntry; extract_lets +onlyGivenNames l1; clear_value l1; extract_lets +onlyGivenNames l2
  clear_value l2; extract_lets +onlyGivenNames l3; (have k3 : Kept q l3.1 := ?_; clear_value l3); split; apply setEvt_kept
  apply State_setBox_kept; assumption; apply haltBox_kept; apply State_setBox_kept; assumption; unfold l3; apply busWrite_kept; assumption

theorem postEntry_kept {q : List Instr} : ∀ x0 x1 x2, Kept q x0 → Kept q (postEntry x0 x1 x2) := by
  intro x0 x1 x2 h0; unfold postEntry; extract_lets +onlyGivenNames l1; clear_value l1; split; apply loseEntry_kept; assumption; split
  apply writeEntry_kept; assumption; split; apply raise_kept; apply loseEntry_kept; assumption; apply State_setBox_kept; assumption

theorem flushHeld_kept {q : List Instr} : ∀ x0 x1 x2, Kept q x1 → Kept q (flushHeld x0 x1 x2) := by
  intro x0; induction x0 with
  | zero => intro _ _ h0; exact h0
  | succ n ih =>
  intro x1 x2 h0; unfold flushHeld; extract_lets +onlyGivenNames l1; clear_value l1; split; assumption; split
  extract_lets +onlyGivenNames l5; (have k5 : Kept q l5 := ?_; clear_value l5); split; assumption; apply ih; assumption; unfold l5
  apply writeEntry_kept; apply State_setBox_kept; assumption; assumption

theorem updJob_kept {q : List Instr} : ∀ x0 x1 x2, Kept q x0 → Kept q (updJob x0 x1 x2) := by
  intro x0 x1 x2 h0; unfold updJob; split; apply State_setJob_kept; assumption; assumption

theorem updInv_kept {q : List Instr} : ∀ x0 x1 x2, Kept q x0 → Kept q (updInv x0 x1 x2) := by
  intro x0 x1 x2 h0; unfold updInv; apply updJob_kept; assumption

theorem noteCap_kept {q : List Instr} : ∀ x0, Kept q x0 → Kept q (noteCap x0) := by
  intro x0 h0; unfold noteCap; extract_lets +onlyGivenNames l1; clear_value l1; split; assumption; apply logRecord_kept; apply kept_mk2
  apply kept_mem (q := q); assumption; apply kept_host (q := q); assumption; apply kept_pending; assumption

theorem updTile_kept {q : List Instr} : ∀ x0 x1 x2, Kept q x0 → Kept q (updTile x0 x1 x2) := by
  intro x0 x1 x2 h0; unfold updTile; apply State_setTile_kept; assumption

theorem clearScratch_kept {q : List Instr} : ∀ x0 x1, Kept q x0 → Kept q (clearScratch x0 x1) := by
  intro x0 x1 h0; unfold clearScratch; apply kept_mk2; apply kept_clear; apply kept_mem (q := q); assumption; apply kept_host (q := q)
  assumption; apply kept_pending; assumption

theorem fold_kept {q : List Instr} : ∀ x0, Kept q x0 → Kept q (fold x0) := by
  intro x0 h0; unfold fold; extract_lets +onlyGivenNames l1; clear_value l1; apply kept_mk2; apply kept_mem (q := q); assumption
  apply kept_host (q := q); assumption; apply kept_pending; assumption

theorem powerOnCluster_kept {q : List Instr} : ∀ x0 x1 x2 x3, Kept q x0 → Kept q (powerOnCluster x0 x1 x2 x3) := by
  intro x0 x1 x2 x3 h0; unfold powerOnCluster; extract_lets +onlyGivenNames l0; (have k0 : Kept q l0 := fold_kept _ h0; clear_value l0)
  extract_lets +onlyGivenNames l1; clear_value l1; extract_lets +onlyGivenNames l2
  clear_value l2; extract_lets +onlyGivenNames l3; (have k3 : Kept q l3 := ?_; clear_value l3); extract_lets +onlyGivenNames l4
  (have k4 : Kept q l4 := ?_; clear_value l4); apply forEach_kept; intro _ _ _; apply State_setTile_kept; assumption; assumption; unfold l4
  apply clearScratch_kept; assumption; unfold l3; apply State_setCluster_kept; assumption

theorem powerOffCluster_kept {q : List Instr} : ∀ x0 x1, Kept q x0 → Kept q (powerOffCluster x0 x1) := by
  intro x0 x1 h0; unfold powerOffCluster; extract_lets +onlyGivenNames l0; (have k0 : Kept q l0 := fold_kept _ h0; clear_value l0)
  extract_lets +onlyGivenNames l1; clear_value l1; extract_lets +onlyGivenNames l2
  clear_value l2; extract_lets +onlyGivenNames l3; (have k3 : Kept q l3 := ?_; clear_value l3); extract_lets +onlyGivenNames l4
  (have k4 : Kept q l4 := ?_; clear_value l4); apply kept_mk2; apply kept_mem (q := q); assumption; apply kept_host (q := q); assumption
  apply kept_pending; assumption; unfold l4; apply clearScratch_kept; assumption; unfold l3; apply State_setCluster_kept; assumption

theorem loadImage_kept {q : List Instr} : ∀ x0 x1 x2, Kept q x0 → Kept q (loadImage x0 x1 x2) := by
  intro x0 x1 x2 h0; unfold loadImage; extract_lets +onlyGivenNames l1; (have k1 : Kept q l1 := ?_; clear_value l1); apply forEach_kept
  intro _ _ _; extract_lets +onlyGivenNames l6; clear_value l6; extract_lets +onlyGivenNames l7; clear_value l7
  extract_lets +onlyGivenNames l8; (have k8 : Kept q l8 := ?_; clear_value l8); apply forEach_kept; intro _ _ _; apply scratchWrite_kept
  assumption; assumption; unfold l8; apply State_setTile_kept; assumption; assumption; unfold l1; apply forEach_kept; intro _ _ _
  apply clearScratch_kept; assumption; assumption

theorem pruneT3_kept {q : List Instr} : ∀ x0, Kept q x0 → Kept q (pruneT3 x0) := by
  intro x0 h0; unfold pruneT3; apply kept_mk2; apply kept_mem (q := q); assumption; apply kept_host (q := q); assumption; apply kept_pending
  assumption

theorem removeRuns_kept {q : List Instr} : ∀ x0 x1, Kept q x0 → Kept q (removeRuns x0 x1) := by
  intro x0 x1 h0; unfold removeRuns; extract_lets +onlyGivenNames l1; (have k1 : Kept q l1 := ?_; clear_value l1); apply pruneT3_kept
  apply forEach_kept; intro _ _ _; apply State_setPart_kept; assumption; assumption; unfold l1; apply forEach_kept; intro _ _ _
  apply State_setCluster_kept; assumption; assumption

theorem chargeLost_kept {q : List Instr} : ∀ x0 x1, Kept q x0 → Kept q (chargeLost x0 x1) := by
  intro x0 x1 h0; unfold chargeLost; split; assumption; split; assumption; extract_lets +onlyGivenNames l5; clear_value l5
  apply State_setJob_kept; assumption

theorem dropRuns_kept {q : List Instr} : ∀ x0 x1, Kept q x0 → Kept q (dropRuns x0 x1) := by
  intro x0 x1 h0; unfold dropRuns; extract_lets +onlyGivenNames l1; (have k1 : Kept q l1 := ?_; clear_value l1); apply removeRuns_kept
  assumption; unfold l1; apply forEach_kept; intro _ _ _; apply forEach_kept; intro _ _ _; apply chargeLost_kept; assumption; assumption
  assumption

theorem stopClusters_kept {q : List Instr} : ∀ x0 x1, Kept q x0 → Kept q (stopClusters x0 x1) := by
  intro x0 x1 h0; unfold stopClusters; extract_lets +onlyGivenNames l1; (have k1 : Kept q l1 := ?_; clear_value l1); apply forEach_kept
  intro _ _ _; extract_lets +onlyGivenNames l6; clear_value l6; apply State_setTile_kept; assumption; assumption; unfold l1
  apply dropRuns_kept; assumption

theorem clearCounts_kept {q : List Instr} : ∀ x0 x1, Kept q x0 → Kept q (clearCounts x0 x1) := by
  intro x0 x1 h0; unfold clearCounts; apply forEach_kept; intro _ _ _; apply State_setTile_kept; assumption; assumption

theorem startClusters_kept {q : List Instr} : ∀ x0 x1 x2, Kept q x0 → Kept q (startClusters x0 x1 x2) := by
  intro x0 x1 x2 h0; unfold startClusters; apply forEach_kept; intro _ _ _; apply State_setTile_kept; assumption; assumption

theorem startPass_kept {q : List Instr} : ∀ x0 x1, Kept q x0 → Kept q (startPass x0 x1) := by
  intro x0 x1 h0; unfold startPass; apply forEach_kept; intro _ _ _; apply State_setTile_kept; assumption; assumption

theorem grantTo_kept {q : List Instr} : ∀ x0 x1 x2 x3 x4, Kept q x0 → Kept q (grantTo x0 x1 x2 x3 x4) := by
  intro x0 x1 x2 x3 x4 h0; unfold grantTo; split; assumption; extract_lets +onlyGivenNames l3
  (have k3 : Kept q l3 := ?_; clear_value l3); extract_lets +onlyGivenNames l4; (have k4 : Kept q l4 := ?_; clear_value l4)
  apply noteCap_kept; apply forEach_kept; intro _ _ _; apply powerOnCluster_kept; assumption; assumption; unfold l4; apply forEach_kept
  intro _ _ _; apply powerOnCluster_kept; assumption; assumption; unfold l3; apply State_setJob_kept; assumption

theorem freeClusters_kept {q : List Instr} : ∀ x0 x1, Kept q x0 → Kept q (freeClusters x0 x1) := by
  intro x0 x1 h0; unfold freeClusters; apply noteCap_kept; apply forEach_kept; intro _ _ _; apply powerOffCluster_kept; assumption
  apply dropRuns_kept; assumption

theorem deliver_kept {q : List Instr} : ∀ x0 x1 x2 x3 x4, Kept q x0 → Kept q (deliver x0 x1 x2 x3 x4) := by
  intro x0 x1 x2 x3 x4 h0; unfold deliver; apply scratchWrite_kept; assumption

theorem placeStore_kept {q : List Instr} : ∀ x0 x1 x2 x3, Kept q x0 → Kept q (placeStore x0 x1 x2 x3) := by
  intro x0 x1 x2 x3 h0; unfold placeStore; split; apply kept_mk2; apply kept_write; apply kept_mem (q := q); assumption
  apply kept_host (q := q); assumption; apply kept_pending; assumption; apply kept_mk2; apply kept_mem (q := q); assumption; apply kept_write
  apply kept_host (q := q); assumption; apply kept_pending; assumption

theorem placeClear_kept {q : List Instr} : ∀ x0 x1 x2, Kept q x0 → Kept q (placeClear x0 x1 x2) := by
  intro x0 x1 x2 h0; unfold placeClear; split; apply kept_mk2; apply kept_clear; apply kept_mem (q := q); assumption
  apply kept_host (q := q); assumption; apply kept_pending; assumption; apply kept_mk2; apply kept_mem (q := q); assumption; apply kept_clear
  apply kept_host (q := q); assumption; apply kept_pending; assumption

theorem firmwareRead_kept {q : List Instr} : ∀ x0 x1 x2 x3, Kept q x0 → Kept q (firmwareRead x0 x1 x2 x3).1 := by
  intro x0 x1 x2 x3 h0; unfold firmwareRead; split; with_reducible apply kept_p1; assumption; split; apply localRead_kept; assumption
  with_reducible apply kept_p1; assumption

theorem firmwareWrite_kept {q : List Instr} : ∀ x0 x1 x2 x3, Kept q x0 → Kept q (firmwareWrite x0 x1 x2 x3).1 := by
  intro x0 x1 x2 x3 h0; unfold firmwareWrite; split; with_reducible apply kept_p1; assumption; split; apply localWrite_kept; assumption
  with_reducible apply kept_p1; apply kept_mk2; apply kept_mem (q := q); assumption; apply kept_write; apply kept_host (q := q); assumption
  apply kept_pending; assumption

theorem placeZero_kept {q : List Instr} : ∀ x0 x1 x2, Kept q x0 → Kept q (placeZero x0 x1 x2) := by
  intro x0 x1 x2 h0; unfold placeZero; extract_lets +onlyGivenNames l1; (have k1 : Kept q l1 := ?_; clear_value l1)
  apply placeClear_kept; assumption; unfold l1; split; apply accessRange_kept; apply startRange_kept; assumption; assumption

theorem objTouch_kept {q : List Instr} : ∀ x0 x1 x2 x3, Kept q x0 → Kept q (objTouch x0 x1 x2 x3) := by
  intro x0 x1 x2 x3 h0; unfold objTouch; split; apply firmwareRead_kept; assumption; assumption

theorem objFetch_kept {q : List Instr} : ∀ x0 x1 x2 x3, Kept q x0 → Kept q (objFetch x0 x1 x2 x3).1 := by
  intro x0 x1 x2 x3 h0; unfold objFetch; split; with_reducible apply kept_p1; assumption; split; with_reducible apply kept_p1
  refine kept_fst (by assumption) ?_; apply firmwareRead_kept; assumption; extract_lets +onlyGivenNames l9
  (have k9 : Kept q l9.2 := ?_; clear_value l9); with_reducible apply kept_p1; assumption; unfold l9; apply State_freeBytes_kept
  refine kept_fst (by assumption) ?_; apply firmwareRead_kept; assumption

theorem objWriteBytes_kept {q : List Instr} : ∀ x0 x1 x2 x3, Kept q x0 → Kept q (objWriteBytes x0 x1 x2 x3) := by
  intro x0 x1 x2 x3 h0; unfold objWriteBytes; split; apply firmwareWrite_kept; assumption; assumption

theorem objWriteBoth_kept {q : List Instr} : ∀ x0 x1 x2 x3, Kept q x0 → Kept q (objWriteBoth x0 x1 x2 x3) := by
  intro x0 x1 x2 x3 h0; unfold objWriteBoth; split; apply firmwareWrite_kept; apply objWriteBytes_kept; assumption
  apply objWriteBytes_kept; assumption

theorem copyPiece_kept {q : List Instr} : ∀ x0 x1 x2 x3 x4, Kept q x0 → Kept q (copyPiece x0 x1 x2 x3 x4) := by
  intro x0 x1 x2 x3 x4 h0; unfold copyPiece; extract_lets +onlyGivenNames l1; clear_value l1; split; split; assumption
  apply scratchWrite_kept; assumption; split; apply placeStore_kept; assumption; apply scratchWrite_kept; assumption

theorem padRows_kept {q : List Instr} : ∀ x0 x1 x2, Kept q x0 → Kept q (padRows x0 x1 x2) := by
  intro x0 x1 x2 h0; unfold padRows; split; apply forEach_kept; intro _ _ _; apply scratchWrite_kept; assumption; assumption; assumption

theorem copyTransfer_kept {q : List Instr} : ∀ x0 x1 x2 x3, Kept q x0 → Kept q (copyTransfer x0 x1 x2 x3) := by
  intro x0 x1 x2 x3 h0; unfold copyTransfer; split; assumption; extract_lets +onlyGivenNames l3
  (have k3 : Kept q l3 := ?_; clear_value l3); apply padRows_kept; assumption; unfold l3; apply forEach_kept; intro _ _ _
  apply copyPiece_kept; assumption; assumption

theorem updRun_kept {q : List Instr} : ∀ x0 x1 x2 x3, Kept q x0 → Kept q (updRun x0 x1 x2 x3) := by
  intro x0 x1 x2 x3 h0; unfold updRun; apply State_setCluster_kept; assumption

theorem setXfer_kept {q : List Instr} : ∀ x0 x1 x2, Kept q x0 → Kept q (setXfer x0 x1 x2) := by
  intro x0 x1 x2 h0; unfold setXfer; split; apply updRun_kept; assumption; assumption

theorem spoilTransfer_kept {q : List Instr} : ∀ x0 x1 x2, Kept q x0 → Kept q (spoilTransfer x0 x1 x2) := by
  intro x0 x1 x2 h0; unfold spoilTransfer; split; split; assumption; apply forEach_kept; intro _ _ _; extract_lets +onlyGivenNames l8
  (have k8 : Kept q l8.2 := ?_; clear_value l8); apply placeStore_kept; assumption; unfold l8; apply State_freeBytes_kept; assumption
  assumption; extract_lets +onlyGivenNames l15; (have k15 : Kept q l15.2 := ?_; clear_value l15); apply scratchWrite_kept; assumption
  unfold l15; apply State_freeBytes_kept; assumption

theorem updStall_kept {q : List Instr} : ∀ x0 x1 x2, Kept q x0 → Kept q (updStall x0 x1 x2) := by
  intro x0 x1 x2 h0; unfold updStall; split; assumption; split; apply State_setJob_kept; assumption; assumption

theorem updArb_kept {q : List Instr} : ∀ x0 x1 x2, Kept q x0 → Kept q (updArb x0 x1 x2) := by
  intro x0 x1 x2 h0; unfold updArb; apply State_setPart_kept; assumption

theorem takeLines_kept {q : List Instr} : ∀ x0 x1 x2, Kept q x0 → Kept q (takeLines x0 x1 x2) := by
  intro x0 x1 x2 h0; unfold takeLines; split; assumption; apply State_setPart_kept; assumption

theorem revoke_kept {q : List Instr} : ∀ x0 x1 x2 x3, Kept q x0 → Kept q (revoke x0 x1 x2 x3) := by
  intro x0 x1 x2 x3 h0; unfold revoke; extract_lets +onlyGivenNames l1; clear_value l1; extract_lets +onlyGivenNames l2
  clear_value l2; extract_lets +onlyGivenNames l3; (have k3 : Kept q l3 := ?_; clear_value l3); extract_lets +onlyGivenNames l4
  (have k4 : Kept q l4 := ?_; clear_value l4); extract_lets +onlyGivenNames l5; (have k5 : Kept q l5 := ?_; clear_value l5); split
  apply raise_kept; assumption; assumption; unfold l5; split; split; apply updStall_kept; assumption; assumption; assumption; unfold l4
  apply setXfer_kept; assumption; unfold l3; apply pruneT3_kept; apply updArb_kept; assumption

theorem gateFor_kept {q : List Instr} : ∀ x0 x1 x2, Kept q x0 → Kept q (gateFor x0 x1 x2) := by
  intro x0 x1 x2 h0; unfold gateFor; split; assumption; split; split; assumption; apply forEach_kept; intro _ _ _; apply updTile_kept
  assumption; assumption; apply forEach_kept; intro _ _ _; split; apply updTile_kept; assumption; assumption; assumption

theorem withdrawPrefetch_kept {q : List Instr} : ∀ x0 x1 x2, Kept q x0 → Kept q (withdrawPrefetch x0 x1 x2) := by
  intro x0 x1 x2 h0; unfold withdrawPrefetch; extract_lets +onlyGivenNames l1; clear_value l1; extract_lets +onlyGivenNames l2
  clear_value l2; extract_lets +onlyGivenNames l3; clear_value l3; extract_lets +onlyGivenNames l4
  (have k4 : Kept q l4 := ?_; clear_value l4); split; apply updArb_kept; apply takeLines_kept; assumption; assumption; unfold l4
  apply State_setPart_kept; assumption

theorem giveEstimate_kept {q : List Instr} : ∀ x0 x1 x2, Kept q x0 → Kept q (giveEstimate x0 x1 x2) := by
  intro x0 x1 x2 h0; unfold giveEstimate; extract_lets +onlyGivenNames l1; clear_value l1; extract_lets +onlyGivenNames l2
  clear_value l2; extract_lets +onlyGivenNames l3; (have k3 : Kept q l3 := ?_; clear_value l3); split; split; apply withdrawPrefetch_kept
  assumption; assumption; split; apply gateFor_kept; assumption; assumption; unfold l3; apply updArb_kept; assumption

theorem giveEstimates_kept {q : List Instr} : ∀ x0 x1, Kept q x0 → Kept q (giveEstimates x0 x1) := by
  intro x0 x1 h0; unfold giveEstimates; extract_lets +onlyGivenNames l1; clear_value l1; extract_lets +onlyGivenNames l2
  (have k2 : Kept q l2 := ?_; clear_value l2); apply kept_mk2; apply kept_mem (q := q); assumption; apply kept_host (q := q); assumption
  apply kept_pending; assumption; unfold l2; apply forEach_kept; intro _ _ _; apply giveEstimate_kept; assumption; assumption

theorem revokeHeld_kept {q : List Instr} : ∀ x0 x1 x2, Kept q x1 → Kept q (revokeHeld x0 x1 x2) := by
  intro x0; induction x0 with
  | zero => intro _ _ h0; exact h0
  | succ n ih =>
  intro x1 x2 h0; unfold revokeHeld; split; split; apply ih; apply revoke_kept; assumption; assumption; assumption

theorem enqueue_kept {q : List Instr} : ∀ x0 x1 x2, Kept q x0 → Kept q (enqueue x0 x1 x2) := by
  intro x0 x1 x2 h0; unfold enqueue; extract_lets +onlyGivenNames l1; (have k1 : Kept q l1 := ?_; clear_value l1)
  extract_lets +onlyGivenNames l2; (have k2 : Kept q l2 := ?_; clear_value l2); extract_lets +onlyGivenNames l3
  (have k3 : Kept q l3 := ?_; clear_value l3); apply giveEstimates_kept; apply revokeHeld_kept; assumption; unfold l3; apply setXfer_kept
  assumption; unfold l2; apply updArb_kept; assumption; unfold l1; apply takeLines_kept; assumption

theorem atelierMove_kept {q : List Instr} : ∀ x0 x1 x2 x3 x4, Kept q x0 → Kept q (atelierMove x0 x1 x2 x3 x4) := by
  intro x0 x1 x2 x3 x4 h0; unfold atelierMove; split; assumption; apply enqueue_kept; assumption

theorem objMove_kept {q : List Instr} : ∀ x0 x1 x2, Kept q x0 → Kept q (objMove x0 x1 x2) := by
  intro x0 x1 x2 h0; unfold objMove; split; split; assumption; apply atelierMove_kept; assumption; assumption

theorem switchMove_kept {q : List Instr} : ∀ x0 x1 x2 x3, Kept q x0 → Kept q (switchMove x0 x1 x2 x3) := by
  intro x0 x1 x2 x3 h0; unfold switchMove; split; split; split; assumption; apply atelierMove_kept; assumption; assumption; assumption

theorem preempt_kept {q : List Instr} : ∀ x0 x1, Kept q x0 → Kept q (preempt x0 x1) := by
  intro x0 x1 h0; unfold preempt; split; assumption; extract_lets +onlyGivenNames l3; clear_value l3; extract_lets +onlyGivenNames l4
  clear_value l4; extract_lets +onlyGivenNames l5; (have k5 : Kept q l5 := ?_; clear_value l5); extract_lets +onlyGivenNames l6
  (have k6 : Kept q l6 := ?_; clear_value l6); extract_lets +onlyGivenNames l7; (have k7 : Kept q l7 := switchMove_kept _ _ _ _ k6; clear_value l7)
  apply State_setJob_kept; assumption; unfold l6; apply forEach_kept; intro _ _ _
  extract_lets +onlyGivenNames l14; clear_value l14; apply State_setTile_kept; assumption; assumption; unfold l5; apply removeRuns_kept
  assumption

theorem preemptFirst_kept {q : List Instr} : ∀ x0 x1, Kept q x0 → Kept q (preemptFirst x0 x1) := by
  intro x0 x1 h0; unfold preemptFirst; split; split; assumption; apply preempt_kept; assumption; assumption

theorem enforceCap_kept {q : List Instr} : ∀ x0 x1, Kept q x0 → Kept q (enforceCap x0 x1) := by
  intro x0 x1 h0; unfold enforceCap; split; assumption; apply preemptFirst_kept; assumption

theorem grantQueue_kept {q : List Instr} : ∀ x0 x1, Kept q x1 → Kept q (grantQueue x0 x1) := by
  intro x0; induction x0 with
  | zero => intro _ h0; exact h0
  | succ n ih =>
  intro x1 h0; unfold grantQueue; split; assumption; split; assumption; split; assumption; split; assumption
  extract_lets +onlyGivenNames l1; (have k1 : Kept q l1 := grantTo_kept _ _ _ _ _ h0; clear_value l1); apply ih; split; assumption
  apply switchMove_kept; assumption

theorem pageTouch_kept {q : List Instr} : ∀ x0 x1 x2 x3, Kept q x0 → Kept q (pageTouch x0 x1 x2 x3) := by
  intro x0 x1 x2 x3 h0; unfold pageTouch; split; apply objTouch_kept; assumption; assumption

theorem tokensTouch_kept {q : List Instr} : ∀ x0 x1, Kept q x0 → Kept q (tokensTouch x0 x1) := by
  intro x0 x1 h0; unfold tokensTouch; split; assumption; apply pageTouch_kept; assumption

theorem allocSpan_kept {q : List Instr} : ∀ x0 x1 x2 x3, Kept q x0 → KeptOpt1 q (allocSpan x0 x1 x2 x3) := by
  intro x0 x1 x2 x3 h0
  unfold allocSpan
  split
  · exact keptOpt1_none
  · refine keptOpt1_map (fun s h => h) (keptOpt_foldl _ _ _ (fun acc l h => keptOpt_bind (fun s hs => keptOpt_map_any (fun f => ?_)) h) (keptOpt_mk h0))
    dsimp only
    split
    · apply objWriteBytes_kept
      exact hs
    · exact hs

theorem allocCall_kept {q : List Instr} : ∀ x0 x1 x2 x3 x4, Kept q x0 → KeptOpt1 q (allocCall x0 x1 x2 x3 x4) := by
  intro x0 x1 x2 x3; induction x3 generalizing x0 with
  | nil => intro _ h0; unfold allocCall; exact keptOpt1_mk h0
  | cons n ns ih =>
  intro x4 h0; unfold allocCall; split; exact keptOpt1_none; apply ih; refine keptOpt1_pair (by assumption) ?_; apply allocSpan_kept
  assumption

theorem abortSpans_kept {q : List Instr} : ∀ x0 x1, Kept q x0 → Kept q (abortSpans x0 x1) := by
  intro x0 x1 h0; unfold abortSpans; apply forEach_kept; intro _ _ _; split; assumption; apply kept_mk2; apply kept_mem (q := q)
  assumption; apply kept_host (q := q); assumption; apply kept_pending; assumption; assumption

theorem startSpill_kept {q : List Instr} : ∀ x0 x1 x2, Kept q x0 → Kept q (startSpill x0 x1 x2) := by
  intro x0 x1 x2 h0; unfold startSpill; split; assumption; split; assumption; extract_lets +onlyGivenNames l5
  (have k5 : Kept q l5 := ?_; clear_value l5); apply kept_mk2; apply kept_mem (q := q); assumption; apply kept_host (q := q); assumption
  apply kept_pending; assumption; unfold l5; apply objMove_kept; assumption

theorem startSpills_kept {q : List Instr} : ∀ x0 x1 x2 x3, Kept q x0 → Kept q (startSpills x0 x1 x2 x3) := by
  intro x0 x1 x2 x3 h0; unfold startSpills; extract_lets +onlyGivenNames l1; clear_value l1; extract_lets +onlyGivenNames l2
  clear_value l2; extract_lets +onlyGivenNames l3; clear_value l3; apply forEach_kept; intro _ _ _; extract_lets +onlyGivenNames l8
  clear_value l8; extract_lets +onlyGivenNames l9; clear_value l9; apply forEach_kept; intro _ _ _; apply startSpill_kept; assumption
  assumption; assumption

theorem startRecall_kept {q : List Instr} : ∀ x0 x1 x2, Kept q x0 → Kept q (startRecall x0 x1 x2) := by
  intro x0 x1 x2 h0; unfold startRecall; split; assumption; split; split; extract_lets +onlyGivenNames l5
  (have k5 : Kept q l5 := ?_; clear_value l5); apply kept_mk2; apply kept_mem (q := q); assumption; apply kept_host (q := q); assumption
  apply kept_pending; assumption; unfold l5; apply objMove_kept; assumption; split; apply startSpill_kept; assumption; assumption
  assumption

theorem recallLayer_kept {q : List Instr} : ∀ x0 x1 x2, Kept q x0 → Kept q (recallLayer x0 x1 x2) := by
  intro x0 x1 x2 h0; unfold recallLayer; extract_lets +onlyGivenNames l1; clear_value l1; apply forEach_kept; intro _ _ _; split; split
  apply forEach_kept; intro _ _ _; apply startRecall_kept; assumption; assumption; assumption; assumption; assumption

theorem sealSpan_kept {q : List Instr} : ∀ x0 x1 x2 x3, Kept q x0 → Kept q (sealSpan x0 x1 x2 x3).1 := by
  intro x0 x1 x2 x3 h0; unfold sealSpan; split; with_reducible apply kept_p1; assumption; split; with_reducible apply kept_p1; assumption
  split; with_reducible apply kept_p1; assumption; extract_lets +onlyGivenNames l10; clear_value l10; extract_lets +onlyGivenNames l11
  (have k11 : Kept q l11 := ?_; clear_value l11); extract_lets +onlyGivenNames l12; clear_value l12; extract_lets +onlyGivenNames l13
  clear_value l13; extract_lets +onlyGivenNames l14; clear_value l14; split; with_reducible apply kept_p1; apply kept_mk2
  apply kept_mem (q := q); assumption; apply kept_host (q := q); assumption; apply kept_pending; assumption
  extract_lets +onlyGivenNames l24; clear_value l24; with_reducible apply kept_p1; apply kept_mk2; apply kept_mem (q := q); assumption
  apply kept_host (q := q); assumption; apply kept_pending; assumption; unfold l11; split; assumption; apply tokensTouch_kept; assumption

theorem sealSpans_kept {q : List Instr} : ∀ x0 x1 x2 x3, Kept q x0 → Kept q (sealSpans x0 x1 x2 x3).1 := by
  intro x0 x1 x2 x3 h0; unfold sealSpans; apply kept_foldl_fst; intro _ _ _; extract_lets +onlyGivenNames l5
  (have k5 : Kept q l5.1 := ?_; clear_value l5); with_reducible apply kept_p1; assumption; unfold l5; apply sealSpan_kept; assumption
  with_reducible apply kept_p1; assumption

theorem touchSpan_kept {q : List Instr} : ∀ x0 x1 x2 x3, Kept q x0 → Kept q (touchSpan x0 x1 x2 x3) := by
  intro x0 x1 x2 x3 h0; unfold touchSpan; apply kept_mk2; apply kept_mem (q := q); assumption; apply kept_host (q := q); assumption
  apply kept_pending; assumption

theorem commitRow_kept {q : List Instr} : ∀ x0 x1 x2, Kept q x0 → Kept q (commitRow x0 x1 x2).1 := by
  intro x0 x1 x2 h0; unfold commitRow; split; with_reducible apply kept_p1; assumption; extract_lets +onlyGivenNames l4; clear_value l4
  extract_lets +onlyGivenNames l5; (have k5 : Kept q l5 := ?_; clear_value l5); extract_lets +onlyGivenNames l6; clear_value l6
  extract_lets +onlyGivenNames l7; clear_value l7; extract_lets +onlyGivenNames l8; clear_value l8; extract_lets +onlyGivenNames l9
  (have k9 : Kept q l9 := ?_; clear_value l9); extract_lets +onlyGivenNames l10; (have k10 : Kept q l10 := ?_; clear_value l10)
  apply sealSpans_kept; assumption; unfold l10; apply forEach_kept; intro _ _ _; apply touchSpan_kept; assumption; assumption; unfold l9
  apply kept_mk2; apply kept_mem (q := q); assumption; apply kept_host (q := q); assumption; apply kept_pending; assumption; unfold l5
  apply forEach_kept; intro _ _ _; split; apply kept_mk2; apply kept_mem (q := q); assumption; apply kept_host (q := q); assumption
  apply kept_pending; assumption; assumption; assumption

theorem countPin_kept {q : List Instr} : ∀ x0 x1 x2, Kept q x0 → Kept q (countPin x0 x1 x2) := by
  intro x0 x1 x2 h0; unfold countPin; split; split; assumption; apply State_setJob_kept; assumption; assumption

theorem pinApply_kept {q : List Instr} : ∀ x0 x1 x2 x3 x4, Kept q x0 → Kept q (pinApply x0 x1 x2 x3 x4) := by
  intro x0 x1 x2 x3 x4 h0; unfold pinApply; split; assumption; extract_lets +onlyGivenNames l3; clear_value l3
  extract_lets +onlyGivenNames l4; clear_value l4; extract_lets +onlyGivenNames l5; clear_value l5; extract_lets +onlyGivenNames l6
  (have k6 : Kept q l6 := ?_; clear_value l6); extract_lets +onlyGivenNames l7; clear_value l7; extract_lets +onlyGivenNames l8
  clear_value l8; extract_lets +onlyGivenNames l9; (have k9 : Kept q l9 := ?_; clear_value l9); extract_lets +onlyGivenNames l10
  (have k10 : Kept q l10.1 := ?_; clear_value l10); extract_lets +onlyGivenNames l11; (have k11 : Kept q l11 := ?_; clear_value l11)
  extract_lets +onlyGivenNames l12; clear_value l12; extract_lets +onlyGivenNames l13; (have k13 : Kept q l13 := ?_; clear_value l13)
  split; assumption; extract_lets +onlyGivenNames l16; clear_value l16; split; assumption; extract_lets +onlyGivenNames l19
  clear_value l19; apply countPin_kept; apply kept_mk2; apply kept_mem (q := q); assumption; apply kept_host (q := q); assumption
  apply kept_pending; assumption; unfold l13; apply kept_mk2; apply kept_mem (q := q); assumption; apply kept_host (q := q); assumption
  apply kept_pending; assumption; unfold l11; apply countPin_kept; assumption; unfold l10; apply sealSpans_kept; assumption; unfold l9
  apply kept_mk2; apply kept_mem (q := q); assumption; apply kept_host (q := q); assumption; apply kept_pending; assumption; unfold l6
  apply forEach_kept; intro _ _ _; apply kept_mk2; apply kept_mem (q := q); assumption; apply kept_host (q := q); assumption
  apply kept_pending; assumption; assumption

theorem releaseSequence_kept {q : List Instr} : ∀ x0 x1, Kept q x0 → Kept q (releaseSequence x0 x1) := by
  intro x0 x1 h0; unfold releaseSequence; split; assumption; extract_lets +onlyGivenNames l3
  (have k3 : Kept q l3 := ?_; clear_value l3); apply kept_mk2; apply kept_mem (q := q); assumption; apply kept_host (q := q); assumption
  apply kept_pending; assumption; unfold l3; apply forEach_kept; intro _ _ _; apply kept_mk2; apply kept_mem (q := q); assumption
  apply kept_host (q := q); assumption; apply kept_pending; assumption; assumption

theorem releasePrefix_kept {q : List Instr} : ∀ x0 x1, Kept q x0 → Kept q (releasePrefix x0 x1) := by
  intro x0 x1 h0; unfold releasePrefix; split; assumption; extract_lets +onlyGivenNames l3; clear_value l3
  extract_lets +onlyGivenNames l4; (have k4 : Kept q l4 := ?_; clear_value l4); extract_lets +onlyGivenNames l5
  (have k5 : Kept q l5 := ?_; clear_value l5); apply kept_mk2; apply kept_mem (q := q); assumption; apply kept_host (q := q); assumption
  apply kept_pending; assumption; unfold l5; apply forEach_kept; intro _ _ _; apply kept_mk2; apply kept_mem (q := q); assumption
  apply kept_host (q := q); assumption; apply kept_pending; assumption; assumption; unfold l4; apply kept_mk2; apply kept_mem (q := q)
  assumption; apply kept_host (q := q); assumption; apply kept_pending; assumption

theorem losePages_kept {q : List Instr} : ∀ x0 x1, Kept q x0 → Kept q (losePages x0 x1) := by
  intro x0 x1 h0; unfold losePages; extract_lets +onlyGivenNames l1; clear_value l1; extract_lets +onlyGivenNames l2; clear_value l2
  extract_lets +onlyGivenNames l3; clear_value l3; extract_lets +onlyGivenNames l4; clear_value l4; extract_lets +onlyGivenNames l5
  clear_value l5; apply kept_mk2; apply kept_mem (q := q); assumption; apply kept_host (q := q); assumption; apply kept_pending; assumption

theorem updStream_kept {q : List Instr} : ∀ x0 x1 x2 x3, Kept q x0 → Kept q (updStream x0 x1 x2 x3) := by
  intro x0 x1 x2 x3 h0; unfold updStream; apply State_setPart_kept; assumption

theorem writePark_kept {q : List Instr} : ∀ x0 x1, Kept q x0 → Kept q (writePark x0 x1) := by
  intro x0 x1 h0; unfold writePark; split; assumption; split; apply objWriteBytes_kept; assumption; assumption

theorem readPark_kept {q : List Instr} : ∀ x0 x1, Kept q x0 → Kept q (readPark x0 x1) := by
  intro x0 x1 h0; unfold readPark; split; assumption; split; apply objWriteBytes_kept; assumption; assumption

theorem writeInitial_kept {q : List Instr} : ∀ x0 x1 x2, Kept q x0 → Kept q (writeInitial x0 x1 x2) := by
  intro x0 x1 x2 h0; unfold writeInitial; split; apply objWriteBytes_kept; assumption; assumption

theorem countStream_kept {q : List Instr} : ∀ x0 x1 x2, Kept q x0 → Kept q (countStream x0 x1 x2) := by
  intro x0 x1 x2 h0; unfold countStream; split; apply State_setJob_kept; assumption; assumption

theorem stateMove_kept {q : List Instr} : ∀ x0 x1 x2, Kept q x0 → Kept q (stateMove x0 x1 x2) := by
  intro x0 x1 x2 h0; unfold stateMove; split; apply atelierMove_kept; assumption; assumption

theorem startPark_kept {q : List Instr} : ∀ x0 x1 x2, Kept q x0 → Kept q (startPark x0 x1 x2) := by
  intro x0 x1 x2 h0; unfold startPark; split; extract_lets +onlyGivenNames l2; (have k2 : Kept q l2 := ?_; clear_value l2)
  apply stateMove_kept; apply updStream_kept; assumption; unfold l2; apply countStream_kept; assumption; assumption

theorem writeBlock_kept {q : List Instr} : ∀ x0 x1 x2 x3 x4, Kept q x0 → Kept q (writeBlock x0 x1 x2 x3 x4) := by
  intro x0 x1 x2 x3 x4 h0; unfold writeBlock; apply forEach_kept; intro _ _ _; split; assumption; split; apply objWriteBytes_kept
  apply objMove_kept; assumption; assumption; assumption

theorem refreshCtl_kept {q : List Instr} : ∀ x0 x1 x2, Kept q x0 → Kept q (refreshCtl x0 x1 x2) := by
  intro x0 x1 x2 h0; unfold refreshCtl; split; assumption; split; assumption; split; split; apply writeBlock_kept; assumption
  assumption; assumption

theorem needSlot_kept {q : List Instr} : ∀ x0 x1 x2 x3, Kept q x0 → Kept q (needSlot x0 x1 x2 x3).1 := by
  intro x0 x1 x2 x3 h0; unfold needSlot; split; with_reducible apply kept_p1; assumption; split; split; extract_lets +onlyGivenNames l6
  clear_value l6; extract_lets +onlyGivenNames l7; (have k7 : Kept q l7 := ?_; clear_value l7); extract_lets +onlyGivenNames l8
  (have k8 : Kept q l8 := ?_; clear_value l8); with_reducible apply kept_p1; apply refreshCtl_kept; apply updStream_kept; assumption
  unfold l8; split; apply writeInitial_kept; assumption; assumption; unfold l7; apply stateMove_kept; apply countStream_kept; assumption
  extract_lets +onlyGivenNames l22; clear_value l22; split; with_reducible apply kept_p1; assumption; split; with_reducible apply kept_p1
  apply startPark_kept; assumption; with_reducible apply kept_p1; assumption; with_reducible apply kept_p1; assumption

theorem servePart_kept {q : List Instr} : ∀ x0 x1, Kept q x0 → Kept q (servePart x0 x1) := by
  intro x0 x1 h0; unfold servePart; extract_lets +onlyGivenNames l1; clear_value l1; apply kept_foldl_fst; intro _ _ _
  apply needSlot_kept; assumption; with_reducible apply kept_p1; assumption

theorem serveStreams_kept {q : List Instr} : ∀ x0, Kept q x0 → Kept q (serveStreams x0) := by
  intro x0 h0; unfold serveStreams; apply forEach_kept; intro _ _ _; apply servePart_kept; assumption; assumption

theorem endPark_kept {q : List Instr} : ∀ x0 x1 x2, Kept q x0 → Kept q (endPark x0 x1 x2) := by
  intro x0 x1 x2 h0; unfold endPark; apply updStream_kept; apply writePark_kept; assumption

theorem freeAtOnce_kept {q : List Instr} : ∀ x0 x1 x2 x3, Kept q x0 → KeptOpt q (freeAtOnce x0 x1 x2 x3) := by
  intro x0 x1 x2 x3 h0; unfold freeAtOnce; split; with_reducible apply keptOpt_mk; apply endPark_kept; assumption
  with_reducible apply keptOpt_map_any; intro _; apply endPark_kept; apply startPark_kept; assumption

theorem slotAtOnce_kept {q : List Instr} : ∀ x0 x1 x2 x3, Kept q x0 → KeptOpt1 q (slotAtOnce x0 x1 x2 x3) := by
  intro x0 x1 x2 x3 h0
  unfold slotAtOnce
  split
  · exact keptOpt1_mk h0
  · exact keptOpt1_bind (fun s h => keptOpt1_map_any (fun _ => h)) (freeAtOnce_kept _ _ _ _ h0)

theorem takeRows_kept {q : List Instr} : ∀ x0 x1 x2, Kept q x0 → Kept q (takeRows x0 x1 x2).1 := by
  intro x0 x1 x2 h0; unfold takeRows; apply kept_foldl_fst; intro _ _ _; split; assumption; extract_lets +onlyGivenNames l7
  clear_value l7; extract_lets +onlyGivenNames l8; (have k8 : Kept q l8 := ?_; clear_value l8); extract_lets +onlyGivenNames l9
  (have k9 : Kept q l9 := ?_; clear_value l9); with_reducible apply kept_p1; assumption; unfold l9; split; apply countStream_kept
  apply raise_kept; assumption; assumption; unfold l8; apply updStream_kept; assumption; with_reducible apply kept_p1; assumption

theorem writeCtl_kept {q : List Instr} : ∀ x0 x1 x2 x3, Kept q x0 → Kept q (writeCtl x0 x1 x2 x3) := by
  intro x0 x1 x2 x3 h0; unfold writeCtl; apply forEach_kept; intro _ _ _; apply writeBlock_kept; assumption; assumption

theorem commitRows_kept {q : List Instr} : ∀ x0 x1 x2, Kept q x0 → Kept q (commitRows x0 x1 x2) := by
  intro x0 x1 x2 h0; unfold commitRows; apply forEach_kept; intro _ _ _; split; assumption; extract_lets +onlyGivenNames l7
  (have k7 : Kept q l7 := ?_; clear_value l7); extract_lets +onlyGivenNames l8; (have k8 : Kept q l8 := ?_; clear_value l8); split
  apply startPark_kept; apply updStream_kept; assumption; assumption; unfold l8; apply countStream_kept; assumption; unfold l7
  apply updStream_kept; assumption; assumption

theorem abandonRows_kept {q : List Instr} : ∀ x0 x1 x2, Kept q x0 → Kept q (abandonRows x0 x1 x2) := by
  intro x0 x1 x2 h0; unfold abandonRows; apply forEach_kept; intro _ _ _; split; assumption; extract_lets +onlyGivenNames l7
  (have k7 : Kept q l7 := ?_; clear_value l7); extract_lets +onlyGivenNames l8; (have k8 : Kept q l8 := ?_; clear_value l8); split
  apply startPark_kept; apply updStream_kept; assumption; assumption; unfold l8; apply countStream_kept; assumption; unfold l7
  apply updStream_kept; assumption; assumption

theorem requeueRows_kept {q : List Instr} : ∀ x0 x1, Kept q x0 → Kept q (requeueRows x0 x1) := by
  intro x0 x1 h0; unfold requeueRows; apply forEach_kept; intro _ _ _; split; assumption; apply updStream_kept; assumption; assumption

theorem breakStreams_kept {q : List Instr} : ∀ x0 x1, Kept q x0 → Kept q (breakStreams x0 x1) := by
  intro x0 x1 h0; unfold breakStreams; apply forEach_kept; intro _ _ _; apply State_setPart_kept; assumption; assumption

theorem dropStreams_kept {q : List Instr} : ∀ x0 x1, Kept q x0 → Kept q (dropStreams x0 x1) := by
  intro x0 x1 h0; unfold dropStreams; apply forEach_kept; intro _ _ _; apply State_setPart_kept; assumption; assumption

theorem complete_kept {q : List Instr} : ∀ x0 x1 x2 x3 x4 x5, Kept q x0 → Kept q (complete x0 x1 x2 x3 x4 x5) := by
  intro x0 x1 x2 x3 x4 x5 h0; unfold complete; extract_lets +onlyGivenNames l1; clear_value l1; extract_lets +onlyGivenNames l2
  (have k2 : Kept q l2 := ?_; clear_value l2); split; apply loseEntry_kept; assumption; apply postEntry_kept; assumption; unfold l2
  apply State_setBox_kept; assumption

theorem command_kept {q : List Instr} : ∀ x0 x1 x2 x3 x4 x5, Kept q x0 → (∀ y100, Kept q y100 → Kept q (x5 y100)) → KeptOut q (command x0 x1 x2 x3 x4 x5) := by
  intro x0 x1 x2 x3 x4 x5 h0 h1; unfold command; apply kept_next; apply onlyIf_kept; assumption; split; apply complete_kept; assumption
  apply h1; assumption

theorem command0_kept {q : List Instr} : ∀ x0 x1 x2 x3 x4 x5, Kept q x0 → (∀ y100, Kept q y100 → Kept q (x5 y100)) → KeptOut q (command0 x0 x1 x2 x3 x4 x5) := by
  intro x0 x1 x2 x3 x4 x5 h0 h1; unfold command0; apply command_kept; assumption; intro _ _; split; apply complete_kept; assumption
  apply h1; assumption

theorem await_kept {q : List Instr} : ∀ x0 x1 x2 x3 x4, Kept q x0 → Kept q (await x0 x1 x2 x3 x4) := by
  intro x0 x1 x2 x3 x4 h0; unfold await; apply State_setBox_kept; assumption

theorem bufFault_kept {q : List Instr} : ∀ x0 x1 x2 x3, Kept q x0 → Kept q (bufFault x0 x1 x2 x3) := by
  intro x0 x1 x2 x3 h0; unfold bufFault; apply complete_kept; apply haltBox_kept; assumption

theorem withBuf_kept {q : List Instr} : ∀ x0 x1 x2 x3 x4 x5 x6, Kept q x0 → (∀ y100, Kept q y100 → (∀ y101, Kept q ((x6 y100) y101))) → Kept q (withBuf x0 x1 x2 x3 x4 x5 x6) := by
  intro x0 x1 x2 x3 x4 x5 x6 h0 h1; unfold withBuf; split; apply complete_kept; assumption; split; apply bufFault_kept
  refine kept_fst (by assumption) ?_; apply bufRead_kept; assumption; apply h1; refine kept_fst (by assumption) ?_; apply bufRead_kept
  assumption

theorem replyBuf_kept {q : List Instr} : ∀ x0 x1 x2 x3 x4 x5 x6, Kept q x0 → (∀ y100, Kept q y100 → Kept q (x6 y100)) → Kept q (replyBuf x0 x1 x2 x3 x4 x5 x6) := by
  intro x0 x1 x2 x3 x4 x5 x6 h0 h1; unfold replyBuf; split; apply complete_kept; assumption; split; apply h1
  refine kept_fst (by assumption) ?_; apply bufWrite_kept; assumption; apply bufFault_kept; refine kept_fst (by assumption) ?_
  apply bufWrite_kept; assumption

theorem rowTableWrite_kept {q : List Instr} : ∀ x0 x1 x2 x3, Kept q x0 → Kept q (rowTableWrite x0 x1 x2 x3) := by
  intro x0 x1 x2 x3 h0; unfold rowTableWrite; split; refine kept_fst (by assumption) ?_; apply busWrite_kept; assumption
  apply haltBox_kept; refine kept_fst (by assumption) ?_; apply busWrite_kept; assumption

theorem rowState1_kept {q : List Instr} : ∀ x0 x1 x2 x3, Kept q x0 → Kept q (rowState1 x0 x1 x2 x3) := by
  intro x0 x1 x2 x3 h0; unfold rowState1; apply rowTableWrite_kept; assumption

theorem rowState2_kept {q : List Instr} : ∀ x0 x1 x2 x3, Kept q x0 → Kept q (rowState2 x0 x1 x2 x3) := by
  intro x0 x1 x2 x3 h0; unfold rowState2; apply rowTableWrite_kept; assumption

end Sys2Proof.Machine
end

