-- ==== Sys2Proof/Laws/KeptJobs.lean ====
section
/-! SUPPORT. What keeps both memories in canonical form and leaves the queue of commands alone: publishing, jobs, responses to faults, the sequencer, the slice and the moves. -/

open Sys2Proof

namespace Sys2Proof.Machine

theorem objSetWord_kept {q : List Instr} : ∀ x0 x1 x2 x3, Kept q x0 → Kept q (objSetWord x0 x1 x2 x3) := by
  intro x0 x1 x2 x3 h0; unfold objSetWord; apply objWriteBytes_kept; assumption

theorem switchIndex_kept {q : List Instr} : ∀ x0 x1 x2, Kept q x0 → Kept q (switchIndex x0 x1 x2) := by
  intro x0 x1 x2 h0; unfold switchIndex; split; assumption; apply objSetWord_kept; assumption

theorem publishQp_kept {q : List Instr} : ∀ x0 x1 x2 x3, Kept q x0 → Kept q (publishQp x0 x1 x2 x3) := by
  intro x0 x1 x2 x3 h0; unfold publishQp; extract_lets +onlyGivenNames l1; clear_value l1; extract_lets +onlyGivenNames l2
  (have k2 : Kept q l2 := ?_; clear_value l2); apply forEach_kept; intro _ _ _; split; assumption; extract_lets +onlyGivenNames l9
  clear_value l9; extract_lets +onlyGivenNames l10; clear_value l10; extract_lets +onlyGivenNames l11; clear_value l11
  extract_lets +onlyGivenNames l12; (have k12 : Kept q l12.2 := ?_; clear_value l12); extract_lets +onlyGivenNames l13
  (have k13 : Kept q l13 := ?_; clear_value l13); extract_lets +onlyGivenNames l14; (have k14 : Kept q l14 := ?_; clear_value l14)
  extract_lets +onlyGivenNames l15; (have k15 : Kept q l15.2 := ?_; clear_value l15); extract_lets +onlyGivenNames l16
  (have k16 : Kept q l16 := ?_; clear_value l16); split; apply raiseAs_kept; assumption; assumption; unfold l16; assumption; unfold l15
  apply takeInjection_kept; assumption; unfold l14; split; apply raiseAs_kept; assumption; assumption; unfold l13; assumption; unfold l12
  apply takeInjection_kept; assumption; assumption; unfold l2; apply forEach_kept; intro _ _ _; apply switchIndex_kept; assumption
  assumption

theorem warmStart_kept {q : List Instr} : ∀ x0 x1 x2 x3, Kept q x0 → Kept q (warmStart x0 x1 x2 x3).1 := by
  intro x0 x1 x2 x3 h0; unfold warmStart; apply kept_foldl_fst; intro _ _ _; split; assumption; split; extract_lets +onlyGivenNames l8
  clear_value l8; extract_lets +onlyGivenNames l9; clear_value l9; extract_lets +onlyGivenNames l10; clear_value l10
  extract_lets +onlyGivenNames l11; clear_value l11; extract_lets +onlyGivenNames l12; (have k12 : Kept q l12.2 := ?_; clear_value l12)
  extract_lets +onlyGivenNames l13; (have k13 : Kept q l13 := ?_; clear_value l13); split; with_reducible apply kept_p1; apply raiseAs_kept
  assumption; with_reducible apply kept_p1; assumption; unfold l13; assumption; unfold l12; apply takeInjection_kept; assumption
  assumption; with_reducible apply kept_p1; assumption

theorem updateResting_kept {q : List Instr} : ∀ x0, Kept q x0 → Kept q (updateResting x0) := by
  intro x0 h0; unfold updateResting; apply kept_mk2; apply kept_mem (q := q); assumption; apply kept_host (q := q); assumption
  apply kept_pending; assumption

theorem writeHaltWord_kept {q : List Instr} : ∀ x0 x1, Kept q x0 → Kept q (writeHaltWord x0 x1) := by
  intro x0 x1 h0; unfold writeHaltWord; split; assumption; split; assumption; apply objSetWord_kept; assumption

theorem planDetectors_kept {q : List Instr} : ∀ x0 x1 x2 x3 x4, Kept q x0 → Kept q (planDetectors x0 x1 x2 x3 x4) := by
  intro x0 x1 x2 x3 x4 h0; unfold planDetectors; extract_lets +onlyGivenNames l1; clear_value l1; extract_lets +onlyGivenNames l2
  clear_value l2; extract_lets +onlyGivenNames l3; clear_value l3; extract_lets +onlyGivenNames l4; clear_value l4
  extract_lets +onlyGivenNames l5; (have k5 : Kept q l5 := ?_; clear_value l5); extract_lets +onlyGivenNames l6
  (have k6 : Kept q l6 := ?_; clear_value l6); extract_lets +onlyGivenNames l7; (have k7 : Kept q l7 := ?_; clear_value l7); split
  apply raiseAs_kept; assumption; assumption; unfold l7; split; apply raiseAs_kept; assumption; assumption; unfold l6; split
  apply raiseAs_kept; assumption; assumption; unfold l5; split; apply raiseAs_kept; assumption; assumption

theorem publishPlan_kept {q : List Instr} : ∀ x0 x1 x2 x3 x4, Kept q x0 → Kept q (publishPlan x0 x1 x2 x3 x4).1 := by
  intro x0 x1 x2 x3 x4 h0; unfold publishPlan; split; with_reducible apply kept_p1; assumption; split; with_reducible apply kept_p1
  assumption; extract_lets +onlyGivenNames l7; clear_value l7; extract_lets +onlyGivenNames l8; clear_value l8
  extract_lets +onlyGivenNames l9; (have k9 : Kept q l9 := ?_; clear_value l9); extract_lets +onlyGivenNames l10; clear_value l10
  extract_lets +onlyGivenNames l11; clear_value l11; extract_lets +onlyGivenNames l12; (have k12 : Kept q l12 := ?_; clear_value l12)
  with_reducible apply kept_p1; apply planDetectors_kept; assumption; unfold l12; split; apply objSetWord_kept; assumption; assumption
  unfold l9; apply switchIndex_kept; assumption

theorem publishRoadmap_kept {q : List Instr} : ∀ x0 x1 x2, Kept q x0 → Kept q (publishRoadmap x0 x1 x2) := by
  intro x0 x1 x2 h0; unfold publishRoadmap; apply forEach_kept; intro _ _ _; apply switchIndex_kept; assumption; assumption

theorem setBufferState_kept {q : List Instr} : ∀ x0 x1 x2 x3, Kept q x0 → Kept q (setBufferState x0 x1 x2 x3) := by
  intro x0 x1 x2 x3 h0; unfold setBufferState; apply objWriteBytes_kept; assumption

theorem publishField_kept {q : List Instr} : ∀ x0 x1 x2, Kept q x0 → Kept q (publishField x0 x1 x2) := by
  intro x0 x1 x2 h0; unfold publishField; split; split; assumption; extract_lets +onlyGivenNames l4; clear_value l4
  extract_lets +onlyGivenNames l5; (have k5 : Kept q l5 := ?_; clear_value l5); extract_lets +onlyGivenNames l6
  (have k6 : Kept q l6 := ?_; clear_value l6); apply objSetWord_kept; apply objSetWord_kept; assumption; unfold l6; apply objSetWord_kept
  assumption; unfold l5; apply setBufferState_kept; assumption; assumption

theorem emptyField_kept {q : List Instr} : ∀ x0 x1 x2, Kept q x0 → Kept q (emptyField x0 x1 x2) := by
  intro x0 x1 x2 h0; unfold emptyField; split; split; assumption; apply setBufferState_kept; assumption; assumption

theorem giveTracks_kept {q : List Instr} : ∀ x0 x1 x2 x3 x4 x5, Kept q x0 → Kept q (giveTracks x0 x1 x2 x3 x4 x5).1 := by
  intro x0 x1 x2 x3 x4 x5 h0; unfold giveTracks; apply kept_foldl_fst; intro _ _ _; extract_lets +onlyGivenNames l5
  (have k5 : Kept q l5 := ?_; clear_value l5); extract_lets +onlyGivenNames l6; clear_value l6; split; extract_lets +onlyGivenNames l8
  clear_value l8; split; with_reducible apply kept_p1; apply objSetWord_kept; assumption; extract_lets +onlyGivenNames l13
  clear_value l13; with_reducible apply kept_p1; apply objSetWord_kept; assumption; with_reducible apply kept_p1; apply objSetWord_kept
  assumption; unfold l5; assumption; with_reducible apply kept_p1; assumption

theorem publishFuse_kept {q : List Instr} : ∀ x0 x1 x2 x3 x4, Kept q x0 → Kept q (publishFuse x0 x1 x2 x3 x4) := by
  intro x0 x1 x2 x3 x4 h0; unfold publishFuse; split; split; extract_lets +onlyGivenNames l3; clear_value l3
  extract_lets +onlyGivenNames l4; clear_value l4; extract_lets +onlyGivenNames l5; (have k5 : Kept q l5 := ?_; clear_value l5)
  extract_lets +onlyGivenNames l6; clear_value l6; extract_lets +onlyGivenNames l7; clear_value l7; extract_lets +onlyGivenNames l8
  clear_value l8; extract_lets +onlyGivenNames l9; (have k9 : Kept q l9.1 := ?_; clear_value l9); extract_lets +onlyGivenNames l10
  (have k10 : Kept q l10 := ?_; clear_value l10); extract_lets +onlyGivenNames l11; (have k11 : Kept q l11 := ?_; clear_value l11)
  extract_lets +onlyGivenNames l12; (have k12 : Kept q l12 := ?_; clear_value l12); split; apply State_setJob_kept; assumption
  assumption; unfold l12; apply objSetWord_kept; assumption; unfold l11; apply objWriteBytes_kept; assumption; unfold l10; split
  assumption; apply objSetWord_kept; assumption; unfold l9; apply giveTracks_kept; assumption; unfold l5; split; assumption
  apply objSetWord_kept; assumption; assumption; assumption

theorem publishEgo_kept {q : List Instr} : ∀ x0 x1 x2 x3 x4, Kept q x0 → Kept q (publishEgo x0 x1 x2 x3 x4) := by
  intro x0 x1 x2 x3 x4 h0; unfold publishEgo; split; assumption; split; assumption; split; assumption
  extract_lets +onlyGivenNames l7; (have k7 : Kept q l7 := ?_; clear_value l7); split; apply State_setJob_kept; assumption; assumption
  unfold l7; apply objWriteBytes_kept; assumption

theorem writeHeaders_kept {q : List Instr} : ∀ x0 x1, Kept q x0 → Kept q (writeHeaders x0 x1) := by
  intro x0 x1 h0; unfold writeHeaders; apply forEach_kept; intro _ _ _; apply scratchWrite_kept; assumption; assumption

theorem mapDescs_kept {q : List Instr} : ∀ x0 x1 x2, Kept q x0 → Kept q (mapDescs x0 x1 x2) := by
  intro x0 x1 x2 h0; unfold mapDescs; apply forEach_kept; intro _ _ _; apply updTile_kept; assumption; assumption

theorem aimField_kept {q : List Instr} : ∀ x0 x1 x2 x3 x4, Kept q x0 → Kept q (aimField x0 x1 x2 x3 x4) := by
  intro x0 x1 x2 x3 x4 h0; unfold aimField; apply mapDescs_kept; assumption

theorem preparePass_kept {q : List Instr} : ∀ x0 x1 x2 x3 x4 x5 x6 x7, Kept q x0 → KeptOpt q (preparePass x0 x1 x2 x3 x4 x5 x6 x7) := by
  intro x0 x1 x2 x3 x4 x5 x6 x7 h0; unfold preparePass; with_reducible apply keptOpt_map_any; intro _; extract_lets +onlyGivenNames l3
  clear_value l3; apply updInv_kept; apply writeHeaders_kept; apply aimField_kept; assumption

theorem latchHeaders_kept {q : List Instr} : ∀ x0, Kept q x0 → Kept q (latchHeaders x0) := by
  intro x0 h0; unfold latchHeaders; extract_lets +onlyGivenNames l1; clear_value l1; extract_lets +onlyGivenNames l2; clear_value l2
  apply forEach_kept; intro _ _ _; apply writeHeaders_kept; assumption; assumption

theorem postEnd_kept {q : List Instr} : ∀ x0 x1 x2 x3, Kept q x0 → Kept q (postEnd x0 x1 x2 x3) := by
  intro x0 x1 x2 x3 h0; unfold postEnd; apply postEntry_kept; assumption

theorem sumCounts_kept {q : List Instr} : ∀ x0 x1 x2, Kept q x0 → Kept q (sumCounts x0 x1 x2).1 := by
  intro x0 x1 x2 h0; unfold sumCounts; extract_lets +onlyGivenNames l1; (have k1 : Kept q l1.2 := ?_; clear_value l1)
  extract_lets +onlyGivenNames l2; (have k2 : Kept q l2 := ?_; clear_value l2); extract_lets +onlyGivenNames l3; clear_value l3
  extract_lets +onlyGivenNames l4; (have k4 : Kept q l4 := ?_; clear_value l4); with_reducible apply kept_p1; assumption; unfold l4
  split; assumption; apply raiseAs_kept; assumption; unfold l2; assumption; unfold l1; apply takeInjection_kept; assumption

theorem finishRows_kept {q : List Instr} : ∀ x0 x1 x2 x3, Kept q x0 → Kept q (finishRows x0 x1 x2 x3) := by
  intro x0 x1 x2 x3 h0; unfold finishRows; extract_lets +onlyGivenNames l1; (have k1 : Kept q l1 := ?_; clear_value l1)
  apply forEach_kept; intro _ _ _; apply forEach_kept; intro _ _ _; apply rowState2_kept; assumption; assumption; assumption; unfold l1
  apply forEach_kept; intro _ _ _; apply rowState1_kept; assumption; assumption

theorem reloadFallback_kept {q : List Instr} : ∀ x0 x1 x2, Kept q x0 → Kept q (reloadFallback x0 x1 x2) := by
  intro x0 x1 x2 h0; unfold reloadFallback; split; extract_lets +onlyGivenNames l2; (have k2 : Kept q l2 := ?_; clear_value l2); split
  split; apply loadImage_kept; assumption; assumption; assumption; unfold l2; split; apply loadImage_kept; assumption; assumption
  assumption

theorem takeFallback_kept {q : List Instr} : ∀ x0 x1, Kept q x0 → Kept q (takeFallback x0 x1) := by
  intro x0 x1 h0; unfold takeFallback; split; assumption; split; assumption; split; assumption; extract_lets +onlyGivenNames l1
  (have k1 : Kept q l1 := ?_; clear_value l1); apply loadImage_kept; apply loadImage_kept; assumption; unfold l1; apply State_setJob_kept
  assumption

theorem endInvocation_kept {q : List Instr} : ∀ x0 x1 x2 x3, Kept q x0 → Kept q (endInvocation x0 x1 x2 x3) := by
  intro x0 x1 x2 x3 h0; unfold endInvocation; split; assumption; split; assumption; extract_lets +onlyGivenNames l5
  (have k5 : Kept q l5.1 := ?_; clear_value l5); extract_lets +onlyGivenNames l6; (have k6 : Kept q l6 := ?_; clear_value l6)
  extract_lets +onlyGivenNames l7; clear_value l7; extract_lets +onlyGivenNames l8; (have k8 : Kept q l8 := ?_; clear_value l8)
  extract_lets +onlyGivenNames l9; clear_value l9; extract_lets +onlyGivenNames l10; clear_value l10
  extract_lets +onlyGivenNames l11; clear_value l11; extract_lets +onlyGivenNames l12; (have k12 : Kept q l12 := ?_; clear_value l12)
  apply takeFallback_kept; apply reloadFallback_kept; split; apply postEnd_kept; assumption; assumption; unfold l12; apply State_setJob_kept; assumption; unfold l8
  split; split; apply finishRows_kept; assumption; assumption; assumption; unfold l6; assumption; unfold l5; apply sumCounts_kept
  assumption

theorem anyStatus_kept {q : List Instr} : ∀ x0, Kept q x0 → Kept q (anyStatus x0).2 := by
  intro x0 h0; unfold anyStatus; with_reducible apply kept_p1; assumption; apply State_fresh_kept; assumption

theorem refuseQueued_kept {q : List Instr} : ∀ x0 x1 x2, Kept q x0 → Kept q (refuseQueued x0 x1 x2) := by
  intro x0 x1 x2 h0; unfold refuseQueued; extract_lets +onlyGivenNames l1; (have k1 : Kept q l1.2 := ?_; clear_value l1)
  extract_lets +onlyGivenNames l2; (have k2 : Kept q l2 := ?_; clear_value l2); extract_lets +onlyGivenNames l3
  (have k3 : Kept q l3 := ?_; clear_value l3); apply forEach_kept; intro _ _ _; apply forEach_kept; intro _ _ _; apply rowState2_kept
  assumption; assumption; assumption; unfold l3; apply forEach_kept; intro _ _ _; apply finishRows_kept; assumption; assumption
  unfold l2; apply forEach_kept; intro _ _ _; apply rowState1_kept; assumption; assumption; unfold l1; apply anyStatus_kept; assumption

theorem dropTwins_kept {q : List Instr} : ∀ x0, Kept q x0 → Kept q (dropTwins x0) := by
  intro x0 h0; unfold dropTwins; apply kept_mk2; apply kept_mem (q := q); assumption; apply kept_host (q := q); assumption
  apply kept_pending; assumption

theorem dropOwn_kept {q : List Instr} : ∀ x0 x1, Kept q x0 → Kept q (dropOwn x0 x1) := by
  intro x0 x1 h0; unfold dropOwn; apply forEach_kept; intro _ _ _; apply releaseSequence_kept; assumption; assumption

theorem endJob_kept {q : List Instr} : ∀ x0 x1, Kept q x0 → Kept q (endJob x0 x1) := by
  intro x0 x1 h0; unfold endJob; split; assumption; extract_lets +onlyGivenNames l3; (have k3 : Kept q l3 := ?_; clear_value l3)
  extract_lets +onlyGivenNames l4; (have k4 : Kept q l4 := ?_; clear_value l4); extract_lets +onlyGivenNames l5
  (have k5 : Kept q l5 := ?_; clear_value l5); extract_lets +onlyGivenNames l6; (have k6 : Kept q l6 := ?_; clear_value l6)
  extract_lets +onlyGivenNames l7; (have k7 : Kept q l7 := ?_; clear_value l7); extract_lets +onlyGivenNames l8
  (have k8 : Kept q l8 := ?_; clear_value l8); extract_lets +onlyGivenNames l9; (have k9 : Kept q l9 := ?_; clear_value l9)
  extract_lets +onlyGivenNames l10; (have k10 : Kept q l10 := ?_; clear_value l10); extract_lets +onlyGivenNames l11
  (have k11 : Kept q l11 := ?_; clear_value l11); apply updateResting_kept; apply grantQueue_kept; assumption; unfold l11; apply forEach_kept
  intro _ _ _; split; split; apply complete_kept; assumption; assumption; assumption; assumption; unfold l10; apply dropTwins_kept
  assumption; unfold l9; split; assumption; apply kept_mk2; apply kept_mem (q := q); assumption; apply kept_host (q := q); assumption
  apply kept_pending; assumption; unfold l8; apply kept_mk2; apply kept_mem (q := q); assumption; apply kept_host (q := q); assumption
  apply kept_pending; assumption; unfold l7; apply freeClusters_kept; assumption; unfold l6; apply stopClusters_kept; assumption; unfold l5
  apply dropOwn_kept; apply dropStreams_kept; assumption; unfold l4; split; apply emptyField_kept; apply abortSpans_kept; assumption
  assumption; unfold l3; apply refuseQueued_kept; assumption

theorem withdraw_kept {q : List Instr} : ∀ x0 x1 x2, Kept q x0 → Kept q (withdraw x0 x1 x2) := by
  intro x0 x1 x2 h0; unfold withdraw; split; assumption; split; assumption; extract_lets +onlyGivenNames l5
  (have k5 : Kept q l5 := ?_; clear_value l5); extract_lets +onlyGivenNames l6; (have k6 : Kept q l6 := ?_; clear_value l6); split
  apply State_setJob_kept; assumption; assumption; unfold l6; apply emptyField_kept; apply abortSpans_kept; assumption; unfold l5
  apply finishRows_kept; assumption

theorem cancelNow_kept {q : List Instr} : ∀ x0 x1, Kept q x0 → Kept q (cancelNow x0 x1) := by
  intro x0 x1 h0; unfold cancelNow; extract_lets +onlyGivenNames l1; (have k1 : Kept q l1.2 := ?_; clear_value l1); apply endJob_kept
  apply withdraw_kept; assumption; unfold l1; apply anyStatus_kept; assumption

theorem afterEnd_kept {q : List Instr} : ∀ x0 x1, Kept q x0 → Kept q (afterEnd x0 x1) := by
  intro x0 x1 h0; unfold afterEnd; split; split; apply endJob_kept; assumption; assumption; assumption

theorem applyDelta_kept {q : List Instr} : ∀ x0 x1 x2, Kept q x0 → Kept q (applyDelta x0 x1 x2) := by
  intro x0 x1 x2 h0; unfold applyDelta; apply forEach_kept; intro _ _ _; split; apply objWriteBoth_kept; assumption; assumption
  assumption

theorem acceptJob_kept {q : List Instr} : ∀ x0 x1 x2 x3 x4 x5 x6, Kept q x0 → Kept q (acceptJob x0 x1 x2 x3 x4 x5 x6) := by
  intro x0 x1 x2 x3 x4 x5 x6 h0; unfold acceptJob; split; assumption; split; apply complete_kept; apply kept_mk2; apply kept_mem (q := q)
  assumption; apply kept_host (q := q); assumption; apply kept_pending; assumption; extract_lets +onlyGivenNames l12; clear_value l12
  apply await_kept; apply grantTo_kept; apply kept_mk2; apply kept_mem (q := q); assumption; apply kept_host (q := q); assumption
  apply kept_pending; assumption

theorem serveWaiter_kept {q : List Instr} : ∀ x0 x1, Kept q x0 → Kept q (serveWaiter x0 x1) := by
  intro x0 x1 h0; unfold serveWaiter; extract_lets +onlyGivenNames l1; clear_value l1; extract_lets +onlyGivenNames l2
  clear_value l2; extract_lets +onlyGivenNames l3; clear_value l3; split; split; assumption; split; apply complete_kept
  apply pinApply_kept; assumption; apply complete_kept; assumption; split; apply complete_kept; apply releasePrefix_kept; assumption; split
  assumption; apply complete_kept; apply releaseSequence_kept; assumption; split; assumption; split; apply complete_kept
  apply applyDelta_kept; assumption; apply complete_kept; assumption; split; assumption; apply complete_kept; assumption; split
  apply complete_kept; assumption; split; assumption; split; apply complete_kept; assumption; extract_lets +onlyGivenNames l42
  clear_value l42; split; apply acceptJob_kept; assumption; split; assumption; split; apply preemptFirst_kept; assumption; apply complete_kept
  apply kept_mk2; apply kept_mem (q := q); assumption; apply kept_host (q := q); assumption; apply kept_pending; assumption; assumption
  split; apply complete_kept; assumption; assumption; assumption; split; assumption; apply complete_kept; assumption; split
  extract_lets +onlyGivenNames l70; clear_value l70; extract_lets +onlyGivenNames l71; (have k71 : Kept q l71 := ?_; clear_value l71)
  apply complete_kept; assumption; unfold l71; apply noteCap_kept; apply kept_mk2; apply kept_mem (q := q); assumption
  apply kept_host (q := q); assumption; apply kept_pending; assumption; extract_lets +onlyGivenNames l83
  (have k83 : Kept q l83 := ?_; clear_value l83); apply await_kept; assumption; unfold l83; apply enforceCap_kept; assumption

theorem serveWaiting_kept {q : List Instr} : ∀ x0, Kept q x0 → Kept q (serveWaiting x0) := by
  intro x0 h0; unfold serveWaiting; apply forEach_kept; intro _ _ _; apply serveWaiter_kept; assumption; assumption

theorem assignPrefetchers_kept {q : List Instr} : ∀ x0 x1 x2, Kept q x0 → Kept q (assignPrefetchers x0 x1 x2) := by
  intro x0 x1 x2 h0; unfold assignPrefetchers; extract_lets +onlyGivenNames l1; clear_value l1; extract_lets +onlyGivenNames l2
  clear_value l2; extract_lets +onlyGivenNames l3; clear_value l3; apply State_setPart_kept; assumption

theorem assignFor_kept {q : List Instr} : ∀ x0 x1 x2, Kept q x0 → Kept q (assignFor x0 x1 x2) := by
  intro x0 x1 x2 h0; unfold assignFor; apply forEach_kept; intro _ _ _; apply assignPrefetchers_kept; assumption; assumption

theorem writePass_kept {q : List Instr} : ∀ x0 x1 x2 x3 x4, Kept q x0 → Kept q (writePass x0 x1 x2 x3 x4) := by
  intro x0 x1 x2 x3 x4 h0; unfold writePass; extract_lets +onlyGivenNames l1; clear_value l1; extract_lets +onlyGivenNames l2
  (have k2 : Kept q l2 := ?_; clear_value l2); apply mapDescs_kept; assumption; unfold l2; apply forEach_kept; intro _ _ _
  extract_lets +onlyGivenNames l10; clear_value l10; apply scratchWrite_kept; assumption; assumption

theorem copyShared_kept {q : List Instr} : ∀ x0 x1 x2, Kept q x0 → Kept q (copyShared x0 x1 x2) := by
  intro x0 x1 x2 h0; unfold copyShared; apply forEach_kept; intro _ _ _; split; assumption; split; split; apply objWriteBytes_kept
  apply objMove_kept; apply pageTouch_kept; assumption; assumption; assumption; assumption

theorem writeTokens_kept {q : List Instr} : ∀ x0 x1 x2 x3, Kept q x0 → Kept q (writeTokens x0 x1 x2 x3) := by
  intro x0 x1 x2 x3 h0; unfold writeTokens; split; assumption; apply forEach_kept; intro _ _ _; extract_lets +onlyGivenNames l7
  clear_value l7; extract_lets +onlyGivenNames l8; clear_value l8; apply forEach_kept; intro _ _ _; extract_lets +onlyGivenNames l13
  clear_value l13; extract_lets +onlyGivenNames l14; clear_value l14; split; split; split; assumption; apply objWriteBytes_kept
  assumption; assumption; assumption; assumption; assumption

theorem countKv_kept {q : List Instr} : ∀ x0 x1 x2, Kept q x0 → Kept q (countKv x0 x1 x2) := by
  intro x0 x1 x2 h0; unfold countKv; apply updInv_kept; assumption

theorem writeItems_kept {q : List Instr} : ∀ x0 x1 x2 x3 x4, Kept q x0 → Kept q (writeItems x0 x1 x2 x3 x4) := by
  intro x0 x1 x2 x3 x4 h0; unfold writeItems; apply writePass_kept; assumption

theorem recallFor_kept {q : List Instr} : ∀ x0 x1 x2 x3, Kept q x0 → Kept q (recallFor x0 x1 x2 x3) := by
  intro x0 x1 x2 x3 h0; unfold recallFor; extract_lets +onlyGivenNames l1; (have k1 : Kept q l1 := ?_; clear_value l1)
  apply countKv_kept; assumption; unfold l1; apply recallLayer_kept; assumption

theorem preparePassOf_kept {q : List Instr} : ∀ x0 x1 x2 x3 x4 x5 x6 x7, Kept q x0 → Kept q (preparePassOf x0 x1 x2 x3 x4 x5 x6 x7) := by
  intro x0 x1 x2 x3 x4 x5 x6 x7 h0; unfold preparePassOf; split; split; assumption; extract_lets +onlyGivenNames l4
  (have k4 : Kept q l4 := ?_; clear_value l4); extract_lets +onlyGivenNames l5; (have k5 : Kept q l5 := ?_; clear_value l5)
  extract_lets +onlyGivenNames l6; clear_value l6; apply countKv_kept; assumption; unfold l5; apply writeItems_kept; assumption
  unfold l4; split; apply writeTokens_kept; apply copyShared_kept; assumption; assumption; split; assumption
  extract_lets +onlyGivenNames l20; (have k20 : Kept q l20 := ?_; clear_value l20); extract_lets +onlyGivenNames l21; clear_value l21
  extract_lets +onlyGivenNames l22; (have k22 : Kept q l22 := ?_; clear_value l22); apply countKv_kept; assumption; unfold l22
  apply writeItems_kept; assumption; unfold l20; split; split; apply recallFor_kept; assumption; assumption; assumption; split
  assumption; extract_lets +onlyGivenNames l37; (have k37 : Kept q l37 := ?_; clear_value l37); apply countKv_kept; assumption
  unfold l37; apply writePass_kept; assumption; assumption

theorem aimChunks_kept {q : List Instr} : ∀ x0 x1 x2 x3 x4, Kept q x0 → Kept q (aimChunks x0 x1 x2 x3 x4) := by
  intro x0 x1 x2 x3 x4 h0; unfold aimChunks; apply mapDescs_kept; assumption

theorem Prep_andThen_kept {q : List Instr} : ∀ x0 x1, KeptPrep q x0 → (∀ y100, Kept q y100 → KeptPrep q (x1 y100)) → KeptPrep q (Prep.andThen x0 x1) := by
  intro x0 x1 h0 h1; unfold Prep.andThen; split; apply h1; refine keptOpt_some (by assumption) ?_; exact keptPrep_fst (by assumption)
  assumption

theorem openOwn_kept {q : List Instr} : ∀ x0 x1 x2 x3, Kept q x0 → Kept q (openOwn x0 x1 x2 x3) := by
  intro x0 x1 x2 x3 h0; unfold openOwn; extract_lets +onlyGivenNames l1; clear_value l1; apply forEach_kept; intro _ _ _; split
  assumption; apply kept_mk2; apply kept_mem (q := q); assumption; apply kept_host (q := q); assumption; apply kept_pending; assumption
  assumption

theorem takeFrames_kept {q : List Instr} : ∀ x0 x1 x2 x3 x4 x5, Kept q x0 → KeptPrep q (takeFrames x0 x1 x2 x3 x4 x5) := by
  intro x0 x1 x2 x3 x4 x5 h0; unfold takeFrames; extract_lets +onlyGivenNames l1; clear_value l1; extract_lets +onlyGivenNames l2
  clear_value l2; extract_lets +onlyGivenNames l3; clear_value l3; split; extract_lets +onlyGivenNames l5
  (have k5 : Kept q l5 := ?_; clear_value l5); apply keptPrep_mk; intro _ _; refine keptOpt_some (by assumption) ?_; exact keptOpt_none
  apply countKv_kept; assumption; unfold l5; apply startSpills_kept; assumption; split; apply keptPrep_mk; intro _ _
  refine keptOpt_some (by assumption) ?_; exact keptOpt_none; assumption; extract_lets +onlyGivenNames l23
  (have k23 : Kept q l23 := ?_; clear_value l23); extract_lets +onlyGivenNames l24; (have k24 : Kept q l24 := ?_; clear_value l24)
  extract_lets +onlyGivenNames l25; (have k25 : Kept q l25 := ?_; clear_value l25); apply keptPrep_mk; intro _ _
  refine keptOpt_some (by assumption) ?_; with_reducible apply keptOpt_mk; assumption; assumption; unfold l25; apply forEach_kept; intro _ _ _
  apply recallFor_kept; assumption; assumption; unfold l24; apply countKv_kept; assumption; unfold l23; apply updInv_kept
  refine keptOpt1_pair (by assumption) ?_; apply allocCall_kept; assumption

theorem prepareCall_kept {q : List Instr} : ∀ x0 x1 x2 x3, Kept q x0 → KeptPrep q (prepareCall x0 x1 x2 x3) := by
  intro x0 x1 x2 x3 h0; unfold prepareCall; split; split; apply keptPrep_mk; intro _ _; refine keptOpt_some (by assumption) ?_
  with_reducible apply keptOpt_mk; assumption; assumption; split; apply keptPrep_mk; intro _ _; refine keptOpt_some (by assumption) ?_
  with_reducible apply keptOpt_mk; assumption; assumption; extract_lets +onlyGivenNames l18; clear_value l18; apply Prep_andThen_kept
  apply takeFrames_kept; split; apply openOwn_kept; assumption; assumption; intro _ _; split; apply keptPrep_mk; intro _ _
  refine keptOpt_some (by assumption) ?_; with_reducible apply keptOpt_mk; assumption; assumption; extract_lets +onlyGivenNames l35
  (have k35 : Kept q l35 := ?_; clear_value l35); extract_lets +onlyGivenNames l36; (have k36 : Kept q l36 := ?_; clear_value l36)
  apply keptPrep_mk; intro _ _; refine keptOpt_some (by assumption) ?_; with_reducible apply keptOpt_mk; assumption; assumption; unfold l36
  apply updInv_kept; assumption; unfold l35; apply preparePassOf_kept; assumption; apply keptPrep_mk; intro _ _
  refine keptOpt_some (by assumption) ?_; with_reducible apply keptOpt_mk; assumption; assumption

theorem prepareRestIssue_kept {q : List Instr} : ∀ x0 x1 x2 x3, Kept q x0 → Kept q (prepareRestIssue x0 x1 x2 x3) := by
  intro x0 x1 x2 x3 h0; unfold prepareRestIssue; split; apply kept_getD; apply preparePass_kept; assumption; assumption; assumption

theorem beginFallback_kept {q : List Instr} : ∀ x0 x1 x2, Kept q x0 → Kept q (beginFallback x0 x1 x2) := by
  intro x0 x1 x2 h0; unfold beginFallback; split; assumption; extract_lets +onlyGivenNames l3; clear_value l3
  extract_lets +onlyGivenNames l4; (have k4 : KeptPrep q l4 := ?_; clear_value l4); split; exact keptPrep_2 (by assumption)
  extract_lets +onlyGivenNames l7; (have k7 : Kept q l7 := ?_; clear_value l7); extract_lets +onlyGivenNames l8
  (have k8 : Kept q l8 := ?_; clear_value l8); extract_lets +onlyGivenNames l9; (have k9 : Kept q l9 := ?_; clear_value l9)
  extract_lets +onlyGivenNames l10; (have k10 : Kept q l10 := ?_; clear_value l10); split; apply startClusters_kept; assumption
  assumption; unfold l10; apply updInv_kept; assumption; unfold l9; apply assignFor_kept; assumption; unfold l8; split
  apply aimChunks_kept; assumption; assumption; unfold l7; apply prepareRestIssue_kept; refine keptOpt_some (by assumption) ?_
  exact keptPrep_fst (by assumption); unfold l4; apply prepareCall_kept; assumption

theorem startFallback_kept {q : List Instr} : ∀ x0 x1 x2, Kept q x0 → Kept q (startFallback x0 x1 x2) := by
  intro x0 x1 x2 h0; unfold startFallback; extract_lets +onlyGivenNames l1; (have k1 : Kept q l1 := ?_; clear_value l1)
  extract_lets +onlyGivenNames l2; (have k2 : Kept q l2 := ?_; clear_value l2); apply beginFallback_kept; assumption; unfold l2
  apply updInv_kept; assumption; unfold l1; apply updJob_kept; assumption

theorem redirectTwins_kept {q : List Instr} : ∀ x0 x1, Kept q x0 → Kept q (redirectTwins x0 x1) := by
  intro x0 x1 h0; unfold redirectTwins; extract_lets +onlyGivenNames l1; clear_value l1; apply kept_mk2; apply kept_mem (q := q)
  assumption; apply kept_host (q := q); assumption; apply kept_pending; assumption

theorem setRoles_kept {q : List Instr} : ∀ x0 x1 x2, Kept q x0 → Kept q (setRoles x0 x1 x2) := by
  intro x0 x1 x2 h0; unfold setRoles; apply forEach_kept; intro _ _ _; apply State_setCluster_kept; assumption; assumption

theorem announce_kept {q : List Instr} : ∀ x0 x1 x2, Kept q x0 → Kept q (announce x0 x1 x2) := by
  intro x0 x1 x2 h0; unfold announce; split; assumption; extract_lets +onlyGivenNames l3; extract_lets +onlyGivenNames l4
  (have k4 : Kept q l4 := ?_; clear_value l4); extract_lets +onlyGivenNames l5; clear_value l5; apply postEnd_kept; apply State_setJob_kept
  assumption; unfold l4; apply forEach_kept; intro _ _ _; apply rowState1_kept; assumption; assumption

theorem adoptStreams_kept {q : List Instr} : ∀ x0 x1 x2, Kept q x0 → Kept q (adoptStreams x0 x1 x2) := by
  intro x0 x1 x2 h0; unfold adoptStreams; extract_lets +onlyGivenNames l1; (have k1 : Kept q l1 := ?_; clear_value l1)
  apply State_setPart_kept; assumption; unfold l1; apply dropStreams_kept; assumption

theorem takeover_kept {q : List Instr} : ∀ x0 x1 x2, Kept q x0 → Kept q (takeover x0 x1 x2) := by
  intro x0 x1 x2 h0; unfold takeover; split; assumption; split; assumption; extract_lets +onlyGivenNames l5; clear_value l5
  extract_lets +onlyGivenNames l6; (have k6 : Kept q l6 := ?_; clear_value l6); extract_lets +onlyGivenNames l7
  (have k7 : Kept q l7 := ?_; clear_value l7); extract_lets +onlyGivenNames l8; (have k8 : Kept q l8 := ?_; clear_value l8)
  extract_lets +onlyGivenNames l9; clear_value l9; extract_lets +onlyGivenNames l10; (have k10 : Kept q l10 := ?_; clear_value l10)
  extract_lets +onlyGivenNames l11; (have k11 : Kept q l11 := ?_; clear_value l11); extract_lets +onlyGivenNames l12
  (have k12 : Kept q l12 := ?_; clear_value l12); extract_lets +onlyGivenNames l13; clear_value l13; extract_lets +onlyGivenNames l14
  clear_value l14; extract_lets +onlyGivenNames l15; clear_value l15; extract_lets +onlyGivenNames l16
  (have k16 : Kept q l16 := ?_; clear_value l16); extract_lets +onlyGivenNames l17; (have k17 : Kept q l17 := ?_; clear_value l17)
  extract_lets +onlyGivenNames l18; clear_value l18; apply afterEnd_kept; apply raise_kept; apply takeFallback_kept; assumption; unfold l17; split
  extract_lets +onlyGivenNames l24; clear_value l24; apply State_setJob_kept; assumption; assumption; unfold l16; split
  apply setRoles_kept; apply setRoles_kept; assumption; apply freeClusters_kept; assumption; unfold l12; apply setRoles_kept
  apply setRoles_kept; assumption; unfold l11; apply adoptStreams_kept; assumption; unfold l10; apply forEach_kept; intro _ _ _
  apply announce_kept; assumption; assumption; unfold l8; apply redirectTwins_kept; assumption; unfold l7; split; apply emptyField_kept
  apply abortSpans_kept; assumption; assumption; unfold l6; apply stopClusters_kept; assumption

theorem loseShadow_kept {q : List Instr} : ∀ x0 x1 x2, Kept q x0 → Kept q (loseShadow x0 x1 x2) := by
  intro x0 x1 x2 h0; unfold loseShadow; split; assumption; split; assumption; extract_lets +onlyGivenNames l5; clear_value l5
  extract_lets +onlyGivenNames l6; (have k6 : Kept q l6 := ?_; clear_value l6); extract_lets +onlyGivenNames l7
  (have k7 : Kept q l7 := ?_; clear_value l7); extract_lets +onlyGivenNames l8; (have k8 : Kept q l8 := ?_; clear_value l8)
  extract_lets +onlyGivenNames l9; clear_value l9; apply raiseAs_kept; assumption; unfold l8; apply dropTwins_kept; assumption; unfold l7
  apply State_setJob_kept; assumption; unfold l6; apply freeClusters_kept; apply stopClusters_kept; assumption

theorem requeueCalls_kept {q : List Instr} : ∀ x0 x1 x2, Kept q x0 → Kept q (requeueCalls x0 x1 x2) := by
  intro x0 x1 x2 h0; unfold requeueCalls; split; apply State_setJob_kept; assumption; assumption

theorem endFaulted_kept {q : List Instr} : ∀ x0 x1, Kept q x0 → Kept q (endFaulted x0 x1) := by
  intro x0 x1 h0; unfold endFaulted; split; assumption; split; assumption; apply afterEnd_kept; apply endInvocation_kept
  apply requeueCalls_kept; apply requeueRows_kept; assumption

theorem faultPrimary_kept {q : List Instr} : ∀ x0 x1 x2 x3 x4, Kept q x0 → Kept q (faultPrimary x0 x1 x2 x3 x4) := by
  intro x0 x1 x2 x3 x4 h0; unfold faultPrimary; split; assumption; split; apply takeover_kept; assumption; split; split
  apply State_setJob_kept; apply stopClusters_kept; assumption; assumption; extract_lets +onlyGivenNames l12
  (have k12 : Kept q l12 := ?_; clear_value l12); extract_lets +onlyGivenNames l13; (have k13 : Kept q l13 := ?_; clear_value l13); split
  extract_lets +onlyGivenNames l15; clear_value l15; extract_lets +onlyGivenNames l16; (have k16 : Kept q l16 := ?_; clear_value l16)
  split; split; apply State_setJob_kept; assumption; assumption; assumption; unfold l16; apply endFaulted_kept; apply State_setJob_kept
  assumption; extract_lets +onlyGivenNames l27; clear_value l27; extract_lets +onlyGivenNames l28; clear_value l28
  extract_lets +onlyGivenNames l29; (have k29 : Kept q l29 := ?_; clear_value l29); split; assumption; apply startFallback_kept
  assumption; unfold l29; apply State_setJob_kept; assumption; unfold l13; apply emptyField_kept; apply abortSpans_kept; assumption
  unfold l12; apply stopClusters_kept; assumption

theorem faultRole_kept {q : List Instr} : ∀ x0 x1 x2 x3 x4, Kept q x0 → Kept q (faultRole x0 x1 x2 x3 x4) := by
  intro x0 x1 x2 x3 x4 h0; unfold faultRole; extract_lets +onlyGivenNames l1; (have k1 : Kept q l1 := ?_; clear_value l1)
  apply updateResting_kept; apply serveWaiting_kept; assumption; unfold l1; split; apply faultPrimary_kept; assumption
  apply faultPrimary_kept; assumption; apply loseShadow_kept; assumption; apply loseShadow_kept; assumption; assumption

theorem faultTile_kept {q : List Instr} : ∀ x0 x1 x2, Kept q x0 → Kept q (faultTile x0 x1 x2) := by
  intro x0 x1 x2 h0; unfold faultTile; split; apply faultRole_kept; assumption; assumption

theorem tileFault_kept {q : List Instr} : ∀ x0 x1 x2 x3 x4 x5, Kept q x0 → Kept q (tileFault x0 x1 x2 x3 x4 x5) := by
  intro x0 x1 x2 x3 x4 x5 h0; unfold tileFault; extract_lets +onlyGivenNames l1; clear_value l1; apply faultTile_kept; apply raiseAs_kept
  assumption

theorem endLost_kept {q : List Instr} : ∀ x0 x1 x2, Kept q x0 → Kept q (endLost x0 x1 x2) := by
  intro x0 x1 x2 h0; unfold endLost; split; assumption; extract_lets +onlyGivenNames l3; (have k3 : Kept q l3 := ?_; clear_value l3)
  extract_lets +onlyGivenNames l4; (have k4 : Kept q l4 := ?_; clear_value l4); apply cancelNow_kept; assumption; unfold l4; split
  assumption; extract_lets +onlyGivenNames l10; (have k10 : Kept q l10 := ?_; clear_value l10); extract_lets +onlyGivenNames l11
  (have k11 : Kept q l11 := ?_; clear_value l11); extract_lets +onlyGivenNames l12; clear_value l12; apply endInvocation_kept
  apply State_setJob_kept; assumption; unfold l11; apply finishRows_kept; assumption; unfold l10; apply emptyField_kept
  apply abortSpans_kept; assumption; unfold l3; apply stopClusters_kept; assumption

theorem loseSaves_kept {q : List Instr} : ∀ x0 x1 x2, Kept q x0 → Kept q (loseSaves x0 x1 x2) := by
  intro x0 x1 x2 h0; unfold loseSaves; apply forEach_kept; intro _ _ _; split; assumption; split; extract_lets +onlyGivenNames l8
  (have k8 : Kept q l8 := ?_; clear_value l8); split; apply State_setJob_kept; assumption; assumption; unfold l8; split; assumption
  apply endFaulted_kept; apply State_setJob_kept; assumption; assumption; assumption

theorem loseObjects_kept {q : List Instr} : ∀ x0 x1 x2, Kept q x0 → Kept q (loseObjects x0 x1 x2) := by
  intro x0 x1 x2 h0; unfold loseObjects; extract_lets +onlyGivenNames l1; (have k1 : Kept q l1 := ?_; clear_value l1)
  extract_lets +onlyGivenNames l2; (have k2 : Kept q l2 := ?_; clear_value l2); extract_lets +onlyGivenNames l3
  (have k3 : Kept q l3 := ?_; clear_value l3); extract_lets +onlyGivenNames l4; (have k4 : Kept q l4 := ?_; clear_value l4)
  extract_lets +onlyGivenNames l5; clear_value l5; extract_lets +onlyGivenNames l6; (have k6 : Kept q l6 := ?_; clear_value l6)
  extract_lets +onlyGivenNames l7; clear_value l7; apply forEach_kept; intro _ _ _; extract_lets +onlyGivenNames l12
  (have k12 : Kept q l12 := ?_; clear_value l12); split; apply State_setObj_kept; assumption; assumption; unfold l12; apply kept_mk2
  apply kept_mem (q := q); assumption; apply kept_host (q := q); assumption; apply kept_pending; assumption; assumption; unfold l6
  apply forEach_kept; intro _ _ _; apply endLost_kept; assumption; assumption; unfold l4; apply loseSaves_kept; assumption; unfold l3
  apply breakStreams_kept; assumption; unfold l2; apply losePages_kept; assumption; unfold l1; apply kept_mk2; apply kept_mem (q := q)
  assumption; apply kept_host (q := q); assumption; apply kept_pending; assumption

theorem reclaimPartition_kept {q : List Instr} : ∀ x0 x1 x2, Kept q x0 → Kept q (reclaimPartition x0 x1 x2) := by
  intro x0 x1 x2 h0; unfold reclaimPartition; extract_lets +onlyGivenNames l1; clear_value l1; extract_lets +onlyGivenNames l2
  clear_value l2; extract_lets +onlyGivenNames l3; (have k3 : Kept q l3 := ?_; clear_value l3); apply forEach_kept; intro _ _ _
  extract_lets +onlyGivenNames l8; clear_value l8; apply sendMgmt_kept; apply kept_mk2; apply kept_mem (q := q); assumption
  apply kept_host (q := q); assumption; apply kept_pending; assumption; assumption; unfold l3; apply kept_mk2; apply kept_mem (q := q)
  assumption; apply kept_host (q := q); assumption; apply kept_pending; assumption

theorem losePartition_kept {q : List Instr} : ∀ x0 x1, Kept q x0 → Kept q (losePartition x0 x1) := by
  intro x0 x1 h0; unfold losePartition; extract_lets +onlyGivenNames l1; (have k1 : Kept q l1 := ?_; clear_value l1)
  apply loseObjects_kept; assumption; unfold l1; apply kept_mk2; apply kept_mem (q := q); assumption; apply kept_host (q := q); assumption
  apply kept_pending; assumption

theorem freeRecord_kept {q : List Instr} : ∀ x0 x1 x2 x3, Kept q x0 → Kept q (freeRecord x0 x1 x2 x3).1 := by
  intro x0 x1 x2 x3 h0; unfold freeRecord; extract_lets +onlyGivenNames l1; (have k1 : Kept q l1.2 := ?_; clear_value l1)
  with_reducible apply kept_p1; assumption; unfold l1; apply State_freeBytes_kept; assumption

theorem castRecords_kept {q : List Instr} : ∀ x0 x1 x2, Kept q x0 → Kept q (castRecords x0 x1 x2).1 := by
  intro x0 x1 x2 h0
  unfold castRecords
  extract_lets l a c m hd
  have hl : Kept q l.1 := freeRecord_kept x0 8 x1 1024 h0
  have ha : Kept q a.1 := freeRecord_kept l.1 4 x1 512 hl
  have hc : Kept q c.1 := freeRecord_kept a.1 5 x1 768 ha
  have hm : Kept q m.1 := freeRecord_kept c.1 6 x1 256 hc
  clear_value hd m
  apply kept_foldl_fst
  · intro acc k h
    apply kept_foldl_fst
    · intro b i hb
      extract_lets t q pad
      exact freeRecord_kept b.1 1 t.toNat 768 hb
    · exact freeRecord_kept acc.1 3 k 1280 h
  · exact hm

theorem startCast_kept {q : List Instr} : ∀ x0 x1 x2 x3 x4 x5 x6, Kept q x0 → Kept q (startCast x0 x1 x2 x3 x4 x5 x6) := by
  intro x0 x1 x2 x3 x4 x5 x6 h0; unfold startCast; extract_lets +onlyGivenNames l1; clear_value l1; extract_lets +onlyGivenNames l2
  (have k2 : Kept q l2.1 := ?_; clear_value l2); extract_lets +onlyGivenNames l3; clear_value l3; extract_lets +onlyGivenNames l4
  (have k4 : Kept q l4 := ?_; clear_value l4); extract_lets +onlyGivenNames l5; clear_value l5; extract_lets +onlyGivenNames l6
  (have k6 : Kept q l6 := ?_; clear_value l6); apply State_setPart_kept; assumption; unfold l6; apply kept_mk2; apply kept_mem (q := q)
  assumption; apply kept_host (q := q); assumption; apply kept_pending; assumption; unfold l4; assumption; unfold l2
  apply castRecords_kept; assumption

theorem resetJob_kept {q : List Instr} : ∀ x0 x1 x2 x3, Kept q x0 → Kept q (resetJob x0 x1 x2 x3) := by
  intro x0 x1 x2 x3 h0; unfold resetJob; split; assumption; extract_lets +onlyGivenNames l3; clear_value l3
  extract_lets +onlyGivenNames l4; (have k4 : Kept q l4 := ?_; clear_value l4); split; assumption; split; apply faultPrimary_kept
  apply State_setJob_kept; assumption; assumption; unfold l4; split; apply loseShadow_kept; assumption; assumption

theorem awaitPartition_kept {q : List Instr} : ∀ x0 x1 x2, Kept q x0 → Kept q (awaitPartition x0 x1 x2) := by
  intro x0 x1 x2 h0; unfold awaitPartition; split; assumption; split; assumption; split; assumption; split; apply State_setJob_kept
  assumption; assumption

theorem spoilRun_kept {q : List Instr} : ∀ x0 x1 x2 x3, Kept q x0 → Kept q (spoilRun x0 x1 x2 x3) := by
  intro x0 x1 x2 x3 h0; unfold spoilRun; apply raiseAs_kept; apply forEach_kept; intro _ _ _; apply spoilTransfer_kept; assumption
  assumption

theorem faultRun_kept {q : List Instr} : ∀ x0 x1 x2, Kept q x0 → Kept q (faultRun x0 x1 x2) := by
  intro x0 x1 x2 h0; unfold faultRun; split; assumption; extract_lets +onlyGivenNames l3; (have k3 : Kept q l3 := ?_; clear_value l3)
  split; assumption; apply awaitPartition_kept; assumption; unfold l3; apply faultRole_kept; assumption

theorem failRun_kept {q : List Instr} : ∀ x0 x1 x2 x3 x4, Kept q x0 → Kept q (failRun x0 x1 x2 x3 x4) := by
  intro x0 x1 x2 x3 x4 h0; unfold failRun; apply faultRun_kept; apply spoilRun_kept; assumption

theorem spoilRuns_kept {q : List Instr} : ∀ x0 x1, Kept q x0 → Kept q (spoilRuns x0 x1) := by
  intro x0 x1 h0; unfold spoilRuns; apply forEach_kept; intro _ _ _; apply spoilRun_kept; assumption; assumption

theorem faultRuns_kept {q : List Instr} : ∀ x0 x1, Kept q x0 → Kept q (faultRuns x0 x1) := by
  intro x0 x1 h0; unfold faultRuns; apply forEach_kept; intro _ _ _; split; apply faultRun_kept; assumption; assumption; assumption

theorem failRuns_kept {q : List Instr} : ∀ x0 x1, Kept q x0 → Kept q (failRuns x0 x1) := by
  intro x0 x1 h0; unfold failRuns; apply faultRuns_kept; apply spoilRuns_kept; assumption

theorem clearArbiter_kept {q : List Instr} : ∀ x0 x1, Kept q x0 → Kept q (clearArbiter x0 x1) := by
  intro x0 x1 h0; unfold clearArbiter; extract_lets +onlyGivenNames l1; clear_value l1; extract_lets +onlyGivenNames l2
  clear_value l2; extract_lets +onlyGivenNames l3; (have k3 : Kept q l3 := ?_; clear_value l3); apply State_setPart_kept; assumption
  unfold l3; apply forEach_kept; intro _ _ _; apply setXfer_kept; assumption; assumption

theorem withdrawInjection_kept {q : List Instr} : ∀ x0 x1, Kept q x0 → Kept q (withdrawInjection x0 x1) := by
  intro x0 x1 h0; unfold withdrawInjection; split; split; apply kept_mk2; apply kept_mem (q := q); assumption; apply kept_host (q := q)
  assumption; apply kept_pending; assumption; assumption; assumption

theorem beginReset_kept {q : List Instr} : ∀ x0 x1 x2 x3 x4 x5, Kept q x0 → Kept q (beginReset x0 x1 x2 x3 x4 x5) := by
  intro x0 x1 x2 x3 x4 x5 h0; unfold beginReset; extract_lets +onlyGivenNames l1; clear_value l1; extract_lets +onlyGivenNames l2
  (have k2 : Kept q l2 := ?_; clear_value l2); extract_lets +onlyGivenNames l3; (have k3 : Kept q l3 := ?_; clear_value l3)
  extract_lets +onlyGivenNames l4; (have k4 : Kept q l4 := ?_; clear_value l4); extract_lets +onlyGivenNames l5; clear_value l5
  extract_lets +onlyGivenNames l0; clear_value l0
  extract_lets +onlyGivenNames l6; (have k6 : Kept q l6 := ?_; clear_value l6); extract_lets +onlyGivenNames l7
  (have k7 : Kept q l7 := ?_; clear_value l7); extract_lets +onlyGivenNames l8; (have k8 : Kept q l8 := ?_; clear_value l8)
  apply updateResting_kept; apply serveWaiting_kept; split; apply reclaimPartition_kept; assumption; assumption; unfold l8
  apply faultRuns_kept; apply forEach_kept; intro _ _ _; apply resetJob_kept; assumption; assumption; unfold l7
  apply startCast_kept; apply stopClusters_kept; assumption; unfold l6; apply spoilRuns_kept; assumption; unfold l4; apply withdrawInjection_kept; assumption; unfold l3; apply State_setPart_kept
  assumption; unfold l2; apply patCount_kept; assumption

theorem finishReset_kept {q : List Instr} : ∀ x0 x1 x2, Kept q x0 → Kept q (finishReset x0 x1 x2) := by
  intro x0 x1 x2 h0; unfold finishReset; split; assumption; apply complete_kept; apply State_setPart_kept; assumption

theorem takeDown_kept {q : List Instr} : ∀ x0 x1, Kept q x0 → Kept q (takeDown x0 x1) := by
  intro x0 x1 h0; unfold takeDown; extract_lets +onlyGivenNames l1; clear_value l1; extract_lets +onlyGivenNames l2
  (have k2 : Kept q l2 := ?_; clear_value l2); extract_lets +onlyGivenNames l3; clear_value l3; extract_lets +onlyGivenNames l4
  clear_value l4; extract_lets +onlyGivenNames l5; (have k5 : Kept q l5 := ?_; clear_value l5); extract_lets +onlyGivenNames l6
  (have k6 : Kept q l6 := ?_; clear_value l6); apply updateResting_kept; apply finishReset_kept; apply clearArbiter_kept; apply reclaimPartition_kept
  apply losePartition_kept; assumption; unfold l6; apply forEach_kept; intro _ _ _; extract_lets +onlyGivenNames l17
  (have k17 : Kept q l17 := ?_; clear_value l17); split; split; apply endLost_kept; assumption; assumption; assumption; unfold l17
  apply resetJob_kept; assumption; assumption; unfold l5; apply failRuns_kept; assumption; unfold l2; apply withdrawInjection_kept
  apply State_setPart_kept; assumption

theorem resetCause_kept {q : List Instr} : ∀ x0 x1 x2 x3 x4, Kept q x0 → Kept q (resetCause x0 x1 x2 x3 x4) := by
  intro x0 x1 x2 x3 x4 h0; unfold resetCause; extract_lets +onlyGivenNames l1; clear_value l1; split; split; apply beginReset_kept
  apply raiseAs_kept; assumption; apply beginReset_kept; apply raiseAs_kept; assumption; apply takeDown_kept; apply raiseAs_kept
  apply raiseAs_kept; assumption; split; extract_lets +onlyGivenNames l15; (have k15 : Kept q l15 := ?_; clear_value l15)
  extract_lets +onlyGivenNames l16; (have k16 : Kept q l16 := ?_; clear_value l16); apply reclaimPartition_kept; apply State_setPart_kept
  assumption; unfold l16; apply patCount_kept; assumption; unfold l15; apply raiseAs_kept; assumption; apply raiseAs_kept; assumption

theorem resetCommanded_kept {q : List Instr} : ∀ x0 x1 x2, Kept q x0 → Kept q (resetCommanded x0 x1 x2) := by
  intro x0 x1 x2 h0; unfold resetCommanded; split; apply beginReset_kept; assumption; apply beginReset_kept; assumption
  apply takeDown_kept; assumption

theorem stopAll_kept {q : List Instr} : ∀ x0, Kept q x0 → Kept q (stopAll x0) := by
  intro x0 h0; unfold stopAll; apply stopClusters_kept; assumption

theorem atelierRestart_kept {q : List Instr} : ∀ x0 x1, Kept q x0 → Kept q (atelierRestart x0 x1) := by
  intro x0 x1 h0; unfold atelierRestart; extract_lets +onlyGivenNames l1; (have k1 : Kept q l1 := ?_; clear_value l1)
  extract_lets +onlyGivenNames l2; clear_value l2; extract_lets +onlyGivenNames l3; (have k3 : Kept q l3 := ?_; clear_value l3)
  extract_lets +onlyGivenNames l4; (have k4 : Kept q l4 := ?_; clear_value l4); extract_lets +onlyGivenNames l5
  (have k5 : Kept q l5 := ?_; clear_value l5); extract_lets +onlyGivenNames l6; clear_value l6; extract_lets +onlyGivenNames l7
  clear_value l7; apply kept_mk2; apply kept_mem (q := q); assumption; apply kept_host (q := q); assumption; apply kept_pending; assumption
  unfold l5; apply forEach_kept; intro _ _ _; apply powerOffCluster_kept; assumption; assumption; unfold l4; apply forEach_kept
  intro _ _ _; extract_lets +onlyGivenNames l28; clear_value l28; extract_lets +onlyGivenNames l29
  (have k29 : Kept q l29 := ?_; clear_value l29); extract_lets +onlyGivenNames l30; clear_value l30; apply State_setPart_kept; assumption
  unfold l29; split; apply patCount_kept; assumption; assumption; assumption; unfold l3; apply kept_mk2; apply kept_mem (q := q)
  assumption; apply kept_host (q := q); assumption; apply kept_pending; assumption; unfold l1; apply stopAll_kept; assumption

theorem powerFail_kept {q : List Instr} : ∀ x0 x1, Kept q x0 → Kept q (powerFail x0 x1) := by
  intro x0 x1 h0; unfold powerFail; split; assumption; extract_lets +onlyGivenNames l3; (have k3 : Kept q l3 := ?_; clear_value l3)
  apply kept_mk2; apply kept_mem (q := q); assumption; apply kept_host (q := q); assumption; apply kept_pending; assumption; unfold l3
  apply stopAll_kept; assumption

theorem detect_kept {q : List Instr} : ∀ x0 x1 x2, Kept q x0 → Kept q (detect x0 x1 x2) := by
  intro x0 x1 x2 h0; unfold detect; extract_lets +onlyGivenNames l1; (have k1 : ∀ v0, Kept q v0 → Kept q (l1 v0) := ?_; clear_value l1)
  extract_lets +onlyGivenNames l2; clear_value l2; split; apply faultTile_kept; apply k1; assumption; apply faultTile_kept; apply k1
  assumption; apply faultTile_kept; apply k1; assumption; apply faultTile_kept; apply k1; assumption; split; apply k1; assumption; split
  apply loseObjects_kept; apply k1; assumption; apply faultRole_kept; apply k1; assumption; split; apply k1; assumption; split
  apply loseObjects_kept; apply k1; assumption; apply faultRole_kept; apply k1; assumption; split; apply faultRole_kept; apply k1
  assumption; apply resetCause_kept; assumption; apply resetCause_kept; assumption; split; apply k1; assumption; apply resetCause_kept
  assumption; apply loseShadow_kept; assumption; split; apply resetCause_kept; assumption; apply k1; assumption; split
  extract_lets +onlyGivenNames l57; (have k57 : Kept q l57 := ?_; clear_value l57); apply State_setPart_kept; assumption; unfold l57
  apply takeDown_kept; apply k1; assumption; apply powerFail_kept; apply k1; assumption; apply powerFail_kept; apply k1; assumption; split
  apply k1; assumption; apply powerFail_kept; apply k1; assumption; apply powerFail_kept; apply k1; assumption; apply atelierRestart_kept
  apply k1; apply setEvt_kept; assumption; apply atelierRestart_kept; apply k1; assumption; apply k1; assumption; intro _ _; unfold l1
  apply raiseAs_kept; assumption

theorem goOn_kept {q : List Instr} : ∀ x0 x1, Kept q x0 → Kept q (goOn x0 x1) := by
  intro x0 x1 h0; unfold goOn; apply updTile_kept; assumption

theorem illegalAt_kept {q : List Instr} : ∀ x0 x1 x2 x3, Kept q x0 → Kept q (illegalAt x0 x1 x2 x3) := by
  intro x0 x1 x2 x3 h0; unfold illegalAt; apply tileFault_kept; apply updTile_kept; assumption

theorem illegal_kept {q : List Instr} : ∀ x0 x1 x2, Kept q x0 → Kept q (illegal x0 x1 x2) := by
  intro x0 x1 x2 h0; unfold illegal; apply illegalAt_kept; assumption

theorem unmapped_kept {q : List Instr} : ∀ x0 x1 x2, Kept q x0 → Kept q (unmapped x0 x1 x2) := by
  intro x0 x1 x2 h0; unfold unmapped; extract_lets +onlyGivenNames l1; clear_value l1; apply tileFault_kept; apply updTile_kept
  assumption

theorem word_kept {q : List Instr} : ∀ x0 x1 x2, Kept q x0 → (∀ y100, Kept q y100 → Kept q (x2 y100)) → KeptOut q (word x0 x1 x2) := by
  intro x0 x1 x2 h0 h1; unfold word; apply kept_next; apply onlyIf_kept; assumption; extract_lets +onlyGivenNames l4
  (have k4 : Kept q l4.2 := ?_; clear_value l4); split; apply illegal_kept; assumption; apply h1; assumption; unfold l4
  apply takeInjection_kept; assumption

theorem addSem_kept {q : List Instr} : ∀ x0 x1 x2 x3, Kept q x0 → Kept q (addSem x0 x1 x2 x3) := by
  intro x0 x1 x2 x3 h0; unfold addSem; extract_lets +onlyGivenNames l1; clear_value l1; split; apply illegal_kept; assumption
  apply updTile_kept; assumption

theorem toUnit_kept {q : List Instr} : ∀ x0 x1 x2 x3 x4, Kept q x0 → (∀ y100, Kept q y100 → Kept q (x4 y100)) → Kept q (toUnit x0 x1 x2 x3 x4) := by
  intro x0 x1 x2 x3 x4 h0 h1; unfold toUnit; extract_lets +onlyGivenNames l1; clear_value l1; split; apply State_setTile_kept
  assumption; apply h1; apply goOn_kept; apply State_setTile_kept; assumption

theorem eccWord_kept {q : List Instr} : ∀ x0 x1 x2, Kept q x0.1 → Kept q (eccWord x0 x1 x2).1 := by
  intro x0 x1 x2 h0; unfold eccWord; split; assumption; extract_lets +onlyGivenNames l3; (have k3 : Kept q l3.2 := ?_; clear_value l3)
  split; extract_lets +onlyGivenNames l5; clear_value l5; with_reducible apply kept_p1; apply raiseAs_kept; assumption
  extract_lets +onlyGivenNames l9; (have k9 : Kept q l9.2 := ?_; clear_value l9); split; with_reducible apply kept_p1; apply tileFault_kept
  assumption; assumption; unfold l9; apply takeInjection_kept; assumption; unfold l3; apply takeInjection_kept; assumption

theorem eccReads_kept {q : List Instr} : ∀ x0 x1 x2, Kept q x0 → Kept q (eccReads x0 x1 x2).1 := by
  intro x0 x1 x2 h0; unfold eccReads; split; with_reducible apply kept_p1; assumption; apply kept_foldl_fst; intro _ _ _
  apply eccWord_kept; assumption; with_reducible apply kept_p1; assumption

theorem withReads_kept {q : List Instr} : ∀ x0 x1 x2 x3, Kept q x0 → (∀ y100, Kept q y100 → Kept q (x3 y100)) → Kept q (withReads x0 x1 x2 x3) := by
  intro x0 x1 x2 x3 h0 h1; unfold withReads; extract_lets +onlyGivenNames l1; (have k1 : Kept q l1.1 := ?_; clear_value l1); split
  assumption; apply h1; assumption; unfold l1; apply eccReads_kept; assumption

theorem drawIf_kept {q : List Instr} : ∀ x0 x1, Kept q x1 → Kept q (drawIf x0 x1) := by
  intro x0 x1 h0; unfold drawIf; split; apply State_fresh_kept; assumption; assumption

theorem signalRuns_kept {q : List Instr} : ∀ x0 x1 x2, Kept q x1 → Kept q (signalRuns x0 x1 x2) := by
  intro x0; induction x0 with
  | zero => intro _ _ h0; exact h0
  | succ n ih =>
  intro x1 x2 h0; unfold signalRuns; extract_lets +onlyGivenNames l1; clear_value l1; split; split; extract_lets +onlyGivenNames l4
  clear_value l4; extract_lets +onlyGivenNames l5; (have k5 : Kept q l5 := ?_; clear_value l5); extract_lets +onlyGivenNames l6
  (have k6 : Kept q l6 := ?_; clear_value l6); extract_lets +onlyGivenNames l7; (have k7 : Kept q l7 := ?_; clear_value l7); apply ih
  apply addSem_kept; assumption; unfold l7; apply updTile_kept; assumption; unfold l6; apply updStall_kept; assumption; unfold l5
  apply State_setCluster_kept; assumption; assumption; assumption

theorem prefetchRuns_kept {q : List Instr} : ∀ x0 x1 x2 x3 x4 x5 x6, Kept q x0 → Kept q (prefetchRuns x0 x1 x2 x3 x4 x5 x6) := by
  intro x0 x1 x2 x3 x4 x5 x6 h0; unfold prefetchRuns; extract_lets +onlyGivenNames l1; clear_value l1; split
  extract_lets +onlyGivenNames l3; clear_value l3; extract_lets +onlyGivenNames l4; clear_value l4; apply State_setPart_kept
  assumption; assumption

theorem peerCause_kept {q : List Instr} : ∀ x0 x1, Kept q x0 → Kept q (peerCause x0 x1) := by
  intro x0 x1 h0; unfold peerCause; split; apply raise_kept; assumption; assumption

theorem joinMover_kept {q : List Instr} : ∀ x0 x1 x2, Kept q x0 → Kept q (joinMover x0 x1 x2) := by
  intro x0 x1 x2 h0; unfold joinMover; extract_lets +onlyGivenNames l1; clear_value l1; extract_lets +onlyGivenNames l2
  (have k2 : Kept q l2 := ?_; clear_value l2); extract_lets +onlyGivenNames l3; clear_value l3; extract_lets +onlyGivenNames l4
  (have k4 : Kept q l4 := ?_; clear_value l4); apply updTile_kept; assumption; unfold l4; apply State_setCluster_kept; assumption
  unfold l2; apply kept_mk2; apply kept_mem (q := q); assumption; apply kept_host (q := q); assumption; apply kept_pending; assumption

theorem issueTmove_kept {q : List Instr} : ∀ x0 x1 x2 x3 x4 x5 x6, Kept q x0 → Kept q (issueTmove x0 x1 x2 x3 x4 x5 x6) := by
  intro x0 x1 x2 x3 x4 x5 x6 h0; unfold issueTmove; extract_lets +onlyGivenNames l1; clear_value l1; extract_lets +onlyGivenNames l2
  clear_value l2; split; apply illegal_kept; assumption; split; apply State_setTile_kept; assumption; extract_lets +onlyGivenNames l9
  clear_value l9; extract_lets +onlyGivenNames l10; clear_value l10; split; apply unmapped_kept; assumption; split; apply unmapped_kept
  assumption; split; apply unmapped_kept; assumption; split; apply unmapped_kept; assumption; extract_lets +onlyGivenNames l23
  (have k23 : Kept q l23.2 := ?_; clear_value l23); extract_lets +onlyGivenNames l24; clear_value l24; extract_lets +onlyGivenNames l25
  (have k25 : Kept q l25 := ?_; clear_value l25); split; apply failRun_kept; apply peerCause_kept; assumption; split; apply prefetchRuns_kept
  assumption; assumption; unfold l25; apply joinMover_kept; assumption; unfold l23; apply takeInjection_kept; assumption

theorem execTmove_kept {q : List Instr} : ∀ x0 x1 x2 x3 x4 x5 x6, Kept q x6 → KeptOut q (execTmove x0 x1 x2 x3 x4 x5 x6) := by
  intro x0 x1 x2 x3 x4 x5 x6 h0; unfold execTmove; apply word_kept; assumption; intro _ _; apply issueTmove_kept; assumption

end Sys2Proof.Machine
end

