-- ==== Sys2Proof/Laws/KeptWords.lean ====
section
/-! SUPPORT. What keeps both memories in canonical form and leaves the queue of commands alone: the sequencer words and the movers. -/

open Sys2Proof

namespace Sys2Proof.Machine

theorem issueAccz_kept {q : List Instr} : ∀ x0 x1 x2, Kept q x0 → Kept q (issueAccz x0 x1 x2) := by
  intro x0 x1 x2 h0; unfold issueAccz; apply toUnit_kept; assumption; intro _ _; apply updTile_kept; assumption

theorem issueMma_kept {q : List Instr} : ∀ x0 x1 x2 x3 x4 x5 x6, Kept q x0 → Kept q (issueMma x0 x1 x2 x3 x4 x5 x6) := by
  intro x0 x1 x2 x3 x4 x5 x6 h0; unfold issueMma; extract_lets +onlyGivenNames l1; clear_value l1; extract_lets +onlyGivenNames l2
  clear_value l2; extract_lets +onlyGivenNames l3; clear_value l3; extract_lets +onlyGivenNames l4; clear_value l4; split
  apply illegal_kept; assumption; extract_lets +onlyGivenNames l8; clear_value l8; extract_lets +onlyGivenNames l9; clear_value l9
  extract_lets +onlyGivenNames l10; clear_value l10; extract_lets +onlyGivenNames l11; clear_value l11; apply toUnit_kept; assumption
  intro _ _; apply withReads_kept; assumption; intro _ _; extract_lets +onlyGivenNames l20; clear_value l20
  extract_lets +onlyGivenNames l21; clear_value l21; apply updTile_kept; assumption

theorem issueAccrd_kept {q : List Instr} : ∀ x0 x1 x2 x3 x4 x5, Kept q x0 → Kept q (issueAccrd x0 x1 x2 x3 x4 x5) := by
  intro x0 x1 x2 x3 x4 x5 h0; unfold issueAccrd; extract_lets +onlyGivenNames l1; clear_value l1; extract_lets +onlyGivenNames l2
  clear_value l2; extract_lets +onlyGivenNames l3; clear_value l3; extract_lets +onlyGivenNames l4; clear_value l4
  extract_lets +onlyGivenNames l5; clear_value l5; apply toUnit_kept; assumption; intro _ _; apply withReads_kept; assumption; intro _ _
  extract_lets +onlyGivenNames l14; (have k14 : ∀ v0, Kept q v0.1 → ∀ v1, Kept q ((l14 v0) v1).1 := ?_; clear_value l14)
  extract_lets +onlyGivenNames l15; (have k15 : Kept q l15.1 := ?_; clear_value l15); extract_lets +onlyGivenNames l16
  (have k16 : Kept q l16 := ?_; clear_value l16); apply updTile_kept; assumption; unfold l16; apply drawIf_kept; assumption; unfold l15
  iterate 64 apply k14
  with_reducible apply kept_p1; assumption; intro _ _ _; unfold l14
  extract_lets +onlyGivenNames l93; clear_value l93; extract_lets +onlyGivenNames l94; clear_value l94
  extract_lets +onlyGivenNames l95; clear_value l95; with_reducible apply kept_p1; apply scratchWrite_kept; assumption

theorem execAccz_kept {q : List Instr} : ∀ x0 x1 x2, Kept q x2 → KeptOut q (execAccz x0 x1 x2) := by
  intro x0 x1 x2 h0; unfold execAccz; apply word_kept; assumption; intro _ _; apply issueAccz_kept; assumption

theorem execMma_kept {q : List Instr} : ∀ x0 x1 x2 x3 x4 x5 x6, Kept q x6 → KeptOut q (execMma x0 x1 x2 x3 x4 x5 x6) := by
  intro x0 x1 x2 x3 x4 x5 x6 h0; unfold execMma; apply word_kept; assumption; intro _ _; apply issueMma_kept; assumption

theorem execAccrd_kept {q : List Instr} : ∀ x0 x1 x2 x3 x4 x5, Kept q x5 → KeptOut q (execAccrd x0 x1 x2 x3 x4 x5) := by
  intro x0 x1 x2 x3 x4 x5 h0; unfold execAccrd; apply word_kept; assumption; intro _ _; apply issueAccrd_kept; assumption

theorem putRow_kept {q : List Instr} : ∀ x0 x1 x2 x3 x4 x5 x6 x7, Kept q x0.s → Kept q (putRow x0 x1 x2 x3 x4 x5 x6 x7).s := by
  intro x0 x1 x2 x3 x4 x5 x6 x7 h0; unfold putRow; extract_lets +onlyGivenNames l1; clear_value l1; dsimp only; apply scratchWrite_kept
  assumption

theorem endRows_kept {q : List Instr} : ∀ x0 x1, Kept q x0.s → Kept q (endRows x0 x1) := by
  intro x0 x1 h0; unfold endRows; apply updTile_kept; assumption

theorem startRows_kept {q : List Instr} : ∀ x0 x1, Kept q x0 → Kept q (startRows x0 x1).s := by
  intro x0 x1 h0; unfold startRows; assumption

theorem issueVop_kept {q : List Instr} : ∀ x0 x1 x2 x3 x4 x5 x6, Kept q x0 → Kept q (issueVop x0 x1 x2 x3 x4 x5 x6) := by
  intro x0 x1 x2 x3 x4 x5 x6 h0; unfold issueVop; extract_lets +onlyGivenNames l1; clear_value l1; extract_lets +onlyGivenNames l2
  clear_value l2; extract_lets +onlyGivenNames l3; clear_value l3; extract_lets +onlyGivenNames l4; clear_value l4; split
  apply illegal_kept; assumption; extract_lets +onlyGivenNames l8; clear_value l8; extract_lets +onlyGivenNames l9; clear_value l9
  extract_lets +onlyGivenNames l10; clear_value l10; extract_lets +onlyGivenNames l11; clear_value l11
  extract_lets +onlyGivenNames l12; clear_value l12; extract_lets +onlyGivenNames l13; clear_value l13
  extract_lets +onlyGivenNames l14; clear_value l14; apply toUnit_kept; assumption; intro _ _; apply withReads_kept; assumption
  intro _ _; extract_lets +onlyGivenNames l23; (have k23 : ∀ v0, Kept q v0.s → ∀ v1, Kept q ((l23 v0) v1).s := ?_; clear_value l23)
  extract_lets +onlyGivenNames l24; (have k24 : Kept q l24.s := ?_; clear_value l24); extract_lets +onlyGivenNames l25; clear_value l25
  apply drawIf_kept; apply endRows_kept; assumption; unfold l24; apply kept_foldl_r; intro _ _ _; apply k23; assumption; apply startRows_kept
  assumption; intro _ _ _; unfold l23; extract_lets +onlyGivenNames l42; clear_value l42; extract_lets +onlyGivenNames l43
  clear_value l43; extract_lets +onlyGivenNames l44; clear_value l44; extract_lets +onlyGivenNames l45; clear_value l45
  apply putRow_kept; assumption

theorem issueVpoly_kept {q : List Instr} : ∀ x0 x1 x2 x3 x4 x5, Kept q x0 → Kept q (issueVpoly x0 x1 x2 x3 x4 x5) := by
  intro x0 x1 x2 x3 x4 x5 h0; unfold issueVpoly; extract_lets +onlyGivenNames l1; clear_value l1; extract_lets +onlyGivenNames l2
  clear_value l2; extract_lets +onlyGivenNames l3; clear_value l3; extract_lets +onlyGivenNames l4; clear_value l4
  extract_lets +onlyGivenNames l5; clear_value l5; extract_lets +onlyGivenNames l6; clear_value l6; extract_lets +onlyGivenNames l7
  clear_value l7; extract_lets +onlyGivenNames l8; clear_value l8; extract_lets +onlyGivenNames l9; clear_value l9; split
  apply illegal_kept; assumption; apply toUnit_kept; assumption; intro _ _; apply withReads_kept; assumption; intro _ _
  extract_lets +onlyGivenNames l21; (have k21 : ∀ v0, Kept q v0.s → ∀ v1, Kept q ((l21 v0) v1).s := ?_; clear_value l21)
  extract_lets +onlyGivenNames l22; (have k22 : Kept q l22.s := ?_; clear_value l22); extract_lets +onlyGivenNames l23; clear_value l23
  apply drawIf_kept; apply endRows_kept; assumption; unfold l22; apply kept_foldl_r; intro _ _ _; apply k21; assumption; apply startRows_kept
  assumption; intro _ _ _; unfold l21; extract_lets +onlyGivenNames l40; clear_value l40; extract_lets +onlyGivenNames l41
  clear_value l41; extract_lets +onlyGivenNames l42; clear_value l42; extract_lets +onlyGivenNames l43; clear_value l43
  apply putRow_kept; assumption

theorem issueVred_kept {q : List Instr} : ∀ x0 x1 x2 x3 x4 x5 x6, Kept q x0 → Kept q (issueVred x0 x1 x2 x3 x4 x5 x6) := by
  intro x0 x1 x2 x3 x4 x5 x6 h0; unfold issueVred; extract_lets +onlyGivenNames l1; clear_value l1; extract_lets +onlyGivenNames l2
  clear_value l2; extract_lets +onlyGivenNames l3; clear_value l3; extract_lets +onlyGivenNames l4; clear_value l4
  extract_lets +onlyGivenNames l5; clear_value l5; extract_lets +onlyGivenNames l6; clear_value l6; extract_lets +onlyGivenNames l7
  clear_value l7; extract_lets +onlyGivenNames l8; clear_value l8; split; apply illegal_kept; assumption; apply toUnit_kept; assumption
  intro _ _; apply withReads_kept; assumption; intro _ _; split; extract_lets +onlyGivenNames l21
  (have k21 : ∀ v0, Kept q v0.s → ∀ v1, Kept q ((l21 v0) v1).s := ?_; clear_value l21); apply drawIf_kept; apply endRows_kept
  apply kept_foldl_r; intro _ _ _; apply k21; assumption; apply startRows_kept; assumption; intro _ _ _; unfold l21
  extract_lets +onlyGivenNames l36; clear_value l36; extract_lets +onlyGivenNames l37; clear_value l37; apply putRow_kept; assumption
  extract_lets +onlyGivenNames l40; clear_value l40; extract_lets +onlyGivenNames l41; clear_value l41
  extract_lets +onlyGivenNames l42; clear_value l42; apply endRows_kept; apply putRow_kept; apply startRows_kept; assumption

theorem issueXpose_kept {q : List Instr} : ∀ x0 x1 x2 x3 x4, Kept q x0 → Kept q (issueXpose x0 x1 x2 x3 x4) := by
  intro x0 x1 x2 x3 x4 h0; unfold issueXpose; extract_lets +onlyGivenNames l1; clear_value l1; extract_lets +onlyGivenNames l2
  clear_value l2; extract_lets +onlyGivenNames l3; clear_value l3; extract_lets +onlyGivenNames l4; clear_value l4
  extract_lets +onlyGivenNames l5; clear_value l5; extract_lets +onlyGivenNames l6; clear_value l6; apply toUnit_kept; assumption
  intro _ _; apply withReads_kept; assumption; intro _ _; extract_lets +onlyGivenNames l15; clear_value l15
  extract_lets +onlyGivenNames l16; clear_value l16; apply scratchWrite_kept; assumption

theorem issueShuf_kept {q : List Instr} : ∀ x0 x1 x2 x3 x4 x5, Kept q x0 → Kept q (issueShuf x0 x1 x2 x3 x4 x5) := by
  intro x0 x1 x2 x3 x4 x5 h0; unfold issueShuf; extract_lets +onlyGivenNames l1; clear_value l1; extract_lets +onlyGivenNames l2
  clear_value l2; extract_lets +onlyGivenNames l3; clear_value l3; extract_lets +onlyGivenNames l4; clear_value l4
  extract_lets +onlyGivenNames l5; clear_value l5; extract_lets +onlyGivenNames l6; clear_value l6; extract_lets +onlyGivenNames l7
  clear_value l7; apply toUnit_kept; assumption; intro _ _; apply withReads_kept; assumption; intro _ _; extract_lets +onlyGivenNames l16
  (have k16 : ∀ v0, Kept q v0.s → ∀ v1, Kept q ((l16 v0) v1).s := ?_; clear_value l16); extract_lets +onlyGivenNames l17
  (have k17 : Kept q l17.s := ?_; clear_value l17); apply drawIf_kept; assumption; unfold l17; apply kept_foldl_r; intro _ _ _; apply k16
  assumption; apply startRows_kept; assumption; intro _ _ _; unfold l16; extract_lets +onlyGivenNames l33; clear_value l33
  extract_lets +onlyGivenNames l34; clear_value l34; dsimp only; apply scratchWrite_kept; assumption

theorem execVop_kept {q : List Instr} : ∀ x0 x1 x2 x3 x4 x5 x6, Kept q x6 → KeptOut q (execVop x0 x1 x2 x3 x4 x5 x6) := by
  intro x0 x1 x2 x3 x4 x5 x6 h0; unfold execVop; apply word_kept; assumption; intro _ _; apply issueVop_kept; assumption

theorem execVpoly_kept {q : List Instr} : ∀ x0 x1 x2 x3 x4 x5, Kept q x5 → KeptOut q (execVpoly x0 x1 x2 x3 x4 x5) := by
  intro x0 x1 x2 x3 x4 x5 h0; unfold execVpoly; apply word_kept; assumption; intro _ _; apply issueVpoly_kept; assumption

theorem execVred_kept {q : List Instr} : ∀ x0 x1 x2 x3 x4 x5 x6, Kept q x6 → KeptOut q (execVred x0 x1 x2 x3 x4 x5 x6) := by
  intro x0 x1 x2 x3 x4 x5 x6 h0; unfold execVred; apply word_kept; assumption; intro _ _; apply issueVred_kept; assumption

theorem execXpose_kept {q : List Instr} : ∀ x0 x1 x2 x3 x4, Kept q x4 → KeptOut q (execXpose x0 x1 x2 x3 x4) := by
  intro x0 x1 x2 x3 x4 h0; unfold execXpose; apply word_kept; assumption; intro _ _; apply issueXpose_kept; assumption

theorem execShuf_kept {q : List Instr} : ∀ x0 x1 x2 x3 x4 x5, Kept q x5 → KeptOut q (execShuf x0 x1 x2 x3 x4 x5) := by
  intro x0 x1 x2 x3 x4 x5 h0; unfold execShuf; apply word_kept; assumption; intro _ _; apply issueShuf_kept; assumption

theorem issueSpop_kept {q : List Instr} : ∀ x0 x1 x2 x3 x4 x5 x6 x7, Kept q x0 → Kept q (issueSpop x0 x1 x2 x3 x4 x5 x6 x7) := by
  intro x0 x1 x2 x3 x4 x5 x6 x7 h0; unfold issueSpop; split; apply illegal_kept; assumption; apply toUnit_kept; assumption; intro _ _
  extract_lets +onlyGivenNames l8; clear_value l8; extract_lets +onlyGivenNames l9; clear_value l9; extract_lets +onlyGivenNames l10
  (have k10 : Kept q l10.2 := ?_; clear_value l10); extract_lets +onlyGivenNames l11; clear_value l11; extract_lets +onlyGivenNames l12
  (have k12 : Kept q l12 := ?_; clear_value l12); split; apply raiseAs_kept; assumption; assumption; unfold l12; apply updTile_kept
  assumption; unfold l10; apply takeInjection_kept; assumption

theorem issueSls_kept {q : List Instr} : ∀ x0 x1 x2 x3 x4 x5, Kept q x0 → Kept q (issueSls x0 x1 x2 x3 x4 x5) := by
  intro x0 x1 x2 x3 x4 x5 h0; unfold issueSls; extract_lets +onlyGivenNames l1; clear_value l1; apply toUnit_kept; assumption
  intro _ _; split; apply withReads_kept; assumption; intro _ _; extract_lets +onlyGivenNames l11; clear_value l11; apply updTile_kept
  assumption; apply scratchWrite_kept; assumption

theorem execSpop_kept {q : List Instr} : ∀ x0 x1 x2 x3 x4 x5 x6 x7, Kept q x7 → KeptOut q (execSpop x0 x1 x2 x3 x4 x5 x6 x7) := by
  intro x0 x1 x2 x3 x4 x5 x6 x7 h0; unfold execSpop; apply word_kept; assumption; intro _ _; apply issueSpop_kept; assumption

theorem execSls_kept {q : List Instr} : ∀ x0 x1 x2 x3 x4 x5, Kept q x5 → KeptOut q (execSls x0 x1 x2 x3 x4 x5) := by
  intro x0 x1 x2 x3 x4 x5 h0; unfold execSls; apply word_kept; assumption; intro _ _; apply issueSls_kept; assumption

theorem leave_kept {q : List Instr} : ∀ x0 x1 x2, Kept q x0 → Kept q (leave x0 x1 x2) := by
  intro x0 x1 x2 h0; unfold leave; extract_lets +onlyGivenNames l1; (have k1 : Kept q l1.2 := ?_; clear_value l1); split
  extract_lets +onlyGivenNames l3; clear_value l3; apply faultTile_kept; apply raiseAs_kept; assumption; assumption; unfold l1
  apply takeInjection_kept; assumption

theorem matchSend_kept {q : List Instr} : ∀ x0 x1 x2, Kept q x0 → Kept q (matchSend x0 x1 x2) := by
  intro x0 x1 x2 h0; unfold matchSend; extract_lets +onlyGivenNames l1; clear_value l1; split; assumption; split; assumption; split
  assumption; split; assumption; split; assumption; split; apply illegalAt_kept; assumption; apply leave_kept; apply updTile_kept
  assumption

theorem matchRecv_kept {q : List Instr} : ∀ x0 x1 x2, Kept q x0 → Kept q (matchRecv x0 x1 x2) := by
  intro x0 x1 x2 h0; unfold matchRecv; split; assumption; split; assumption; apply matchSend_kept; assumption

theorem issueSend_kept {q : List Instr} : ∀ x0 x1 x2 x3 x4 x5, Kept q x0 → Kept q (issueSend x0 x1 x2 x3 x4 x5) := by
  intro x0 x1 x2 x3 x4 x5 h0; unfold issueSend; extract_lets +onlyGivenNames l1; (have k1 : Kept q l1.2 := ?_; clear_value l1)
  extract_lets +onlyGivenNames l2; (have k2 : Kept q l2 := ?_; clear_value l2); extract_lets +onlyGivenNames l3; clear_value l3; split
  apply unmapped_kept; assumption; split; apply unmapped_kept; assumption; split; apply State_setTile_kept; assumption
  extract_lets +onlyGivenNames l13; clear_value l13; apply matchSend_kept; apply updTile_kept; assumption; unfold l2; assumption
  unfold l1; apply takeInjection_kept; assumption

theorem issueRecv_kept {q : List Instr} : ∀ x0 x1 x2 x3 x4 x5, Kept q x0 → Kept q (issueRecv x0 x1 x2 x3 x4 x5) := by
  intro x0 x1 x2 x3 x4 x5 h0; unfold issueRecv; extract_lets +onlyGivenNames l1; clear_value l1; split; apply unmapped_kept; assumption
  split; apply State_setTile_kept; assumption; extract_lets +onlyGivenNames l8; clear_value l8; apply matchRecv_kept; apply updTile_kept
  assumption

theorem releaseSignals_kept {q : List Instr} : ∀ x0 x1, Kept q x0 → Kept q (releaseSignals x0 x1) := by
  intro x0 x1 h0; unfold releaseSignals; extract_lets +onlyGivenNames l1; clear_value l1; extract_lets +onlyGivenNames l2
  clear_value l2; extract_lets +onlyGivenNames l3; clear_value l3; extract_lets +onlyGivenNames l4
  (have k4 : Kept q l4 := ?_; clear_value l4); apply forEach_kept; intro _ _ _; split; apply addSem_kept; assumption; assumption
  assumption; unfold l4; apply updTile_kept; assumption

theorem issueSignal_kept {q : List Instr} : ∀ x0 x1 x2 x3 x4, Kept q x0 → Kept q (issueSignal x0 x1 x2 x3 x4) := by
  intro x0 x1 x2 x3 x4 h0; unfold issueSignal; split; apply illegal_kept; assumption; split; apply unmapped_kept; assumption
  extract_lets +onlyGivenNames l7; clear_value l7; extract_lets +onlyGivenNames l8; (have k8 : Kept q l8 := ?_; clear_value l8); split
  apply addSem_kept; assumption; apply updTile_kept; assumption; unfold l8; apply goOn_kept; assumption

theorem execSend_kept {q : List Instr} : ∀ x0 x1 x2 x3 x4 x5, Kept q x5 → KeptOut q (execSend x0 x1 x2 x3 x4 x5) := by
  intro x0 x1 x2 x3 x4 x5 h0; unfold execSend; apply word_kept; assumption; intro _ _; apply issueSend_kept; assumption

theorem execRecv_kept {q : List Instr} : ∀ x0 x1 x2 x3 x4 x5, Kept q x5 → KeptOut q (execRecv x0 x1 x2 x3 x4 x5) := by
  intro x0 x1 x2 x3 x4 x5 h0; unfold execRecv; apply word_kept; assumption; intro _ _; apply issueRecv_kept; assumption

theorem execSignal_kept {q : List Instr} : ∀ x0 x1 x2 x3 x4, Kept q x4 → KeptOut q (execSignal x0 x1 x2 x3 x4) := by
  intro x0 x1 x2 x3 x4 h0; unfold execSignal; apply word_kept; assumption; intro _ _; apply issueSignal_kept; assumption

theorem updInvocation_kept {q : List Instr} : ∀ x0 x1 x2, Kept q x0 → Kept q (updInvocation x0 x1 x2) := by
  intro x0 x1 x2 h0; unfold updInvocation; split; assumption; split; assumption; split; split; apply State_setJob_kept; assumption
  assumption; split; apply State_setJob_kept; assumption; assumption; apply State_setJob_kept; assumption

theorem reportMark_kept {q : List Instr} : ∀ x0 x1 x2, Kept q x0 → Kept q (reportMark x0 x1 x2) := by
  intro x0 x1 x2 h0; unfold reportMark; split; assumption; split; assumption; extract_lets +onlyGivenNames l5; clear_value l5
  extract_lets +onlyGivenNames l6; clear_value l6; extract_lets +onlyGivenNames l7; clear_value l7; split; apply updInvocation_kept
  assumption; assumption

theorem takeBarrier_kept {q : List Instr} : ∀ x0 x1 x2, Kept q x0 → Kept q (takeBarrier x0 x1 x2) := by
  intro x0 x1 x2 h0; unfold takeBarrier; split; apply goOn_kept; apply reportMark_kept; assumption; apply goOn_kept; apply updTile_kept
  assumption; apply updTile_kept; assumption; apply goOn_kept; assumption

theorem barrier_kept {q : List Instr} : ∀ x0 x1 x2, Kept q x0 → Kept q (barrier x0 x1 x2) := by
  intro x0 x1 x2 h0; unfold barrier; split; apply takeBarrier_kept; assumption; apply updTile_kept; assumption

theorem issueSetmode_kept {q : List Instr} : ∀ x0 x1 x2 x3 x4 x5 x6, Kept q x0 → Kept q (issueSetmode x0 x1 x2 x3 x4 x5 x6) := by
  intro x0 x1 x2 x3 x4 x5 x6 h0; unfold issueSetmode; split; apply goOn_kept; apply updTile_kept; assumption; apply illegal_kept
  assumption

theorem issueLoop_kept {q : List Instr} : ∀ x0 x1 x2 x3 x4, Kept q x0 → Kept q (issueLoop x0 x1 x2 x3 x4) := by
  intro x0 x1 x2 x3 x4 h0; unfold issueLoop; extract_lets +onlyGivenNames l1; clear_value l1; split; apply State_setTile_kept
  assumption; apply illegal_kept; assumption

theorem issueWait_kept {q : List Instr} : ∀ x0 x1 x2 x3, Kept q x0 → Kept q (issueWait x0 x1 x2 x3) := by
  intro x0 x1 x2 x3 h0; unfold issueWait; extract_lets +onlyGivenNames l1; clear_value l1; split; apply illegal_kept; assumption; split
  apply goOn_kept; apply State_setTile_kept; assumption; apply State_setTile_kept; assumption

theorem issueFence_kept {q : List Instr} : ∀ x0 x1 x2 x3 x4, Kept q x0 → Kept q (issueFence x0 x1 x2 x3 x4) := by
  intro x0 x1 x2 x3 x4 h0; unfold issueFence; split; apply barrier_kept; assumption; apply illegal_kept; assumption

theorem issueWord_kept {q : List Instr} : ∀ x0 x1 x2, Kept q x0 → Kept q (issueWord x0 x1 x2) := by
  intro x0 x1 x2 h0; unfold issueWord; split; apply goOn_kept; assumption; apply goOn_kept; apply updTile_kept; assumption; apply goOn_kept
  apply updTile_kept; assumption; apply issueSetmode_kept; assumption; apply issueLoop_kept; assumption; apply issueAccz_kept; assumption
  apply issueMma_kept; assumption; apply issueAccrd_kept; assumption; apply issueVop_kept; assumption; apply issueVpoly_kept; assumption
  apply issueVred_kept; assumption; apply issueXpose_kept; assumption; apply issueShuf_kept; assumption; apply issueSpop_kept; assumption
  apply issueSls_kept; assumption; apply issueTmove_kept; assumption; apply issueSend_kept; assumption; apply issueRecv_kept; assumption
  apply issueWait_kept; assumption; apply issueSignal_kept; assumption; apply issueFence_kept; assumption; apply barrier_kept; assumption
  apply barrier_kept; assumption; apply barrier_kept; assumption

theorem progress_kept {q : List Instr} : ∀ x0 x1, Kept q x0 → Kept q (progress x0 x1) := by
  intro x0 x1 h0; unfold progress; extract_lets +onlyGivenNames l1; clear_value l1; split; assumption; split; split
  apply takeBarrier_kept; apply State_setTile_kept; assumption; assumption; apply issueWord_kept; apply State_setTile_kept; assumption
  assumption

theorem execNop_kept {q : List Instr} : ∀ x0 x1, Kept q x1 → KeptOut q (execNop x0 x1) := by
  intro x0 x1 h0; unfold execNop; apply word_kept; assumption; intro _ _; apply goOn_kept; assumption

theorem execSetp_kept {q : List Instr} : ∀ x0 x1 x2 x3, Kept q x3 → KeptOut q (execSetp x0 x1 x2 x3) := by
  intro x0 x1 x2 x3 h0; unfold execSetp; apply word_kept; assumption; intro _ _; apply goOn_kept; apply updTile_kept; assumption

theorem execAddp_kept {q : List Instr} : ∀ x0 x1 x2 x3, Kept q x3 → KeptOut q (execAddp x0 x1 x2 x3) := by
  intro x0 x1 x2 x3 h0; unfold execAddp; apply word_kept; assumption; intro _ _; apply goOn_kept; apply updTile_kept; assumption

theorem execSetmode_kept {q : List Instr} : ∀ x0 x1 x2 x3 x4 x5 x6, Kept q x6 → KeptOut q (execSetmode x0 x1 x2 x3 x4 x5 x6) := by
  intro x0 x1 x2 x3 x4 x5 x6 h0; unfold execSetmode; apply word_kept; assumption; intro _ _; apply issueSetmode_kept; assumption

theorem execLoop_kept {q : List Instr} : ∀ x0 x1 x2 x3 x4, Kept q x4 → KeptOut q (execLoop x0 x1 x2 x3 x4) := by
  intro x0 x1 x2 x3 x4 h0; unfold execLoop; apply word_kept; assumption; intro _ _; apply issueLoop_kept; assumption

theorem execWait_kept {q : List Instr} : ∀ x0 x1 x2 x3, Kept q x3 → KeptOut q (execWait x0 x1 x2 x3) := by
  intro x0 x1 x2 x3 h0; unfold execWait; apply word_kept; assumption; intro _ _; apply issueWait_kept; assumption

theorem execWaitSatisfied_kept {q : List Instr} : ∀ x0 x1, Kept q x1 → KeptOut q (execWaitSatisfied x0 x1) := by
  intro x0 x1 h0; unfold execWaitSatisfied; extract_lets +onlyGivenNames l1; clear_value l1; apply kept_next; split; split
  apply goOn_kept; apply State_setTile_kept; assumption; assumption; assumption

theorem execFence_kept {q : List Instr} : ∀ x0 x1 x2 x3 x4, Kept q x4 → KeptOut q (execFence x0 x1 x2 x3 x4) := by
  intro x0 x1 x2 x3 x4 h0; unfold execFence; apply word_kept; assumption; intro _ _; apply issueFence_kept; assumption

theorem execMark_kept {q : List Instr} : ∀ x0 x1 x2, Kept q x2 → KeptOut q (execMark x0 x1 x2) := by
  intro x0 x1 x2 h0; unfold execMark; apply word_kept; assumption; intro _ _; apply barrier_kept; assumption

theorem execCommitWord_kept {q : List Instr} : ∀ x0 x1 x2, Kept q x2 → KeptOut q (execCommitWord x0 x1 x2) := by
  intro x0 x1 x2 h0; unfold execCommitWord; apply word_kept; assumption; intro _ _; apply barrier_kept; assumption

theorem execEndWord_kept {q : List Instr} : ∀ x0 x1, Kept q x1 → KeptOut q (execEndWord x0 x1) := by
  intro x0 x1 h0; unfold execEndWord; apply word_kept; assumption; intro _ _; apply barrier_kept; assumption

theorem execIllegalWord_kept {q : List Instr} : ∀ x0 x1 x2, Kept q x2 → KeptOut q (execIllegalWord x0 x1 x2) := by
  intro x0 x1 x2 h0; unfold execIllegalWord; apply kept_next; apply onlyIf_kept; assumption; apply illegal_kept; assumption

theorem execFlitParityError_kept {q : List Instr} : ∀ x0 x1 x2, Kept q x2 → KeptOut q (execFlitParityError x0 x1 x2) := by
  intro x0 x1 x2 h0; unfold execFlitParityError; apply kept_next; apply faultTile_kept; apply raise_kept; assumption

theorem execUnitWordComplete_kept {q : List Instr} : ∀ x0 x1 x2, Kept q x2 → KeptOut q (execUnitWordComplete x0 x1 x2) := by
  intro x0 x1 x2 h0; unfold execUnitWordComplete; apply kept_next; apply onlyIf_kept; assumption; apply progress_kept; apply updTile_kept
  assumption

theorem landSend_kept {q : List Instr} : ∀ x0 x1 x2 x3 x4 x5, Kept q x0 → Kept q (landSend x0 x1 x2 x3 x4 x5) := by
  intro x0 x1 x2 x3 x4 x5 h0; unfold landSend; apply withReads_kept; assumption; intro _ _; extract_lets +onlyGivenNames l5
  (have k5 : Kept q l5 := ?_; clear_value l5); extract_lets +onlyGivenNames l6; (have k6 : Kept q l6 := ?_; clear_value l6)
  extract_lets +onlyGivenNames l7; (have k7 : Kept q l7 := ?_; clear_value l7); apply matchSend_kept; apply matchRecv_kept
  apply releaseSignals_kept; assumption; unfold l7; apply updTile_kept; assumption; unfold l6; apply updTile_kept; assumption; unfold l5
  apply deliver_kept; assumption

theorem fillRecv_kept {q : List Instr} : ∀ x0 x1 x2 x3 x4 x5, Kept q x0 → Kept q (fillRecv x0 x1 x2 x3 x4 x5) := by
  intro x0 x1 x2 x3 x4 x5 h0; unfold fillRecv; apply progress_kept; apply progress_kept; apply landSend_kept; assumption

theorem landFlits_kept {q : List Instr} : ∀ x0 x1, Kept q x0 → Kept q (landFlits x0 x1) := by
  intro x0 x1 h0; unfold landFlits; apply forEach_kept; intro _ _ _; split; apply landSend_kept; assumption; assumption; assumption

theorem landAll_kept {q : List Instr} : ∀ x0 x1 x2, Kept q x1 → Kept q (landAll x0 x1 x2) := by
  intro x0; induction x0 with
  | zero => intro _ _ h0; exact h0
  | succ n ih =>
  intro x1 x2 h0; unfold landAll; split; apply ih; apply forEach_kept; intro _ _ _; apply landFlits_kept; assumption; assumption
  assumption

theorem execRecvFilled_kept {q : List Instr} : ∀ x0 x1 x2, Kept q x2 → KeptOut q (execRecvFilled x0 x1 x2) := by
  intro x0 x1 x2 h0; unfold execRecvFilled; apply kept_next; split; assumption; split; split; apply fillRecv_kept; assumption; assumption
  assumption

theorem sendT3_kept {q : List Instr} : ∀ x0 x1 x2, Kept q x0 → Kept q (sendT3 x0 x1 x2).1 := by
  intro x0 x1 x2 h0; unfold sendT3; extract_lets +onlyGivenNames l1; clear_value l1; extract_lets +onlyGivenNames l2; clear_value l2
  extract_lets +onlyGivenNames l3; (have k3 : Kept q l3.1 := ?_; clear_value l3); with_reducible apply kept_p1
  extract_lets +onlyGivenNames l5; (have k5 : Kept q l5 := ?_; clear_value l5); apply kept_mk2; apply kept_mem (q := q); assumption
  apply kept_host (q := q); assumption; apply kept_pending; assumption; unfold l5; assumption; unfold l3; apply sendFrame_kept; assumption

theorem newTag_kept {q : List Instr} : ∀ x0, Kept q x0 → Kept q (newTag x0).2 := by
  intro x0 h0; unfold newTag; with_reducible apply kept_p1; assumption; apply kept_mk2; apply kept_mem (q := q); assumption
  apply kept_host (q := q); assumption; apply kept_pending; assumption

theorem startPeer_kept {q : List Instr} : ∀ x0 x1 x2 x3 x4 x5, Kept q x0 → Kept q (startPeer x0 x1 x2 x3 x4 x5).1 := by
  intro x0 x1 x2 x3 x4 x5 h0; unfold startPeer; split; with_reducible apply kept_p1; assumption; split; with_reducible apply kept_p1
  assumption; extract_lets +onlyGivenNames l7; clear_value l7; extract_lets +onlyGivenNames l8
  (have k8 : Kept q l8 := ?_; clear_value l8); extract_lets +onlyGivenNames l9; clear_value l9; apply kept_foldl_fst; intro _ _ _
  extract_lets +onlyGivenNames l14; (have k14 : Kept q l14.2 := ?_; clear_value l14); extract_lets +onlyGivenNames l15
  (have k15 : Kept q l15.1 := ?_; clear_value l15); with_reducible apply kept_p1; assumption; unfold l15; apply sendT3_kept; assumption
  unfold l14; apply newTag_kept; assumption; with_reducible apply kept_p1; assumption; unfold l8; split; apply forEach_kept; intro _ _ _
  apply copyPiece_kept; assumption; assumption; assumption

theorem present_kept {q : List Instr} : ∀ x0 x1 x2 x3 x4 x5, Kept q x0 → Kept q (present x0 x1 x2 x3 x4 x5) := by
  intro x0 x1 x2 x3 x4 x5 h0; unfold present; extract_lets +onlyGivenNames l1; clear_value l1; extract_lets +onlyGivenNames l2
  clear_value l2; extract_lets +onlyGivenNames l3; (have k3 : Kept q l3 := ?_; clear_value l3); split; apply failRun_kept; assumption
  split; assumption; apply enqueue_kept; assumption; unfold l3; split; apply raise_kept; assumption; assumption

theorem execArbiterRequest_kept {q : List Instr} : ∀ x0 x1 x2 x3 x4 x5, Kept q x5 → KeptOut q (execArbiterRequest x0 x1 x2 x3 x4 x5) := by
  intro x0 x1 x2 x3 x4 x5 h0; unfold execArbiterRequest; apply kept_next; apply present_kept; assumption

theorem accessRun_kept {q : List Instr} : ∀ x0 x1 x2 x3 x4 x5 x6, Kept q x0 → Kept q (accessRun x0 x1 x2 x3 x4 x5 x6).s := by
  intro x0 x1 x2 x3 x4 x5 x6 h0; unfold accessRun; split; extract_lets +onlyGivenNames l2
  (have k2 : Kept q l2.s := ?_; clear_value l2); assumption; unfold l2; apply startRange_kept; assumption
  extract_lets +onlyGivenNames l7; clear_value l7; split; extract_lets +onlyGivenNames l9
  (have k9 : Kept q l9.1 := ?_; clear_value l9); extract_lets +onlyGivenNames l10; (have k10 : Kept q l10.s := ?_; clear_value l10)
  assumption; unfold l10; apply startRange_kept; assumption; unfold l9; apply startPeer_kept; assumption; apply accessPinned_kept
  apply startRange_kept; assumption; apply accessBursts_kept; apply startRange_kept; assumption

theorem startTransfer_kept {q : List Instr} : ∀ x0 x1 x2 x3 x4, Kept q x0 → Kept q (startTransfer x0 x1 x2 x3 x4) := by
  intro x0 x1 x2 x3 x4 h0; unfold startTransfer; split; assumption; split; assumption; extract_lets +onlyGivenNames l5
  (have k5 : Kept q l5.2 := ?_; clear_value l5); split; apply failRun_kept; assumption; extract_lets +onlyGivenNames l9
  (have k9 : Kept q l9.s := ?_; clear_value l9); split; apply failRun_kept; split; apply peerCause_kept; assumption; assumption
  extract_lets +onlyGivenNames l16; (have k16 : Kept q l16 := ?_; clear_value l16); extract_lets +onlyGivenNames l17
  (have k17 : Kept q l17 := ?_; clear_value l17); apply updStall_kept; assumption; unfold l17; apply updArb_kept; assumption; unfold l16
  apply updRun_kept; assumption; unfold l9; apply accessRun_kept; assumption; unfold l5; apply takeInjection_kept; assumption

theorem injectStorm_kept {q : List Instr} : ∀ x0 x1 x2 x3, Kept q x0 → Kept q (injectStorm x0 x1 x2 x3).1 := by
  intro x0 x1 x2 x3 h0; unfold injectStorm; extract_lets +onlyGivenNames l1; (have k1 : Kept q l1.2 := ?_; clear_value l1); split
  extract_lets +onlyGivenNames l3; clear_value l3; with_reducible apply kept_p1; apply raiseAs_kept; assumption
  with_reducible apply kept_p1; assumption; unfold l1; apply takeInjection_kept; assumption

theorem grantNext_kept {q : List Instr} : ∀ x0 x1 x2, Kept q x0 → Kept q (grantNext x0 x1 x2) := by
  intro x0 x1 x2 h0; unfold grantNext; split; extract_lets +onlyGivenNames l2; (have k2 : Kept q l2 := ?_; clear_value l2)
  extract_lets +onlyGivenNames l3; (have k3 : Kept q l3 := ?_; clear_value l3); extract_lets +onlyGivenNames l4
  (have k4 : Kept q l4.1 := ?_; clear_value l4); extract_lets +onlyGivenNames l5; (have k5 : Kept q l5 := ?_; clear_value l5)
  extract_lets +onlyGivenNames l6; clear_value l6; extract_lets +onlyGivenNames l7; (have k7 : Kept q l7 := ?_; clear_value l7)
  extract_lets +onlyGivenNames l8; (have k8 : Kept q l8 := ?_; clear_value l8); apply giveEstimates_kept; apply revokeHeld_kept
  apply startTransfer_kept; assumption; unfold l8; apply gateFor_kept; apply setXfer_kept; assumption; unfold l7; apply updArb_kept
  assumption; unfold l5; assumption; unfold l4; apply injectStorm_kept; assumption; unfold l3; apply State_setPart_kept; assumption
  unfold l2; apply updArb_kept; assumption; assumption

theorem execArbiterGrant_kept {q : List Instr} : ∀ x0 x1 x2, Kept q x2 → KeptOut q (execArbiterGrant x0 x1 x2) := by
  intro x0 x1 x2 h0; unfold execArbiterGrant; apply kept_next; apply onlyIf_kept; assumption; apply grantNext_kept; assumption

theorem execTurnEstimateUpdate_kept {q : List Instr} : ∀ x0 x1, Kept q x1 → KeptOut q (execTurnEstimateUpdate x0 x1) := by
  intro x0 x1 h0; unfold execTurnEstimateUpdate; extract_lets +onlyGivenNames l1; (have k1 : Kept q l1 := ?_; clear_value l1)
  apply kept_next; apply kept_mk2; apply kept_mem (q := q); assumption; apply kept_host (q := q); assumption; apply kept_pending; assumption
  unfold l1; apply forEach_kept; intro _ _ _; apply giveEstimate_kept; assumption; assumption

theorem execArbiterProtocolBreach_kept {q : List Instr} : ∀ x0 x1 x2 x3 x4, Kept q x4 → KeptOut q (execArbiterProtocolBreach x0 x1 x2 x3 x4) := by
  intro x0 x1 x2 x3 x4 h0; unfold execArbiterProtocolBreach; apply kept_next; apply detect_kept; assumption

theorem progressCluster_kept {q : List Instr} : ∀ x0 x1, Kept q x0 → Kept q (progressCluster x0 x1) := by
  intro x0 x1 h0; unfold progressCluster; apply forEach_kept; intro _ _ _; apply progress_kept; assumption; assumption

theorem writeTransfer_kept {q : List Instr} : ∀ x0 x1 x2 x3 x4, Kept q x0 → Kept q (writeTransfer x0 x1 x2 x3 x4) := by
  intro x0 x1 x2 x3 x4 h0; unfold writeTransfer; apply withReads_kept; assumption; intro _ _; extract_lets +onlyGivenNames l5
  (have k5 : Kept q l5 := ?_; clear_value l5); extract_lets +onlyGivenNames l6; (have k6 : Kept q l6 := ?_; clear_value l6)
  apply progressCluster_kept; apply signalRuns_kept; assumption; unfold l6; apply updRun_kept; assumption; unfold l5; apply copyTransfer_kept
  assumption

theorem finishTransfer_kept {q : List Instr} : ∀ x0 x1 x2 x3, Kept q x0 → Kept q (finishTransfer x0 x1 x2 x3) := by
  intro x0 x1 x2 x3 h0; unfold finishTransfer; extract_lets +onlyGivenNames l1; (have k1 : Kept q l1 := ?_; clear_value l1); split
  split; assumption; apply stageLines_kept; assumption; split; assumption; apply writeTransfer_kept; assumption; unfold l1
  apply updArb_kept; assumption

theorem breach_kept {q : List Instr} : ∀ x0 x1 x2, Kept q x0 → Kept q (breach x0 x1 x2) := by
  intro x0 x1 x2 h0; unfold breach; extract_lets +onlyGivenNames l1; (have k1 : Kept q l1.2 := ?_; clear_value l1); apply detect_kept
  assumption; unfold l1; apply State_fresh_kept; assumption

theorem execTransferWritten_kept {q : List Instr} : ∀ x0 x1 x2, Kept q x2 → KeptOut q (execTransferWritten x0 x1 x2) := by
  intro x0 x1 x2 h0; unfold execTransferWritten; apply kept_next; split; split; assumption; apply finishTransfer_kept; assumption
  apply onlyIf_kept; assumption; apply breach_kept; assumption

theorem execLateThresholdExpiry_kept {q : List Instr} : ∀ x0 x1 x2, Kept q x2 → KeptOut q (execLateThresholdExpiry x0 x1 x2) := by
  intro x0 x1 x2 h0; unfold execLateThresholdExpiry; apply kept_next; split; assumption; split; assumption
  extract_lets +onlyGivenNames l6; (have k6 : Kept q l6 := ?_; clear_value l6); extract_lets +onlyGivenNames l7
  (have k7 : Kept q l7 := ?_; clear_value l7); apply raiseAs_kept; assumption; unfold l7; apply updStall_kept; assumption; unfold l6
  apply updRun_kept; assumption

theorem writeDevices_kept {q : List Instr} : ∀ x0 x1 x2 x3, Kept q x0 → Kept q (writeDevices x0 x1 x2 x3) := by
  intro x0 x1 x2 x3 h0; unfold writeDevices; extract_lets +onlyGivenNames l1; (have k1 : Kept q l1 := ?_; clear_value l1); split
  apply kept_mk2; apply kept_write; apply kept_mem (q := q); assumption; apply kept_host (q := q); assumption; apply kept_pending; assumption
  extract_lets +onlyGivenNames l11; clear_value l11; apply State_setPart_kept; assumption; unfold l1; apply State_setPart_kept
  assumption

theorem scrubReread_kept {q : List Instr} : ∀ x0 x1 x2 x3 x4, Kept q x0 → Kept q (scrubReread x0 x1 x2 x3 x4) := by
  intro x0 x1 x2 x3 x4 h0; unfold scrubReread; extract_lets +onlyGivenNames l1; (have k1 : Kept q l1.s := ?_; clear_value l1)
  apply forEach_kept; intro _ _ _; extract_lets +onlyGivenNames l6; (have k6 : Kept q l6.2 := ?_; clear_value l6); split
  apply raiseAs_kept; assumption; assumption; unfold l6; apply takeInjection_kept; assumption; assumption; unfold l1; apply readT2_kept
  assumption

theorem scrub_kept {q : List Instr} : ∀ x0 x1 x2 x3, Kept q x0 → Kept q (scrub x0 x1 x2 x3) := by
  intro x0 x1 x2 x3 h0; unfold scrub; extract_lets +onlyGivenNames l1; clear_value l1; extract_lets +onlyGivenNames l2
  (have k2 : Kept q l2.s := ?_; clear_value l2); extract_lets +onlyGivenNames l3; (have k3 : Kept q l3 := ?_; clear_value l3)
  apply State_setPart_kept; assumption; unfold l3; split; assumption; apply scrubReread_kept; apply writeDevices_kept; assumption
  unfold l2; apply readT2_kept; assumption

theorem execScrubBurst_kept {q : List Instr} : ∀ x0 x1 x2 x3, Kept q x3 → KeptOut q (execScrubBurst x0 x1 x2 x3) := by
  intro x0 x1 x2 x3 h0; unfold execScrubBurst; apply kept_next; apply onlyIf_kept; assumption; apply scrub_kept; assumption

theorem execScrubWindowBoundary_kept {q : List Instr} : ∀ x0 x1, Kept q x1 → KeptOut q (execScrubWindowBoundary x0 x1) := by
  intro x0 x1 h0; unfold execScrubWindowBoundary; apply kept_next; apply State_setPart_kept; assumption

theorem execDramRefresh_kept {q : List Instr} : ∀ x0 x1 x2, Kept q x2 → KeptOut q (execDramRefresh x0 x1 x2) := by
  intro x0 x1 x2 h0; unfold execDramRefresh; apply kept_next; apply onlyIf_kept; assumption; apply State_setPart_kept; assumption

theorem bar2Access_kept {q : List Instr} : ∀ x0 x1 x2 x3, Kept q x0 → Kept q (bar2Access x0 x1 x2 x3).s := by
  intro x0 x1 x2 x3 h0; unfold bar2Access; extract_lets +onlyGivenNames l1; clear_value l1; apply accessRange_kept; apply startRange_kept
  apply present_kept; assumption

theorem bar2Fetch_kept {q : List Instr} : ∀ x0 x1 x2, Kept q x0 → Kept q (bar2Fetch x0 x1 x2).1 := by
  intro x0 x1 x2 h0; unfold bar2Fetch; extract_lets +onlyGivenNames l1; (have k1 : Kept q l1.s := ?_; clear_value l1); split
  extract_lets +onlyGivenNames l3; (have k3 : Kept q l3.2 := ?_; clear_value l3); with_reducible apply kept_p1; assumption; unfold l3
  apply State_freeBytes_kept; assumption; with_reducible apply kept_p1; assumption; unfold l1; apply bar2Access_kept; assumption

theorem execBar2Read_kept {q : List Instr} : ∀ x0 x1 x2, Kept q x2 → KeptOut q (execBar2Read x0 x1 x2) := by
  intro x0 x1 x2 h0; unfold execBar2Read; extract_lets +onlyGivenNames l1; clear_value l1; split; extract_lets +onlyGivenNames l3
  (have k3 : Kept q l3.1 := ?_; clear_value l3); apply kept_next; apply State_emit_kept; assumption; unfold l3; apply bar2Fetch_kept
  assumption; apply kept_next; apply State_emit_kept; assumption

theorem execBar2Write_kept {q : List Instr} : ∀ x0 x1 x2, Kept q x2 → KeptOut q (execBar2Write x0 x1 x2) := by
  intro x0 x1 x2 h0; unfold execBar2Write; extract_lets +onlyGivenNames l1; clear_value l1; extract_lets +onlyGivenNames l2
  clear_value l2; split; extract_lets +onlyGivenNames l4; (have k4 : Kept q l4.s := ?_; clear_value l4); apply kept_next; split
  assumption; extract_lets +onlyGivenNames l8; (have k8 : Kept q l8 := ?_; clear_value l8); apply kept_mk2; apply kept_write
  apply kept_mem (q := q); assumption; apply kept_host (q := q); assumption; apply kept_pending; assumption; unfold l8; assumption
  unfold l4; apply bar2Access_kept; assumption; apply kept_next; assumption

end Sys2Proof.Machine
end

