-- ==== Sys2Proof/Laws/KeptRuns.lean ====
section
/-! SUPPORT. What keeps both memories in canonical form and leaves the queue of commands alone: invocations, the KV moves, streams and fusion. -/

open Sys2Proof

namespace Sys2Proof.Machine

theorem placeRow_kept {q : List Instr} : ∀ x0 x1 x2 x3 x4 x5 x6, Kept q x0 → Kept q (placeRow x0 x1 x2 x3 x4 x5 x6).1 := by
  intro x0 x1 x2 x3 x4 x5 x6 h0; unfold placeRow; split; with_reducible apply kept_p1; assumption; split; with_reducible apply kept_p1
  assumption; extract_lets +onlyGivenNames l7; (have k7 : Kept q l7.2 := ?_; clear_value l7); extract_lets +onlyGivenNames l8
  (have k8 : Kept q l8 := ?_; clear_value l8); extract_lets +onlyGivenNames l9; clear_value l9; extract_lets +onlyGivenNames l10
  clear_value l10; split; with_reducible apply kept_p1; assumption; extract_lets +onlyGivenNames l14; clear_value l14
  extract_lets +onlyGivenNames l15; clear_value l15; extract_lets +onlyGivenNames l16; clear_value l16; split
  with_reducible apply kept_p1; assumption; extract_lets +onlyGivenNames l20; (have k20 : Kept q l20 := ?_; clear_value l20); split
  with_reducible apply kept_p1; assumption; with_reducible apply kept_p1; assumption; unfold l20; apply raiseAs_kept; assumption; unfold l8
  assumption; unfold l7; apply takeInjection_kept; assumption

theorem takeRing_kept {q : List Instr} : ∀ x0 x1 x2 x3 x4, Kept q x0 → Kept q (takeRing x0 x1 x2 x3 x4) := by
  intro x0 x1 x2 x3 x4 h0; unfold takeRing; extract_lets +onlyGivenNames l1; clear_value l1; extract_lets +onlyGivenNames l2
  clear_value l2; extract_lets +onlyGivenNames l3; clear_value l3; apply forEach_kept; intro _ _ _; split; assumption
  extract_lets +onlyGivenNames l10; clear_value l10; extract_lets +onlyGivenNames l11; clear_value l11
  extract_lets +onlyGivenNames l12; (have k12 : Kept q l12 := ?_; clear_value l12); extract_lets +onlyGivenNames l13
  (have k13 : Kept q l13.1 := ?_; clear_value l13); split; apply State_setJob_kept; assumption; assumption; unfold l13; apply placeRow_kept
  assumption; unfold l12; apply objWriteBytes_kept; assumption; assumption

theorem arriveRows_kept {q : List Instr} : ∀ x0 x1, Kept q x0 → Kept q (arriveRows x0 x1) := by
  intro x0 x1 h0; unfold arriveRows; extract_lets +onlyGivenNames l1; clear_value l1; split; assumption; split; assumption
  extract_lets +onlyGivenNames l6; (have k6 : Kept q l6 := ?_; clear_value l6); apply objSetWord_kept; assumption; unfold l6
  apply forEach_kept; intro _ _ _; apply takeRing_kept; assumption; assumption

theorem arriveEgo_kept {q : List Instr} : ∀ x0 x1, Kept q x0 → Kept q (arriveEgo x0 x1) := by
  intro x0 x1 h0; unfold arriveEgo; split; assumption; apply kept_mk2; apply kept_mem (q := q); assumption; apply kept_host (q := q)
  assumption; apply kept_pending; assumption

theorem arrive_kept {q : List Instr} : ∀ x0 x1, Kept q x0 → Kept q (arrive x0 x1) := by
  intro x0 x1 h0; unfold arrive; apply arriveRows_kept; apply arriveEgo_kept; assumption

theorem dropSensor_kept {q : List Instr} : ∀ x0 x1 x2 x3, Kept q x2.1 → Kept q (dropSensor x0 x1 x2 x3).1 := by
  intro x0 x1 x2 x3 h0; unfold dropSensor; split; split; assumption; split; with_reducible apply kept_p1; assumption
  extract_lets +onlyGivenNames l7; clear_value l7; extract_lets +onlyGivenNames l8; clear_value l8; split; with_reducible apply kept_p1
  apply raise_kept; assumption; with_reducible apply kept_p1; assumption

theorem freezeEpoch_kept {q : List Instr} : ∀ x0 x1 x2 x3, Kept q x0 → Kept q (freezeEpoch x0 x1 x2 x3) := by
  intro x0 x1 x2 x3 h0; unfold freezeEpoch; extract_lets +onlyGivenNames l1; clear_value l1; extract_lets +onlyGivenNames l2
  clear_value l2; extract_lets +onlyGivenNames l3; clear_value l3; extract_lets +onlyGivenNames l4
  (have k4 : Kept q l4.1 := ?_; clear_value l4); extract_lets +onlyGivenNames l5; (have k5 : Kept q l5 := ?_; clear_value l5)
  extract_lets +onlyGivenNames l6; clear_value l6; extract_lets +onlyGivenNames l7; clear_value l7; extract_lets +onlyGivenNames l8
  clear_value l8; split; apply State_setJob_kept; assumption; assumption; unfold l5; assumption; unfold l4; apply kept_foldl_fst
  intro _ _ _; apply dropSensor_kept; assumption; with_reducible apply kept_p1; assumption

theorem outsideSet_kept {q : List Instr} : ∀ x0 x1 x2 x3 x4 x5, Kept q x0 → Kept q (outsideSet x0 x1 x2 x3 x4 x5).1 := by
  intro x0 x1 x2 x3 x4 x5 h0; unfold outsideSet; extract_lets +onlyGivenNames l1; (have k1 : Kept q l1.2 := ?_; clear_value l1)
  extract_lets +onlyGivenNames l2; (have k2 : Kept q l2.2 := ?_; clear_value l2); extract_lets +onlyGivenNames l3; clear_value l3
  extract_lets +onlyGivenNames l4; clear_value l4; with_reducible apply kept_p1; assumption; unfold l2; apply takeInjection_kept
  assumption; unfold l1; apply takeInjection_kept; assumption

theorem gateEpoch_kept {q : List Instr} : ∀ x0 x1 x2 x3 x4 x5, Kept q x0 → Kept q (gateEpoch x0 x1 x2 x3 x4 x5).1 := by
  intro x0 x1 x2 x3 x4 x5 h0; unfold gateEpoch; extract_lets +onlyGivenNames l1; (have k1 : Kept q l1.1 := ?_; clear_value l1)
  extract_lets +onlyGivenNames l2; (have k2 : Kept q l2 := ?_; clear_value l2); extract_lets +onlyGivenNames l3; clear_value l3
  extract_lets +onlyGivenNames l4; clear_value l4; extract_lets +onlyGivenNames l5; clear_value l5; extract_lets +onlyGivenNames l6
  clear_value l6; extract_lets +onlyGivenNames l7; clear_value l7; extract_lets +onlyGivenNames l8; clear_value l8
  extract_lets +onlyGivenNames l9; (have k9 : Kept q l9 := ?_; clear_value l9); extract_lets +onlyGivenNames l10
  (have k10 : Kept q l10 := ?_; clear_value l10); with_reducible apply kept_p1; assumption; unfold l10; split; apply raiseAs_kept
  assumption; assumption; unfold l9; split; apply raiseAs_kept; assumption; assumption; unfold l2; assumption; unfold l1
  apply outsideSet_kept; assumption

theorem assembleEpoch_kept {q : List Instr} : ∀ x0 x1 x2 x3 x4 x5, Kept q x0 → Kept q (assembleEpoch x0 x1 x2 x3 x4 x5).1 := by
  intro x0 x1 x2 x3 x4 x5 h0; unfold assembleEpoch; extract_lets +onlyGivenNames l1; (have k1 : Kept q l1.1 := ?_; clear_value l1)
  extract_lets +onlyGivenNames l2; clear_value l2; extract_lets +onlyGivenNames l3; clear_value l3; extract_lets +onlyGivenNames l4
  clear_value l4; extract_lets +onlyGivenNames l5; clear_value l5; extract_lets +onlyGivenNames l6; clear_value l6
  with_reducible apply kept_p1; assumption; unfold l1; apply gateEpoch_kept; assumption

theorem takeInvocation_kept {q : List Instr} : ∀ x0 x1, Kept q x0 → Kept q (takeInvocation x0 x1) := by
  intro x0 x1 h0; unfold takeInvocation; split; assumption; extract_lets +onlyGivenNames l3
  (have k3 : Kept q l3.1 := ?_; clear_value l3); extract_lets +onlyGivenNames l4; (have k4 : Kept q l4 := ?_; clear_value l4); split
  assumption; extract_lets +onlyGivenNames l7; clear_value l7; extract_lets +onlyGivenNames l8; clear_value l8
  extract_lets +onlyGivenNames l9; clear_value l9; extract_lets +onlyGivenNames l10; clear_value l10
  extract_lets +onlyGivenNames l11; clear_value l11; extract_lets +onlyGivenNames l12; clear_value l12
  extract_lets +onlyGivenNames l13; clear_value l13; apply State_setJob_kept; assumption; unfold l4; assumption; unfold l3
  apply takeRows_kept; assumption

theorem takeBuffer_kept {q : List Instr} : ∀ x0 x1 x2 x3 x4 x5, Kept q x0 → KeptPrep q (takeBuffer x0 x1 x2 x3 x4 x5) := by
  intro x0 x1 x2 x3 x4 x5 h0; unfold takeBuffer; split; apply keptPrep_mk; intro _ _; refine keptOpt_some (by assumption) ?_; exact keptOpt_none
  assumption; split; apply keptPrep_mk; intro _ _; refine keptOpt_some (by assumption) ?_; with_reducible apply keptOpt_mk; assumption; assumption
  split; split; apply keptPrep_mk; intro _ _; refine keptOpt_some (by assumption) ?_; exact keptOpt_none; assumption; apply keptPrep_mk; intro _ _
  refine keptOpt_some (by assumption) ?_; exact keptOpt_none; apply State_setJob_kept; apply objSetWord_kept; assumption
  extract_lets +onlyGivenNames l32; (have k32 : Kept q l32 := ?_; clear_value l32); extract_lets +onlyGivenNames l33
  (have k33 : Kept q l33 := ?_; clear_value l33); apply keptPrep_mk; intro _ _; refine keptOpt_some (by assumption) ?_
  with_reducible apply keptOpt_mk; apply updJob_kept; assumption; assumption; unfold l33; apply mapDescs_kept; assumption; unfold l32
  apply setBufferState_kept; assumption

theorem layRows_kept {q : List Instr} : ∀ x0 x1 x2 x3, Kept q x0 → Kept q (layRows x0 x1 x2 x3) := by
  intro x0 x1 x2 x3 h0; unfold layRows; apply forEach_kept; intro _ _ _; apply forEach_kept; intro _ _ _; split; apply scratchWrite_kept
  assumption; assumption; assumption; assumption

theorem prepareFuse_kept {q : List Instr} : ∀ x0 x1 x2, Kept q x0 → KeptPrep q (prepareFuse x0 x1 x2) := by
  intro x0 x1 x2 h0; unfold prepareFuse; split; apply keptPrep_mk; intro _ _; refine keptOpt_some (by assumption) ?_; exact keptOpt_none
  assumption; split; split; extract_lets +onlyGivenNames l10; (have k10 : Kept q l10 := ?_; clear_value l10); apply keptPrep_mk; intro _ _
  refine keptOpt_some (by assumption) ?_; with_reducible apply keptOpt_mk; assumption; assumption; unfold l10; apply layRows_kept; assumption
  split; split; apply keptPrep_mk; intro _ _; refine keptOpt_some (by assumption) ?_; exact keptOpt_none; assumption
  extract_lets +onlyGivenNames l29; (have k29 : Kept q l29.1 := ?_; clear_value l29); extract_lets +onlyGivenNames l30
  (have k30 : Kept q l30 := ?_; clear_value l30); extract_lets +onlyGivenNames l31; (have k31 : Kept q l31 := ?_; clear_value l31)
  apply keptPrep_mk; intro _ _; refine keptOpt_some (by assumption) ?_; with_reducible apply keptOpt_mk; assumption; assumption; unfold l31
  apply layRows_kept; assumption; unfold l30; apply updJob_kept; assumption; unfold l29; apply assembleEpoch_kept; assumption
  extract_lets +onlyGivenNames l48; (have k48 : Kept q l48 := ?_; clear_value l48); apply keptPrep_mk; intro _ _
  refine keptOpt_some (by assumption) ?_; exact keptOpt_none; assumption; unfold l48; split; apply State_setJob_kept; assumption; assumption
  apply keptPrep_mk; intro _ _; refine keptOpt_some (by assumption) ?_; with_reducible apply keptOpt_mk; assumption; assumption

theorem preparePlan_kept {q : List Instr} : ∀ x0 x1 x2 x3, Kept q x0 → KeptPrep q (preparePlan x0 x1 x2 x3) := by
  intro x0 x1 x2 x3 h0; unfold preparePlan; split; split; apply keptPrep_mk; intro _ _; refine keptOpt_some (by assumption) ?_; exact keptOpt_none
  assumption; extract_lets +onlyGivenNames l9; (have k9 : Kept q l9 := ?_; clear_value l9); apply keptPrep_mk; intro _ _
  refine keptOpt_some (by assumption) ?_; with_reducible apply keptOpt_mk; assumption; assumption; unfold l9; apply updInv_kept
  refine keptOpt_some (by assumption) ?_; apply preparePass_kept; assumption; apply keptPrep_mk; intro _ _; refine keptOpt_some (by assumption) ?_
  with_reducible apply keptOpt_mk; assumption; assumption

theorem prepareWriter_kept {q : List Instr} : ∀ x0 x1 x2 x3, Kept q x0 → KeptPrep q (prepareWriter x0 x1 x2 x3) := by
  intro x0 x1 x2 x3 h0; unfold prepareWriter; split; apply takeBuffer_kept; assumption; apply keptPrep_mk; intro _ _
  refine keptOpt_some (by assumption) ?_; with_reducible apply keptOpt_mk; assumption; assumption

theorem prepareRest_kept {q : List Instr} : ∀ x0 x1 x2 x3, Kept q x0 → Kept q (prepareRest x0 x1 x2 x3) := by
  intro x0 x1 x2 x3 h0; unfold prepareRest; split; assumption; split; assumption; extract_lets +onlyGivenNames l5
  (have k5 : Kept q l5 := ?_; clear_value l5); extract_lets +onlyGivenNames l6; (have k6 : Kept q l6.1 := ?_; clear_value l6)
  extract_lets +onlyGivenNames l7; (have k7 : Kept q l7 := ?_; clear_value l7); split; assumption; extract_lets +onlyGivenNames l10
  (have k10 : Kept q l10 := ?_; clear_value l10); apply updJob_kept; assumption; unfold l10; split; apply raise_kept; assumption
  assumption; unfold l7; apply updInv_kept; assumption; unfold l6; apply warmStart_kept; assumption; unfold l5; split; apply aimChunks_kept
  apply writeCtl_kept; assumption; assumption

theorem startRun_kept {q : List Instr} : ∀ x0 x1, Kept q x0 → Kept q (startRun x0 x1) := by
  intro x0 x1 h0; unfold startRun; split; assumption; split; assumption; extract_lets +onlyGivenNames l5; clear_value l5
  extract_lets +onlyGivenNames l6; (have k6 : Kept q l6 := ?_; clear_value l6); extract_lets +onlyGivenNames l7
  (have k7 : KeptPrep q l7 := ?_; clear_value l7); split; exact keptPrep_2 (by assumption); extract_lets +onlyGivenNames l10
  (have k10 : Kept q l10 := ?_; clear_value l10); extract_lets +onlyGivenNames l11; (have k11 : Kept q l11 := ?_; clear_value l11)
  extract_lets +onlyGivenNames l12; (have k12 : Kept q l12 := ?_; clear_value l12); split; apply startClusters_kept; assumption
  assumption; unfold l12; apply updJob_kept; assumption; unfold l11; apply assignFor_kept; assumption; unfold l10; apply prepareRest_kept
  refine keptOpt_some (by assumption) ?_; exact keptPrep_fst (by assumption); unfold l7; apply Prep_andThen_kept; apply prepareFuse_kept
  assumption; intro _ _; apply Prep_andThen_kept; apply preparePlan_kept; assumption; intro _ _; apply Prep_andThen_kept
  apply prepareWriter_kept; assumption; intro _ _; apply prepareCall_kept; assumption; unfold l6; apply clearCounts_kept; assumption

theorem flipShadow_kept {q : List Instr} : ∀ x0 x1, Kept q x0 → Kept q (flipShadow x0 x1) := by
  intro x0 x1 h0; unfold flipShadow; split; assumption; split; assumption; extract_lets +onlyGivenNames l5; clear_value l5
  extract_lets +onlyGivenNames l6; clear_value l6; extract_lets +onlyGivenNames l7; clear_value l7; extract_lets +onlyGivenNames l8
  (have k8 : Kept q l8 := ?_; clear_value l8); extract_lets +onlyGivenNames l9; clear_value l9; extract_lets +onlyGivenNames l10
  (have k10 : Kept q l10 := ?_; clear_value l10); extract_lets +onlyGivenNames l11; clear_value l11; extract_lets +onlyGivenNames l12
  (have k12 : Kept q l12 := ?_; clear_value l12); apply State_setJob_kept; assumption; unfold l12; apply kept_mk2; apply kept_mem (q := q)
  assumption; apply kept_host (q := q); assumption; apply kept_pending; assumption; unfold l10; apply State_setPart_kept; assumption
  unfold l8; apply dropStreams_kept; assumption

theorem onShadow_kept {q : List Instr} : ∀ x0 x1 x2, Kept q x0 → (∀ y100, Kept q y100 → Kept q (x2 y100)) → Kept q (onShadow x0 x1 x2) := by
  intro x0 x1 x2 h0 h1; unfold onShadow; split; assumption; extract_lets +onlyGivenNames l3
  (have k3 : Kept q l3 := ?_; clear_value l3); apply updJob_kept; apply flipShadow_kept; assumption; unfold l3; apply h1
  apply flipShadow_kept; assumption

theorem startShadow_kept {q : List Instr} : ∀ x0 x1, Kept q x0 → Kept q (startShadow x0 x1) := by
  intro x0 x1 h0; unfold startShadow; split; assumption; split; split; assumption; extract_lets +onlyGivenNames l6
  (have k6 : Kept q l6 := ?_; clear_value l6); apply assignFor_kept; apply onShadow_kept; assumption; intro _ _; apply startRun_kept
  assumption; unfold l6; apply updJob_kept; assumption; split; assumption; apply onShadow_kept; assumption; intro _ _; apply startRun_kept
  assumption; assumption

theorem queueShadow_kept {q : List Instr} : ∀ x0 x1, Kept q x0 → Kept q (queueShadow x0 x1) := by
  intro x0 x1 h0; unfold queueShadow; apply updJob_kept; assumption

theorem tryStart_kept {q : List Instr} : ∀ x0 x1, Kept q x0 → Kept q (tryStart x0 x1) := by
  intro x0 x1 h0; unfold tryStart; split; assumption; split; assumption; split; split; assumption; split; split
  apply beginFallback_kept; assumption; assumption; split; apply startRun_kept; assumption; assumption; split; assumption; split
  apply startRun_kept; apply State_setJob_kept; assumption; split; apply queueShadow_kept; apply startRun_kept; apply takeInvocation_kept
  assumption; assumption

theorem startJob_kept {q : List Instr} : ∀ x0 x1, Kept q x0 → Kept q (startJob x0 x1) := by
  intro x0 x1 h0; unfold startJob; apply startShadow_kept; apply tryStart_kept; assumption

theorem execInvocationStart_kept {q : List Instr} : ∀ x0 x1, Kept q x1 → KeptOut q (execInvocationStart x0 x1) := by
  intro x0 x1 h0; unfold execInvocationStart; apply kept_next; apply startJob_kept; assumption

theorem skipStart_kept {q : List Instr} : ∀ x0 x1, Kept q x0 → Kept q (skipStart x0 x1) := by
  intro x0 x1 h0; unfold skipStart; extract_lets +onlyGivenNames l1; (have k1 : Kept q l1.2 := ?_; clear_value l1); apply raise_kept
  assumption; unfold l1; apply State_fresh_kept; assumption

theorem execPeriodicStartInstant_kept {q : List Instr} : ∀ x0 x1, Kept q x1 → KeptOut q (execPeriodicStartInstant x0 x1) := by
  intro x0 x1 h0; unfold execPeriodicStartInstant; apply kept_next; split; assumption; split; assumption
  extract_lets +onlyGivenNames l6; (have k6 : Kept q l6 := ?_; clear_value l6); apply updJob_kept; assumption; unfold l6; split
  apply skipStart_kept; assumption; assumption

theorem execAttnPassStart_kept {q : List Instr} : ∀ x0 x1, Kept q x1 → KeptOut q (execAttnPassStart x0 x1) := by
  intro x0 x1 h0; unfold execAttnPassStart; apply kept_next; split; assumption; split; assumption; split; assumption
  extract_lets +onlyGivenNames l8; clear_value l8; split; assumption; extract_lets +onlyGivenNames l11; clear_value l11
  extract_lets +onlyGivenNames l12; (have k12 : Kept q l12 := ?_; clear_value l12); apply startPass_kept; apply preparePassOf_kept
  assumption; unfold l12; apply updInv_kept; assumption

theorem gateInjection_kept {q : List Instr} : ∀ x0, Kept q x0 → Kept q (gateInjection x0).1 := by
  intro x0 h0; unfold gateInjection; apply kept_foldl_fst; intro _ _ _; split; assumption; extract_lets +onlyGivenNames l7
  (have k7 : Kept q l7.2 := ?_; clear_value l7); with_reducible apply kept_p1; assumption; unfold l7; apply takeInjection_kept; assumption
  with_reducible apply kept_p1; assumption

theorem clearLatch_kept {q : List Instr} : ∀ x0 x1 x2, Kept q x0 → Kept q (clearLatch x0 x1 x2) := by
  intro x0 x1 x2 h0; unfold clearLatch; extract_lets +onlyGivenNames l1; (have k1 : Kept q l1.2 := ?_; clear_value l1)
  extract_lets +onlyGivenNames l2; clear_value l2; extract_lets +onlyGivenNames l3; clear_value l3; extract_lets +onlyGivenNames l4
  (have k4 : Kept q l4 := ?_; clear_value l4); apply kept_mk2; apply kept_mem (q := q); assumption; apply kept_host (q := q); assumption
  apply kept_pending; assumption; unfold l4; assumption; unfold l1; apply State_fresh_kept; assumption

theorem gatePass_kept {q : List Instr} : ∀ x0 x1 x2 x3, Kept q x0 → Kept q (gatePass x0 x1 x2 x3) := by
  intro x0 x1 x2 x3 h0; unfold gatePass; extract_lets +onlyGivenNames l1; clear_value l1; extract_lets +onlyGivenNames l2
  (have k2 : Kept q l2 := ?_; clear_value l2); extract_lets +onlyGivenNames l3; (have k3 : Kept q l3.1 := ?_; clear_value l3)
  extract_lets +onlyGivenNames l4; (have k4 : Kept q l4 := ?_; clear_value l4); split; assumption; apply startPass_kept; apply updInv_kept
  refine keptOpt_some (by assumption) ?_; apply preparePass_kept; assumption; unfold l4; apply updInv_kept; assumption; unfold l3
  apply gateInjection_kept; assumption; unfold l2; split; apply clearLatch_kept; assumption; assumption

theorem tryGate_kept {q : List Instr} : ∀ x0 x1, Kept q x0 → Kept q (tryGate x0 x1) := by
  intro x0 x1 h0; unfold tryGate; split; assumption; split; split; apply gatePass_kept; assumption; assumption; assumption

theorem execGatePassPrepare_kept {q : List Instr} : ∀ x0 x1, Kept q x1 → KeptOut q (execGatePassPrepare x0 x1) := by
  intro x0 x1 h0; unfold execGatePassPrepare; apply kept_next; split; apply tryGate_kept; assumption; split; apply onShadow_kept
  assumption; intro _ _; apply tryGate_kept; apply updJob_kept; assumption; assumption

theorem readProducer_kept {q : List Instr} : ∀ x0 x1, Kept q x0 → Kept q (readProducer x0 x1) := by
  intro x0 x1 h0; unfold readProducer; split; assumption; extract_lets +onlyGivenNames l3; clear_value l3; split; apply kept_mk2
  apply kept_mem (q := q); assumption; apply kept_host (q := q); assumption; apply kept_pending; assumption; split; apply kept_mk2
  apply kept_mem (q := q); assumption; apply kept_host (q := q); assumption; apply kept_pending; assumption; split; apply kept_mk2
  apply kept_mem (q := q); assumption; apply kept_host (q := q); assumption; apply kept_pending; assumption; assumption

theorem arrivals_kept {q : List Instr} : ∀ x0 x1 x2, Kept q x0 → Kept q (arrivals x0 x1 x2) := by
  intro x0 x1 x2 h0; unfold arrivals; apply forEach_kept; intro _ _ _; apply readProducer_kept; apply arrive_kept; assumption; assumption

theorem commitCall_kept {q : List Instr} : ∀ x0 x1 x2 x3, Kept q x0 → Kept q (commitCall x0 x1 x2 x3) := by
  intro x0 x1 x2 x3 h0; unfold commitCall; split; apply abortSpans_kept; assumption; extract_lets +onlyGivenNames l4
  (have k4 : Kept q l4.1 := ?_; clear_value l4); apply countKv_kept; assumption; unfold l4; apply kept_foldl_fst; intro _ _ _
  extract_lets +onlyGivenNames l12; (have k12 : Kept q l12.1 := ?_; clear_value l12); with_reducible apply kept_p1; assumption
  unfold l12; apply commitRow_kept; assumption; with_reducible apply kept_p1; assumption

theorem publish_kept {q : List Instr} : ∀ x0 x1 x2 x3 x4, Kept q x0 → Kept q (publish x0 x1 x2 x3 x4).1 := by
  intro x0 x1 x2 x3 x4 h0; unfold publish; extract_lets +onlyGivenNames l1; (have k1 : Kept q l1 := ?_; clear_value l1)
  extract_lets +onlyGivenNames l2; (have k2 : Kept q l2 := ?_; clear_value l2); extract_lets +onlyGivenNames l3
  (have k3 : Kept q l3 := ?_; clear_value l3); extract_lets +onlyGivenNames l4; clear_value l4; extract_lets +onlyGivenNames l5
  (have k5 : Kept q l5.1 := ?_; clear_value l5); extract_lets +onlyGivenNames l6; (have k6 : Kept q l6 := ?_; clear_value l6)
  extract_lets +onlyGivenNames l7; (have k7 : Kept q l7 := ?_; clear_value l7); extract_lets +onlyGivenNames l8
  (have k8 : Kept q l8 := ?_; clear_value l8); extract_lets +onlyGivenNames l9; (have k9 : Kept q l9 := ?_; clear_value l9)
  with_reducible apply kept_p1; apply arrivals_kept; assumption; unfold l9; split; assumption; apply publishField_kept; assumption
  unfold l8; apply publishEgo_kept; assumption; unfold l7; apply publishFuse_kept; assumption; unfold l6; apply publishRoadmap_kept
  assumption; unfold l5; split; apply publishPlan_kept; assumption; with_reducible apply kept_p1; assumption; unfold l3
  apply publishQp_kept; assumption; unfold l2; split; apply abandonRows_kept; assumption; apply commitRows_kept; assumption; unfold l1
  apply commitCall_kept; assumption

theorem afterwards_kept {q : List Instr} : ∀ x0, Kept q x0 → Kept q (afterwards x0) := by
  intro x0 h0; unfold afterwards; apply updateResting_kept; apply grantQueue_kept; apply serveWaiting_kept; apply serveStreams_kept
  assumption

theorem commitJob_kept {q : List Instr} : ∀ x0 x1, Kept q x0 → Kept q (commitJob x0 x1) := by
  intro x0 x1 h0; unfold commitJob; split; assumption; split; assumption; extract_lets +onlyGivenNames l5
  (have k5 : Kept q l5.1 := ?_; clear_value l5); extract_lets +onlyGivenNames l6; (have k6 : Kept q l6 := ?_; clear_value l6)
  apply afterwards_kept; apply afterEnd_kept; apply endInvocation_kept; assumption; unfold l6; split; apply raise_kept; assumption
  assumption; unfold l5; apply publish_kept; assumption

theorem pruneCommits_kept {q : List Instr} : ∀ x0 x1, Kept q x0 → Kept q (pruneCommits x0 x1) := by
  intro x0 x1 h0; unfold pruneCommits; apply updJob_kept; assumption

theorem keepCommit_kept {q : List Instr} : ∀ x0 x1 x2 x3, Kept q x0 → Kept q (keepCommit x0 x1 x2 x3) := by
  intro x0 x1 x2 x3 h0; unfold keepCommit; split; assumption; extract_lets +onlyGivenNames l3
  (have k3 : Kept q l3.1 := ?_; clear_value l3); extract_lets +onlyGivenNames l4; clear_value l4; extract_lets +onlyGivenNames l5
  clear_value l5; extract_lets +onlyGivenNames l6; (have k6 : Kept q l6 := ?_; clear_value l6); apply reloadFallback_kept; assumption
  unfold l6; apply updJob_kept; assumption; unfold l3; apply sumCounts_kept; assumption

theorem commitShadow_kept {q : List Instr} : ∀ x0 x1, Kept q x0 → Kept q (commitShadow x0 x1) := by
  intro x0 x1 h0; unfold commitShadow; extract_lets +onlyGivenNames l1; (have k1 : Kept q l1 := ?_; clear_value l1)
  apply pruneCommits_kept; apply startShadow_kept; assumption; unfold l1; apply onShadow_kept; assumption; intro _ _; split; assumption
  split; assumption; extract_lets +onlyGivenNames l14; (have k14 : Kept q l14.1 := ?_; clear_value l14); apply keepCommit_kept
  assumption; unfold l14; apply publish_kept; assumption

theorem dropWork_kept {q : List Instr} : ∀ x0 x1 x2, Kept q x0 → Kept q (dropWork x0 x1 x2) := by
  intro x0 x1 x2 h0; unfold dropWork; extract_lets +onlyGivenNames l1; (have k1 : Kept q l1 := ?_; clear_value l1); apply emptyField_kept
  apply abortSpans_kept; assumption; unfold l1; apply stopClusters_kept; assumption

theorem fallbackAfter_kept {q : List Instr} : ∀ x0 x1 x2 x3, Kept q x0 → KeptOpt q (fallbackAfter x0 x1 x2 x3) := by
  intro x0 x1 x2 x3 h0; unfold fallbackAfter; split; exact keptOpt_none; with_reducible apply keptOpt_map_any; intro _
  apply startFallback_kept; assumption

theorem abandon_kept {q : List Instr} : ∀ x0 x1 x2 x3 x4 x5, Kept q x0 → Kept q (abandon x0 x1 x2 x3 x4 x5) := by
  intro x0 x1 x2 x3 x4 x5 h0; unfold abandon; extract_lets +onlyGivenNames l1; (have k1 : Kept q l1 := ?_; clear_value l1)
  extract_lets +onlyGivenNames l2; (have k2 : Kept q l2 := ?_; clear_value l2); extract_lets +onlyGivenNames l3
  (have k3 : Kept q l3 := ?_; clear_value l3); split; assumption; split; apply serveWaiting_kept; refine keptOpt_some (by assumption) ?_
  apply fallbackAfter_kept; assumption; apply afterwards_kept; apply afterEnd_kept; apply endInvocation_kept; apply abandonRows_kept
  assumption; unfold l3; apply updInv_kept; assumption; unfold l2; apply raiseAs_kept; assumption; unfold l1; apply dropWork_kept
  assumption

theorem abandonShadow_kept {q : List Instr} : ∀ x0 x1 x2 x3 x4, Kept q x0 → Kept q (abandonShadow x0 x1 x2 x3 x4) := by
  intro x0 x1 x2 x3 x4 h0; unfold abandonShadow; extract_lets +onlyGivenNames l1; (have k1 : Kept q l1 := ?_; clear_value l1)
  extract_lets +onlyGivenNames l2; (have k2 : Kept q l2 := ?_; clear_value l2); split; assumption; split
  refine keptOpt_some (by assumption) ?_; apply fallbackAfter_kept; assumption; apply keepCommit_kept; apply abandonRows_kept; assumption
  unfold l2; apply updInv_kept; assumption; unfold l1; apply dropWork_kept; assumption

theorem abandonDue_kept {q : List Instr} : ∀ x0 x1, Kept q x0 → Kept q (abandonDue x0 x1) := by
  intro x0 x1 h0; unfold abandonDue; split; assumption; split; apply abandonShadow_kept; assumption; assumption

theorem execMilestoneDue_kept {q : List Instr} : ∀ x0 x1, Kept q x1 → KeptOut q (execMilestoneDue x0 x1) := by
  intro x0 x1 h0; unfold execMilestoneDue; apply kept_next; split; assumption; extract_lets +onlyGivenNames l4
  (have k4 : Kept q l4.2 := ?_; clear_value l4); split; apply abandon_kept; assumption; split; assumption; apply startShadow_kept
  apply onShadow_kept; assumption; intro _ _; apply abandonDue_kept; assumption; unfold l4; split; apply takeInjection_kept; assumption
  with_reducible apply kept_p1; assumption; assumption

theorem execInvocationCommit_kept {q : List Instr} : ∀ x0 x1, Kept q x1 → KeptOut q (execInvocationCommit x0 x1) := by
  intro x0 x1 h0; unfold execInvocationCommit; apply kept_next; split; assumption; split; split; apply abandon_kept; assumption
  apply pruneCommits_kept; apply commitJob_kept; assumption; apply commitShadow_kept; apply onShadow_kept; assumption; intro _ _
  apply abandonDue_kept; assumption; assumption

theorem loadLease_kept {q : List Instr} : ∀ x0 x1, Kept q x0 → Kept q (loadLease x0 x1) := by
  intro x0 x1 h0; unfold loadLease; extract_lets +onlyGivenNames l1; (have k1 : Kept q l1 := ?_; clear_value l1); split
  apply loadImage_kept; assumption; assumption; unfold l1; split; apply loadImage_kept; assumption; assumption

theorem recover_kept {q : List Instr} : ∀ x0 x1, Kept q x0 → Kept q (recover x0 x1) := by
  intro x0 x1 h0; unfold recover; split; assumption; split; assumption; split; apply abandon_kept; assumption; split
  apply afterwards_kept; apply afterEnd_kept; apply endInvocation_kept; apply abandonRows_kept; assumption; apply startRun_kept; assumption

theorem execLeaseLoadComplete_kept {q : List Instr} : ∀ x0 x1, Kept q x1 → KeptOut q (execLeaseLoadComplete x0 x1) := by
  intro x0 x1 h0; unfold execLeaseLoadComplete; apply kept_next; split; assumption; split; extract_lets +onlyGivenNames l5
  (have k5 : Kept q l5 := ?_; clear_value l5); extract_lets +onlyGivenNames l6; (have k6 : Kept q l6 := ?_; clear_value l6)
  extract_lets +onlyGivenNames l7; (have k7 : Kept q l7 := ?_; clear_value l7); apply enforceCap_kept; assumption; unfold l7
  apply serveWaiting_kept; apply recover_kept; assumption; unfold l6; apply updJob_kept; assumption; unfold l5; apply loadLease_kept
  assumption; assumption

theorem landStopped_kept {q : List Instr} : ∀ x0 x1, Kept q x0 → Kept q (landStopped x0 x1) := by
  intro x0 x1 h0; unfold landStopped; split; assumption; split; assumption; extract_lets +onlyGivenNames l5; clear_value l5
  extract_lets +onlyGivenNames l6; (have k6 : Kept q l6 := ?_; clear_value l6); extract_lets +onlyGivenNames l7; clear_value l7
  apply updJob_kept; assumption; unfold l6; apply landAll_kept; assumption

theorem execSwitchSaveWritten_kept {q : List Instr} : ∀ x0 x1, Kept q x1 → KeptOut q (execSwitchSaveWritten x0 x1) := by
  intro x0 x1 h0; unfold execSwitchSaveWritten; apply kept_next; split; assumption; split; assumption; extract_lets +onlyGivenNames l6
  (have k6 : Kept q l6 := ?_; clear_value l6); split; assumption; extract_lets +onlyGivenNames l9
  (have k9 : Kept q l9 := ?_; clear_value l9); extract_lets +onlyGivenNames l10; (have k10 : Kept q l10 := ?_; clear_value l10)
  extract_lets +onlyGivenNames l11; (have k11 : Kept q l11 := ?_; clear_value l11); apply afterwards_kept; apply enforceCap_kept
  assumption; unfold l11; apply freeClusters_kept; assumption; unfold l10; apply State_setJob_kept; assumption; unfold l9; split
  extract_lets +onlyGivenNames l23; (have k23 : Kept q l23.2 := ?_; clear_value l23); apply objWriteBytes_kept; assumption; unfold l23
  apply State_freeBytes_kept; assumption; assumption; unfold l6; apply landStopped_kept; assumption

theorem restore_kept {q : List Instr} : ∀ x0 x1 x2, Kept q x0 → Kept q (restore x0 x1 x2) := by
  intro x0 x1 x2 h0; unfold restore; extract_lets +onlyGivenNames l1; (have k1 : Kept q l1 := ?_; clear_value l1)
  extract_lets +onlyGivenNames l2; (have k2 : Kept q l2 := ?_; clear_value l2); extract_lets +onlyGivenNames l3
  (have k3 : Kept q l3 := ?_; clear_value l3); apply forEach_kept; intro _ _ _; apply progress_kept; apply forEach_kept; intro _ _ _
  apply matchSend_kept; assumption; assumption; assumption; unfold l3; apply forEach_kept; intro _ _ _; split
  extract_lets +onlyGivenNames l23; clear_value l23; apply State_setCluster_kept; assumption; assumption; assumption; unfold l2
  apply forEach_kept; intro _ _ _; split; apply State_setTile_kept; assumption; assumption; assumption; unfold l1; apply forEach_kept
  intro _ _ _; split; apply scratchWrite_kept; assumption; assumption; assumption

theorem execSwitchReloadComplete_kept {q : List Instr} : ∀ x0 x1, Kept q x1 → KeptOut q (execSwitchReloadComplete x0 x1) := by
  intro x0 x1 h0; unfold execSwitchReloadComplete; apply kept_next; split; assumption; split; assumption
  extract_lets +onlyGivenNames l6; clear_value l6; extract_lets +onlyGivenNames l7; (have k7 : Kept q l7 := ?_; clear_value l7)
  extract_lets +onlyGivenNames l8; (have k8 : Kept q l8 := ?_; clear_value l8); extract_lets +onlyGivenNames l9; clear_value l9
  extract_lets +onlyGivenNames l10; (have k10 : Kept q l10 := ?_; clear_value l10); extract_lets +onlyGivenNames l11
  (have k11 : Kept q l11 := ?_; clear_value l11); apply enforceCap_kept; assumption; unfold l11; apply serveWaiting_kept; split
  apply recover_kept; assumption; assumption; unfold l10; apply updJob_kept; assumption; unfold l8; apply restore_kept; assumption
  unfold l7; apply loadLease_kept; assumption

theorem makeTwins_kept {q : List Instr} : ∀ x0 x1 x2, Kept q x0 → Kept q (makeTwins x0 x1 x2) := by
  intro x0 x1 x2 h0; unfold makeTwins; apply forEach_kept; intro _ _ _; split; assumption; split; assumption
  extract_lets +onlyGivenNames l9; clear_value l9; apply firmwareWrite_kept; apply objTouch_kept; apply State_setObj_kept; assumption
  assumption

theorem execShadowEstablish_kept {q : List Instr} : ∀ x0 x1, Kept q x1 → KeptOut q (execShadowEstablish x0 x1) := by
  intro x0 x1 h0; unfold execShadowEstablish; apply kept_next; split; assumption; split; assumption; extract_lets +onlyGivenNames l6
  clear_value l6; extract_lets +onlyGivenNames l7; clear_value l7; extract_lets +onlyGivenNames l8; clear_value l8; split; assumption
  extract_lets +onlyGivenNames l11; (have k11 : Kept q l11 := ?_; clear_value l11); extract_lets +onlyGivenNames l12
  (have k12 : Kept q l12 := ?_; clear_value l12); extract_lets +onlyGivenNames l13; (have k13 : Kept q l13 := ?_; clear_value l13)
  extract_lets +onlyGivenNames l14; (have k14 : Kept q l14 := ?_; clear_value l14); extract_lets +onlyGivenNames l15
  (have k15 : Kept q l15 := ?_; clear_value l15); extract_lets +onlyGivenNames l16; clear_value l16; apply noteCap_kept; apply updJob_kept
  assumption; unfold l15; split; apply loadImage_kept; assumption; assumption; unfold l14; split; apply loadImage_kept; assumption
  assumption; unfold l13; apply makeTwins_kept; assumption; unfold l12; apply forEach_kept; intro _ _ _; apply powerOnCluster_kept
  assumption; assumption; unfold l11; apply forEach_kept; intro _ _ _; apply powerOnCluster_kept; assumption; assumption

theorem copyFrame_kept {q : List Instr} : ∀ x0 x1 x2 x3 x4 x5, Kept q x0 → Kept q (copyFrame x0 x1 x2 x3 x4 x5) := by
  intro x0 x1 x2 x3 x4 x5 h0; unfold copyFrame; split; apply objWriteBytes_kept; apply objTouch_kept; assumption; assumption

theorem setEntry_kept {q : List Instr} : ∀ x0 x1 x2, Kept q x0 → Kept q (setEntry x0 x1 x2) := by
  intro x0 x1 x2 h0; unfold setEntry; apply kept_mk2; apply kept_mem (q := q); assumption; apply kept_host (q := q); assumption
  apply kept_pending; assumption

theorem resumeRecalls_kept {q : List Instr} : ∀ x0, Kept q x0 → Kept q (resumeRecalls x0) := by
  intro x0 h0; unfold resumeRecalls; apply forEach_kept; intro _ _ _; split; split; apply forEach_kept; intro _ _ _; apply recallFor_kept
  assumption; assumption; assumption; assumption; assumption

theorem execSpillWritten_kept {q : List Instr} : ∀ x0 x1, Kept q x1 → KeptOut q (execSpillWritten x0 x1) := by
  intro x0 x1 h0; unfold execSpillWritten; apply kept_next; split; assumption; split; extract_lets +onlyGivenNames l5
  (have k5 : Kept q l5 := ?_; clear_value l5); apply resumeRecalls_kept; apply setEntry_kept; assumption; unfold l5; apply copyFrame_kept
  assumption; assumption

theorem recallFails_kept {q : List Instr} : ∀ x0 x1 x2, Kept q x0 → Kept q (recallFails x0 x1 x2) := by
  intro x0 x1 x2 h0; unfold recallFails; extract_lets +onlyGivenNames l1; clear_value l1; extract_lets +onlyGivenNames l2
  (have k2 : Kept q l2 := ?_; clear_value l2); extract_lets +onlyGivenNames l3; clear_value l3; apply forEach_kept; intro _ _ _
  extract_lets +onlyGivenNames l8; (have k8 : Kept q l8.2 := ?_; clear_value l8); apply faultRole_kept; apply raise_kept; assumption
  unfold l8; apply State_fresh_kept; assumption; assumption; unfold l2; apply setEntry_kept; assumption

theorem execPageRecallWritten_kept {q : List Instr} : ∀ x0 x1, Kept q x1 → KeptOut q (execPageRecallWritten x0 x1) := by
  intro x0 x1 h0; unfold execPageRecallWritten; apply kept_next; split; assumption; split; assumption; split
  extract_lets +onlyGivenNames l7; clear_value l7; extract_lets +onlyGivenNames l8; (have k8 : Kept q l8 := ?_; clear_value l8)
  extract_lets +onlyGivenNames l9; (have k9 : Kept q l9 := ?_; clear_value l9); apply forEach_kept; intro _ _ _; apply countKv_kept
  assumption; assumption; unfold l9; apply setEntry_kept; assumption; unfold l8; apply copyFrame_kept; assumption; apply recallFails_kept
  assumption

theorem execKvPrefixPin_kept {q : List Instr} : ∀ x0 x1 x2 x3 x4 x5, Kept q x5 → KeptOut q (execKvPrefixPin x0 x1 x2 x3 x4 x5) := by
  intro x0 x1 x2 x3 x4 x5 h0; unfold execKvPrefixPin; apply command_kept; assumption; intro _ _; split; apply complete_kept; assumption
  split; apply complete_kept; assumption; split; split; apply await_kept; assumption; apply complete_kept; apply pinApply_kept; assumption
  apply complete_kept; assumption

theorem execKvRelease_kept {q : List Instr} : ∀ x0 x1 x2 x3 x4, Kept q x4 → KeptOut q (execKvRelease x0 x1 x2 x3 x4) := by
  intro x0 x1 x2 x3 x4 h0; unfold execKvRelease; apply command_kept; assumption; intro _ _; split; split; apply complete_kept; assumption
  split; apply complete_kept; assumption; split; apply await_kept; assumption; apply complete_kept; apply releaseSequence_kept; assumption
  split; split; apply complete_kept; assumption; split; apply complete_kept; assumption; apply complete_kept; apply releasePrefix_kept
  assumption; apply complete_kept; assumption

theorem execSwapOutWritten_kept {q : List Instr} : ∀ x0 x1 x2, Kept q x2 → KeptOut q (execSwapOutWritten x0 x1 x2) := by
  intro x0 x1 x2 h0; unfold execSwapOutWritten; apply kept_next; split; assumption; apply servePart_kept; apply endPark_kept; assumption

theorem execSwapInWritten_kept {q : List Instr} : ∀ x0 x1 x2, Kept q x2 → KeptOut q (execSwapInWritten x0 x1 x2) := by
  intro x0 x1 x2 h0; unfold execSwapInWritten; apply kept_next; split; assumption; extract_lets +onlyGivenNames l4
  (have k4 : Kept q l4.2 := ?_; clear_value l4); split; assumption; extract_lets +onlyGivenNames l7
  (have k7 : Kept q l7 := ?_; clear_value l7); apply servePart_kept; apply refreshCtl_kept; apply updStream_kept; assumption; unfold l7
  apply readPark_kept; assumption; unfold l4; apply takeInjection_kept; assumption

theorem updSecond_kept {q : List Instr} : ∀ x0 x1 x2 x3, Kept q x0 → Kept q (updSecond x0 x1 x2 x3) := by
  intro x0 x1 x2 x3 h0; unfold updSecond; apply updJob_kept; assumption

theorem streamCommand_kept {q : List Instr} : ∀ x0 x1 x2 x3 x4 x5 x6 x7, Kept q x6 → (∀ y100, Kept q y100 → (∀ y101, (∀ y102, Kept q (((x7 y100) y101) y102)))) → KeptOut q (streamCommand x0 x1 x2 x3 x4 x5 x6 x7) := by
  intro x0 x1 x2 x3 x4 x5 x6 x7 h0 h1; unfold streamCommand; apply command_kept; assumption; intro _ _; split; apply complete_kept
  assumption; split; apply complete_kept; assumption; split; apply complete_kept; assumption; apply withBuf_kept; assumption; intro _ _ _
  apply h1; assumption

theorem eachStream_kept {q : List Instr} : ∀ x0 x1 x2 x3 x4 x5, Kept q x0 → (∀ y100, Kept q y100 → (∀ y101, Kept q (((x5 y100) y101)).1)) → Kept q (eachStream x0 x1 x2 x3 x4 x5) := by
  intro x0 x1 x2 x3 x4 x5 h0 h1; unfold eachStream; extract_lets +onlyGivenNames l1; (have k1 : Kept q l1.1 := ?_; clear_value l1)
  apply serveStreams_kept; apply complete_kept; assumption; unfold l1; apply kept_foldl_fst; intro _ _ _; extract_lets +onlyGivenNames l10
  (have k10 : Kept q l10.1 := ?_; clear_value l10); with_reducible apply kept_p1; assumption; unfold l10; apply h1; assumption
  with_reducible apply kept_p1; assumption

theorem secondRoom_kept {q : List Instr} : ∀ x0 x1, Kept q x0 → KeptOpt q (secondRoom x0 x1) := by
  intro x0 x1 h0; unfold secondRoom; split; split; exact keptOpt_none; split; with_reducible apply keptOpt_mk; assumption
  apply freeAtOnce_kept; assumption; with_reducible apply keptOpt_mk; assumption

theorem openStream_kept {q : List Instr} : ∀ x0 x1 x2, Kept q x0 → Kept q (openStream x0 x1 x2).1 := by
  intro x0 x1 x2 h0
  unfold openStream
  split
  · exact h0
  · split
    · dsimp only
      split
      · exact h0
      · split
        · exact h0
        · split
          · exact h0
          · split
            · exact h0
            · rename_i s k e
              have hs := keptOpt1_bind (fun s h => slotAtOnce_kept s _ _ _ h) (secondRoom_kept x0 _ h0) _ e
              exact updJob_kept _ _ _ (kept_mk2 (kept_mem hs) (kept_host hs) (kept_pending hs))
    · exact h0

theorem execStreamOpen_kept {q : List Instr} : ∀ x0 x1 x2 x3 x4 x5, Kept q x5 → KeptOut q (execStreamOpen x0 x1 x2 x3 x4 x5) := by
  intro x0 x1 x2 x3 x4 x5 h0; unfold execStreamOpen; apply streamCommand_kept; assumption; intro _ _ _ _; apply eachStream_kept
  assumption; intro _ _ _; apply openStream_kept; assumption

theorem keepPending_kept {q : List Instr} : ∀ x0 x1 x2, Kept q x0 → Kept q (keepPending x0 x1 x2) := by
  intro x0 x1 x2 h0; unfold keepPending; extract_lets +onlyGivenNames l1; clear_value l1; apply updJob_kept; assumption

theorem resetStream_kept {q : List Instr} : ∀ x0 x1 x2 x3, Kept q x0 → Kept q (resetStream x0 x1 x2 x3).1 := by
  intro x0 x1 x2 x3 h0; unfold resetStream; split; with_reducible apply kept_p1; assumption; split; with_reducible apply kept_p1
  assumption; extract_lets +onlyGivenNames l7; (have k7 : ∀ v0, Kept q v0 → Kept q (l7 v0) := ?_; clear_value l7); split; apply k7
  assumption; split; with_reducible apply kept_p1; assumption; split; split; with_reducible apply kept_p1; assumption
  extract_lets +onlyGivenNames l18; (have k18 : Kept q l18 := ?_; clear_value l18); apply k7; apply updStream_kept; assumption
  unfold l18; apply stateMove_kept; apply countStream_kept; apply writeInitial_kept; refine keptOpt1_pair (by assumption) ?_
  apply slotAtOnce_kept; assumption; with_reducible apply kept_p1; assumption; intro _ _; unfold l7; apply updSecond_kept
  apply updStream_kept; apply keepPending_kept; assumption

theorem execStreamResetRows_kept {q : List Instr} : ∀ x0 x1 x2 x3 x4 x5, Kept q x5 → KeptOut q (execStreamResetRows x0 x1 x2 x3 x4 x5) := by
  intro x0 x1 x2 x3 x4 x5 h0; unfold execStreamResetRows; apply streamCommand_kept; assumption; intro _ _ _ _; apply eachStream_kept
  assumption; intro _ _ _; apply resetStream_kept; assumption

theorem parkStream_kept {q : List Instr} : ∀ x0 x1 x2 x3, Kept q x0 → Kept q (parkStream x0 x1 x2 x3) := by
  intro x0 x1 x2 x3 h0; unfold parkStream; split; assumption; split; assumption; split; apply updStream_kept; assumption
  apply startPark_kept; assumption

theorem execStreamPark_kept {q : List Instr} : ∀ x0 x1 x2 x3 x4 x5, Kept q x5 → KeptOut q (execStreamPark x0 x1 x2 x3 x4 x5) := by
  intro x0 x1 x2 x3 x4 x5 h0; unfold execStreamPark; apply streamCommand_kept; assumption; intro _ _ _ _
  extract_lets +onlyGivenNames l7; clear_value l7; extract_lets +onlyGivenNames l8; clear_value l8; extract_lets +onlyGivenNames l9
  (have k9 : Kept q l9 := ?_; clear_value l9); split; apply serveStreams_kept; apply await_kept; assumption; apply serveStreams_kept
  apply complete_kept; assumption; unfold l9; apply forEach_kept; intro _ _ _; apply parkStream_kept; assumption; assumption

theorem closeStream_kept {q : List Instr} : ∀ x0 x1 x2 x3, Kept q x0 → Kept q (closeStream x0 x1 x2 x3).1 := by
  intro x0 x1 x2 x3 h0; unfold closeStream; split; with_reducible apply kept_p1; assumption; split; with_reducible apply kept_p1
  assumption; split; with_reducible apply kept_p1; assumption; extract_lets +onlyGivenNames l10; clear_value l10
  extract_lets +onlyGivenNames l11; (have k11 : Kept q l11 := ?_; clear_value l11); with_reducible apply kept_p1; apply updJob_kept
  assumption; unfold l11; apply State_setPart_kept; assumption

theorem execStreamClose_kept {q : List Instr} : ∀ x0 x1 x2 x3 x4 x5, Kept q x5 → KeptOut q (execStreamClose x0 x1 x2 x3 x4 x5) := by
  intro x0 x1 x2 x3 x4 x5 h0; unfold execStreamClose; apply streamCommand_kept; assumption; intro _ _ _ _; apply eachStream_kept
  assumption; intro _ _ _; apply closeStream_kept; assumption

theorem ringPut_kept {q : List Instr} : ∀ x0 x1 x2 x3, Kept q x0 → Kept q (ringPut x0 x1 x2 x3) := by
  intro x0 x1 x2 x3 h0; unfold ringPut; extract_lets +onlyGivenNames l1; clear_value l1; extract_lets +onlyGivenNames l2
  (have k2 : Kept q l2 := ?_; clear_value l2); apply objSetWord_kept; assumption; unfold l2; apply objWriteBytes_kept; assumption

theorem ringDrop_kept {q : List Instr} : ∀ x0 x1, Kept q x0 → Kept q (ringDrop x0 x1) := by
  intro x0 x1 h0; unfold ringDrop; apply objSetWord_kept; assumption

theorem portIngress_kept {q : List Instr} : ∀ x0 x1 x2, Kept q x0 → Kept q (portIngress x0 x1 x2).1 := by
  intro x0 x1 x2 h0; unfold portIngress; split; with_reducible apply kept_p1; assumption; split; with_reducible apply kept_p1; assumption
  split; with_reducible apply kept_p1; apply ringDrop_kept; assumption; with_reducible apply kept_p1; apply ringPut_kept; assumption

theorem ingress_kept {q : List Instr} : ∀ x0 x1 x2, Kept q x0 → Kept q (ingress x0 x1 x2) := by
  intro x0 x1 x2 h0; unfold ingress; split; extract_lets +onlyGivenNames l2; (have k2 : Kept q l2.1 := ?_; clear_value l2); split
  apply arriveEgo_kept; assumption; assumption; unfold l2; apply portIngress_kept; assumption; split; split; assumption; apply arrive_kept
  apply ringPut_kept; assumption; assumption

theorem execIngressWrite_kept {q : List Instr} : ∀ x0 x1 x2, Kept q x2 → KeptOut q (execIngressWrite x0 x1 x2) := by
  intro x0 x1 x2 h0; unfold execIngressWrite; apply kept_next; apply ingress_kept; assumption

theorem cutEpoch_kept {q : List Instr} : ∀ x0 x1, Kept q x0 → Kept q (cutEpoch x0 x1) := by
  intro x0 x1 h0; unfold cutEpoch; split; assumption; split; extract_lets +onlyGivenNames l4
  (have k4 : Kept q l4 := ?_; clear_value l4); apply startJob_kept; apply freezeEpoch_kept; assumption; unfold l4; split
  apply skipStart_kept; assumption; assumption; assumption

theorem execEpochCutoff_kept {q : List Instr} : ∀ x0 x1, Kept q x1 → KeptOut q (execEpochCutoff x0 x1) := by
  intro x0 x1 h0; unfold execEpochCutoff; apply kept_next; split; assumption; split; split; assumption; split; apply State_setJob_kept
  assumption; apply cutEpoch_kept; assumption; assumption

theorem endTick_kept {q : List Instr} : ∀ x0, Kept q x0 → Kept q (endTick x0) := by
  intro x0 h0; unfold endTick; apply forEach_kept; intro _ _ _; apply cutEpoch_kept; assumption; assumption

end Sys2Proof.Machine
end

