-- ==== Sys2Proof/Laws/KeptMailbox.lean ====
section
/-! SUPPORT. What keeps both memories in canonical form and leaves the queue of commands alone: the mailbox commands and the host window. -/

open Sys2Proof

namespace Sys2Proof.Machine

theorem signatureFail_kept {q : List Instr} : ∀ x0 x1 x2 x3, Kept q x0 → Kept q (signatureFail x0 x1 x2 x3) := by
  intro x0 x1 x2 x3 h0; unfold signatureFail; apply raiseAs_kept; assumption

theorem checkSigned_kept {q : List Instr} : ∀ x0 x1 x2 x3, Kept q x0 → Kept q (checkSigned x0 x1 x2 x3).1 := by
  intro x0 x1 x2 x3 h0; unfold checkSigned; extract_lets +onlyGivenNames l1; (have k1 : Kept q l1.2 := ?_; clear_value l1); split
  with_reducible apply kept_p1; assumption; with_reducible apply kept_p1; apply signatureFail_kept; assumption; unfold l1
  apply takeInjection_kept; assumption

theorem withObj_kept {q : List Instr} : ∀ x0 x1 x2 x3 x4 x5 x6, Kept q x0 → (∀ y100, Kept q (x6 y100)) → Kept q (withObj x0 x1 x2 x3 x4 x5 x6) := by
  intro x0 x1 x2 x3 x4 x5 x6 h0 h1; unfold withObj; split; apply complete_kept; assumption; split; apply h1; apply complete_kept
  assumption

theorem execObjCreate_kept {q : List Instr} : ∀ x0 x1 x2 x3 x4, Kept q x4 → KeptOut q (execObjCreate x0 x1 x2 x3 x4) := by
  intro x0 x1 x2 x3 x4 h0; unfold execObjCreate; apply command_kept; assumption; intro _ _; split; apply complete_kept; assumption; split
  apply complete_kept; assumption; extract_lets +onlyGivenNames l11; clear_value l11; apply complete_kept; apply State_setObj_kept
  apply State_fresh_kept; assumption

theorem releaseRes_kept {q : List Instr} : ∀ x0 x1, Kept q x0 → Kept q (releaseRes x0 x1) := by
  intro x0 x1 h0; unfold releaseRes; split; assumption; extract_lets +onlyGivenNames l3; clear_value l3
  extract_lets +onlyGivenNames l4; (have k4 : Kept q l4 := ?_; clear_value l4); split; apply kept_mk2; apply kept_mem (q := q); assumption
  apply kept_host (q := q); assumption; apply kept_pending; assumption; extract_lets +onlyGivenNames l13; clear_value l13
  apply sendMgmt_kept; apply kept_mk2; apply kept_mem (q := q); assumption; apply kept_host (q := q); assumption; apply kept_pending
  assumption; unfold l4; apply kept_mk2; apply kept_mem (q := q); assumption; apply kept_host (q := q); assumption; apply kept_pending
  assumption

theorem movePlace_kept {q : List Instr} : ∀ x0 x1 x2 x3, Kept q x0 → Kept q (movePlace x0 x1 x2 x3).1 := by
  intro x0 x1 x2 x3 h0; unfold movePlace; split; split; with_reducible apply kept_p1; apply releaseRes_kept; apply State_setObj_kept
  apply placeZero_kept; assumption; split; with_reducible apply kept_p1; refine kept_fst (by assumption) ?_; apply firmwareRead_kept
  assumption; extract_lets +onlyGivenNames l13; (have k13 : Kept q l13 := ?_; clear_value l13); with_reducible apply kept_p1
  apply releaseRes_kept; apply State_setObj_kept; assumption; unfold l13; apply firmwareWrite_kept; apply placeZero_kept
  refine kept_fst (by assumption) ?_; apply firmwareRead_kept; assumption; with_reducible apply kept_p1; apply State_setObj_kept
  apply placeZero_kept; assumption

theorem placeLocal_kept {q : List Instr} : ∀ x0 x1 x2 x3 x4 x5 x6 x7, Kept q x0 → Kept q (placeLocal x0 x1 x2 x3 x4 x5 x6 x7) := by
  intro x0 x1 x2 x3 x4 x5 x6 x7 h0; unfold placeLocal; extract_lets +onlyGivenNames l1; clear_value l1; split; apply complete_kept
  assumption; extract_lets +onlyGivenNames l5; split; apply complete_kept; assumption; split; apply complete_kept; assumption
  extract_lets +onlyGivenNames l12; clear_value l12; split; apply complete_kept; assumption; extract_lets +onlyGivenNames l16
  clear_value l16; split; apply complete_kept; refine kept_fst (by assumption) ?_; apply movePlace_kept; apply State_fresh_kept; assumption
  apply complete_kept; refine kept_fst (by assumption) ?_; apply movePlace_kept; apply State_fresh_kept; assumption

theorem grantRange_kept {q : List Instr} : ∀ x0 x1 x2 x3 x4 x5 x6, Kept q x0 → Kept q (grantRange x0 x1 x2 x3 x4 x5 x6).1 := by
  intro x0 x1 x2 x3 x4 x5 x6 h0; unfold grantRange; extract_lets +onlyGivenNames l1; clear_value l1; extract_lets +onlyGivenNames l2
  clear_value l2; extract_lets +onlyGivenNames l3; (have k3 : Kept q l3 := ?_; clear_value l3); with_reducible apply kept_p1
  apply kept_mk2; apply kept_mem (q := q); assumption; apply kept_host (q := q); assumption; apply kept_pending; assumption; unfold l3
  apply placeZero_kept; assumption

theorem placeGranted_kept {q : List Instr} : ∀ x0 x1 x2 x3 x4 x5 x6, Kept q x0 → Kept q (placeGranted x0 x1 x2 x3 x4 x5 x6) := by
  intro x0 x1 x2 x3 x4 x5 x6 h0; unfold placeGranted; split; apply complete_kept; assumption; extract_lets +onlyGivenNames l4
  clear_value l4; extract_lets +onlyGivenNames l5; clear_value l5; extract_lets +onlyGivenNames l6; clear_value l6
  extract_lets +onlyGivenNames l7; clear_value l7; extract_lets +onlyGivenNames l8; (have k8 : Kept q l8 := ?_; clear_value l8); split
  apply complete_kept; refine kept_fst (by assumption) ?_; apply movePlace_kept; assumption; apply complete_kept; apply releaseRes_kept
  refine kept_fst (by assumption) ?_; apply movePlace_kept; assumption; unfold l8; apply kept_mk2; apply kept_mem (q := q); assumption
  apply kept_host (q := q); assumption; apply kept_pending; assumption

theorem placePeer_kept {q : List Instr} : ∀ x0 x1 x2 x3 x4 x5 x6 x7, Kept q x0 → Kept q (placePeer x0 x1 x2 x3 x4 x5 x6 x7) := by
  intro x0 x1 x2 x3 x4 x5 x6 x7 h0; unfold placePeer; split; apply complete_kept; assumption; split; extract_lets +onlyGivenNames l5
  clear_value l5; split; apply complete_kept; assumption; extract_lets +onlyGivenNames l9; (have k9 : Kept q l9.1 := ?_; clear_value l9)
  apply placeGranted_kept; assumption; unfold l9; apply grantRange_kept; apply State_fresh_kept; assumption
  extract_lets +onlyGivenNames l16; clear_value l16; extract_lets +onlyGivenNames l17; clear_value l17
  extract_lets +onlyGivenNames l18; clear_value l18; extract_lets +onlyGivenNames l19; (have k19 : Kept q l19 := ?_; clear_value l19)
  extract_lets +onlyGivenNames l20; clear_value l20; apply await_kept; apply sendMgmt_kept; assumption; unfold l19; apply kept_mk2
  apply kept_mem (q := q); assumption; apply kept_host (q := q); assumption; apply kept_pending; assumption

theorem execObjPlace_kept {q : List Instr} : ∀ x0 x1 x2 x3 x4 x5 x6 x7, Kept q x7 → KeptOut q (execObjPlace x0 x1 x2 x3 x4 x5 x6 x7) := by
  intro x0 x1 x2 x3 x4 x5 x6 x7 h0; unfold execObjPlace; apply command_kept; assumption; intro _ _; apply withObj_kept; assumption
  intro _; split; apply complete_kept; assumption; split; apply complete_kept; assumption; split; apply complete_kept; assumption; split
  apply complete_kept; assumption; split; apply complete_kept; assumption; split; apply complete_kept; assumption; split
  apply placePeer_kept; assumption; apply placeLocal_kept; assumption

theorem storeObj_kept {q : List Instr} : ∀ x0 x1 x2 x3 x4, Kept q x0 → Kept q (storeObj x0 x1 x2 x3 x4).1 := by
  intro x0 x1 x2 x3 x4 h0; unfold storeObj; split; with_reducible apply kept_p1; assumption; extract_lets +onlyGivenNames l4
  (have k4 : Kept q l4.1 := ?_; clear_value l4); split; assumption; extract_lets +onlyGivenNames l7
  (have k7 : Kept q l7.1 := ?_; clear_value l7); split; with_reducible apply kept_p1; apply State_setObj_kept; assumption; assumption
  unfold l7; split; apply firmwareWrite_kept; assumption; assumption; unfold l4; apply firmwareWrite_kept; assumption

theorem execObjWrite_kept {q : List Instr} : ∀ x0 x1 x2 x3 x4 x5, Kept q x5 → KeptOut q (execObjWrite x0 x1 x2 x3 x4 x5) := by
  intro x0 x1 x2 x3 x4 x5 h0; unfold execObjWrite; apply command_kept; assumption; intro _ _; apply withObj_kept; assumption; intro _
  split; apply complete_kept; assumption; split; apply complete_kept; assumption; apply withBuf_kept; assumption; intro _ _ _; split
  apply complete_kept; assumption; apply complete_kept; assumption; apply complete_kept; assumption; split; apply complete_kept
  refine kept_fst (by assumption) ?_; apply storeObj_kept; assumption; apply complete_kept; apply arrive_kept
  refine kept_fst (by assumption) ?_; apply storeObj_kept; assumption

theorem execObjRead_kept {q : List Instr} : ∀ x0 x1 x2 x3 x4 x5, Kept q x5 → KeptOut q (execObjRead x0 x1 x2 x3 x4 x5) := by
  intro x0 x1 x2 x3 x4 x5 h0; unfold execObjRead; apply command_kept; assumption; intro _ _; apply withObj_kept; assumption; intro _
  split; apply complete_kept; assumption; split; apply complete_kept; assumption; split; apply complete_kept; assumption; split
  apply complete_kept; refine kept_fst (by assumption) ?_; apply firmwareRead_kept; assumption; apply replyBuf_kept
  refine kept_fst (by assumption) ?_; apply firmwareRead_kept; assumption; intro _ _; apply complete_kept; assumption

theorem execObjFree_kept {q : List Instr} : ∀ x0 x1 x2 x3, Kept q x3 → KeptOut q (execObjFree x0 x1 x2 x3) := by
  intro x0 x1 x2 x3 h0; unfold execObjFree; apply command_kept; assumption; intro _ _; apply withObj_kept; assumption; intro _; split
  apply complete_kept; assumption; split; apply complete_kept; assumption; extract_lets +onlyGivenNames l14; clear_value l14
  extract_lets +onlyGivenNames l15; (have k15 : Kept q l15 := ?_; clear_value l15); extract_lets +onlyGivenNames l16
  (have k16 : Kept q l16 := ?_; clear_value l16); apply complete_kept; assumption; unfold l16; split; apply releaseRes_kept; assumption
  assumption; unfold l15; apply kept_mk2; apply kept_mem (q := q); assumption; apply kept_host (q := q); assumption; apply kept_pending
  assumption

theorem execObjDelta_kept {q : List Instr} : ∀ x0 x1 x2 x3 x4, Kept q x4 → KeptOut q (execObjDelta x0 x1 x2 x3 x4) := by
  intro x0 x1 x2 x3 x4 h0; unfold execObjDelta; apply command_kept; assumption; intro _ _; apply withObj_kept; assumption; intro _; split
  apply complete_kept; assumption; apply withBuf_kept; assumption; intro _ _ _; extract_lets +onlyGivenNames l16; clear_value l16; split
  apply complete_kept; assumption; apply withBuf_kept; assumption; intro _ _ _; extract_lets +onlyGivenNames l25; clear_value l25; split
  apply complete_kept; assumption; split; apply await_kept; assumption; apply complete_kept; apply applyDelta_kept; assumption

theorem sealObj_kept {q : List Instr} : ∀ x0 x1 x2, Kept q x0 → Kept q (sealObj x0 x1 x2) := by
  intro x0 x1 x2 h0; unfold sealObj; split; apply State_setObj_kept; assumption; assumption

theorem admitImage_kept {q : List Instr} : ∀ x0 x1 x2 x3 x4, Kept q x0 → Kept q (admitImage x0 x1 x2 x3 x4) := by
  intro x0 x1 x2 x3 x4 h0; unfold admitImage; extract_lets +onlyGivenNames l1; clear_value l1; split; apply complete_kept; assumption
  split; apply complete_kept; assumption; split; apply complete_kept; assumption; extract_lets +onlyGivenNames l11; clear_value l11
  extract_lets +onlyGivenNames l12; (have k12 : Kept q l12 := ?_; clear_value l12); apply complete_kept; assumption; unfold l12
  apply sealObj_kept; apply kept_mk2; apply kept_mem (q := q); assumption; apply kept_host (q := q); assumption; apply kept_pending; assumption

theorem execImageLoad_kept {q : List Instr} : ∀ x0 x1 x2 x3, Kept q x3 → KeptOut q (execImageLoad x0 x1 x2 x3) := by
  intro x0 x1 x2 x3 h0; unfold execImageLoad; apply command_kept; assumption; intro _ _; apply withObj_kept; assumption; intro _; split
  apply complete_kept; assumption; split; apply complete_kept; assumption; extract_lets +onlyGivenNames l14; clear_value l14
  extract_lets +onlyGivenNames l15; (have k15 : Kept q l15.1 := ?_; clear_value l15); split; apply admitImage_kept; assumption
  apply complete_kept; assumption; unfold l15; apply checkSigned_kept; apply objTouch_kept; assumption

theorem execImageUnload_kept {q : List Instr} : ∀ x0 x1 x2 x3, Kept q x3 → KeptOut q (execImageUnload x0 x1 x2 x3) := by
  intro x0 x1 x2 x3 h0; unfold execImageUnload; apply command_kept; assumption; intro _ _; split; apply complete_kept; assumption; split
  apply complete_kept; assumption; split; apply complete_kept; assumption; apply complete_kept; apply sealObj_kept; apply kept_mk2
  apply kept_mem (q := q); assumption; apply kept_host (q := q); assumption; apply kept_pending; assumption

theorem commitPatina_kept {q : List Instr} : ∀ x0 x1, Kept q x0 → Kept q (commitPatina x0 x1) := by
  intro x0 x1 h0; unfold commitPatina; extract_lets +onlyGivenNames l1; (have k1 : Kept q l1 := ?_; clear_value l1)
  extract_lets +onlyGivenNames l2; clear_value l2; extract_lets +onlyGivenNames l3; clear_value l3; extract_lets +onlyGivenNames l4
  clear_value l4; extract_lets +onlyGivenNames l5; clear_value l5; apply kept_mk2; apply kept_mem (q := q); assumption
  apply kept_host (q := q); assumption; apply kept_pending; assumption; unfold l1; apply fold_kept; assumption

theorem drainLog_kept {q : List Instr} : ∀ x0, Kept q x0 → Kept q (drainLog x0) := by
  intro x0 h0; unfold drainLog; extract_lets +onlyGivenNames l1; clear_value l1; apply kept_mk2; apply kept_mem (q := q); assumption
  apply kept_host (q := q); assumption; apply kept_pending; assumption

theorem changePower_kept {q : List Instr} : ∀ x0 x1, Kept q x0 → Kept q (changePower x0 x1) := by
  intro x0 x1 h0; unfold changePower; extract_lets +onlyGivenNames l1; (have k1 : Kept q l1 := ?_; clear_value l1); apply kept_mk2
  apply kept_mem (q := q); assumption; apply kept_host (q := q); assumption; apply kept_pending; assumption; unfold l1; apply logRecord_kept
  apply commitPatina_kept; assumption

theorem countErase_kept {q : List Instr} : ∀ x0 x1 x2, Kept q x0 → Kept q (countErase x0 x1 x2) := by
  intro x0 x1 x2 h0; unfold countErase; apply patCount_kept; assumption

theorem makeSave_kept {q : List Instr} : ∀ x0 x1 x2, Kept q x0 → KeptOpt1 q (makeSave x0 x1 x2) := by
  intro x0 x1 x2 h0; unfold makeSave; split; exact keptOpt1_none; with_reducible apply keptOpt1_map_any; intro _
  extract_lets +onlyGivenNames l5; clear_value l5; extract_lets +onlyGivenNames l6; clear_value l6; with_reducible apply kept_p1
  apply placeZero_kept; apply State_setObj_kept; apply State_fresh_kept; assumption

theorem clearPools_kept {q : List Instr} : ∀ x0 x1 x2, Kept q x0 → Kept q (clearPools x0 x1 x2) := by
  intro x0 x1 x2 h0; unfold clearPools; split; assumption; apply forEach_kept; intro _ _ _; split; assumption; split
  apply objWriteBytes_kept; apply kept_mk2; apply kept_mem (q := q); assumption; apply kept_host (q := q); assumption; apply kept_pending
  assumption; assumption; assumption

theorem enterJob_kept {q : List Instr} : ∀ x0 x1 x2, Kept q x0 → Kept q (enterJob x0 x1 x2).1 := by
  intro x0 x1 x2 h0; unfold enterJob; extract_lets +onlyGivenNames l1; clear_value l1; with_reducible apply kept_p1
  extract_lets +onlyGivenNames l3; (have k3 : Kept q l3 := ?_; clear_value l3); apply kept_mk2; apply kept_mem (q := q); assumption
  apply kept_host (q := q); assumption; apply kept_pending; assumption; unfold l3; apply clearPools_kept; assumption

theorem accept_kept {q : List Instr} : ∀ x0 x1 x2 x3, Kept q x0 → Kept q (accept x0 x1 x2 x3) := by
  intro x0 x1 x2 x3 h0; unfold accept; extract_lets +onlyGivenNames l1; (have k1 : Kept q l1 := ?_; clear_value l1); split
  apply complete_kept; assumption; apply await_kept; assumption; unfold l1; apply updateResting_kept; assumption

theorem grantShadow_kept {q : List Instr} : ∀ x0 x1 x2 x3 x4 x5, Kept q x0 → Kept q (grantShadow x0 x1 x2 x3 x4 x5) := by
  intro x0 x1 x2 x3 x4 x5 h0; unfold grantShadow; extract_lets +onlyGivenNames l1; (have k1 : Kept q l1 := ?_; clear_value l1)
  extract_lets +onlyGivenNames l2; (have k2 : Kept q l2 := ?_; clear_value l2); extract_lets +onlyGivenNames l3
  (have k3 : Kept q l3 := ?_; clear_value l3); extract_lets +onlyGivenNames l4
  (have k4 : ∀ v0, Kept q v0 → ∀ v1, ∀ v2, Kept q (((l4 v0) v1) v2) := ?_; clear_value l4); split; assumption
  extract_lets +onlyGivenNames l7; (have k7 : Kept q l7 := ?_; clear_value l7); extract_lets +onlyGivenNames l8; clear_value l8
  apply State_setJob_kept; assumption; unfold l7; apply k4; apply k4; assumption; intro _ _ _ _; unfold l4; split; apply loadImage_kept
  assumption; assumption; unfold l3; apply makeTwins_kept; assumption; unfold l2; apply forEach_kept; intro _ _ _
  apply powerOnCluster_kept; assumption; assumption; unfold l1; apply forEach_kept; intro _ _ _; apply powerOnCluster_kept; assumption
  assumption

theorem submitHeld_kept {q : List Instr} : ∀ x0 x1 x2 x3 x4 x5, Kept q x0 → Kept q (submitHeld x0 x1 x2 x3 x4 x5) := by
  intro x0 x1 x2 x3 x4 x5 h0; unfold submitHeld; extract_lets +onlyGivenNames l1; clear_value l1; extract_lets +onlyGivenNames l2
  clear_value l2; extract_lets +onlyGivenNames l3; (have k3 : ∀ v0, Kept q (l3 v0) := ?_; clear_value l3); split; apply k3; split
  split; extract_lets +onlyGivenNames l8; (have k8 : Kept q l8.1 := ?_; clear_value l8); apply accept_kept; apply grantTo_kept; assumption
  unfold l8; apply enterJob_kept; assumption; apply k3; extract_lets +onlyGivenNames l16; clear_value l16; split; apply k3; split
  apply k3; extract_lets +onlyGivenNames l21; clear_value l21; extract_lets +onlyGivenNames l22; clear_value l22; split; apply k3
  extract_lets +onlyGivenNames l25; (have k25 : Kept q l25.1 := ?_; clear_value l25); apply accept_kept; apply noteCap_kept
  apply grantShadow_kept; apply grantTo_kept; assumption; unfold l25; apply enterJob_kept; assumption; intro _; unfold l3
  apply complete_kept; assumption

theorem submitPrompt_kept {q : List Instr} : ∀ x0 x1 x2 x3 x4, Kept q x0 → Kept q (submitPrompt x0 x1 x2 x3 x4) := by
  intro x0 x1 x2 x3 x4 h0; unfold submitPrompt; extract_lets +onlyGivenNames l1; clear_value l1; extract_lets +onlyGivenNames l2
  clear_value l2; extract_lets +onlyGivenNames l3; clear_value l3; extract_lets +onlyGivenNames l4; clear_value l4; split
  extract_lets +onlyGivenNames l6; (have k6 : Kept q l6.1 := ?_; clear_value l6); apply accept_kept; apply grantTo_kept; assumption
  unfold l6; apply enterJob_kept; assumption; split; apply complete_kept; assumption; extract_lets +onlyGivenNames l16
  (have k16 : Kept q l16 := ?_; clear_value l16); extract_lets +onlyGivenNames l17; (have k17 : Kept q l17 := ?_; clear_value l17)
  apply await_kept; apply preemptFirst_kept; assumption; unfold l17; apply kept_mk2; apply kept_mem (q := q); assumption
  apply kept_host (q := q); assumption; apply kept_pending; assumption; unfold l16; apply clearPools_kept; assumption

theorem submitAmbient_kept {q : List Instr} : ∀ x0 x1 x2 x3 x4, Kept q x0 → Kept q (submitAmbient x0 x1 x2 x3 x4) := by
  intro x0 x1 x2 x3 x4 h0; unfold submitAmbient; extract_lets +onlyGivenNames l1; clear_value l1; split; apply complete_kept
  assumption; split; apply complete_kept; assumption; extract_lets +onlyGivenNames l8; (have k8 : Kept q l8.1 := ?_; clear_value l8)
  apply accept_kept; apply grantQueue_kept; assumption; unfold l8; apply enterJob_kept; refine keptOpt1_pair (by assumption) ?_
  apply makeSave_kept; assumption

theorem submitJob_kept {q : List Instr} : ∀ x0 x1 x2 x3 x4 x5 x6 x7, Kept q x0 → Kept q (submitJob x0 x1 x2 x3 x4 x5 x6 x7) := by
  intro x0 x1 x2 x3 x4 x5 x6 x7 h0; unfold submitJob; split; apply complete_kept; assumption; extract_lets +onlyGivenNames l4
  clear_value l4; split; apply complete_kept; assumption; split; apply complete_kept; assumption; split; apply complete_kept; assumption
  apply complete_kept; assumption; apply complete_kept; assumption; split; apply complete_kept; assumption; split; apply complete_kept
  assumption; split; apply submitHeld_kept; assumption; apply submitPrompt_kept; assumption; apply submitAmbient_kept; assumption

theorem wake_kept {q : List Instr} : ∀ x0, Kept q x0 → Kept q (wake x0) := by
  intro x0 h0; unfold wake; split; apply grantQueue_kept; apply changePower_kept; assumption; assumption

theorem execJobSubmit_kept {q : List Instr} : ∀ x0 x1 x2 x3 x4 x5 x6 x7 x8 x9, Kept q x9 → KeptOut q (execJobSubmit x0 x1 x2 x3 x4 x5 x6 x7 x8 x9) := by
  intro x0 x1 x2 x3 x4 x5 x6 x7 x8 x9 h0; unfold execJobSubmit; apply command_kept; assumption; intro _ _
  extract_lets +onlyGivenNames l3; clear_value l3; extract_lets +onlyGivenNames l4; (have k4 : Kept q l4 := ?_; clear_value l4)
  extract_lets +onlyGivenNames l5; (have k5 : Kept q l5 := ?_; clear_value l5); split
  assumption; split; split; assumption; apply withBuf_kept; assumption; intro _ _ _; apply submitJob_kept; assumption; split; assumption
  apply submitJob_kept; assumption; unfold l5; apply complete_kept; assumption; unfold l4; apply wake_kept; assumption

theorem withJob_kept {q : List Instr} : ∀ x0 x1 x2 x3 x4 x5, Kept q x0 → (∀ y100, Kept q (x5 y100)) → Kept q (withJob x0 x1 x2 x3 x4 x5) := by
  intro x0 x1 x2 x3 x4 x5 h0 h1; unfold withJob; split; apply complete_kept; assumption; split; apply h1; apply complete_kept; assumption

theorem cancelLater_kept {q : List Instr} : ∀ x0 x1 x2 x3 x4, Kept q x0 → Kept q (cancelLater x0 x1 x2 x3 x4) := by
  intro x0 x1 x2 x3 x4 h0; unfold cancelLater; extract_lets +onlyGivenNames l1; (have k1 : Kept q l1 := ?_; clear_value l1); split
  apply endJob_kept; assumption; apply State_setJob_kept; assumption; unfold l1; apply await_kept; assumption

theorem execJobCancel_kept {q : List Instr} : ∀ x0 x1 x2 x3 x4, Kept q x4 → KeptOut q (execJobCancel x0 x1 x2 x3 x4) := by
  intro x0 x1 x2 x3 x4 h0; unfold execJobCancel; apply command_kept; assumption; intro _ _; apply withJob_kept; assumption; intro _
  split; apply cancelLater_kept; assumption; apply serveWaiting_kept; apply complete_kept; apply cancelNow_kept; apply stopClusters_kept
  assumption; apply complete_kept; assumption

theorem execJobQuery_kept {q : List Instr} : ∀ x0 x1 x2 x3 x4, Kept q x4 → KeptOut q (execJobQuery x0 x1 x2 x3 x4) := by
  intro x0 x1 x2 x3 x4 h0; unfold execJobQuery; apply command_kept; assumption; intro _ _; apply withJob_kept; assumption; intro _
  apply replyBuf_kept; assumption; intro _ _; apply complete_kept; assumption

theorem refuseRows_kept {q : List Instr} : ∀ x0 x1 x2 x3 x4, Kept q x0 → (∀ y100, Kept q y100 → (∀ y101, (∀ y102, (∀ y103, Kept q ((((x4 y100) y101) y102) y103))))) → Kept q (refuseRows x0 x1 x2 x3 x4) := by
  intro x0 x1 x2 x3 x4 h0 h1; unfold refuseRows; extract_lets +onlyGivenNames l1; (have k1 : Kept q l1.2 := ?_; clear_value l1)
  extract_lets +onlyGivenNames l2; (have k2 : Kept q l2 := ?_; clear_value l2); apply complete_kept; assumption; unfold l2
  apply forEach_kept; intro _ _ _; apply h1; assumption; assumption; unfold l1; apply anyStatus_kept; assumption

theorem acceptFeed_kept {q : List Instr} : ∀ x0 x1 x2 x3 x4, Kept q x0 → Kept q (acceptFeed x0 x1 x2 x3 x4) := by
  intro x0 x1 x2 x3 x4 h0; unfold acceptFeed; extract_lets +onlyGivenNames l1; (have k1 : Kept q l1 := ?_; clear_value l1)
  extract_lets +onlyGivenNames l2; clear_value l2; apply complete_kept; assumption; unfold l1; apply updJob_kept; assumption

theorem feedTrigger_kept {q : List Instr} : ∀ x0 x1 x2 x3 x4 x5 x6 x7 x8, Kept q x0 → Kept q (feedTrigger x0 x1 x2 x3 x4 x5 x6 x7 x8) := by
  intro x0 x1 x2 x3 x4 x5 x6 x7 x8 h0; unfold feedTrigger; extract_lets +onlyGivenNames l1; clear_value l1; split; apply complete_kept
  assumption; split; apply complete_kept; assumption; apply acceptFeed_kept; apply State_setJob_kept; assumption

theorem queueChunk_kept {q : List Instr} : ∀ x0 x1 x2 x3, Kept q x0 → Kept q (queueChunk x0 x1 x2 x3) := by
  intro x0 x1 x2 x3 h0; unfold queueChunk; extract_lets +onlyGivenNames l1; clear_value l1; extract_lets +onlyGivenNames l2
  (have k2 : Kept q l2 := ?_; clear_value l2); apply updJob_kept; assumption; unfold l2; split; apply updStream_kept; assumption
  assumption

theorem feedStreams_kept {q : List Instr} : ∀ x0 x1 x2 x3 x4 x5 x6 x7, Kept q x0 → Kept q (feedStreams x0 x1 x2 x3 x4 x5 x6 x7) := by
  intro x0 x1 x2 x3 x4 x5 x6 x7 h0; unfold feedStreams; split; apply complete_kept; assumption; split; apply complete_kept; assumption
  apply withBuf_kept; assumption; intro _ _ _; extract_lets +onlyGivenNames l12; clear_value l12; extract_lets +onlyGivenNames l13
  clear_value l13; extract_lets +onlyGivenNames l14; clear_value l14; extract_lets +onlyGivenNames l15; clear_value l15
  extract_lets +onlyGivenNames l16
  (have k16 : ∀ v0, Kept q v0 → ∀ v1, ∀ v2, ∀ v3, Kept q ((((l16 v0) v1) v2) v3) := ?_; clear_value l16); split; apply refuseRows_kept
  assumption; intro _ _ _ _ _; apply k16; assumption; extract_lets +onlyGivenNames l27; (have k27 : Kept q l27 := ?_; clear_value l27)
  apply serveStreams_kept; apply acceptFeed_kept; assumption; unfold l27; apply forEach_kept; intro _ _ _; apply k16; apply queueChunk_kept
  assumption; assumption; intro _ _ _ _ _; unfold l16; apply rowState1_kept; assumption

theorem openSequence_kept {q : List Instr} : ∀ x0 x1 x2 x3 x4, Kept q x0 → Kept q (openSequence x0 x1 x2 x3 x4).1 := by
  intro x0 x1 x2 x3 x4 h0; unfold openSequence; extract_lets +onlyGivenNames l1; (have k1 : Kept q l1.1 := ?_; clear_value l1)
  extract_lets +onlyGivenNames l2; (have k2 : Kept q l2 := ?_; clear_value l2); extract_lets +onlyGivenNames l3; clear_value l3
  extract_lets +onlyGivenNames l4; clear_value l4; extract_lets +onlyGivenNames l5; (have k5 : Kept q l5 := ?_; clear_value l5)
  extract_lets +onlyGivenNames l6; clear_value l6; extract_lets +onlyGivenNames l7; clear_value l7; extract_lets +onlyGivenNames l8
  (have k8 : Kept q l8 := ?_; clear_value l8); extract_lets +onlyGivenNames l9; (have k9 : Kept q l9 := ?_; clear_value l9)
  with_reducible apply kept_p1; assumption; unfold l9; apply updJob_kept; assumption; unfold l8; apply kept_mk2; apply kept_mem (q := q)
  assumption; apply kept_host (q := q); assumption; apply kept_pending; assumption; unfold l5; apply forEach_kept; intro _ _ _
  apply tokensTouch_kept; assumption; assumption; unfold l2; assumption; unfold l1; split; split; with_reducible apply kept_p1
  assumption; apply objFetch_kept; assumption; with_reducible apply kept_p1; assumption

theorem openSequences_kept {q : List Instr} : ∀ x0 x1 x2 x3 x4, Kept q x0 → Kept q (openSequences x0 x1 x2 x3 x4).1 := by
  intro x0 x1 x2 x3 x4 h0; unfold openSequences; apply kept_foldl_fst; intro _ _ _; split; assumption; extract_lets +onlyGivenNames l7
  (have k7 : Kept q l7.1 := ?_; clear_value l7); with_reducible apply kept_p1; assumption; unfold l7; apply openSequence_kept; assumption
  with_reducible apply kept_p1; assumption

theorem feedSequences_kept {q : List Instr} : ∀ x0 x1 x2 x3 x4 x5 x6 x7 x8, Kept q x0 → Kept q (feedSequences x0 x1 x2 x3 x4 x5 x6 x7 x8) := by
  intro x0 x1 x2 x3 x4 x5 x6 x7 x8 h0; unfold feedSequences; split; apply complete_kept; assumption; split; apply complete_kept
  assumption; apply withBuf_kept; assumption; intro _ _ _; extract_lets +onlyGivenNames l12; clear_value l12
  extract_lets +onlyGivenNames l13; clear_value l13; extract_lets +onlyGivenNames l14; clear_value l14
  extract_lets +onlyGivenNames l15; clear_value l15; extract_lets +onlyGivenNames l16
  (have k16 : ∀ v0, Kept q v0 → ∀ v1, ∀ v2, ∀ v3, Kept q ((((l16 v0) v1) v2) v3) := ?_; clear_value l16)
  extract_lets +onlyGivenNames l17; (have k17 : ∀ v0, Kept q v0 → ∀ v1, ∀ v2, Kept q (((l17 v0) v1) v2) := ?_; clear_value l17); split
  apply refuseRows_kept; assumption; intro _ _ _ _ _; apply k16; assumption; extract_lets +onlyGivenNames l28
  (have k28 : Kept q l28.1 := ?_; clear_value l28); split; apply refuseRows_kept; assumption; intro _ _ _ _ _; apply k16; assumption
  extract_lets +onlyGivenNames l39; (have k39 : Kept q l39 := ?_; clear_value l39); split; apply acceptFeed_kept; apply k17; assumption
  extract_lets +onlyGivenNames l44; (have k44 : Kept q l44 := ?_; clear_value l44); apply acceptFeed_kept; apply k17; assumption
  unfold l44; apply updJob_kept; assumption; unfold l39; apply forEach_kept; intro _ _ _; apply rowTableWrite_kept; assumption; assumption
  unfold l28; apply openSequences_kept; assumption; intro _ _ _ _; unfold l17; apply forEach_kept; intro _ _ _; apply k16; assumption
  assumption; intro _ _ _ _ _; unfold l16; split; apply rowState2_kept; assumption; assumption

theorem execJobFeed_kept {q : List Instr} : ∀ x0 x1 x2 x3 x4 x5 x6 x7, Kept q x7 → KeptOut q (execJobFeed x0 x1 x2 x3 x4 x5 x6 x7) := by
  intro x0 x1 x2 x3 x4 x5 x6 x7 h0; unfold execJobFeed; apply command_kept; assumption; intro _ _; apply withJob_kept; assumption
  intro _; split; apply feedTrigger_kept; assumption; apply feedStreams_kept; assumption; apply feedSequences_kept; assumption
  apply complete_kept; assumption

theorem execJobSetFallback_kept {q : List Instr} : ∀ x0 x1 x2 x3 x4, Kept q x4 → KeptOut q (execJobSetFallback x0 x1 x2 x3 x4) := by
  intro x0 x1 x2 x3 x4 h0; unfold execJobSetFallback; apply command_kept; assumption; intro _ _; apply withJob_kept; assumption; intro _
  split; apply complete_kept; assumption; split; apply complete_kept; assumption; split; apply complete_kept; assumption; split
  apply complete_kept; assumption; apply complete_kept; apply takeFallback_kept; apply State_setJob_kept; assumption

theorem execCommandFetch_kept {q : List Instr} : ∀ x0 x1, Kept q x1 → KeptOut q (execCommandFetch x0 x1) := by
  intro x0 x1 h0; unfold execCommandFetch; apply kept_next; apply onlyIf_kept; assumption; extract_lets +onlyGivenNames l4
  clear_value l4; split; apply haltBox_kept; refine kept_fst (by assumption) ?_; apply busRead_kept; assumption; apply State_setBox_kept
  refine kept_fst (by assumption) ?_; apply busRead_kept; assumption

theorem withdrawWait_kept {q : List Instr} : ∀ x0 x1, Kept q x0 → Kept q (withdrawWait x0 x1) := by
  intro x0 x1 h0; unfold withdrawWait; split; split; split; apply kept_mk2; apply kept_mem (q := q); assumption; apply kept_host (q := q)
  assumption; apply kept_pending; assumption; assumption; assumption; apply kept_mk2; apply kept_mem (q := q); assumption
  apply kept_host (q := q); assumption; apply kept_pending; assumption; apply kept_mk2; apply kept_mem (q := q); assumption
  apply kept_host (q := q); assumption; apply kept_pending; assumption; apply forEach_kept; intro _ _ _; split; apply updStream_kept
  assumption; assumption; assumption; apply State_setPart_kept; assumption; assumption

theorem execCommandTimeout_kept {q : List Instr} : ∀ x0 x1, Kept q x1 → KeptOut q (execCommandTimeout x0 x1) := by
  intro x0 x1 h0; unfold execCommandTimeout; apply kept_next; extract_lets +onlyGivenNames l2
  (have k2 : Kept q l2 := ?_; clear_value l2); split; assumption; split; split; apply complete_kept; apply withdrawWait_kept; assumption
  assumption; extract_lets +onlyGivenNames l11; clear_value l11; split; apply complete_kept; assumption; assumption; unfold l2; split
  split; apply serveWaiter_kept; assumption; assumption; assumption

theorem execUndefinedOpcode_kept {q : List Instr} : ∀ x0 x1 x2 x3, Kept q x3 → KeptOut q (execUndefinedOpcode x0 x1 x2 x3) := by
  intro x0 x1 x2 x3 h0; unfold execUndefinedOpcode; apply kept_next; apply onlyIf_kept; assumption; apply complete_kept; assumption

theorem execIdentify_kept {q : List Instr} : ∀ x0 x1 x2, Kept q x2 → KeptOut q (execIdentify x0 x1 x2) := by
  intro x0 x1 x2 h0; unfold execIdentify; apply command_kept; assumption; intro _ _; apply complete_kept; assumption

theorem execGetLimits_kept {q : List Instr} : ∀ x0 x1 x2, Kept q x2 → KeptOut q (execGetLimits x0 x1 x2) := by
  intro x0 x1 x2 h0; unfold execGetLimits; apply command_kept; assumption; intro _ _; apply complete_kept; assumption

theorem execPlinthRead_kept {q : List Instr} : ∀ x0 x1 x2 x3 x4, Kept q x4 → KeptOut q (execPlinthRead x0 x1 x2 x3 x4) := by
  intro x0 x1 x2 x3 x4 h0; unfold execPlinthRead; apply command_kept; assumption; intro _ _; extract_lets +onlyGivenNames l5
  clear_value l5; split; apply complete_kept; assumption; extract_lets +onlyGivenNames l9; clear_value l9; apply replyBuf_kept
  assumption; intro _ _; apply complete_kept; assumption

theorem execReliefList_kept {q : List Instr} : ∀ x0 x1 x2 x3, Kept q x3 → KeptOut q (execReliefList x0 x1 x2 x3) := by
  intro x0 x1 x2 x3 h0; unfold execReliefList; apply command_kept; assumption; intro _ _; extract_lets +onlyGivenNames l5
  clear_value l5; apply replyBuf_kept; assumption; intro _ _; apply complete_kept; assumption

theorem checkRelief_kept {q : List Instr} : ∀ x0 x1, Kept q x0 → Kept q (checkRelief x0 x1).1 := by
  intro x0 x1 h0; unfold checkRelief; extract_lets +onlyGivenNames l1; (have k1 : Kept q l1.2 := ?_; clear_value l1)
  extract_lets +onlyGivenNames l2; clear_value l2; split; with_reducible apply kept_p1; assumption; with_reducible apply kept_p1
  apply raiseAs_kept; assumption; unfold l1; apply takeInjection_kept; assumption

theorem takeWays_kept {q : List Instr} : ∀ x0 x1 x2, Kept q x0 → Kept q (takeWays x0 x1 x2).1 := by
  intro x0 x1 x2 h0; unfold takeWays; apply writeBackLines_kept; assumption

theorem followSettings_kept {q : List Instr} : ∀ x0, Kept q x0 → Kept q (followSettings x0) := by
  intro x0 h0; unfold followSettings; extract_lets +onlyGivenNames l1; (have k1 : Kept q l1 := ?_; clear_value l1); apply kept_mk2
  apply kept_mem (q := q); assumption; apply kept_host (q := q); assumption; apply kept_pending; assumption; unfold l1; apply forEach_kept
  intro _ _ _; apply State_setPart_kept; assumption; assumption

theorem trimShadows_kept {q : List Instr} : ∀ x0, Kept q x0 → Kept q (trimShadows x0) := by
  intro x0 h0; unfold trimShadows; apply forEach_kept; intro _ _ _; split; assumption; extract_lets +onlyGivenNames l7; clear_value l7
  extract_lets +onlyGivenNames l8; clear_value l8; extract_lets +onlyGivenNames l9; clear_value l9; split; apply loseShadow_kept
  assumption; assumption; assumption

theorem switchRelief_kept {q : List Instr} : ∀ x0 x1, Kept q x0 → Kept q (switchRelief x0 x1) := by
  intro x0 x1 h0; unfold switchRelief; extract_lets +onlyGivenNames l1; clear_value l1; extract_lets +onlyGivenNames l2
  clear_value l2; extract_lets +onlyGivenNames l3; clear_value l3; extract_lets +onlyGivenNames l4
  (have k4 : Kept q l4 := ?_; clear_value l4); extract_lets +onlyGivenNames l5; (have k5 : Kept q l5 := ?_; clear_value l5)
  extract_lets +onlyGivenNames l6; (have k6 : Kept q l6 := ?_; clear_value l6); apply grantQueue_kept; apply enforceCap_kept; assumption
  unfold l6; apply noteCap_kept; apply trimShadows_kept; apply followSettings_kept; assumption; unfold l5; split; assumption
  apply logRecord_kept; assumption; unfold l4; split; apply kept_mk2; apply kept_mem (q := q); assumption; apply kept_host (q := q)
  assumption; apply kept_pending; assumption; apply kept_mk2; apply kept_mem (q := q); assumption; apply kept_host (q := q); assumption
  apply kept_pending; assumption

theorem refuseCorrection_kept {q : List Instr} : ∀ x0 x1 x2 x3, Kept q x0 → Kept q (refuseCorrection x0 x1 x2 x3) := by
  intro x0 x1 x2 x3 h0; unfold refuseCorrection; apply raiseAs_kept; apply kept_mk2; apply kept_mem (q := q); assumption
  apply kept_host (q := q); assumption; apply kept_pending; assumption

theorem requestCorrection_kept {q : List Instr} : ∀ x0 x1 x2, Kept q x0 → Kept q (requestCorrection x0 x1 x2).1 := by
  intro x0 x1 x2 h0; unfold requestCorrection; extract_lets +onlyGivenNames l1; (have k1 : Kept q l1.2 := ?_; clear_value l1)
  extract_lets +onlyGivenNames l2; (have k2 : Kept q l2 := ?_; clear_value l2); split; with_reducible apply kept_p1
  apply refuseCorrection_kept; assumption; with_reducible apply kept_p1; apply kept_mk2; apply kept_mem (q := q); assumption
  apply kept_host (q := q); assumption; apply kept_pending; assumption; unfold l2; split; apply refuseCorrection_kept; assumption
  assumption; unfold l1; apply takeInjection_kept; assumption

theorem chargeStall_kept {q : List Instr} : ∀ x0 x1, Kept q x0 → Kept q (chargeStall x0 x1) := by
  intro x0 x1 h0; unfold chargeStall; split; split; assumption; split; apply updStall_kept; assumption; apply updRun_kept; assumption
  assumption

theorem forceTime_kept {q : List Instr} : ∀ x0 x1 x2 x3, Kept q x0 → Kept q (forceTime x0 x1 x2 x3) := by
  intro x0 x1 x2 x3 h0; unfold forceTime; extract_lets +onlyGivenNames l1; clear_value l1; extract_lets +onlyGivenNames l2
  clear_value l2; extract_lets +onlyGivenNames l3; clear_value l3; extract_lets +onlyGivenNames l4; clear_value l4
  extract_lets +onlyGivenNames l5; (have k5 : Kept q l5 := ?_; clear_value l5); extract_lets +onlyGivenNames l6
  (have k6 : Kept q l6 := ?_; clear_value l6); apply complete_kept; assumption; unfold l6; apply logRecord_kept; apply logRecord_kept
  assumption; unfold l5; apply kept_mk2; apply kept_mem (q := q); assumption; apply kept_host (q := q); assumption; apply kept_pending
  assumption

theorem execTimeBaseTick_kept {q : List Instr} : ∀ x0, Kept q x0 → KeptOut q (execTimeBaseTick x0) := by
  intro x0 h0; unfold execTimeBaseTick; apply kept_next; apply onlyIf_kept; assumption; extract_lets +onlyGivenNames l4
  (have k4 : Kept q l4 := ?_; clear_value l4); extract_lets +onlyGivenNames l5; (have k5 : Kept q l5 := ?_; clear_value l5); split
  apply forceTime_kept; assumption; apply kept_mk2; apply kept_mem (q := q); assumption; apply kept_host (q := q); assumption
  apply kept_pending; assumption; unfold l5; apply forEach_kept; intro _ _ _; apply chargeStall_kept; assumption; assumption; unfold l4
  apply endTick_kept; assumption

theorem execHoldoverExceeded_kept {q : List Instr} : ∀ x0, Kept q x0 → KeptOut q (execHoldoverExceeded x0) := by
  intro x0 h0; unfold execHoldoverExceeded; apply kept_next; split; assumption; extract_lets +onlyGivenNames l4
  (have k4 : Kept q l4.2 := ?_; clear_value l4); split; assumption; extract_lets +onlyGivenNames l7
  (have k7 : Kept q l7 := ?_; clear_value l7); extract_lets +onlyGivenNames l8; clear_value l8; extract_lets +onlyGivenNames l9
  clear_value l9; apply raiseAs_kept; apply kept_mk2; apply kept_mem (q := q); assumption; apply kept_host (q := q); assumption
  apply kept_pending; assumption; unfold l7; assumption; unfold l4; apply takeInjection_kept; assumption

theorem execTimeConfig_kept {q : List Instr} : ∀ x0 x1 x2 x3 x4 x5 x6 x7 x8, Kept q x8 → KeptOut q (execTimeConfig x0 x1 x2 x3 x4 x5 x6 x7 x8) := by
  intro x0 x1 x2 x3 x4 x5 x6 x7 x8 h0; unfold execTimeConfig; apply command0_kept; assumption; intro _ _
  extract_lets +onlyGivenNames l5; clear_value l5; extract_lets +onlyGivenNames l6; clear_value l6; extract_lets +onlyGivenNames l7
  clear_value l7; split; apply complete_kept; assumption; extract_lets +onlyGivenNames l11; clear_value l11
  extract_lets +onlyGivenNames l12; clear_value l12; extract_lets +onlyGivenNames l13; clear_value l13
  extract_lets +onlyGivenNames l14; clear_value l14; apply complete_kept; apply kept_mk2; apply kept_mem (q := q); assumption
  apply kept_host (q := q); assumption; apply kept_pending; assumption

theorem execTimeForce_kept {q : List Instr} : ∀ x0 x1 x2 x3, Kept q x3 → KeptOut q (execTimeForce x0 x1 x2 x3) := by
  intro x0 x1 x2 x3 h0; unfold execTimeForce; apply command0_kept; assumption; intro _ _; split; apply complete_kept; assumption
  apply await_kept; apply kept_mk2; apply kept_mem (q := q); assumption; apply kept_host (q := q); assumption; apply kept_pending; assumption

theorem runCalendar_kept {q : List Instr} : ∀ x0, Kept q x0 → Kept q (runCalendar x0) := by
  intro x0 h0; unfold runCalendar; split; assumption; extract_lets +onlyGivenNames l3; (have k3 : Kept q l3.2 := ?_; clear_value l3)
  extract_lets +onlyGivenNames l4; clear_value l4; extract_lets +onlyGivenNames l5; (have k5 : Kept q l5 := ?_; clear_value l5)
  apply kept_mk2; apply kept_mem (q := q); assumption; apply kept_host (q := q); assumption; apply kept_pending; assumption; unfold l5
  assumption; unfold l3; apply State_fresh_kept; assumption

theorem execCalendarSet_kept {q : List Instr} : ∀ x0 x1 x2 x3 x4, Kept q x4 → KeptOut q (execCalendarSet x0 x1 x2 x3 x4) := by
  intro x0 x1 x2 x3 x4 h0; unfold execCalendarSet; apply command0_kept; assumption; intro _ _; split; apply complete_kept; assumption
  extract_lets +onlyGivenNames l8; clear_value l8; extract_lets +onlyGivenNames l9; (have k9 : Kept q l9 := ?_; clear_value l9)
  apply complete_kept; apply logRecord_kept; assumption; unfold l9; apply kept_mk2; apply kept_mem (q := q); assumption
  apply kept_host (q := q); assumption; apply kept_pending; assumption

theorem execCalendarUpdate_kept {q : List Instr} : ∀ x0, Kept q x0 → KeptOut q (execCalendarUpdate x0) := by
  intro x0 h0; unfold execCalendarUpdate; apply kept_next; apply onlyIf_kept; assumption; extract_lets +onlyGivenNames l4; clear_value l4
  apply kept_mk2; apply kept_mem (q := q); assumption; apply kept_host (q := q); assumption; apply kept_pending; assumption

theorem setTsq_kept {q : List Instr} : ∀ x0 x1 x2, Kept q x0 → Kept q (setTsq x0 x1 x2) := by
  intro x0 x1 x2 h0; unfold setTsq; split; apply kept_mk2; apply kept_mem (q := q); assumption; apply kept_host (q := q); assumption
  apply kept_pending; assumption; apply kept_mk2; apply kept_mem (q := q); assumption; apply kept_host (q := q); assumption; apply kept_pending
  assumption

theorem popTsq_kept {q : List Instr} : ∀ x0 x1, Kept q x0 → Kept q (popTsq x0 x1) := by
  intro x0 x1 h0; unfold popTsq; extract_lets +onlyGivenNames l1; clear_value l1; split; apply setTsq_kept; assumption; assumption

theorem readEffect_kept {q : List Instr} : ∀ x0 x1, Kept q x0 → Kept q (readEffect x0 x1) := by
  intro x0 x1 h0; unfold readEffect; split; extract_lets +onlyGivenNames l2; clear_value l2; apply State_setBox_kept; assumption; split
  apply kept_mk2; apply kept_mem (q := q); assumption; apply kept_host (q := q); assumption; apply kept_pending; assumption; split
  apply popTsq_kept; assumption; split; extract_lets +onlyGivenNames l17; clear_value l17; apply setTsq_kept; assumption; assumption

theorem refresh_kept {q : List Instr} : ∀ x0 x1, Kept q x0 → Kept q (refresh x0 x1) := by
  intro x0 x1 h0; unfold refresh; split; apply runCalendar_kept; assumption; assumption

theorem read32_kept {q : List Instr} : ∀ x0 x1 x2, Kept q x0 → Kept q (read32 x0 x1 x2).1 := by
  intro x0 x1 x2 h0; unfold read32; extract_lets +onlyGivenNames l1; clear_value l1; split; with_reducible apply kept_p1; apply kept_mk2
  apply kept_mem (q := q); assumption; apply kept_host (q := q); assumption; apply kept_pending; assumption
  extract_lets +onlyGivenNames l11; (have k11 : Kept q l11 := ?_; clear_value l11); extract_lets +onlyGivenNames l12; clear_value l12
  split; extract_lets +onlyGivenNames l14; clear_value l14; with_reducible apply kept_p1; apply kept_mk2; apply kept_mem (q := q)
  assumption; apply kept_host (q := q); assumption; apply kept_pending; assumption; with_reducible apply kept_p1; apply readEffect_kept
  assumption; unfold l11; apply refresh_kept; assumption

theorem read64_kept {q : List Instr} : ∀ x0 x1, Kept q x0 → Kept q (read64 x0 x1).1 := by
  intro x0 x1 h0; unfold read64; extract_lets +onlyGivenNames l1; (have k1 : Kept q l1 := ?_; clear_value l1)
  extract_lets +onlyGivenNames l2; clear_value l2; with_reducible apply kept_p1; apply readEffect_kept; apply readEffect_kept; assumption
  unfold l1; apply refresh_kept; assumption

theorem badSize_kept {q : List Instr} : ∀ x0, Kept q x0 → Kept q (badSize x0) := by
  intro x0 h0; unfold badSize; apply raise_kept; assumption

theorem windowReadOf_kept {q : List Instr} : ∀ x0 x1 x2 x3, Kept q x0 → Kept q (windowReadOf x0 x1 x2 x3).1 := by
  intro x0 x1 x2 x3 h0; unfold windowReadOf; split; with_reducible apply kept_p1; apply badSize_kept; assumption; split; apply read64_kept
  assumption; extract_lets +onlyGivenNames l8; (have k8 : Kept q l8.1 := ?_; clear_value l8); with_reducible apply kept_p1; assumption
  unfold l8; apply read32_kept; assumption

theorem showRead_kept {q : List Instr} : ∀ x0 x1, Kept q x0.1 → Kept q (showRead x0 x1) := by
  intro x0 x1 h0; unfold showRead; apply State_emit_kept; assumption

theorem fromOwner_kept {q : List Instr} : ∀ x0 x1 x2 x3, Kept q x0 → (∀ y100, Kept q y100 → Kept q (x3 y100)) → Kept q (fromOwner x0 x1 x2 x3) := by
  intro x0 x1 x2 x3 h0 h1; unfold fromOwner; split; apply h1; assumption; apply raise_kept; apply haltBox_kept; assumption

theorem badDoorbell_kept {q : List Instr} : ∀ x0 x1, Kept q x0 → Kept q (badDoorbell x0 x1) := by
  intro x0 x1 h0; unfold badDoorbell; apply raise_kept; apply haltBox_kept; assumption

theorem writeDblCmd_kept {q : List Instr} : ∀ x0 x1 x2, Kept q x0 → Kept q (writeDblCmd x0 x1 x2) := by
  intro x0 x1 x2 h0; unfold writeDblCmd; extract_lets +onlyGivenNames l1; clear_value l1; extract_lets +onlyGivenNames l2
  clear_value l2; extract_lets +onlyGivenNames l3; clear_value l3; split; apply badDoorbell_kept; assumption
  extract_lets +onlyGivenNames l7; (have k7 : Kept q l7 := ?_; clear_value l7); split; apply kept_mk2; apply kept_mem (q := q); assumption
  apply kept_host (q := q); assumption; apply kept_pending; assumption; assumption; unfold l7; apply State_setBox_kept; assumption

theorem writeDblCpl_kept {q : List Instr} : ∀ x0 x1 x2, Kept q x0 → Kept q (writeDblCpl x0 x1 x2) := by
  intro x0 x1 x2 h0; unfold writeDblCpl; extract_lets +onlyGivenNames l1; clear_value l1; extract_lets +onlyGivenNames l2
  clear_value l2; split; apply badDoorbell_kept; assumption; apply flushHeld_kept; apply State_setBox_kept; assumption

theorem disableBox_kept {q : List Instr} : ∀ x0 x1, Kept q x0 → Kept q (disableBox x0 x1) := by
  intro x0 x1 h0; unfold disableBox; extract_lets +onlyGivenNames l1; clear_value l1; extract_lets +onlyGivenNames l2; clear_value l2
  extract_lets +onlyGivenNames l3; (have k3 : Kept q l3 := ?_; clear_value l3); apply kept_foldl; intro _ _ _; apply loseEntry_kept
  assumption; assumption; unfold l3; apply State_setBox_kept; assumption

theorem writeCtrl_kept {q : List Instr} : ∀ x0 x1 x2, Kept q x0 → Kept q (writeCtrl x0 x1 x2) := by
  intro x0 x1 x2 h0; unfold writeCtrl; extract_lets +onlyGivenNames l1; clear_value l1; extract_lets +onlyGivenNames l2
  clear_value l2; split; apply State_setBox_kept; assumption; split; apply disableBox_kept; apply State_setBox_kept; assumption
  apply State_setBox_kept; assumption

theorem writeBase_kept {q : List Instr} : ∀ x0 x1 x2 x3, Kept q x0 → Kept q (writeBase x0 x1 x2 x3) := by
  intro x0 x1 x2 x3 h0; unfold writeBase; extract_lets +onlyGivenNames l1; clear_value l1; extract_lets +onlyGivenNames l2
  clear_value l2; split; assumption; apply State_setBox_kept; assumption

theorem from0_kept {q : List Instr} : ∀ x0 x1 x2, Kept q x0 → (∀ y100, Kept q y100 → Kept q (x2 y100)) → Kept q (from0 x0 x1 x2) := by
  intro x0 x1 x2 h0 h1; unfold from0; split; apply h1; assumption; assumption

theorem clearFlt_kept {q : List Instr} : ∀ x0 x1, Kept q x0 → Kept q (clearFlt x0 x1) := by
  intro x0 x1 h0; unfold clearFlt; apply kept_mk2; apply kept_mem (q := q); assumption; apply kept_host (q := q); assumption
  apply kept_pending; assumption

theorem clearEvt_kept {q : List Instr} : ∀ x0 x1, Kept q x0 → Kept q (clearEvt x0 x1) := by
  intro x0 x1 h0; unfold clearEvt; apply kept_mk2; apply kept_mem (q := q); assumption; apply kept_host (q := q); assumption
  apply kept_pending; assumption

theorem clearTim_kept {q : List Instr} : ∀ x0 x1, Kept q x0 → Kept q (clearTim x0 x1) := by
  intro x0 x1 h0; unfold clearTim; apply kept_mk2; apply kept_mem (q := q); assumption; apply kept_host (q := q); assumption
  apply kept_pending; assumption

theorem writeIncr_kept {q : List Instr} : ∀ x0 x1 x2, Kept q x0 → Kept q (writeIncr x0 x1 x2) := by
  intro x0 x1 x2 h0; unfold writeIncr; extract_lets +onlyGivenNames l1; clear_value l1; split; apply kept_mk2; apply kept_mem (q := q)
  assumption; apply kept_host (q := q); assumption; apply kept_pending; assumption; assumption

theorem writeAdj_kept {q : List Instr} : ∀ x0 x1 x2, Kept q x0 → Kept q (writeAdj x0 x1 x2) := by
  intro x0 x1 x2 h0; unfold writeAdj; split; apply requestCorrection_kept; apply kept_mk2; apply kept_mem (q := q); assumption
  apply kept_host (q := q); assumption; apply kept_pending; assumption; assumption

theorem writeTsqCtrl_kept {q : List Instr} : ∀ x0 x1 x2, Kept q x0 → Kept q (writeTsqCtrl x0 x1 x2) := by
  intro x0 x1 x2 h0; unfold writeTsqCtrl; extract_lets +onlyGivenNames l1; clear_value l1; apply setTsq_kept; assumption

theorem clearTsq_kept {q : List Instr} : ∀ x0 x1 x2, Kept q x0 → Kept q (clearTsq x0 x1 x2) := by
  intro x0 x1 x2 h0; unfold clearTsq; extract_lets +onlyGivenNames l1; clear_value l1; apply setTsq_kept; assumption

theorem injectNow_kept {q : List Instr} : ∀ x0 x1 x2, Kept q x0 → KeptOpt q (injectNow x0 x1 x2) := by
  intro x0 x1 x2 h0; unfold injectNow; extract_lets +onlyGivenNames l1; clear_value l1; extract_lets +onlyGivenNames l2
  clear_value l2; extract_lets +onlyGivenNames l3; clear_value l3; extract_lets +onlyGivenNames l4
  (have k4 : Kept q l4 := ?_; clear_value l4); split; split; with_reducible apply keptOpt_mk; apply detect_kept; assumption; exact keptOpt_none
  with_reducible apply keptOpt_mk; apply updTile_kept; assumption; with_reducible apply keptOpt_mk; apply detect_kept; assumption; split
  with_reducible apply keptOpt_mk; apply detect_kept; assumption; exact keptOpt_none; with_reducible apply keptOpt_mk; apply detect_kept; assumption
  with_reducible apply keptOpt_mk; apply raiseAs_kept; apply haltBox_kept; assumption; exact keptOpt_none; unfold l4; apply State_fresh_kept
  assumption

theorem injectAll_kept {q : List Instr} : ∀ x0 x1, Kept q x1 → Kept q (injectAll x0 x1) := by
  intro x0; induction x0 with
  | zero => intro _ h0; exact h0
  | succ n ih =>
  intro x1 h0; unfold injectAll; split; assumption; split; assumption; extract_lets +onlyGivenNames l5; clear_value l5; apply ih
  apply kept_mk2; apply kept_mem (q := q); refine keptOpt_some (by assumption) ?_; apply injectNow_kept; assumption; apply kept_host (q := q)
  refine keptOpt_some (by assumption) ?_; apply injectNow_kept; assumption; apply kept_pending; refine keptOpt_some (by assumption) ?_
  apply injectNow_kept; assumption

theorem writeInjCtrl_kept {q : List Instr} : ∀ x0 x1, Kept q x0 → Kept q (writeInjCtrl x0 x1) := by
  intro x0 x1 h0; unfold writeInjCtrl; split; assumption; extract_lets +onlyGivenNames l3; clear_value l3
  extract_lets +onlyGivenNames l4; clear_value l4; extract_lets +onlyGivenNames l5; (have k5 : Kept q l5 := ?_; clear_value l5); split
  assumption; split; apply injectAll_kept; apply kept_mk2; apply kept_mem (q := q); assumption; apply kept_host (q := q); assumption
  apply kept_pending; assumption; apply kept_mk2; apply kept_mem (q := q); assumption; apply kept_host (q := q); assumption; apply kept_pending
  assumption; unfold l5; apply kept_mk2; apply kept_mem (q := q); assumption; apply kept_host (q := q); assumption; apply kept_pending
  assumption

theorem writeWide_kept {q : List Instr} : ∀ x0 x1 x2 x3, Kept q x0 → Kept q (writeWide x0 x1 x2 x3) := by
  intro x0 x1 x2 x3 h0; unfold writeWide; split; apply writeBase_kept; assumption; split; apply kept_mk2; apply kept_mem (q := q)
  assumption; apply kept_host (q := q); assumption; apply kept_pending; assumption; split; apply writeIncr_kept; assumption
  apply writeAdj_kept; assumption

theorem writeWord_kept {q : List Instr} : ∀ x0 x1 x2 x3, Kept q x0 → Kept q (writeWord x0 x1 x2 x3) := by
  intro x0 x1 x2 x3 h0; unfold writeWord; split; split; apply writeCtrl_kept; assumption; assumption; split; split; apply kept_mk2
  apply kept_mem (q := q); assumption; apply kept_host (q := q); assumption; apply kept_pending; assumption; assumption; split
  extract_lets +onlyGivenNames l17; clear_value l17; split; apply writeDblCmd_kept; assumption; apply writeDblCpl_kept; assumption; split
  apply clearEvt_kept; assumption; apply kept_mk2; apply kept_mem (q := q); assumption; apply kept_host (q := q); assumption
  apply kept_pending; assumption; apply kept_mk2; apply kept_mem (q := q); assumption; apply kept_host (q := q); assumption; apply kept_pending
  assumption; apply kept_mk2; apply kept_mem (q := q); assumption; apply kept_host (q := q); assumption; apply kept_pending; assumption
  apply clearTim_kept; assumption; apply writeTsqCtrl_kept; assumption; apply writeTsqCtrl_kept; assumption; apply clearTsq_kept; assumption
  apply clearTsq_kept; assumption; apply from0_kept; assumption; intro _ _; apply clearFlt_kept; assumption; apply from0_kept; assumption
  intro _ _; split; apply kept_mk2; apply kept_mem (q := q); assumption; apply kept_host (q := q); assumption; apply kept_pending; assumption
  assumption; apply from0_kept; assumption; intro _ _; split; apply kept_mk2; apply kept_mem (q := q); assumption; apply kept_host (q := q)
  assumption; apply kept_pending; assumption; assumption; apply from0_kept; assumption; intro _ _; apply writeInjCtrl_kept; assumption
  assumption

theorem dropLow_kept {q : List Instr} : ∀ x0 x1, Kept q x0 → Kept q (dropLow x0 x1) := by
  intro x0 x1 h0; unfold dropLow; apply kept_mk2; apply kept_mem (q := q); assumption; apply kept_host (q := q); assumption
  apply kept_pending; assumption

theorem holdLow_kept {q : List Instr} : ∀ x0 x1 x2 x3, Kept q x0 → Kept q (holdLow x0 x1 x2 x3) := by
  intro x0 x1 x2 x3 h0; unfold holdLow; apply kept_mk2; apply kept_mem (q := q); assumption; apply kept_host (q := q); assumption
  apply kept_pending; assumption

theorem writeHigh_kept {q : List Instr} : ∀ x0 x1 x2 x3, Kept q x0 → Kept q (writeHigh x0 x1 x2 x3) := by
  intro x0 x1 x2 x3 h0; unfold writeHigh; extract_lets +onlyGivenNames l1; clear_value l1; extract_lets +onlyGivenNames l2
  clear_value l2; extract_lets +onlyGivenNames l3; clear_value l3; extract_lets +onlyGivenNames l4
  (have k4 : Kept q l4 := ?_; clear_value l4); apply writeWide_kept; assumption; unfold l4; apply kept_mk2; apply kept_mem (q := q)
  assumption; apply kept_host (q := q); assumption; apply kept_pending; assumption

theorem write32_kept {q : List Instr} : ∀ x0 x1 x2 x3, Kept q x0 → Kept q (write32 x0 x1 x2 x3) := by
  intro x0 x1 x2 x3 h0; unfold write32; extract_lets +onlyGivenNames l1
  (have k1 : ∀ v0, Kept q v0 → Kept q (l1 v0) := ?_; clear_value l1); split; apply fromOwner_kept; assumption; intro _ _; apply k1
  assumption; apply k1; assumption; intro _ _; unfold l1; split; apply holdLow_kept; assumption; split; apply writeHigh_kept; assumption
  apply writeWord_kept; assumption

theorem windowWriteOf_kept {q : List Instr} : ∀ x0 x1 x2 x3 x4, Kept q x0 → Kept q (windowWriteOf x0 x1 x2 x3 x4) := by
  intro x0 x1 x2 x3 x4 h0; unfold windowWriteOf; split; apply badSize_kept; assumption; split; apply write32_kept; assumption; split
  extract_lets +onlyGivenNames l8; (have k8 : ∀ v0, Kept q v0 → Kept q (l8 v0) := ?_; clear_value l8); split; apply fromOwner_kept
  assumption; intro _ _; apply k8; assumption; apply k8; assumption; intro _ _; unfold l8; apply writeWide_kept; apply dropLow_kept
  assumption; apply write32_kept; apply write32_kept; assumption

theorem onWindow_kept {q : List Instr} : ∀ x0 x1 x2, Kept q x0 → (∀ y100, Kept q y100 → Kept q (x2 y100)) → KeptOut q (onWindow x0 x1 x2) := by
  intro x0 x1 x2 h0 h1; unfold onWindow; apply kept_next; apply onlyIf_kept; assumption; apply h1; assumption

theorem execDblCmd_kept {q : List Instr} : ∀ x0 x1 x2 x3, Kept q x3 → KeptOut q (execDblCmd x0 x1 x2 x3) := by
  intro x0 x1 x2 x3 h0; unfold execDblCmd; apply onWindow_kept; assumption; intro _ _; apply fromOwner_kept; assumption; intro _ _
  apply writeDblCmd_kept; assumption

theorem execDblCpl_kept {q : List Instr} : ∀ x0 x1 x2 x3, Kept q x3 → KeptOut q (execDblCpl x0 x1 x2 x3) := by
  intro x0 x1 x2 x3 h0; unfold execDblCpl; apply onWindow_kept; assumption; intro _ _; apply fromOwner_kept; assumption; intro _ _
  apply writeDblCpl_kept; assumption

theorem execMailboxEnable_kept {q : List Instr} : ∀ x0 x1 x2 x3, Kept q x3 → KeptOut q (execMailboxEnable x0 x1 x2 x3) := by
  intro x0 x1 x2 x3 h0; unfold execMailboxEnable; apply onWindow_kept; assumption; intro _ _; apply fromOwner_kept; assumption; intro _ _
  apply writeCtrl_kept; assumption

theorem execMailboxDisable_kept {q : List Instr} : ∀ x0 x1 x2 x3, Kept q x3 → KeptOut q (execMailboxDisable x0 x1 x2 x3) := by
  intro x0 x1 x2 x3 h0; unfold execMailboxDisable; apply onWindow_kept; assumption; intro _ _; apply fromOwner_kept; assumption
  intro _ _; apply writeCtrl_kept; assumption

theorem execMbxLostRead_kept {q : List Instr} : ∀ x0 x1 x2, Kept q x2 → KeptOut q (execMbxLostRead x0 x1 x2) := by
  intro x0 x1 x2 h0; unfold execMbxLostRead; apply onWindow_kept; assumption; intro _ _; apply showRead_kept; apply windowReadOf_kept
  assumption

theorem execEvtStatusClear_kept {q : List Instr} : ∀ x0 x1 x2, Kept q x2 → KeptOut q (execEvtStatusClear x0 x1 x2) := by
  intro x0 x1 x2 h0; unfold execEvtStatusClear; apply onWindow_kept; assumption; intro _ _; apply write32_kept; assumption

theorem execFltStatusClear_kept {q : List Instr} : ∀ x0 x1 x2, Kept q x2 → KeptOut q (execFltStatusClear x0 x1 x2) := by
  intro x0 x1 x2 h0; unfold execFltStatusClear; apply onWindow_kept; assumption; intro _ _; apply write32_kept; assumption

theorem execInjectionRequest_kept {q : List Instr} : ∀ x0 x1 x2, Kept q x2 → KeptOut q (execInjectionRequest x0 x1 x2) := by
  intro x0 x1 x2 h0; unfold execInjectionRequest; apply onWindow_kept; assumption; intro _ _; apply write32_kept; assumption

theorem execFltInjDoneRead_kept {q : List Instr} : ∀ x0 x1, Kept q x1 → KeptOut q (execFltInjDoneRead x0 x1) := by
  intro x0 x1 h0; unfold execFltInjDoneRead; apply onWindow_kept; assumption; intro _ _; apply showRead_kept; apply windowReadOf_kept
  assumption

theorem execTimIncrWrite_kept {q : List Instr} : ∀ x0 x1 x2, Kept q x2 → KeptOut q (execTimIncrWrite x0 x1 x2) := by
  intro x0 x1 x2 h0; unfold execTimIncrWrite; apply onWindow_kept; assumption; intro _ _; apply windowWriteOf_kept; assumption

theorem execTimAdjWrite_kept {q : List Instr} : ∀ x0 x1 x2, Kept q x2 → KeptOut q (execTimAdjWrite x0 x1 x2) := by
  intro x0 x1 x2 h0; unfold execTimAdjWrite; apply onWindow_kept; assumption; intro _ _; apply windowWriteOf_kept; assumption

theorem execTimLowWordRead_kept {q : List Instr} : ∀ x0 x1 x2, Kept q x2 → KeptOut q (execTimLowWordRead x0 x1 x2) := by
  intro x0 x1 x2 h0; unfold execTimLowWordRead; apply onWindow_kept; assumption; intro _ _; apply onlyIf_kept; assumption
  apply showRead_kept; apply windowReadOf_kept; assumption

theorem execTimStatusClear_kept {q : List Instr} : ∀ x0 x1 x2, Kept q x2 → KeptOut q (execTimStatusClear x0 x1 x2) := by
  intro x0 x1 x2 h0; unfold execTimStatusClear; apply onWindow_kept; assumption; intro _ _; apply write32_kept; assumption

theorem execTsqPop_kept {q : List Instr} : ∀ x0 x1 x2, Kept q x2 → KeptOut q (execTsqPop x0 x1 x2) := by
  intro x0 x1 x2 h0; unfold execTsqPop; apply onWindow_kept; assumption; intro _ _; apply showRead_kept; apply windowReadOf_kept
  assumption

theorem execTsqDroppedRead_kept {q : List Instr} : ∀ x0 x1 x2, Kept q x2 → KeptOut q (execTsqDroppedRead x0 x1 x2) := by
  intro x0 x1 x2 h0; unfold execTsqDroppedRead; apply onWindow_kept; assumption; intro _ _; apply showRead_kept; apply windowReadOf_kept
  assumption

theorem execTsqDisable_kept {q : List Instr} : ∀ x0 x1 x2, Kept q x2 → KeptOut q (execTsqDisable x0 x1 x2) := by
  intro x0 x1 x2 h0; unfold execTsqDisable; apply onWindow_kept; assumption; intro _ _; apply write32_kept; assumption

theorem execTsqStatusClear_kept {q : List Instr} : ∀ x0 x1 x2 x3, Kept q x3 → KeptOut q (execTsqStatusClear x0 x1 x2 x3) := by
  intro x0 x1 x2 x3 h0; unfold execTsqStatusClear; apply onWindow_kept; assumption; intro _ _; apply write32_kept; assumption

theorem execWindowLowWordWrite_kept {q : List Instr} : ∀ x0 x1 x2 x3, Kept q x3 → KeptOut q (execWindowLowWordWrite x0 x1 x2 x3) := by
  intro x0 x1 x2 x3 h0; unfold execWindowLowWordWrite; apply onWindow_kept; assumption; intro _ _; apply onlyIf_kept; assumption
  apply write32_kept; assumption

theorem execWindowHighWordWrite_kept {q : List Instr} : ∀ x0 x1 x2 x3, Kept q x3 → KeptOut q (execWindowHighWordWrite x0 x1 x2 x3) := by
  intro x0 x1 x2 x3 h0; unfold execWindowHighWordWrite; apply onWindow_kept; assumption; intro _ _; apply onlyIf_kept; assumption
  apply write32_kept; assumption

theorem execBadSizeAccess_kept {q : List Instr} : ∀ x0 x1 x2 x3 x4, Kept q x4 → KeptOut q (execBadSizeAccess x0 x1 x2 x3 x4) := by
  intro x0 x1 x2 x3 x4 h0; unfold execBadSizeAccess; apply onWindow_kept; assumption; intro _ _; apply onlyIf_kept; assumption; split
  apply badSize_kept; assumption; apply showRead_kept; with_reducible apply kept_p1; apply badSize_kept; assumption

theorem execRegisterWrite_kept {q : List Instr} : ∀ x0 x1 x2 x3 x4, Kept q x4 → KeptOut q (execRegisterWrite x0 x1 x2 x3 x4) := by
  intro x0 x1 x2 x3 x4 h0; unfold execRegisterWrite; apply onWindow_kept; assumption; intro _ _; apply windowWriteOf_kept; assumption

end Sys2Proof.Machine
end

