-- ==== Sys2Proof/Laws/KeptFabric.lean ====
section
/-! SUPPORT. What keeps both memories in canonical form and leaves the queue of commands alone: PTP and the fabric. -/

open Sys2Proof

namespace Sys2Proof.Machine

theorem setPport_kept {q : List Instr} : ∀ x0 x1 x2, Kept q x0 → Kept q (setPport x0 x1 x2) := by
  intro x0 x1 x2 h0; unfold setPport; extract_lets +onlyGivenNames l1; clear_value l1; apply kept_mk2; apply kept_mem (q := q)
  assumption; apply kept_host (q := q); assumption; apply kept_pending; assumption

theorem servoStep_kept {q : List Instr} : ∀ x0, Kept q x0 → Kept q (servoStep x0) := by
  intro x0 h0; unfold servoStep; extract_lets +onlyGivenNames l1; (have k1 : Kept q l1.2 := ?_; clear_value l1)
  extract_lets +onlyGivenNames l2; clear_value l2; extract_lets +onlyGivenNames l3; clear_value l3; extract_lets +onlyGivenNames l4
  (have k4 : Kept q l4 := ?_; clear_value l4); apply kept_mk2; apply kept_mem (q := q); assumption; apply kept_host (q := q); assumption
  apply kept_pending; assumption; unfold l4; assumption; unfold l1; apply State_fresh_kept; assumption

theorem servo_kept {q : List Instr} : ∀ x0 x1 x2, Kept q x0 → Kept q (servo x0 x1 x2) := by
  intro x0 x1 x2 h0; unfold servo; extract_lets +onlyGivenNames l1; clear_value l1; split; assumption
  extract_lets +onlyGivenNames l4; (have k4 : Kept q l4.1 := ?_; clear_value l4); split; extract_lets +onlyGivenNames l6
  (have k6 : Kept q l6 := ?_; clear_value l6); apply servoStep_kept; apply setPport_kept; assumption; unfold l6; assumption
  extract_lets +onlyGivenNames l12; clear_value l12; extract_lets +onlyGivenNames l13; (have k13 : Kept q l13 := ?_; clear_value l13)
  apply kept_mk2; apply kept_mem (q := q); assumption; apply kept_host (q := q); assumption; apply kept_pending; assumption; unfold l13
  assumption; unfold l4; apply requestCorrection_kept; assumption

theorem takeSync_kept {q : List Instr} : ∀ x0 x1 x2 x3 x4, Kept q x0 → Kept q (takeSync x0 x1 x2 x3 x4) := by
  intro x0 x1 x2 x3 x4 h0; unfold takeSync; extract_lets +onlyGivenNames l1; clear_value l1; extract_lets +onlyGivenNames l2
  clear_value l2; extract_lets +onlyGivenNames l3; clear_value l3; extract_lets +onlyGivenNames l4; clear_value l4
  extract_lets +onlyGivenNames l5; clear_value l5; extract_lets +onlyGivenNames l6; (have k6 : Kept q l6 := ?_; clear_value l6)
  apply servo_kept; apply setPport_kept; assumption; unfold l6; apply kept_mk2; apply kept_mem (q := q); assumption; apply kept_host (q := q)
  assumption; apply kept_pending; assumption

theorem execSync_kept {q : List Instr} : ∀ x0 x1 x2 x3 x4 x5 x6 x7, Kept q x7 → KeptOut q (execSync x0 x1 x2 x3 x4 x5 x6 x7) := by
  intro x0 x1 x2 x3 x4 x5 x6 x7 h0; unfold execSync; apply kept_next; apply onlyIf_kept; assumption; split; apply setPport_kept; assumption
  apply takeSync_kept; assumption

theorem execFollowUp_kept {q : List Instr} : ∀ x0 x1 x2 x3 x4 x5, Kept q x5 → KeptOut q (execFollowUp x0 x1 x2 x3 x4 x5) := by
  intro x0 x1 x2 x3 x4 x5 h0; unfold execFollowUp; apply kept_next; apply onlyIf_kept; assumption; split; apply takeSync_kept; assumption
  assumption

theorem execDelayReq_kept {q : List Instr} : ∀ x0 x1 x2 x3 x4, Kept q x4 → KeptOut q (execDelayReq x0 x1 x2 x3 x4) := by
  intro x0 x1 x2 x3 x4 h0; unfold execDelayReq; apply kept_next; apply onlyIf_kept; assumption; apply State_emit_kept; assumption

theorem execDelayResp_kept {q : List Instr} : ∀ x0 x1 x2 x3 x4 x5, Kept q x5 → KeptOut q (execDelayResp x0 x1 x2 x3 x4 x5) := by
  intro x0 x1 x2 x3 x4 x5 h0; unfold execDelayResp; apply kept_next; apply onlyIf_kept; assumption; extract_lets +onlyGivenNames l4
  clear_value l4; split; apply setPport_kept; assumption; assumption

theorem txStamp_kept {q : List Instr} : ∀ x0, Kept q x0 → Kept q (txStamp x0).2 := by
  intro x0 h0; unfold txStamp; extract_lets +onlyGivenNames l1; (have k1 : Kept q l1.2 := ?_; clear_value l1)
  with_reducible apply kept_p1; assumption; assumption; unfold l1; apply State_fresh_kept; assumption

theorem execPdelayReq_kept {q : List Instr} : ∀ x0 x1 x2 x3 x4, Kept q x4 → KeptOut q (execPdelayReq x0 x1 x2 x3 x4) := by
  intro x0 x1 x2 x3 x4 h0; unfold execPdelayReq; apply kept_next; apply onlyIf_kept; assumption; extract_lets +onlyGivenNames l4
  (have k4 : Kept q l4.2 := ?_; clear_value l4); split; apply State_emit_kept; assumption; apply State_emit_kept; apply State_emit_kept
  assumption; unfold l4; apply txStamp_kept; assumption

theorem execPdelayResp_kept {q : List Instr} : ∀ x0 x1 x2 x3 x4 x5 x6 x7, Kept q x7 → KeptOut q (execPdelayResp x0 x1 x2 x3 x4 x5 x6 x7) := by
  intro x0 x1 x2 x3 x4 x5 x6 x7 h0; unfold execPdelayResp; apply kept_next; apply onlyIf_kept; assumption
  extract_lets +onlyGivenNames l4; clear_value l4; split; split; apply setPport_kept; assumption; apply setPport_kept; assumption
  assumption

theorem execPdelayRespFollowUp_kept {q : List Instr} : ∀ x0 x1 x2 x3 x4 x5, Kept q x5 → KeptOut q (execPdelayRespFollowUp x0 x1 x2 x3 x4 x5) := by
  intro x0 x1 x2 x3 x4 x5 h0; unfold execPdelayRespFollowUp; apply kept_next; apply onlyIf_kept; assumption
  extract_lets +onlyGivenNames l4; clear_value l4; split; apply setPport_kept; assumption; assumption

theorem decidePorts_kept {q : List Instr} : ∀ x0, Kept q x0 → Kept q (decidePorts x0) := by
  intro x0 h0; unfold decidePorts; extract_lets +onlyGivenNames l1; clear_value l1; extract_lets +onlyGivenNames l2; clear_value l2
  extract_lets +onlyGivenNames l3; clear_value l3; extract_lets +onlyGivenNames l4; clear_value l4; extract_lets +onlyGivenNames l5
  clear_value l5; apply kept_mk2; apply kept_mem (q := q); assumption; apply kept_host (q := q); assumption; apply kept_pending; assumption

theorem takeUtc_kept {q : List Instr} : ∀ x0 x1 x2, Kept q x0 → Kept q (takeUtc x0 x1 x2) := by
  intro x0 x1 x2 h0; unfold takeUtc; split; apply kept_mk2; apply kept_mem (q := q); assumption; apply kept_host (q := q); assumption
  apply kept_pending; assumption; assumption

theorem execAnnounce_kept {q : List Instr} : ∀ x0 x1 x2 x3, Kept q x3 → KeptOut q (execAnnounce x0 x1 x2 x3) := by
  intro x0 x1 x2 x3 h0; unfold execAnnounce; apply kept_next; apply onlyIf_kept; assumption; extract_lets +onlyGivenNames l4
  clear_value l4; extract_lets +onlyGivenNames l5; clear_value l5; split; assumption; apply takeUtc_kept; apply decidePorts_kept
  apply setPport_kept; assumption

theorem execPtpMessageDiscard_kept {q : List Instr} : ∀ x0 x1, Kept q x1 → KeptOut q (execPtpMessageDiscard x0 x1) := by
  intro x0 x1 h0; unfold execPtpMessageDiscard; apply kept_next; assumption

theorem sendSync_kept {q : List Instr} : ∀ x0 x1, Kept q x0 → Kept q (sendSync x0 x1) := by
  intro x0 x1 h0; unfold sendSync; extract_lets +onlyGivenNames l1; clear_value l1; extract_lets +onlyGivenNames l2
  (have k2 : Kept q l2.2 := ?_; clear_value l2); split; apply State_emit_kept; assumption; apply setPport_kept; apply State_emit_kept
  assumption; unfold l2; apply txStamp_kept; assumption

theorem sendDelayReq_kept {q : List Instr} : ∀ x0 x1 x2, Kept q x0 → Kept q (sendDelayReq x0 x1 x2) := by
  intro x0 x1 x2 h0; unfold sendDelayReq; extract_lets +onlyGivenNames l1; clear_value l1; extract_lets +onlyGivenNames l2
  (have k2 : Kept q l2.2 := ?_; clear_value l2); apply setPport_kept; apply State_emit_kept; assumption; unfold l2; apply txStamp_kept
  assumption

theorem execPtpMessageSend_kept {q : List Instr} : ∀ x0 x1 x2, Kept q x2 → KeptOut q (execPtpMessageSend x0 x1 x2) := by
  intro x0 x1 x2 h0; unfold execPtpMessageSend; apply kept_next; apply onlyIf_kept; assumption; extract_lets +onlyGivenNames l4
  clear_value l4; split; apply setPport_kept; assumption; split; split; apply sendSync_kept; assumption; assumption; split
  apply sendDelayReq_kept; assumption; assumption; split; apply sendDelayReq_kept; assumption; assumption; split; split
  apply State_emit_kept; apply setPport_kept; assumption; assumption; assumption; split; apply State_emit_kept; assumption; assumption
  assumption

theorem execFollowUpAbandon_kept {q : List Instr} : ∀ x0 x1, Kept q x1 → KeptOut q (execFollowUpAbandon x0 x1) := by
  intro x0 x1 h0; unfold execFollowUpAbandon; apply kept_next; split; apply onlyIf_kept; assumption; apply setPport_kept; assumption
  assumption

theorem execAnnounceReceiptTimeout_kept {q : List Instr} : ∀ x0 x1, Kept q x1 → KeptOut q (execAnnounceReceiptTimeout x0 x1) := by
  intro x0 x1 h0; unfold execAnnounceReceiptTimeout; apply kept_next; apply onlyIf_kept; assumption; extract_lets +onlyGivenNames l4
  clear_value l4; extract_lets +onlyGivenNames l5; clear_value l5; extract_lets +onlyGivenNames l6
  (have k6 : Kept q l6.2 := ?_; clear_value l6); extract_lets +onlyGivenNames l7; (have k7 : Kept q l7 := ?_; clear_value l7); split
  extract_lets +onlyGivenNames l9; (have k9 : Kept q l9 := ?_; clear_value l9); split; apply kept_mk2; apply kept_mem (q := q); assumption
  apply kept_host (q := q); assumption; apply kept_pending; assumption; assumption; unfold l9; apply raiseAs_kept; assumption; assumption
  unfold l7; apply decidePorts_kept; apply setPport_kept; assumption; unfold l6; split; apply takeInjection_kept; assumption
  with_reducible apply kept_p1; assumption; assumption

theorem failMoves_kept {q : List Instr} : ∀ x0 x1, Kept q x0 → Kept q (failMoves x0 x1) := by
  intro x0 x1 h0; unfold failMoves; apply failRuns_kept; assumption

theorem failReservation_kept {q : List Instr} : ∀ x0 x1, Kept q x0 → Kept q (failReservation x0 x1) := by
  intro x0 x1 h0; unfold failReservation; extract_lets +onlyGivenNames l1; clear_value l1; extract_lets +onlyGivenNames l2
  (have k2 : Kept q l2 := ?_; clear_value l2); extract_lets +onlyGivenNames l3; clear_value l3; extract_lets +onlyGivenNames l4
  (have k4 : Kept q l4 := ?_; clear_value l4); extract_lets +onlyGivenNames l5; (have k5 : Kept q l5 := ?_; clear_value l5); split
  extract_lets +onlyGivenNames l7; (have k7 : Kept q l7 := ?_; clear_value l7); apply breakStreams_kept; apply losePages_kept; assumption
  unfold l7; apply kept_mk2; apply kept_mem (q := q); assumption; apply kept_host (q := q); assumption; apply kept_pending; assumption
  apply loseObjects_kept; assumption; unfold l5; apply raise_kept; assumption; unfold l4; apply failMoves_kept; assumption; unfold l2
  apply kept_mk2; apply kept_mem (q := q); assumption; apply kept_host (q := q); assumption; apply kept_pending; assumption

theorem reclaim_kept {q : List Instr} : ∀ x0 x1, Kept q x0 → Kept q (reclaim x0 x1) := by
  intro x0 x1 h0; unfold reclaim; extract_lets +onlyGivenNames l1; clear_value l1; apply kept_mk2; apply kept_mem (q := q); assumption
  apply kept_host (q := q); assumption; apply kept_pending; assumption

theorem loseNode_kept {q : List Instr} : ∀ x0 x1, Kept q x0 → Kept q (loseNode x0 x1) := by
  intro x0 x1 h0; unfold loseNode; extract_lets +onlyGivenNames l1; (have k1 : Kept q l1 := ?_; clear_value l1); apply reclaim_kept
  assumption; unfold l1; apply forEach_kept; intro _ _ _; apply failReservation_kept; assumption; assumption

theorem failT3_kept {q : List Instr} : ∀ x0 x1, Kept q x0 → Kept q (failT3 x0 x1) := by
  intro x0 x1 h0; unfold failT3; extract_lets +onlyGivenNames l1; clear_value l1; extract_lets +onlyGivenNames l2; clear_value l2
  extract_lets +onlyGivenNames l3; (have k3 : Kept q l3 := ?_; clear_value l3); split; apply failRun_kept; assumption; assumption
  unfold l3; apply kept_mk2; apply kept_mem (q := q); assumption; apply kept_host (q := q); assumption; apply kept_pending; assumption

theorem rerouteWaiting_kept {q : List Instr} : ∀ x0 x1, Kept q x0 → Kept q (rerouteWaiting x0 x1) := by
  intro x0 x1 h0; unfold rerouteWaiting; extract_lets +onlyGivenNames l1; clear_value l1; extract_lets +onlyGivenNames l2
  clear_value l2; extract_lets +onlyGivenNames l3; clear_value l3; extract_lets +onlyGivenNames l4
  (have k4 : Kept q l4 := ?_; clear_value l4); apply forEach_kept; intro _ _ _; apply forward_kept; assumption; assumption; unfold l4
  apply kept_mk2; apply kept_mem (q := q); assumption; apply kept_host (q := q); assumption; apply kept_pending; assumption

theorem invalidate_kept {q : List Instr} : ∀ x0 x1, Kept q x0 → Kept q (invalidate x0 x1) := by
  intro x0 x1 h0; unfold invalidate; extract_lets +onlyGivenNames l1; clear_value l1; extract_lets +onlyGivenNames l2
  (have k2 : Kept q l2 := ?_; clear_value l2); extract_lets +onlyGivenNames l4; (have k4 : Kept q l4 := rerouteWaiting_kept _ _ k2; clear_value l4)
  extract_lets +onlyGivenNames l3; (have k3 : Kept q l3 := ?_; clear_value l3)
  apply loseNode_kept; assumption; unfold l3; apply forEach_kept; intro _ _ _; split; apply failT3_kept; assumption; assumption; assumption
  unfold l2; apply kept_mk2; apply kept_mem (q := q); assumption; apply kept_host (q := q); assumption; apply kept_pending; assumption

theorem install_kept {q : List Instr} : ∀ x0, Kept q x0 → Kept q (install x0) := by
  intro x0 h0; unfold install; extract_lets +onlyGivenNames l1; clear_value l1; extract_lets +onlyGivenNames l2; clear_value l2
  extract_lets +onlyGivenNames l3; clear_value l3; extract_lets +onlyGivenNames l4; clear_value l4; extract_lets +onlyGivenNames l5
  clear_value l5; extract_lets +onlyGivenNames l6; (have k6 : Kept q l6 := ?_; clear_value l6); apply forEach_kept; intro _ _ _
  apply pumpPort_kept; assumption; apply rerouteWaiting_kept; assumption; unfold l6; apply kept_mk2; apply kept_mem (q := q); assumption
  apply kept_host (q := q); assumption; apply kept_pending; assumption

theorem mgmtSeq_kept {q : List Instr} : ∀ x0, Kept q x0 → Kept q (mgmtSeq x0).2 := by
  intro x0 h0; unfold mgmtSeq; with_reducible apply kept_p1; assumption; apply kept_mk2; apply kept_mem (q := q); assumption
  apply kept_host (q := q); assumption; apply kept_pending; assumption

theorem ask_kept {q : List Instr} : ∀ x0 x1 x2 x3 x4, Kept q x0 → Kept q (ask x0 x1 x2 x3 x4) := by
  intro x0 x1 x2 x3 x4 h0; unfold ask; extract_lets +onlyGivenNames l1; (have k1 : Kept q l1.2 := ?_; clear_value l1)
  apply sendMgmt_kept; assumption; unfold l1; apply mgmtSeq_kept; assumption

theorem releaseAll_kept {q : List Instr} : ∀ x0, Kept q x0 → Kept q (releaseAll x0) := by
  intro x0 h0; unfold releaseAll; extract_lets +onlyGivenNames l1; clear_value l1; extract_lets +onlyGivenNames l2
  (have k2 : Kept q l2 := ?_; clear_value l2); apply install_kept; apply kept_mk2; apply kept_mem (q := q); assumption
  apply kept_host (q := q); assumption; apply kept_pending; assumption; unfold l2; apply forEach_kept; intro _ _ _; apply ask_kept
  assumption; assumption

theorem phaseDoneBy_kept {q : List Instr} : ∀ x0 x1, Kept q x0 → Kept q (phaseDoneBy x0 x1) := by
  intro x0 x1 h0; unfold phaseDoneBy; extract_lets +onlyGivenNames l1; clear_value l1; extract_lets +onlyGivenNames l2
  clear_value l2; extract_lets +onlyGivenNames l3; (have k3 : Kept q l3 := ?_; clear_value l3); split; apply releaseAll_kept; assumption
  assumption; unfold l3; apply kept_mk2; apply kept_mem (q := q); assumption; apply kept_host (q := q); assumption; apply kept_pending
  assumption

theorem reportPhaseDone_kept {q : List Instr} : ∀ x0, Kept q x0 → Kept q (reportPhaseDone x0) := by
  intro x0 h0; unfold reportPhaseDone; extract_lets +onlyGivenNames l1; clear_value l1; extract_lets +onlyGivenNames l2
  (have k2 : Kept q l2 := ?_; clear_value l2); split; apply phaseDoneBy_kept; assumption; apply ask_kept; assumption; unfold l2
  apply kept_mk2; apply kept_mem (q := q); assumption; apply kept_host (q := q); assumption; apply kept_pending; assumption

theorem checkPhase_kept {q : List Instr} : ∀ x0, Kept q x0 → Kept q (checkPhase x0) := by
  intro x0 h0; unfold checkPhase; split; apply reportPhaseDone_kept; assumption; assumption

theorem phaseOne_kept {q : List Instr} : ∀ x0 x1 x2 x3, Kept q x0 → Kept q (phaseOne x0 x1 x2 x3) := by
  intro x0 x1 x2 x3 h0; unfold phaseOne; extract_lets +onlyGivenNames l1; clear_value l1; extract_lets +onlyGivenNames l2
  clear_value l2; extract_lets +onlyGivenNames l3; clear_value l3; extract_lets +onlyGivenNames l4; clear_value l4
  extract_lets +onlyGivenNames l5; (have k5 : Kept q l5 := ?_; clear_value l5); extract_lets +onlyGivenNames l6
  (have k6 : Kept q l6 := ?_; clear_value l6); extract_lets +onlyGivenNames l7; clear_value l7; extract_lets +onlyGivenNames l8
  (have k8 : Kept q l8 := ?_; clear_value l8); split; apply checkPhase_kept; apply kept_mk2; apply kept_mem (q := q); assumption
  apply kept_host (q := q); assumption; apply kept_pending; assumption; assumption; unfold l8; apply kept_mk2; apply kept_mem (q := q)
  assumption; apply kept_host (q := q); assumption; apply kept_pending; assumption; unfold l6; apply forEach_kept; intro _ _ _
  apply invalidate_kept; assumption; assumption; unfold l5; apply kept_mk2; apply kept_mem (q := q); assumption; apply kept_host (q := q)
  assumption; apply kept_pending; assumption

theorem sendRoutes_kept {q : List Instr} : ∀ x0 x1 x2 x3, Kept q x0 → Kept q (sendRoutes x0 x1 x2 x3) := by
  intro x0 x1 x2 x3 h0; unfold sendRoutes; extract_lets +onlyGivenNames l1; clear_value l1; apply forEach_kept; intro _ _ _
  apply ask_kept; assumption; assumption

theorem recompute_kept {q : List Instr} : ∀ x0, Kept q x0 → Kept q (recompute x0) := by
  intro x0 h0; unfold recompute; split; assumption; extract_lets +onlyGivenNames l3; clear_value l3; extract_lets +onlyGivenNames l4
  clear_value l4; extract_lets +onlyGivenNames l5; clear_value l5; extract_lets +onlyGivenNames l6; clear_value l6
  extract_lets +onlyGivenNames l7; clear_value l7; extract_lets +onlyGivenNames l8; clear_value l8; extract_lets +onlyGivenNames l9
  (have k9 : Kept q l9 := ?_; clear_value l9); split; assumption; extract_lets +onlyGivenNames l12; clear_value l12
  extract_lets +onlyGivenNames l13; clear_value l13; extract_lets +onlyGivenNames l14; (have k14 : Kept q l14 := ?_; clear_value l14)
  extract_lets +onlyGivenNames l15; (have k15 : Kept q l15 := ?_; clear_value l15); split; apply phaseOne_kept; assumption; assumption
  unfold l15; apply forEach_kept; intro _ _ _; apply sendRoutes_kept; assumption; assumption; unfold l14; apply kept_mk2
  apply kept_mem (q := q); assumption; apply kept_host (q := q); assumption; apply kept_pending; assumption; unfold l9; apply kept_mk2
  apply kept_mem (q := q); assumption; apply kept_host (q := q); assumption; apply kept_pending; assumption

theorem reportOwn_kept {q : List Instr} : ∀ x0, Kept q x0 → Kept q (reportOwn x0) := by
  intro x0 h0; unfold reportOwn; split; apply recompute_kept; assumption; apply ask_kept; assumption

theorem haltNode_kept {q : List Instr} : ∀ x0 x1, Kept q x0 → Kept q (haltNode x0 x1) := by
  intro x0 x1 h0; unfold haltNode; apply forEach_kept; intro _ _ _; extract_lets +onlyGivenNames l5; clear_value l5; split
  apply haltBox_kept; assumption; assumption; assumption

theorem takeId_kept {q : List Instr} : ∀ x0 x1 x2, Kept q x0 → Kept q (takeId x0 x1 x2) := by
  intro x0 x1 x2 h0; unfold takeId; extract_lets +onlyGivenNames l1; clear_value l1; split; extract_lets +onlyGivenNames l3
  (have k3 : Kept q l3 := ?_; clear_value l3); extract_lets +onlyGivenNames l4; (have k4 : Kept q l4 := ?_; clear_value l4)
  extract_lets +onlyGivenNames l5; (have k5 : Kept q l5 := ?_; clear_value l5); extract_lets +onlyGivenNames l6
  (have k6 : Kept q l6 := ?_; clear_value l6); apply kept_mk2; apply kept_mem (q := q); assumption; apply kept_host (q := q); assumption
  apply kept_pending; assumption; unfold l6; apply raise_kept; assumption; unfold l5; apply haltNode_kept; assumption; unfold l4
  apply reclaim_kept; assumption; unfold l3; apply forEach_kept; intro _ _ _; apply failReservation_kept; assumption; assumption
  apply kept_mk2; apply kept_mem (q := q); assumption; apply kept_host (q := q); assumption; apply kept_pending; assumption

theorem sendId_kept {q : List Instr} : ∀ x0 x1 x2 x3 x4, Kept q x0 → Kept q (sendId x0 x1 x2 x3 x4) := by
  intro x0 x1 x2 x3 x4 h0; unfold sendId; apply ask_kept; assumption

theorem renumber_kept {q : List Instr} : ∀ x0 x1, Kept q x0 → Kept q (renumber x0 x1).1 := by
  intro x0 x1 h0; unfold renumber; extract_lets +onlyGivenNames l1; clear_value l1; extract_lets +onlyGivenNames l2; clear_value l2
  split; with_reducible apply kept_p1; assumption; split; with_reducible apply kept_p1; apply takeId_kept; assumption
  with_reducible apply kept_p1; apply sendId_kept; apply haltNode_kept; assumption

theorem putReport_kept {q : List Instr} : ∀ x0 x1, Kept q x0 → Kept q (putReport x0 x1) := by
  intro x0 x1 h0; unfold putReport; apply kept_mk2; apply kept_mem (q := q); assumption; apply kept_host (q := q); assumption
  apply kept_pending; assumption

theorem noteBoot_kept {q : List Instr} : ∀ x0 x1, Kept q x0 → Kept q (noteBoot x0 x1) := by
  intro x0 x1 h0; unfold noteBoot; split; split; assumption; apply loseNode_kept; assumption; assumption

theorem takeReport_kept {q : List Instr} : ∀ x0 x1, Kept q x0 → Kept q (takeReport x0 x1) := by
  intro x0 x1 h0; unfold takeReport; extract_lets +onlyGivenNames l1; (have k1 : Kept q l1 := ?_; clear_value l1)
  extract_lets +onlyGivenNames l2; (have k2 : Kept q l2.1 := ?_; clear_value l2); extract_lets +onlyGivenNames l3
  (have k3 : Kept q l3 := ?_; clear_value l3); apply recompute_kept; assumption; unfold l3; split; apply putReport_kept; assumption; split
  apply putReport_kept; assumption; extract_lets +onlyGivenNames l13; clear_value l13; split; apply putReport_kept; assumption
  extract_lets +onlyGivenNames l17; (have k17 : Kept q l17.1 := ?_; clear_value l17); split; assumption; apply putReport_kept; apply loseNode_kept; assumption
  unfold l17; apply renumber_kept; apply putReport_kept; assumption; unfold l2; apply renumber_kept; assumption; unfold l1
  apply noteBoot_kept; assumption

theorem standAlone_kept {q : List Instr} : ∀ x0, Kept q x0 → Kept q (standAlone x0) := by
  intro x0 h0; unfold standAlone; extract_lets +onlyGivenNames l1; clear_value l1; extract_lets +onlyGivenNames l2
  (have k2 : Kept q l2 := ?_; clear_value l2); extract_lets +onlyGivenNames l3; (have k3 : Kept q l3 := ?_; clear_value l3)
  apply recompute_kept; apply kept_mk2; apply kept_mem (q := q); assumption; apply kept_host (q := q); assumption; apply kept_pending
  assumption; unfold l3; split; assumption; split; apply takeId_kept; assumption; assumption; unfold l2; apply kept_mk2
  apply kept_mem (q := q); assumption; apply kept_host (q := q); assumption; apply kept_pending; assumption

theorem failCrossing_kept {q : List Instr} : ∀ x0 x1, Kept q x0 → Kept q (failCrossing x0 x1) := by
  intro x0 x1 h0; unfold failCrossing; extract_lets +onlyGivenNames l1; clear_value l1; apply forEach_kept; intro _ _ _; split
  apply failT3_kept; assumption; assumption; assumption

theorem broadcast_kept {q : List Instr} : ∀ x0, Kept q x0 → Kept q (broadcast x0) := by
  intro x0 h0; unfold broadcast; apply forEach_kept; intro _ _ _; split; apply sendLocal_kept; assumption; assumption; assumption

theorem splitOff_kept {q : List Instr} : ∀ x0, Kept q x0 → Kept q (splitOff x0) := by
  intro x0 h0; unfold splitOff; apply broadcast_kept; apply standAlone_kept; apply kept_mk2; apply kept_mem (q := q); assumption
  apply kept_host (q := q); assumption; apply kept_pending; assumption

theorem linkLeft_kept {q : List Instr} : ∀ x0 x1, Kept q x0 → Kept q (linkLeft x0 x1) := by
  intro x0 x1 h0; unfold linkLeft; split; extract_lets +onlyGivenNames l2; clear_value l2; apply forEach_kept; intro _ _ _; split
  split; apply invalidate_kept; assumption; assumption; assumption; apply splitOff_kept; assumption; apply reportOwn_kept; assumption

theorem linkFullPath_kept {q : List Instr} : ∀ x0 x1, Kept q x0 → Kept q (linkFullPath x0 x1) := by
  intro x0 x1 h0; unfold linkFullPath; extract_lets +onlyGivenNames l1; clear_value l1; extract_lets +onlyGivenNames l2
  (have k2 : Kept q l2 := ?_; clear_value l2); apply linkLeft_kept; apply failCrossing_kept; assumption; unfold l2; apply setFport_kept
  assumption

theorem portDown_kept {q : List Instr} : ∀ x0 x1 x2, Kept q x0 → Kept q (portDown x0 x1 x2) := by
  intro x0 x1 x2 h0; unfold portDown; extract_lets +onlyGivenNames l1; clear_value l1; apply linkFullPath_kept; apply raiseAs_kept
  assumption

theorem sendControl_kept {q : List Instr} : ∀ x0 x1 x2 x3, Kept q x0 → Kept q (sendControl x0 x1 x2 x3) := by
  intro x0 x1 x2 x3 h0; unfold sendControl; extract_lets +onlyGivenNames l1; clear_value l1; apply State_emit_kept; apply State_emit_kept
  assumption

theorem crcError_kept {q : List Instr} : ∀ x0 x1 x2, Kept q x0 → Kept q (crcError x0 x1 x2) := by
  intro x0 x1 x2 h0; unfold crcError; extract_lets +onlyGivenNames l1; clear_value l1; extract_lets +onlyGivenNames l2
  (have k2 : Kept q l2 := ?_; clear_value l2); apply sendControl_kept; apply raiseAs_kept; assumption; unfold l2; apply setFport_kept
  assumption

theorem uncorrectable_kept {q : List Instr} : ∀ x0 x1 x2, Kept q x0 → Kept q (uncorrectable x0 x1 x2) := by
  intro x0 x1 x2 h0; unfold uncorrectable; extract_lets +onlyGivenNames l1; clear_value l1; extract_lets +onlyGivenNames l2
  clear_value l2; extract_lets +onlyGivenNames l3; (have k3 : Kept q l3 := ?_; clear_value l3); extract_lets +onlyGivenNames l4
  (have k4 : Kept q l4 := ?_; clear_value l4); split; apply portDown_kept; assumption; apply sendControl_kept; assumption; unfold l4
  apply raiseAs_kept; assumption; unfold l3; apply setFport_kept; assumption

theorem takeLink_kept {q : List Instr} : ∀ x0 x1 x2, Kept q x0 → Kept q (takeLink x0 x1 x2) := by
  intro x0 x1 x2 h0; unfold takeLink; extract_lets +onlyGivenNames l1; clear_value l1; extract_lets +onlyGivenNames l2
  clear_value l2; extract_lets +onlyGivenNames l3; clear_value l3; extract_lets +onlyGivenNames l4; clear_value l4; apply pumpPort_kept
  apply setFport_kept; assumption

theorem acceptFrame_kept {q : List Instr} : ∀ x0 x1 x2 x3, Kept q x0 → Kept q (acceptFrame x0 x1 x2 x3) := by
  intro x0 x1 x2 x3 h0; unfold acceptFrame; extract_lets +onlyGivenNames l1; clear_value l1; extract_lets +onlyGivenNames l2
  clear_value l2; apply State_emit_kept; apply setFport_kept; assumption

theorem receive_kept {q : List Instr} : ∀ x0 x1 x2 x3 x4, Kept q x0 → (∀ y100, Kept q y100 → Kept q (x4 y100)) → KeptOut q (receive x0 x1 x2 x3 x4) := by
  intro x0 x1 x2 x3 x4 h0 h1; unfold receive; extract_lets +onlyGivenNames l1; clear_value l1; apply kept_next; split; assumption
  extract_lets +onlyGivenNames l5; (have k5 : Kept q l5.2 := ?_; clear_value l5); split; apply crcError_kept; assumption
  extract_lets +onlyGivenNames l9; (have k9 : Kept q l9.2 := ?_; clear_value l9); split; apply uncorrectable_kept; assumption
  extract_lets +onlyGivenNames l13; (have k13 : Kept q l13 := ?_; clear_value l13); split; apply sendControl_kept; assumption; apply h1
  apply acceptFrame_kept; assumption; unfold l13; apply takeLink_kept; assumption; unfold l9; apply takeInjection_kept; assumption
  unfold l5; apply takeInjection_kept; assumption

theorem relay_kept {q : List Instr} : ∀ x0 x1 x2 x3 x4, Kept q x0 → Kept q (relay x0 x1 x2 x3 x4) := by
  intro x0 x1 x2 x3 x4 h0; unfold relay; apply forward_kept; assumption

theorem atDest_kept {q : List Instr} : ∀ x0 x1 x2 x3 x4 x5 x6, Kept q x0 → (∀ y100, Kept q y100 → Kept q (x6 y100)) → KeptOut q (atDest x0 x1 x2 x3 x4 x5 x6) := by
  intro x0 x1 x2 x3 x4 x5 x6 h0 h1; unfold atDest; apply receive_kept; assumption; intro _ _; split; apply h1; assumption
  apply relay_kept; assumption

theorem answerPeer_kept {q : List Instr} : ∀ x0 x1 x2 x3, Kept q x0 → Kept q (answerPeer x0 x1 x2 x3) := by
  intro x0 x1 x2 x3 h0; unfold answerPeer; apply sendFrame_kept; assumption

theorem failPeer_kept {q : List Instr} : ∀ x0 x1 x2, Kept q x0 → Kept q (failPeer x0 x1 x2) := by
  intro x0 x1 x2 h0; unfold failPeer; apply answerPeer_kept; assumption

theorem presentPeer_kept {q : List Instr} : ∀ x0 x1 x2, Kept q x0 → Kept q (presentPeer x0 x1 x2) := by
  intro x0 x1 x2 h0; unfold presentPeer; apply present_kept; assumption

theorem execWriteRequest_kept {q : List Instr} : ∀ x0 x1 x2 x3, Kept q x3 → KeptOut q (execWriteRequest x0 x1 x2 x3) := by
  intro x0 x1 x2 x3 h0; unfold execWriteRequest; apply atDest_kept; assumption; intro _ _; extract_lets +onlyGivenNames l5
  clear_value l5; split; apply failPeer_kept; assumption; extract_lets +onlyGivenNames l9; (have k9 : Kept q l9.1 := ?_; clear_value l9)
  split; apply answerPeer_kept; assumption; apply failPeer_kept; assumption; unfold l9; apply localWrite_kept; apply presentPeer_kept
  assumption

theorem execReadRequest_kept {q : List Instr} : ∀ x0 x1 x2 x3, Kept q x3 → KeptOut q (execReadRequest x0 x1 x2 x3) := by
  intro x0 x1 x2 x3 h0; unfold execReadRequest; extract_lets +onlyGivenNames l1; clear_value l1; apply atDest_kept; assumption
  intro _ _; extract_lets +onlyGivenNames l6; clear_value l6; split; apply failPeer_kept; assumption; extract_lets +onlyGivenNames l10
  (have k10 : Kept q l10.1 := ?_; clear_value l10); split; apply answerPeer_kept; assumption; apply failPeer_kept; assumption; unfold l10
  apply localRead_kept; apply presentPeer_kept; assumption

theorem execReadData_kept {q : List Instr} : ∀ x0 x1 x2 x3, Kept q x3 → KeptOut q (execReadData x0 x1 x2 x3) := by
  intro x0 x1 x2 x3 h0; unfold execReadData; apply atDest_kept; assumption; intro _ _; split; assumption; split; apply checkPhase_kept
  apply kept_mk2; apply kept_mem (q := q); assumption; apply kept_write; apply kept_host (q := q); assumption; apply kept_pending; assumption
  assumption

theorem execWriteAcknowledgement_kept {q : List Instr} : ∀ x0 x1 x2, Kept q x2 → KeptOut q (execWriteAcknowledgement x0 x1 x2) := by
  intro x0 x1 x2 h0; unfold execWriteAcknowledgement; apply atDest_kept; assumption; intro _ _; split; assumption; split; assumption
  apply checkPhase_kept; apply kept_mk2; apply kept_mem (q := q); assumption; apply kept_host (q := q); assumption; apply kept_pending
  assumption

theorem execFailureResponse_kept {q : List Instr} : ∀ x0 x1 x2 x3, Kept q x3 → KeptOut q (execFailureResponse x0 x1 x2 x3) := by
  intro x0 x1 x2 x3 h0; unfold execFailureResponse; apply atDest_kept; assumption; intro _ _; split; assumption; apply checkPhase_kept
  apply failT3_kept; assumption

theorem replayAll_kept {q : List Instr} : ∀ x0 x1, Kept q x0 → Kept q (replayAll x0 x1) := by
  intro x0 x1 h0; unfold replayAll; extract_lets +onlyGivenNames l1; clear_value l1; extract_lets +onlyGivenNames l2
  (have k2 : Kept q l2 := ?_; clear_value l2); extract_lets +onlyGivenNames l3; (have k3 : Kept q l3 := ?_; clear_value l3)
  apply forEach_kept; intro _ _ _; apply State_emit_kept; assumption; assumption; unfold l3; apply setFport_kept; assumption; unfold l2
  apply patCount_kept; assumption

theorem execLinkControl_kept {q : List Instr} : ∀ x0 x1 x2, Kept q x2 → KeptOut q (execLinkControl x0 x1 x2) := by
  intro x0 x1 x2 h0; unfold execLinkControl; extract_lets +onlyGivenNames l1; clear_value l1; extract_lets +onlyGivenNames l2
  clear_value l2; apply kept_next; split; assumption; extract_lets +onlyGivenNames l6; (have k6 : Kept q l6.2 := ?_; clear_value l6)
  split; apply crcError_kept; assumption; extract_lets +onlyGivenNames l10; (have k10 : Kept q l10.2 := ?_; clear_value l10); split
  apply uncorrectable_kept; assumption; extract_lets +onlyGivenNames l14; clear_value l14; extract_lets +onlyGivenNames l15
  (have k15 : Kept q l15 := ?_; clear_value l15); split; apply portDown_kept; assumption; split; assumption; apply replayAll_kept
  assumption; unfold l15; apply takeLink_kept; apply setFport_kept; assumption; unfold l10; apply takeInjection_kept; assumption; unfold l6
  apply takeInjection_kept; assumption

theorem execReservedFrameType_kept {q : List Instr} : ∀ x0 x1 x2, Kept q x2 → KeptOut q (execReservedFrameType x0 x1 x2) := by
  intro x0 x1 x2 h0; unfold execReservedFrameType; apply kept_next; apply onlyIf_kept; assumption; apply crcError_kept; assumption

theorem managed_kept {q : List Instr} : ∀ x0 x1 x2 x3, Kept q x0 → (∀ y100, Kept q y100 → Kept q (x3 y100)) → KeptOut q (managed x0 x1 x2 x3) := by
  intro x0 x1 x2 x3 h0 h1; unfold managed; apply kept_next; apply onlyIf_kept; assumption; apply h1; apply acceptFrame_kept; assumption

theorem execWindowRead_kept {q : List Instr} : ∀ x0 x1 x2 x3 x4 x5 x6, Kept q x6 → KeptOut q (execWindowRead x0 x1 x2 x3 x4 x5 x6) := by
  intro x0 x1 x2 x3 x4 x5 x6 h0; unfold execWindowRead; apply managed_kept; assumption; intro _ _; split; apply answer_kept; assumption
  extract_lets +onlyGivenNames l8; (have k8 : Kept q l8.1 := ?_; clear_value l8); apply answer_kept; assumption; unfold l8
  apply windowReadOf_kept; assumption

theorem execWindowWrite_kept {q : List Instr} : ∀ x0 x1 x2 x3 x4 x5 x6 x7, Kept q x7 → KeptOut q (execWindowWrite x0 x1 x2 x3 x4 x5 x6 x7) := by
  intro x0 x1 x2 x3 x4 x5 x6 x7 h0; unfold execWindowWrite; apply managed_kept; assumption; intro _ _; split; apply answer_kept
  assumption; apply answer_kept; apply windowWriteOf_kept; assumption

theorem execUndefinedKindRequest_kept {q : List Instr} : ∀ x0 x1 x2 x3 x4, Kept q x4 → KeptOut q (execUndefinedKindRequest x0 x1 x2 x3 x4) := by
  intro x0 x1 x2 x3 x4 h0; unfold execUndefinedKindRequest; apply managed_kept; assumption; intro _ _; split; assumption
  apply answer_kept; assumption

theorem execWindowAccessResponse_kept {q : List Instr} : ∀ x0 x1 x2 x3 x4, Kept q x4 → KeptOut q (execWindowAccessResponse x0 x1 x2 x3 x4) := by
  intro x0 x1 x2 x3 x4 h0; unfold execWindowAccessResponse; apply managed_kept; assumption; intro _ _; split; assumption
  extract_lets +onlyGivenNames l7; clear_value l7; extract_lets +onlyGivenNames l8; (have k8 : Kept q l8 := ?_; clear_value l8); split
  apply State_emit_kept; assumption; assumption; unfold l8; apply kept_mk2; apply kept_mem (q := q); assumption; apply kept_host (q := q)
  assumption; apply kept_pending; assumption

theorem execManagementRequestTimeout_kept {q : List Instr} : ∀ x0 x1, Kept q x1 → KeptOut q (execManagementRequestTimeout x0 x1) := by
  intro x0 x1 h0; unfold execManagementRequestTimeout; apply kept_next; split; assumption; extract_lets +onlyGivenNames l4
  clear_value l4; extract_lets +onlyGivenNames l5; (have k5 : Kept q l5 := ?_; clear_value l5); split; apply complete_kept; assumption
  assumption; unfold l5; apply kept_mk2; apply kept_mem (q := q); assumption; apply kept_host (q := q); assumption; apply kept_pending
  assumption

theorem adopt_kept {q : List Instr} : ∀ x0 x1 x2 x3, Kept q x0 → Kept q (adopt x0 x1 x2 x3) := by
  intro x0 x1 x2 x3 h0; unfold adopt; extract_lets +onlyGivenNames l1; clear_value l1; apply reportOwn_kept; apply broadcast_kept
  apply kept_mk2; apply kept_mem (q := q); assumption; apply kept_host (q := q); assumption; apply kept_pending; assumption

theorem execLowestIdentity_kept {q : List Instr} : ∀ x0 x1 x2 x3, Kept q x3 → KeptOut q (execLowestIdentity x0 x1 x2 x3) := by
  intro x0 x1 x2 x3 h0; unfold execLowestIdentity; apply managed_kept; assumption; intro _ _; split; apply adopt_kept; assumption; split
  extract_lets +onlyGivenNames l9; (have k9 : Kept q l9 := ?_; clear_value l9); split; apply adopt_kept; assumption; assumption
  unfold l9; apply splitOff_kept; assumption; split; extract_lets +onlyGivenNames l18; clear_value l18
  extract_lets +onlyGivenNames l19; (have k19 : Kept q l19 := ?_; clear_value l19); apply reportOwn_kept; apply broadcast_kept; assumption
  unfold l19; apply loseNode_kept; apply kept_mk2; apply kept_mem (q := q); assumption; apply kept_host (q := q); assumption
  apply kept_pending; assumption; assumption

theorem fullService_kept {q : List Instr} : ∀ x0, Kept q x0 → Kept q (fullService x0) := by
  intro x0 h0; unfold fullService; split; apply kept_mk2; apply kept_mem (q := q); assumption; apply kept_host (q := q); assumption
  apply kept_pending; assumption; assumption

theorem execIdentityBroadcast_kept {q : List Instr} : ∀ x0, Kept q x0 → KeptOut q (execIdentityBroadcast x0) := by
  intro x0 h0; unfold execIdentityBroadcast; apply kept_next; apply onlyIf_kept; assumption; apply broadcast_kept; apply fullService_kept
  assumption

theorem execReport_kept {q : List Instr} : ∀ x0 x1 x2 x3, Kept q x3 → KeptOut q (execReport x0 x1 x2 x3) := by
  intro x0 x1 x2 x3 h0; unfold execReport; apply managed_kept; assumption; intro _ _; split; apply answer_kept; apply takeReport_kept
  assumption; assumption

theorem peerRenumbered_kept {q : List Instr} : ∀ x0 x1 x2, Kept q x0 → Kept q (peerRenumbered x0 x1 x2) := by
  intro x0 x1 x2 h0; unfold peerRenumbered; apply forEach_kept; intro _ _ _; extract_lets +onlyGivenNames l5; clear_value l5; split
  apply setFport_kept; apply haltNode_kept; apply loseNode_kept; assumption; assumption; assumption

theorem execIdAssignment_kept {q : List Instr} : ∀ x0 x1 x2 x3 x4 x5, Kept q x5 → KeptOut q (execIdAssignment x0 x1 x2 x3 x4 x5) := by
  intro x0 x1 x2 x3 x4 x5 h0; unfold execIdAssignment; apply managed_kept; assumption; intro _ _; split; apply answer_kept; assumption
  split; apply reportOwn_kept; apply answer_kept; apply takeId_kept; assumption; apply peerRenumbered_kept; assumption

theorem execRouteEntries_kept {q : List Instr} : ∀ x0 x1 x2 x3 x4 x5, Kept q x5 → KeptOut q (execRouteEntries x0 x1 x2 x3 x4 x5) := by
  intro x0 x1 x2 x3 x4 x5 h0; unfold execRouteEntries; apply managed_kept; assumption; intro _ _; split; apply answer_kept; assumption
  apply phaseOne_kept; apply answer_kept; assumption

theorem reissue_kept {q : List Instr} : ∀ x0 x1, Kept q x0 → Kept q (reissue x0 x1) := by
  intro x0 x1 h0; unfold reissue; extract_lets +onlyGivenNames l1; clear_value l1; extract_lets +onlyGivenNames l2; clear_value l2
  extract_lets +onlyGivenNames l3; (have k3 : Kept q l3 := ?_; clear_value l3); extract_lets +onlyGivenNames l4; clear_value l4
  extract_lets +onlyGivenNames l5; clear_value l5; apply sendT3_kept; assumption; unfold l3; apply kept_mk2; apply kept_mem (q := q)
  assumption; apply kept_host (q := q); assumption; apply kept_pending; assumption

theorem execRoutePhaseReissue_kept {q : List Instr} : ∀ x0, Kept q x0 → KeptOut q (execRoutePhaseReissue x0) := by
  intro x0 h0; unfold execRoutePhaseReissue; apply kept_next; apply onlyIf_kept; assumption; apply reportPhaseDone_kept; apply forEach_kept
  intro _ _ _; apply reissue_kept; assumption; assumption

theorem execPhaseDone_kept {q : List Instr} : ∀ x0 x1 x2 x3 x4, Kept q x4 → KeptOut q (execPhaseDone x0 x1 x2 x3 x4) := by
  intro x0 x1 x2 x3 x4 h0; unfold execPhaseDone; apply managed_kept; assumption; intro _ _; extract_lets +onlyGivenNames l5
  (have k5 : Kept q l5 := ?_; clear_value l5); split; apply phaseDoneBy_kept; assumption; assumption; unfold l5; apply answer_kept
  assumption

theorem execRelease_kept {q : List Instr} : ∀ x0 x1 x2 x3, Kept q x3 → KeptOut q (execRelease x0 x1 x2 x3) := by
  intro x0 x1 x2 x3 h0; unfold execRelease; apply managed_kept; assumption; intro _ _; extract_lets +onlyGivenNames l5
  (have k5 : Kept q l5 := ?_; clear_value l5); split; apply install_kept; assumption; assumption; unfold l5; apply answer_kept; assumption

theorem execReservationRequest_kept {q : List Instr} : ∀ x0 x1 x2 x3 x4 x5 x6 x7, Kept q x7 → KeptOut q (execReservationRequest x0 x1 x2 x3 x4 x5 x6 x7) := by
  intro x0 x1 x2 x3 x4 x5 x6 x7 h0; unfold execReservationRequest; apply managed_kept; assumption; intro _ _
  extract_lets +onlyGivenNames l5; clear_value l5; extract_lets +onlyGivenNames l6; (have k6 : Kept q l6 := ?_; clear_value l6); split
  apply answer_kept; assumption; split; apply answer_kept; assumption; extract_lets +onlyGivenNames l13
  (have k13 : Kept q l13.1 := ?_; clear_value l13); apply answer_kept; assumption; unfold l13; apply grantRange_kept; apply State_fresh_kept
  assumption; unfold l6; apply reclaim_kept; assumption

theorem execReservationResponse_kept {q : List Instr} : ∀ x0 x1 x2 x3 x4 x5 x6, Kept q x6 → KeptOut q (execReservationResponse x0 x1 x2 x3 x4 x5 x6) := by
  intro x0 x1 x2 x3 x4 x5 x6 h0; unfold execReservationResponse; apply managed_kept; assumption; intro _ _
  extract_lets +onlyGivenNames l5; clear_value l5; extract_lets +onlyGivenNames l6; clear_value l6; extract_lets +onlyGivenNames l7
  clear_value l7; extract_lets +onlyGivenNames l8; (have k8 : Kept q l8 := ?_; clear_value l8); split; split; apply placeGranted_kept
  assumption; apply complete_kept; assumption; split; apply ask_kept; assumption; assumption; unfold l8; apply kept_mk2
  apply kept_mem (q := q); assumption; apply kept_host (q := q); assumption; apply kept_pending; assumption

theorem execReservationRelease_kept {q : List Instr} : ∀ x0 x1 x2 x3 x4, Kept q x4 → KeptOut q (execReservationRelease x0 x1 x2 x3 x4) := by
  intro x0 x1 x2 x3 x4 h0; unfold execReservationRelease; apply managed_kept; assumption; intro _ _; apply answer_kept; apply kept_mk2
  apply kept_mem (q := q); assumption; apply kept_host (q := q); assumption; apply kept_pending; assumption

theorem execReservationFailureNotice_kept {q : List Instr} : ∀ x0 x1 x2 x3 x4, Kept q x4 → KeptOut q (execReservationFailureNotice x0 x1 x2 x3 x4) := by
  intro x0 x1 x2 x3 x4 h0; unfold execReservationFailureNotice; apply managed_kept; assumption; intro _ _; apply forEach_kept
  intro _ _ _; apply failReservation_kept; assumption; assumption

theorem execT3RequestTimeout_kept {q : List Instr} : ∀ x0 x1, Kept q x1 → KeptOut q (execT3RequestTimeout x0 x1) := by
  intro x0 x1 h0; unfold execT3RequestTimeout; apply kept_next; split; assumption; split; apply checkPhase_kept; apply failT3_kept
  apply raise_kept; assumption; assumption

theorem execCreditTimeout_kept {q : List Instr} : ∀ x0 x1 x2, Kept q x2 → KeptOut q (execCreditTimeout x0 x1 x2) := by
  intro x0 x1 x2 h0; unfold execCreditTimeout; extract_lets +onlyGivenNames l1; clear_value l1; extract_lets +onlyGivenNames l2
  (have k2 : Kept q l2.2 := ?_; clear_value l2); apply kept_next; apply onlyIf_kept; assumption; extract_lets +onlyGivenNames l6
  (have k6 : Kept q l6 := ?_; clear_value l6); extract_lets +onlyGivenNames l7; clear_value l7; extract_lets +onlyGivenNames l8
  (have k8 : Kept q l8 := ?_; clear_value l8); apply linkFullPath_kept; apply raiseAs_kept; assumption; unfold l8; apply setFport_kept
  assumption; unfold l6; assumption; unfold l2; apply takeInjection_kept; assumption

theorem loseLink_kept {q : List Instr} : ∀ x0 x1, Kept q x0 → Kept q (loseLink x0 x1) := by
  intro x0 x1 h0; unfold loseLink; split; extract_lets +onlyGivenNames l2; (have k2 : Kept q l2.2 := ?_; clear_value l2)
  apply portDown_kept; assumption; unfold l2; apply takeInjection_kept; assumption; split; apply setFport_kept; assumption; assumption

theorem execLinkIdleTimeout_kept {q : List Instr} : ∀ x0 x1, Kept q x1 → KeptOut q (execLinkIdleTimeout x0 x1) := by
  intro x0 x1 h0; unfold execLinkIdleTimeout; apply kept_next; apply onlyIf_kept; assumption; apply loseLink_kept; assumption

theorem execLinkSignalLoss_kept {q : List Instr} : ∀ x0 x1, Kept q x1 → KeptOut q (execLinkSignalLoss x0 x1) := by
  intro x0 x1 h0; unfold execLinkSignalLoss; apply kept_next; apply loseLink_kept; assumption

theorem execLinkIdleFrameSend_kept {q : List Instr} : ∀ x0 x1, Kept q x1 → KeptOut q (execLinkIdleFrameSend x0 x1) := by
  intro x0 x1 h0; unfold execLinkIdleFrameSend; extract_lets +onlyGivenNames l1; clear_value l1; apply kept_next; apply onlyIf_kept
  assumption; apply sendControl_kept; assumption

theorem execSignalDetect_kept {q : List Instr} : ∀ x0 x1, Kept q x1 → KeptOut q (execSignalDetect x0 x1) := by
  intro x0 x1 h0; unfold execSignalDetect; extract_lets +onlyGivenNames l1; clear_value l1; apply kept_next; apply onlyIf_kept
  assumption; apply setFport_kept; apply patCount_kept; assumption

theorem execTrainingBoundMiss_kept {q : List Instr} : ∀ x0 x1, Kept q x1 → KeptOut q (execTrainingBoundMiss x0 x1) := by
  intro x0 x1 h0; unfold execTrainingBoundMiss; apply kept_next; apply onlyIf_kept; assumption; apply setFport_kept; assumption

theorem execTrainingComplete_kept {q : List Instr} : ∀ x0 x1 x2, Kept q x2 → KeptOut q (execTrainingComplete x0 x1 x2) := by
  intro x0 x1 x2 h0; unfold execTrainingComplete; extract_lets +onlyGivenNames l1; clear_value l1; apply kept_next; apply onlyIf_kept
  assumption; extract_lets +onlyGivenNames l5; clear_value l5; split; apply setFport_kept; assumption; extract_lets +onlyGivenNames l9
  (have k9 : Kept q l9.2 := ?_; clear_value l9); extract_lets +onlyGivenNames l10; clear_value l10; extract_lets +onlyGivenNames l11
  clear_value l11; extract_lets +onlyGivenNames l12; (have k12 : Kept q l12 := ?_; clear_value l12); apply sendLocal_kept; assumption
  unfold l12; apply setFport_kept; assumption; unfold l9; apply State_fresh_kept; assumption

theorem execLinkFullPathEnd_kept {q : List Instr} : ∀ x0 x1, Kept q x1 → KeptOut q (execLinkFullPathEnd x0 x1) := by
  intro x0 x1 h0; unfold execLinkFullPathEnd; extract_lets +onlyGivenNames l1; clear_value l1; apply kept_next; apply onlyIf_kept
  assumption; apply setFport_kept; assumption

theorem execEqualisationUpdate_kept {q : List Instr} : ∀ x0 x1, Kept q x1 → KeptOut q (execEqualisationUpdate x0 x1) := by
  intro x0 x1 h0; unfold execEqualisationUpdate; apply kept_next; apply onlyIf_kept; assumption; extract_lets +onlyGivenNames l4
  (have k4 : Kept q l4.2 := ?_; clear_value l4); extract_lets +onlyGivenNames l5; clear_value l5; apply sendControl_kept
  apply setFport_kept; assumption; unfold l4; apply State_fresh_kept; assumption

theorem execWidthChange_kept {q : List Instr} : ∀ x0 x1 x2, Kept q x2 → KeptOut q (execWidthChange x0 x1 x2) := by
  intro x0 x1 x2 h0; unfold execWidthChange; extract_lets +onlyGivenNames l1; clear_value l1; extract_lets +onlyGivenNames l2
  clear_value l2; extract_lets +onlyGivenNames l3; (have k3 : Kept q l3.2 := ?_; clear_value l3); extract_lets +onlyGivenNames l4
  clear_value l4; extract_lets +onlyGivenNames l5; clear_value l5; apply kept_next; apply onlyIf_kept; assumption; split
  apply portDown_kept; assumption; extract_lets +onlyGivenNames l12; clear_value l12; extract_lets +onlyGivenNames l13; clear_value l13
  extract_lets +onlyGivenNames l14; (have k14 : Kept q l14 := ?_; clear_value l14); apply raiseAs_kept; apply patCount_kept; assumption
  unfold l14; apply setFport_kept; assumption; unfold l3; apply takeInjection_kept; assumption

theorem execRetrainComplete_kept {q : List Instr} : ∀ x0 x1, Kept q x1 → KeptOut q (execRetrainComplete x0 x1) := by
  intro x0 x1 h0; unfold execRetrainComplete; extract_lets +onlyGivenNames l1; clear_value l1; apply kept_next; apply onlyIf_kept
  assumption; apply pumpPort_kept; apply replayAll_kept; apply setFport_kept; assumption

theorem refuse_kept {q : List Instr} : ∀ x0 x1, Kept q x0 → Kept q (refuse x0 x1) := by
  intro x0 x1 h0; unfold refuse; extract_lets +onlyGivenNames l1; clear_value l1; extract_lets +onlyGivenNames l2; clear_value l2
  extract_lets +onlyGivenNames l3; (have k3 : Kept q l3 := ?_; clear_value l3); extract_lets +onlyGivenNames l4; clear_value l4
  extract_lets +onlyGivenNames l5; (have k5 : Kept q l5 := ?_; clear_value l5); split; apply linkLeft_kept; apply failCrossing_kept
  assumption; assumption; unfold l5; apply kept_mk2; apply kept_mem (q := q); assumption; apply kept_host (q := q); assumption
  apply kept_pending; assumption; unfold l3; apply setFport_kept; assumption

theorem portUp_kept {q : List Instr} : ∀ x0 x1, Kept q x0 → Kept q (portUp x0 x1) := by
  intro x0 x1 h0; unfold portUp; extract_lets +onlyGivenNames l1; clear_value l1; extract_lets +onlyGivenNames l2; clear_value l2
  extract_lets +onlyGivenNames l3; (have k3 : Kept q l3.2 := ?_; clear_value l3); extract_lets +onlyGivenNames l4
  (have k4 : Kept q l4 := ?_; clear_value l4); extract_lets +onlyGivenNames l5; clear_value l5; extract_lets +onlyGivenNames l6
  (have k6 : Kept q l6 := ?_; clear_value l6); extract_lets +onlyGivenNames l7; (have k7 : Kept q l7 := ?_; clear_value l7)
  apply pumpPort_kept; apply reportOwn_kept; assumption; unfold l7; apply sendLocal_kept; assumption; unfold l6; apply kept_mk2
  apply kept_mem (q := q); assumption; apply kept_host (q := q); assumption; apply kept_pending; assumption; unfold l4; apply setFport_kept
  assumption; unfold l3; apply State_fresh_kept; assumption

theorem settle_kept {q : List Instr} : ∀ x0 x1, Kept q x0 → Kept q (settle x0 x1) := by
  intro x0 x1 h0; unfold settle; extract_lets +onlyGivenNames l1; clear_value l1; split; assumption; split; apply refuse_kept
  assumption; split; apply raise_kept; apply refuse_kept; assumption; extract_lets +onlyGivenNames l11
  (have k11 : Kept q l11.2 := ?_; clear_value l11); extract_lets +onlyGivenNames l12; (have k12 : Kept q l12 := ?_; clear_value l12)
  apply portUp_kept; assumption; unfold l12; split; apply raiseAs_kept; assumption; assumption; unfold l11; apply takeInjection_kept
  assumption

theorem execHelloNonce_kept {q : List Instr} : ∀ x0 x1 x2 x3, Kept q x3 → KeptOut q (execHelloNonce x0 x1 x2 x3) := by
  intro x0 x1 x2 x3 h0; unfold execHelloNonce; extract_lets +onlyGivenNames l1; clear_value l1; apply kept_next; apply onlyIf_kept
  assumption; extract_lets +onlyGivenNames l5; (have k5 : Kept q l5 := ?_; clear_value l5); extract_lets +onlyGivenNames l6
  clear_value l6; extract_lets +onlyGivenNames l7; (have k7 : Kept q l7 := ?_; clear_value l7); split; extract_lets +onlyGivenNames l9
  clear_value l9; extract_lets +onlyGivenNames l10; (have k10 : Kept q l10 := ?_; clear_value l10); apply refuse_kept; apply sendLocal_kept
  assumption; unfold l10; apply setFport_kept; assumption; extract_lets +onlyGivenNames l17; clear_value l17
  extract_lets +onlyGivenNames l18; clear_value l18; extract_lets +onlyGivenNames l19; clear_value l19; apply sendLocal_kept
  assumption; unfold l7; apply setFport_kept; assumption; unfold l5; apply acceptFrame_kept; assumption

theorem execHelloProof_kept {q : List Instr} : ∀ x0 x1 x2 x3 x4 x5, Kept q x5 → KeptOut q (execHelloProof x0 x1 x2 x3 x4 x5) := by
  intro x0 x1 x2 x3 x4 x5 h0; unfold execHelloProof; extract_lets +onlyGivenNames l1; clear_value l1; apply kept_next; apply onlyIf_kept
  assumption; extract_lets +onlyGivenNames l5; (have k5 : Kept q l5 := ?_; clear_value l5); extract_lets +onlyGivenNames l6
  (have k6 : Kept q l6.2 := ?_; clear_value l6); extract_lets +onlyGivenNames l7; (have k7 : Kept q l7 := ?_; clear_value l7)
  extract_lets +onlyGivenNames l8; clear_value l8; extract_lets +onlyGivenNames l9; clear_value l9; extract_lets +onlyGivenNames l10
  clear_value l10; extract_lets +onlyGivenNames l11; (have k11 : Kept q l11 := ?_; clear_value l11); extract_lets +onlyGivenNames l12
  (have k12 : Kept q l12 := ?_; clear_value l12); extract_lets +onlyGivenNames l13; (have k13 : Kept q l13 := ?_; clear_value l13); split
  apply settle_kept; assumption; apply refuse_kept; assumption; unfold l13; split; assumption; apply raiseAs_kept; assumption; unfold l12
  apply sendLocal_kept; assumption; unfold l11; apply setFport_kept; assumption; unfold l7; assumption; unfold l6; apply takeInjection_kept
  assumption; unfold l5; apply acceptFrame_kept; assumption

theorem readmit_kept {q : List Instr} : ∀ x0 x1, Kept q x0 → Kept q (readmit x0 x1) := by
  intro x0 x1 h0; unfold readmit; extract_lets +onlyGivenNames l1; clear_value l1; split; apply portUp_kept; assumption; assumption

theorem execHelloVerdict_kept {q : List Instr} : ∀ x0 x1 x2 x3, Kept q x3 → KeptOut q (execHelloVerdict x0 x1 x2 x3) := by
  intro x0 x1 x2 x3 h0; unfold execHelloVerdict; extract_lets +onlyGivenNames l1; clear_value l1; extract_lets +onlyGivenNames l2
  clear_value l2; apply kept_next; apply onlyIf_kept; assumption; extract_lets +onlyGivenNames l6; clear_value l6
  extract_lets +onlyGivenNames l7; (have k7 : Kept q l7 := ?_; clear_value l7); split; split; assumption; apply refuse_kept; assumption
  split; apply readmit_kept; assumption; split; apply refuse_kept; assumption; apply settle_kept; assumption; unfold l7; apply setFport_kept; apply acceptFrame_kept; assumption

theorem execFabricStatus_kept {q : List Instr} : ∀ x0 x1 x2 x3, Kept q x3 → KeptOut q (execFabricStatus x0 x1 x2 x3) := by
  intro x0 x1 x2 x3 h0; unfold execFabricStatus; apply command_kept; assumption; intro _ _; split; apply complete_kept; assumption
  apply replyBuf_kept; assumption; intro _ _; apply complete_kept; assumption

theorem policyToPorts_kept {q : List Instr} : ∀ x0, Kept q x0 → Kept q (policyToPorts x0) := by
  intro x0 h0; unfold policyToPorts; apply forEach_kept; intro _ _ _; split; apply refuse_kept; apply sendLocal_kept; apply setFport_kept
  assumption; split; apply readmit_kept; apply sendLocal_kept; apply setFport_kept; assumption; assumption; assumption

theorem setPolicy_kept {q : List Instr} : ∀ x0 x1 x2, Kept q x0 → Kept q (setPolicy x0 x1 x2) := by
  intro x0 x1 x2 h0; unfold setPolicy; apply policyToPorts_kept; apply kept_mk2; apply kept_mem (q := q); assumption
  apply kept_host (q := q); assumption; apply kept_pending; assumption

theorem execFabricJoinPolicy_kept {q : List Instr} : ∀ x0 x1 x2 x3 x4 x5, Kept q x5 → KeptOut q (execFabricJoinPolicy x0 x1 x2 x3 x4 x5) := by
  intro x0 x1 x2 x3 x4 x5 h0; unfold execFabricJoinPolicy; apply command0_kept; assumption; intro _ _; split; apply complete_kept
  assumption; split; apply complete_kept; apply setPolicy_kept; assumption; apply withBuf_kept; assumption; intro _ _ _; apply complete_kept
  apply setPolicy_kept; assumption

theorem execReliefApply_kept {q : List Instr} : ∀ x0 x1 x2 x3, Kept q x3 → KeptOut q (execReliefApply x0 x1 x2 x3) := by
  intro x0 x1 x2 x3 h0; unfold execReliefApply; apply command0_kept; assumption; intro _ _; split; apply complete_kept
  refine kept_fst (by assumption) ?_; apply checkRelief_kept; assumption; split; apply complete_kept; refine kept_fst (by assumption) ?_
  apply checkRelief_kept; assumption; extract_lets +onlyGivenNames l15; clear_value l15; extract_lets +onlyGivenNames l16
  (have k16 : Kept q l16.1 := ?_; clear_value l16); split; apply complete_kept; apply policyToPorts_kept; apply switchRelief_kept; assumption
  apply complete_kept; assumption; unfold l16; apply kept_foldl_fst; intro _ _ _; split; apply takeWays_kept; assumption; assumption
  with_reducible apply kept_p1; refine kept_fst (by assumption) ?_; apply checkRelief_kept; assumption

theorem emptyRing_kept {q : List Instr} : ∀ x0 x1 x2 x3, Kept q x0 → Kept q (emptyRing x0 x1 x2 x3) := by
  intro x0 x1 x2 x3 h0; unfold emptyRing; split; extract_lets +onlyGivenNames l2; (have k2 : Kept q l2 := ?_; clear_value l2)
  apply objSetWord_kept; apply objSetWord_kept; assumption; unfold l2; apply placeZero_kept; assumption; assumption

theorem createPort_kept {q : List Instr} : ∀ x0 x1 x2 x3 x4, Kept q x0 → Kept q (createPort x0 x1 x2 x3 x4) := by
  intro x0 x1 x2 x3 x4 h0; unfold createPort; extract_lets +onlyGivenNames l1; clear_value l1; extract_lets +onlyGivenNames l2
  clear_value l2; split; assumption; split; assumption; extract_lets +onlyGivenNames l7; clear_value l7; apply emptyRing_kept
  apply State_setObj_kept; apply State_fresh_kept; assumption

theorem createPorts_kept {q : List Instr} : ∀ x0, Kept q x0 → Kept q (createPorts x0) := by
  intro x0 h0; unfold createPorts; apply forEach_kept; intro _ _ _; split; apply createPort_kept; assumption; assumption; assumption

theorem renewPorts_kept {q : List Instr} : ∀ x0 x1, Kept q x0 → Kept q (renewPorts x0 x1) := by
  intro x0 x1 h0; unfold renewPorts; extract_lets +onlyGivenNames l1; (have k1 : Kept q l1 := ?_; clear_value l1); apply createPorts_kept
  assumption; unfold l1; apply forEach_kept; intro _ _ _; split; split; apply emptyRing_kept; assumption; assumption; assumption
  assumption

theorem flushBoundary_kept {q : List Instr} : ∀ x0, Kept q x0 → Kept q (flushBoundary x0) := by
  intro x0 h0; unfold flushBoundary; split; extract_lets +onlyGivenNames l2; clear_value l2; apply forEach_kept; intro _ _ _
  apply portIngress_kept; assumption; apply kept_mk2; apply kept_mem (q := q); assumption; apply kept_host (q := q); assumption
  apply kept_pending; assumption; assumption

end Sys2Proof.Machine
end

