-- ==== Sys2Proof/Laws/KeptModule.lean ====
section
/-! SUPPORT. What keeps both memories in canonical form and leaves the queue of commands alone: faults, the start of the module, power, Patina and the ports. -/

open Sys2Proof

namespace Sys2Proof.Machine

theorem raiseHang_kept {q : List Instr} : ∀ x0 x1 x2, Kept q x0 → Kept q (raiseHang x0 x1 x2) := by
  intro x0 x1 x2 h0; unfold raiseHang; extract_lets +onlyGivenNames l1; clear_value l1; extract_lets +onlyGivenNames l2
  clear_value l2; extract_lets +onlyGivenNames l3; clear_value l3; extract_lets +onlyGivenNames l4; clear_value l4
  extract_lets +onlyGivenNames l5; (have k5 : Kept q l5 := ?_; clear_value l5); apply forEach_kept; intro _ _ _; split; apply updTile_kept
  assumption; assumption; assumption; unfold l5; apply detect_kept; apply kept_mk2; apply kept_mem (q := q); assumption
  apply kept_host (q := q); assumption; apply kept_pending; assumption

theorem execHangCheck_kept {q : List Instr} : ∀ x0, Kept q x0 → KeptOut q (execHangCheck x0) := by
  intro x0 h0; unfold execHangCheck; extract_lets +onlyGivenNames l1; clear_value l1; extract_lets +onlyGivenNames l2; clear_value l2
  extract_lets +onlyGivenNames l3; clear_value l3; extract_lets +onlyGivenNames l4; clear_value l4; extract_lets +onlyGivenNames l5
  (have k5 : Kept q l5 := ?_; clear_value l5); apply kept_next; apply forEach_kept; intro _ _ _; apply raiseHang_kept; assumption; assumption
  unfold l5; apply kept_mk2; apply kept_mem (q := q); assumption; apply kept_host (q := q); assumption; apply kept_pending; assumption

theorem execDetectorEvent_kept {q : List Instr} : ∀ x0 x1, Kept q x1 → KeptOut q (execDetectorEvent x0 x1) := by
  intro x0 x1 h0; unfold execDetectorEvent; apply kept_next; split; assumption; split; apply loseLink_kept; assumption; split
  apply linkFullPath_kept; apply detect_kept; assumption; apply detect_kept; assumption

theorem execCastReadTimeout_kept {q : List Instr} : ∀ x0 x1 x2 x3, Kept q x3 → KeptOut q (execCastReadTimeout x0 x1 x2 x3) := by
  intro x0 x1 x2 x3 h0; unfold execCastReadTimeout; extract_lets +onlyGivenNames l1; clear_value l1; apply kept_next; split; assumption
  extract_lets +onlyGivenNames l5; (have k5 : Kept q l5.2 := ?_; clear_value l5); extract_lets +onlyGivenNames l6; clear_value l6
  apply State_setPart_kept; assumption; unfold l5; apply State_fresh_kept; assumption

theorem keepCast_kept {q : List Instr} : ∀ x0 x1 x2, Kept q x0 → Kept q (keepCast x0 x1 x2) := by
  intro x0 x1 x2 h0; unfold keepCast; extract_lets +onlyGivenNames l1; clear_value l1; extract_lets +onlyGivenNames l2
  (have k2 : Kept q l2 := ?_; clear_value l2); apply kept_mk2; apply kept_mem (q := q); assumption; apply kept_host (q := q); assumption
  apply kept_pending; assumption; unfold l2; apply State_setPart_kept; assumption

theorem resetUnits_kept {q : List Instr} : ∀ x0 x1, Kept q x0 → Kept q (resetUnits x0 x1) := by
  intro x0 x1 h0; unfold resetUnits; extract_lets +onlyGivenNames l1; (have k1 : Kept q l1 := ?_; clear_value l1)
  apply clearArbiter_kept; apply State_setPart_kept; assumption; unfold l1; apply kept_mk2; apply kept_clear; apply kept_mem (q := q)
  assumption; apply kept_host (q := q); assumption; apply kept_pending; assumption

theorem markEscalated_kept {q : List Instr} : ∀ x0 x1, Kept q x0 → Kept q (markEscalated x0 x1) := by
  intro x0 x1 h0; unfold markEscalated; apply kept_mk2; apply kept_mem (q := q); assumption; apply kept_host (q := q); assumption
  apply kept_pending; assumption

theorem closeCast_kept {q : List Instr} : ∀ x0 x1 x2, Kept q x0 → Kept q (closeCast x0 x1 x2) := by
  intro x0 x1 x2 h0; unfold closeCast; extract_lets +onlyGivenNames l1; extract_lets +onlyGivenNames l2
  have k2 : Kept q l2 := by
    unfold l2; split
    · extract_lets +onlyGivenNames l4
      have k4 : Kept q l4 := by
        unfold l4; split
        · exact markEscalated_kept _ _ h0
        · exact h0
      exact keepCast_kept _ _ _ (State_setPart_kept _ _ _ k4)
    · exact h0
  split
  · exact State_setPart_kept _ _ _ k2
  · exact State_setPart_kept _ _ _ (resetUnits_kept _ _ k2)

theorem castDone_kept {q : List Instr} : ∀ x0 x1, Kept q x0 → Kept q (castDone x0 x1) := by
  intro x0 x1 h0; unfold castDone; extract_lets +onlyGivenNames l1; clear_value l1; extract_lets +onlyGivenNames l2; clear_value l2
  extract_lets +onlyGivenNames l3; (have k3 : Kept q l3 := ?_; clear_value l3); apply closeCast_kept; assumption
  unfold l3; split; apply reclaimPartition_kept; apply patCount_kept; apply State_setPart_kept; assumption; assumption

theorem execCastComplete_kept {q : List Instr} : ∀ x0 x1, Kept q x1 → KeptOut q (execCastComplete x0 x1) := by
  intro x0 x1 h0; unfold execCastComplete; apply kept_next; apply onlyIf_kept; assumption; apply castDone_kept; assumption

theorem execSliceWriteBackComplete_kept {q : List Instr} : ∀ x0 x1, Kept q x1 → KeptOut q (execSliceWriteBackComplete x0 x1) := by
  intro x0 x1 h0; unfold execSliceWriteBackComplete; apply kept_next; apply onlyIf_kept; assumption; extract_lets +onlyGivenNames l4
  clear_value l4; extract_lets +onlyGivenNames l5; (have k5 : Kept q l5 := ?_; clear_value l5); extract_lets +onlyGivenNames l6
  clear_value l6; split; apply State_setPart_kept; assumption; apply State_setPart_kept; assumption; unfold l5; apply resetUnits_kept
  apply forEach_kept; intro _ _ _; apply writeBackLine_kept; assumption; assumption

theorem execPartitionResetRelease_kept {q : List Instr} : ∀ x0 x1, Kept q x1 → KeptOut q (execPartitionResetRelease x0 x1) := by
  intro x0 x1 h0; unfold execPartitionResetRelease; apply kept_next; apply onlyIf_kept; assumption; extract_lets +onlyGivenNames l4
  clear_value l4; split; apply State_setPart_kept; assumption; apply State_setPart_kept; assumption

theorem storeTraining_kept {q : List Instr} : ∀ x0 x1, Kept q x0 → Kept q (storeTraining x0 x1) := by
  intro x0 x1 h0; unfold storeTraining; extract_lets +onlyGivenNames l1; clear_value l1; extract_lets +onlyGivenNames l2
  clear_value l2; extract_lets +onlyGivenNames l3; clear_value l3; apply countErase_kept; apply countErase_kept; apply kept_mk2
  apply kept_mem (q := q); assumption; apply kept_host (q := q); assumption; apply kept_pending; assumption

theorem clearPartition_kept {q : List Instr} : ∀ x0 x1, Kept q x0 → Kept q (clearPartition x0 x1) := by
  intro x0 x1 h0; unfold clearPartition; extract_lets +onlyGivenNames l1; (have k1 : Kept q l1 := ?_; clear_value l1)
  apply State_setPart_kept; assumption; unfold l1; apply kept_mk2; apply kept_clear; apply kept_clear; apply kept_mem (q := q); assumption
  apply kept_host (q := q); assumption; apply kept_pending; assumption

theorem memoryStage_kept {q : List Instr} : ∀ x0, Kept q x0 → Kept q (memoryStage x0) := by
  intro x0 h0; unfold memoryStage; split; apply kept_mk2; apply kept_mem (q := q); assumption; apply kept_host (q := q); assumption
  apply kept_pending; assumption; assumption

theorem trainingLost_kept {q : List Instr} : ∀ x0 x1, Kept q x0 → Kept q (trainingLost x0 x1) := by
  intro x0 x1 h0; unfold trainingLost; extract_lets +onlyGivenNames l1; (have k1 : Kept q l1 := ?_; clear_value l1); split; assumption
  split; apply kept_mk2; apply kept_mem (q := q); assumption; apply kept_host (q := q); assumption; apply kept_pending; assumption
  assumption; unfold l1; apply takeDown_kept; apply raiseAs_kept; assumption

theorem trained_kept {q : List Instr} : ∀ x0 x1, Kept q x0 → Kept q (trained x0 x1) := by
  intro x0 x1 h0; unfold trained; extract_lets +onlyGivenNames l1; (have k1 : Kept q l1 := ?_; clear_value l1); apply State_setPart_kept
  assumption; unfold l1; apply patCount_kept; apply storeTraining_kept; apply clearPartition_kept; assumption

theorem execDramTrainingComplete_kept {q : List Instr} : ∀ x0 x1 x2, Kept q x2 → KeptOut q (execDramTrainingComplete x0 x1 x2) := by
  intro x0 x1 x2 h0; unfold execDramTrainingComplete; apply kept_next; apply onlyIf_kept; assumption; extract_lets +onlyGivenNames l4
  clear_value l4; split; apply memoryStage_kept; apply trained_kept; assumption; extract_lets +onlyGivenNames l9; clear_value l9
  extract_lets +onlyGivenNames l10; clear_value l10; extract_lets +onlyGivenNames l11; (have k11 : Kept q l11 := ?_; clear_value l11)
  split; assumption; apply memoryStage_kept; apply trainingLost_kept; assumption; unfold l11; apply State_setPart_kept; assumption

theorem inService_kept {q : List Instr} : ∀ x0 x1, Kept q x0 → Kept q (inService x0 x1) := by
  intro x0 x1 h0; unfold inService; extract_lets +onlyGivenNames l1; clear_value l1; extract_lets +onlyGivenNames l2; clear_value l2
  extract_lets +onlyGivenNames l3; clear_value l3; extract_lets +onlyGivenNames l4; (have k4 : Kept q l4 := ?_; clear_value l4)
  extract_lets +onlyGivenNames l5; (have k5 : Kept q l5 := ?_; clear_value l5); extract_lets +onlyGivenNames l6
  (have k6 : Kept q l6 := ?_; clear_value l6); apply updateResting_kept; apply flushBoundary_kept; assumption; unfold l6
  apply grantQueue_kept; apply serveWaiting_kept; apply finishReset_kept; assumption; unfold l5; split; apply renewPorts_kept
  apply losePartition_kept; assumption; assumption; unfold l4; apply State_setPart_kept; assumption

theorem execPartitionInService_kept {q : List Instr} : ∀ x0 x1, Kept q x1 → KeptOut q (execPartitionInService x0 x1) := by
  intro x0 x1 h0; unfold execPartitionInService; apply kept_next; apply onlyIf_kept; assumption; apply inService_kept; assumption

theorem restartFirmware_kept {q : List Instr} : ∀ x0, Kept q x0 → Kept q (restartFirmware x0) := by
  intro x0 h0; unfold restartFirmware; extract_lets +onlyGivenNames l1; (have k1 : Kept q l1 := ?_; clear_value l1); apply kept_mk2
  apply kept_mem (q := q); assumption; apply kept_host (q := q); assumption; apply kept_pending; assumption; unfold l1
  apply commitPatina_kept; assumption

theorem execAtelierWatchdogExpiry_kept {q : List Instr} : ∀ x0, Kept q x0 → KeptOut q (execAtelierWatchdogExpiry x0) := by
  intro x0 h0; unfold execAtelierWatchdogExpiry; apply kept_next; apply onlyIf_kept; assumption; extract_lets +onlyGivenNames l4
  (have k4 : Kept q l4.2 := ?_; clear_value l4); apply restartFirmware_kept; apply detect_kept; assumption; unfold l4
  apply takeInjection_kept; assumption

theorem execAtelierMemoryUncorrected_kept {q : List Instr} : ∀ x0, Kept q x0 → KeptOut q (execAtelierMemoryUncorrected x0) := by
  intro x0 h0; unfold execAtelierMemoryUncorrected; apply kept_next; apply onlyIf_kept; assumption; extract_lets +onlyGivenNames l4
  (have k4 : Kept q l4.2 := ?_; clear_value l4); apply restartFirmware_kept; apply detect_kept; assumption; unfold l4
  apply takeInjection_kept; assumption

theorem execInjectionDisarm_kept {q : List Instr} : ∀ x0, Kept q x0 → KeptOut q (execInjectionDisarm x0) := by
  intro x0 h0; unfold execInjectionDisarm; apply kept_next; apply onlyIf_kept; assumption; apply kept_mk2; apply kept_mem (q := q)
  assumption; apply kept_host (q := q); assumption; apply kept_pending; assumption

theorem execFaultInjectArm_kept {q : List Instr} : ∀ x0 x1 x2 x3, Kept q x3 → KeptOut q (execFaultInjectArm x0 x1 x2 x3) := by
  intro x0 x1 x2 x3 h0; unfold execFaultInjectArm; apply command0_kept; assumption; intro _ _; split; apply complete_kept; assumption
  split; apply complete_kept; assumption; extract_lets +onlyGivenNames l11; clear_value l11; apply complete_kept; apply kept_mk2
  apply kept_mem (q := q); assumption; apply kept_host (q := q); assumption; apply kept_pending; assumption

theorem execFaultStatus_kept {q : List Instr} : ∀ x0 x1 x2 x3, Kept q x3 → KeptOut q (execFaultStatus x0 x1 x2 x3) := by
  intro x0 x1 x2 x3 h0; unfold execFaultStatus; apply command_kept; assumption; intro _ _; apply replyBuf_kept; assumption; intro _ _
  apply complete_kept; assumption

theorem execCastFetch_kept {q : List Instr} : ∀ x0 x1 x2 x3 x4 x5, Kept q x5 → KeptOut q (execCastFetch x0 x1 x2 x3 x4 x5) := by
  intro x0 x1 x2 x3 x4 x5 h0; unfold execCastFetch; apply command_kept; assumption; intro _ _; split; apply complete_kept; assumption
  split; apply complete_kept; assumption; apply replyBuf_kept; assumption; intro _ _; apply complete_kept; assumption

theorem execPartitionReset_kept {q : List Instr} : ∀ x0 x1 x2 x3 x4, Kept q x4 → KeptOut q (execPartitionReset x0 x1 x2 x3 x4) := by
  intro x0 x1 x2 x3 x4 h0; unfold execPartitionReset; apply command0_kept; assumption; intro _ _; split; apply complete_kept; assumption
  extract_lets +onlyGivenNames l8; clear_value l8; split; apply complete_kept; assumption; extract_lets +onlyGivenNames l12
  (have k12 : Kept q l12 := ?_; clear_value l12); extract_lets +onlyGivenNames l13; (have k13 : Kept q l13 := ?_; clear_value l13); split
  assumption; apply await_kept; assumption; unfold l13; apply resetCommanded_kept; assumption
  unfold l12; apply State_setPart_kept; assumption

theorem setSlot_kept {q : List Instr} : ∀ x0 x1 x2 x3, Kept q x0 → Kept q (setSlot x0 x1 x2 x3) := by
  intro x0 x1 x2 x3 h0; unfold setSlot; apply kept_mk2; apply kept_mem (q := q); assumption; apply kept_host (q := q); assumption
  apply kept_pending; assumption

theorem setFlash_kept {q : List Instr} : ∀ x0 x1 x2, Kept q x0 → Kept q (setFlash x0 x1 x2) := by
  intro x0 x1 x2 h0; unfold setFlash; apply kept_mk2; apply kept_mem (q := q); assumption; apply kept_host (q := q); assumption
  apply kept_pending; assumption

theorem passOver_kept {q : List Instr} : ∀ x0 x1 x2, Kept q x0 → Kept q (passOver x0 x1 x2) := by
  intro x0 x1 x2 h0; unfold passOver; extract_lets +onlyGivenNames l1; clear_value l1; extract_lets +onlyGivenNames l2
  (have k2 : Kept q l2 := ?_; clear_value l2); split; assumption; apply signatureFail_kept; assumption; unfold l2; apply logRecord_kept
  assumption

theorem chooseSlot_kept {q : List Instr} : ∀ x0 x1, Kept q x0 → Kept q (chooseSlot x0 x1).1 := by
  intro x0 x1 h0; unfold chooseSlot; extract_lets +onlyGivenNames l1; clear_value l1; extract_lets +onlyGivenNames l2
  (have k2 : Kept q l2 := ?_; clear_value l2); split; with_reducible apply kept_p1; assumption; extract_lets +onlyGivenNames l6
  clear_value l6; with_reducible apply kept_p1; apply setSlot_kept; assumption; unfold l2; apply forEach_kept; intro _ _ _
  apply passOver_kept; assumption; assumption

theorem volatileLost_kept {q : List Instr} : ∀ x0, Kept q x0 → Kept q (volatileLost x0) := by
  intro x0 h0
  unfold volatileLost
  exact kept_mk2 rfl (kept_host h0) (kept_pending h0)

theorem coldStart_kept {q : List Instr} : ∀ x0 x1 x2 x3 x4, Kept q x0 → Kept q (coldStart x0 x1 x2 x3 x4) := by
  intro x0 x1 x2 x3 x4 h0; unfold coldStart; extract_lets +onlyGivenNames l1; (have k1 : Kept q l1 := ?_; clear_value l1)
  extract_lets +onlyGivenNames l2; clear_value l2; extract_lets +onlyGivenNames l3; (have k3 : Kept q l3 := ?_; clear_value l3)
  extract_lets +onlyGivenNames l4; (have k4 : Kept q l4 := ?_; clear_value l4); extract_lets +onlyGivenNames l5
  (have k5 : Kept q l5 := ?_; clear_value l5); split; assumption; apply raise_kept; assumption; unfold l5; split; assumption
  apply raise_kept; assumption; unfold l4; apply patCount_kept; assumption; unfold l3; apply kept_mk2; apply kept_mem (q := q); assumption
  apply kept_host (q := q); assumption; apply kept_pending; assumption; unfold l1; apply volatileLost_kept; assumption

theorem execPowerOn_kept {q : List Instr} : ∀ x0 x1 x2 x3, Kept q x3 → KeptOut q (execPowerOn x0 x1 x2 x3) := by
  intro x0 x1 x2 x3 h0; unfold execPowerOn; apply kept_next; apply onlyIf_kept; assumption; extract_lets +onlyGivenNames l4
  (have k4 : Kept q l4 := ?_; clear_value l4); apply kept_mk2; apply kept_mem (q := q); assumption; apply kept_host (q := q); assumption
  apply kept_pending; assumption; unfold l4; apply coldStart_kept; assumption

theorem startRelief_kept {q : List Instr} : ∀ x0, Kept q x0 → Kept q (startRelief x0) := by
  intro x0 h0; unfold startRelief; extract_lets +onlyGivenNames l1
  (have k1 : ∀ v0, Kept q v0 → ∀ v1, Kept q ((l1 v0) v1) := ?_; clear_value l1); extract_lets +onlyGivenNames l2
  (have k2 : ∀ v0, Kept q v0 → Kept q (l2 v0) := ?_; clear_value l2); split; apply k2; assumption; split; apply k1
  refine kept_fst (by assumption) ?_; apply checkRelief_kept; assumption; apply k2; refine kept_fst (by assumption) ?_
  apply checkRelief_kept; assumption; intro _ _; unfold l2; split; apply k1; assumption; apply kept_mk2; apply kept_mem (q := q)
  assumption; apply kept_host (q := q); assumption; apply kept_pending; assumption; intro _ _ _; unfold l1; apply kept_mk2
  apply kept_mem (q := q); assumption; apply kept_host (q := q); assumption; apply kept_pending; assumption

theorem countSleep_kept {q : List Instr} : ∀ x0 x1 x2, Kept q x0 → Kept q (countSleep x0 x1 x2) := by
  intro x0 x1 x2 h0; unfold countSleep; extract_lets +onlyGivenNames l1; extract_lets +onlyGivenNames l2; clear_value l2
  apply kept_mk2; apply kept_mem (q := q); assumption; apply kept_host (q := q); assumption; apply kept_pending; assumption

theorem loadKeeper_kept {q : List Instr} : ∀ x0, Kept q x0 → Kept q (loadKeeper x0) := by
  intro x0 h0; unfold loadKeeper; extract_lets +onlyGivenNames l1; (have k1 : Kept q l1.2 := ?_; clear_value l1)
  extract_lets +onlyGivenNames l2; clear_value l2; extract_lets +onlyGivenNames l3
  (have k3 : Kept q l3 := countSleep_kept _ _ _ k1; clear_value l3); extract_lets +onlyGivenNames l4; clear_value l4
  extract_lets +onlyGivenNames l5; clear_value l5; apply kept_mk2; apply kept_mem (q := q)
  assumption; apply kept_host (q := q); assumption; apply kept_pending; assumption; unfold l1
  apply State_fresh_kept; assumption

theorem loadCalendar_kept {q : List Instr} : ∀ x0, Kept q x0 → Kept q (loadCalendar x0) := by
  intro x0 h0; unfold loadCalendar; extract_lets +onlyGivenNames l1; (have k1 : Kept q l1 := ?_; clear_value l1)
  extract_lets +onlyGivenNames l2; clear_value l2; extract_lets +onlyGivenNames l3; clear_value l3; extract_lets +onlyGivenNames l4
  clear_value l4; apply kept_mk2; apply kept_mem (q := q); assumption; apply kept_host (q := q); assumption; apply kept_pending; assumption
  unfold l1; apply runCalendar_kept; assumption

theorem powerPorts_kept {q : List Instr} : ∀ x0, Kept q x0 → Kept q (powerPorts x0) := by
  intro x0 h0; unfold powerPorts; apply standAlone_kept; apply forEach_kept; intro _ _ _; split; apply setFport_kept; assumption
  assumption; assumption

theorem startFirmware_kept {q : List Instr} : ∀ x0, Kept q x0 → Kept q (startFirmware x0) := by
  intro x0 h0; unfold startFirmware; split; apply kept_mk2; apply kept_mem (q := q); refine kept_fst (by assumption) ?_
  apply chooseSlot_kept; assumption; apply kept_host (q := q); refine kept_fst (by assumption) ?_; apply chooseSlot_kept; assumption
  apply kept_pending; refine kept_fst (by assumption) ?_; apply chooseSlot_kept; assumption; extract_lets +onlyGivenNames l15
  clear_value l15; apply kept_mk2; apply kept_mem (q := q); refine kept_fst (by assumption) ?_; apply chooseSlot_kept; assumption
  apply kept_host (q := q); refine kept_fst (by assumption) ?_; apply chooseSlot_kept; assumption; apply kept_pending
  refine kept_fst (by assumption) ?_; apply chooseSlot_kept; assumption

theorem fixPath0_kept {q : List Instr} : ∀ x0, Kept q x0 → Kept q (fixPath0 x0) := by
  intro x0 h0; unfold fixPath0; extract_lets +onlyGivenNames l1; clear_value l1; extract_lets +onlyGivenNames l2; clear_value l2
  apply State_setBox_kept; assumption

theorem startSettings_kept {q : List Instr} : ∀ x0 x1, Kept q x0 → Kept q (startSettings x0 x1) := by
  intro x0 x1 h0; unfold startSettings; extract_lets +onlyGivenNames l1; clear_value l1; extract_lets +onlyGivenNames l2
  clear_value l2; extract_lets +onlyGivenNames l3; (have k3 : Kept q l3 := ?_; clear_value l3); extract_lets +onlyGivenNames l4
  (have k4 : Kept q l4 := ?_; clear_value l4); apply kept_mk2; apply kept_mem (q := q); assumption; apply kept_host (q := q); assumption
  apply kept_pending; assumption; unfold l4; apply fixPath0_kept; apply policyToPorts_kept; apply followSettings_kept; apply startRelief_kept
  assumption; unfold l3; apply kept_mk2; apply kept_mem (q := q); assumption; apply kept_host (q := q); assumption; apply kept_pending
  assumption

theorem startPlinth_kept {q : List Instr} : ∀ x0, Kept q x0 → Kept q (startPlinth x0) := by
  intro x0 h0; unfold startPlinth; split; apply kept_mk2; apply kept_mem (q := q); refine kept_fst (by assumption) ?_; apply chooseSlot_kept
  assumption; apply kept_host (q := q); refine kept_fst (by assumption) ?_; apply chooseSlot_kept; assumption; apply kept_pending
  refine kept_fst (by assumption) ?_; apply chooseSlot_kept; assumption; extract_lets +onlyGivenNames l15
  (have k15 : Kept q l15 := ?_; clear_value l15); split; extract_lets +onlyGivenNames l17; (have k17 : Kept q l17 := ?_; clear_value l17)
  apply kept_mk2; apply kept_mem (q := q); assumption; apply kept_host (q := q); assumption; apply kept_pending; assumption; unfold l17
  apply powerPorts_kept; split; apply loadKeeper_kept; assumption; apply loadCalendar_kept; assumption; apply kept_mk2; apply kept_mem (q := q)
  assumption; apply kept_host (q := q); assumption; apply kept_pending; assumption; unfold l15; apply startSettings_kept
  refine kept_fst (by assumption) ?_; apply chooseSlot_kept; assumption

theorem startDram_kept {q : List Instr} : ∀ x0 x1, Kept q x0 → Kept q (startDram x0 x1) := by
  intro x0 x1 h0; unfold startDram; apply memoryStage_kept; apply forEach_kept; intro _ _ _; split; extract_lets +onlyGivenNames l7
  (have k7 : Kept q l7 := ?_; clear_value l7); apply State_setPart_kept; assumption; unfold l7; apply clearPartition_kept; assumption
  apply State_setPart_kept; assumption; assumption

theorem execFirmwareStart_kept {q : List Instr} : ∀ x0 x1, Kept q x1 → KeptOut q (execFirmwareStart x0 x1) := by
  intro x0 x1 h0; unfold execFirmwareStart; apply kept_next; split; apply startFirmware_kept; assumption; apply startPlinth_kept
  assumption; split; assumption; apply startDram_kept; assumption; assumption

theorem raiseFloor_kept {q : List Instr} : ∀ x0 x1 x2, Kept q x0 → Kept q (raiseFloor x0 x1 x2) := by
  intro x0 x1 x2 h0; unfold raiseFloor; extract_lets +onlyGivenNames l1; clear_value l1; split; assumption; apply kept_mk2
  apply kept_mem (q := q); assumption; apply kept_host (q := q); assumption; apply kept_pending; assumption

theorem writeRecord_kept {q : List Instr} : ∀ x0 x1 x2 x3, Kept q x0 → Kept q (writeRecord x0 x1 x2 x3) := by
  intro x0 x1 x2 x3 h0; unfold writeRecord; extract_lets +onlyGivenNames l1; (have k1 : Kept q l1 := ?_; clear_value l1)
  apply countErase_kept; apply setSlot_kept; assumption; unfold l1; apply setFlash_kept; assumption

theorem confirmSlot_kept {q : List Instr} : ∀ x0 x1, Kept q x0 → Kept q (confirmSlot x0 x1) := by
  intro x0 x1 h0; unfold confirmSlot; extract_lets +onlyGivenNames l1; clear_value l1; extract_lets +onlyGivenNames l2
  clear_value l2; extract_lets +onlyGivenNames l3; (have k3 : Kept q l3 := ?_; clear_value l3); split; assumption
  extract_lets +onlyGivenNames l6; (have k6 : Kept q l6 := ?_; clear_value l6); apply logRecord_kept; apply raiseFloor_kept; assumption
  unfold l6; apply writeRecord_kept; assumption; unfold l3; apply setSlot_kept; assumption

theorem placeMailbox0_kept {q : List Instr} : ∀ x0, Kept q x0 → Kept q (placeMailbox0 x0) := by
  intro x0 h0; unfold placeMailbox0; extract_lets +onlyGivenNames l1; clear_value l1; apply State_setBox_kept; assumption

theorem execMailboxReady_kept {q : List Instr} : ∀ x0, Kept q x0 → KeptOut q (execMailboxReady x0) := by
  intro x0 h0; unfold execMailboxReady; apply kept_next; apply onlyIf_kept; assumption; extract_lets +onlyGivenNames l4
  (have k4 : Kept q l4 := ?_; clear_value l4); extract_lets +onlyGivenNames l5; (have k5 : Kept q l5 := ?_; clear_value l5)
  extract_lets +onlyGivenNames l6; clear_value l6; extract_lets +onlyGivenNames l7; (have k7 : Kept q l7 := ?_; clear_value l7)
  apply fullService_kept; apply createPorts_kept; apply placeMailbox0_kept; assumption; unfold l7; apply kept_mk2; apply kept_mem (q := q)
  assumption; apply kept_host (q := q); assumption; apply kept_pending; assumption; unfold l5; apply confirmSlot_kept; apply confirmSlot_kept
  assumption; unfold l4; apply forEach_kept; intro _ _ _; split; apply State_setPart_kept; assumption; assumption; assumption

theorem stageSigned_kept {q : List Instr} : ∀ x0 x1 x2, Kept q x0 → Kept q (stageSigned x0 x1 x2).1 := by
  intro x0 x1 x2 h0; unfold stageSigned; extract_lets +onlyGivenNames l1; (have k1 : Kept q l1.1 := ?_; clear_value l1); split
  assumption; split; assumption; extract_lets +onlyGivenNames l6; (have k6 : Kept q l6.1 := ?_; clear_value l6)
  with_reducible apply kept_p1; assumption; unfold l6; apply kept_foldl_fst; intro _ _ _; split; assumption; with_reducible apply kept_p1
  apply signatureFail_kept; assumption; assumption; unfold l1; apply checkSigned_kept; assumption

theorem stageImage_kept {q : List Instr} : ∀ x0 x1 x2, Kept q x0 → Kept q (stageImage x0 x1 x2) := by
  intro x0 x1 x2 h0; unfold stageImage; extract_lets +onlyGivenNames l1; clear_value l1; extract_lets +onlyGivenNames l2
  clear_value l2; extract_lets +onlyGivenNames l3; clear_value l3; extract_lets +onlyGivenNames l4
  (have k4 : Kept q l4 := ?_; clear_value l4); extract_lets +onlyGivenNames l5; (have k5 : Kept q l5 := ?_; clear_value l5)
  extract_lets +onlyGivenNames l6; clear_value l6; extract_lets +onlyGivenNames l7; (have k7 : Kept q l7 := ?_; clear_value l7); split
  assumption; apply kept_mk2; apply kept_mem (q := q); assumption; apply kept_host (q := q); assumption; apply kept_pending; assumption
  unfold l7; apply writeRecord_kept; assumption; unfold l5; apply countErase_kept; apply setFlash_kept; assumption; unfold l4
  apply writeRecord_kept; assumption

theorem execFwStage_kept {q : List Instr} : ∀ x0 x1 x2 x3 x4, Kept q x4 → KeptOut q (execFwStage x0 x1 x2 x3 x4) := by
  intro x0 x1 x2 x3 x4 h0; unfold execFwStage; apply command0_kept; assumption; intro _ _; split; apply complete_kept; assumption
  apply withBuf_kept; assumption; intro _ _ _; extract_lets +onlyGivenNames l13; clear_value l13; split; apply complete_kept; assumption
  extract_lets +onlyGivenNames l17; (have k17 : Kept q l17.1 := ?_; clear_value l17); split; apply complete_kept; assumption
  extract_lets +onlyGivenNames l21; (have k21 : Kept q l21.2 := ?_; clear_value l21); extract_lets +onlyGivenNames l22
  (have k22 : Kept q l22 := ?_; clear_value l22); split; apply complete_kept; apply raiseAs_kept; assumption; apply complete_kept
  apply stageImage_kept; assumption; unfold l22; assumption; unfold l21; apply takeInjection_kept; assumption; unfold l17
  apply stageSigned_kept; assumption

theorem execFwCommit_kept {q : List Instr} : ∀ x0 x1 x2 x3, Kept q x3 → KeptOut q (execFwCommit x0 x1 x2 x3) := by
  intro x0 x1 x2 x3 h0; unfold execFwCommit; apply command0_kept; assumption; intro _ _; extract_lets +onlyGivenNames l5
  clear_value l5; extract_lets +onlyGivenNames l6; clear_value l6; split; apply complete_kept; assumption
  extract_lets +onlyGivenNames l10; (have k10 : Kept q l10.1 := ?_; clear_value l10); split; apply complete_kept; assumption
  extract_lets +onlyGivenNames l14; (have k14 : Kept q l14 := ?_; clear_value l14); extract_lets +onlyGivenNames l15
  (have k15 : Kept q l15 := ?_; clear_value l15); apply complete_kept; apply logRecord_kept; assumption; unfold l15; apply writeRecord_kept
  assumption; unfold l14; assumption; unfold l10; apply checkSigned_kept; assumption

theorem reparseSlot_kept {q : List Instr} : ∀ x0 x1 x2 x3, Kept q x0 → Kept q (reparseSlot x0 x1 x2 x3) := by
  intro x0 x1 x2 x3 h0; unfold reparseSlot; extract_lets +onlyGivenNames l1; clear_value l1; extract_lets +onlyGivenNames l2
  clear_value l2; extract_lets +onlyGivenNames l3; clear_value l3; extract_lets +onlyGivenNames l4; clear_value l4
  extract_lets +onlyGivenNames l5; clear_value l5; extract_lets +onlyGivenNames l6; (have k6 : Kept q l6 := ?_; clear_value l6); split
  assumption; apply kept_mk2; apply kept_mem (q := q); assumption; apply kept_host (q := q); assumption; apply kept_pending; assumption
  unfold l6; apply setSlot_kept; assumption

theorem programFlash_kept {q : List Instr} : ∀ x0 x1 x2 x3, Kept q x0 → Kept q (programFlash x0 x1 x2 x3) := by
  intro x0 x1 x2 x3 h0; unfold programFlash; extract_lets +onlyGivenNames l1; (have k1 : Kept q l1 := ?_; clear_value l1)
  extract_lets +onlyGivenNames l2; clear_value l2; apply forEach_kept; intro _ _ _; extract_lets +onlyGivenNames l7; clear_value l7
  extract_lets +onlyGivenNames l8; clear_value l8; split; apply reparseSlot_kept; assumption; assumption; assumption; unfold l1
  apply setFlash_kept; assumption

theorem execAttest_kept {q : List Instr} : ∀ x0 x1 x2 x3 x4, Kept q x4 → KeptOut q (execAttest x0 x1 x2 x3 x4) := by
  intro x0 x1 x2 x3 x4 h0; unfold execAttest; apply command_kept; assumption; intro _ _; extract_lets +onlyGivenNames l5
  clear_value l5; extract_lets +onlyGivenNames l6; (have k6 : Kept q l6.2 := ?_; clear_value l6); extract_lets +onlyGivenNames l7
  (have k7 : Kept q l7 := ?_; clear_value l7); split; apply complete_kept; assumption; split; apply complete_kept; assumption
  apply replyBuf_kept; assumption; intro _ _; apply complete_kept; assumption; unfold l7; split; apply raiseAs_kept; assumption; assumption
  unfold l6; apply takeInjection_kept; assumption

theorem monitor_kept {q : List Instr} : ∀ x0 x1 x2 x3, Kept q x0 → Kept q ((monitor x0 x1 x2 x3).2).2 := by
  intro x0 x1 x2 x3 h0; unfold monitor; extract_lets +onlyGivenNames l1; (have k1 : Kept q l1.2 := ?_; clear_value l1); split
  with_reducible apply kept_p1; assumption; apply State_fresh_kept; assumption; with_reducible apply kept_p1; assumption; assumption
  unfold l1; apply takeInjection_kept; assumption

theorem execPowerFailDetect_kept {q : List Instr} : ∀ x0, Kept q x0 → KeptOut q (execPowerFailDetect x0) := by
  intro x0 h0; unfold execPowerFailDetect; apply kept_next; apply onlyIf_kept; assumption; apply detect_kept; assumption

theorem followCap_kept {q : List Instr} : ∀ x0 x1, Kept q x0 → Kept q (followCap x0 x1) := by
  intro x0 x1 h0; unfold followCap; extract_lets +onlyGivenNames l1; clear_value l1; extract_lets +onlyGivenNames l2
  (have k2 : Kept q l2 := ?_; clear_value l2); apply grantQueue_kept; apply enforceCap_kept; assumption; unfold l2; apply noteCap_kept
  apply kept_mk2; apply kept_mem (q := q); assumption; apply kept_host (q := q); assumption; apply kept_pending; assumption

theorem execInputUndervoltage_kept {q : List Instr} : ∀ x0 x1, Kept q x1 → KeptOut q (execInputUndervoltage x0 x1) := by
  intro x0 x1 h0; unfold execInputUndervoltage; extract_lets +onlyGivenNames l1; (have k1 : Kept q l1.2.2 := ?_; clear_value l1)
  apply kept_next; apply onlyIf_kept; assumption; extract_lets +onlyGivenNames l5; (have k5 : Kept q l5 := ?_; clear_value l5)
  extract_lets +onlyGivenNames l6; clear_value l6; extract_lets +onlyGivenNames l7; (have k7 : Kept q l7 := ?_; clear_value l7)
  extract_lets +onlyGivenNames l8; (have k8 : Kept q l8 := ?_; clear_value l8); extract_lets +onlyGivenNames l9; clear_value l9
  extract_lets +onlyGivenNames l10; clear_value l10; extract_lets +onlyGivenNames l11; (have k11 : Kept q l11 := ?_; clear_value l11)
  split; apply followCap_kept; assumption; apply kept_mk2; apply kept_mem (q := q); assumption; apply kept_host (q := q); assumption
  apply kept_pending; assumption; unfold l11; apply kept_mk2; apply kept_mem (q := q); assumption; apply kept_host (q := q); assumption
  apply kept_pending; assumption; unfold l8; apply raiseAs_kept; assumption; unfold l7; apply kept_mk2; apply kept_mem (q := q); assumption
  apply kept_host (q := q); assumption; apply kept_pending; assumption; unfold l5; assumption; unfold l1; apply monitor_kept; assumption

theorem execInputRecovered_kept {q : List Instr} : ∀ x0, Kept q x0 → KeptOut q (execInputRecovered x0) := by
  intro x0 h0; unfold execInputRecovered; apply kept_next; split; assumption; apply onlyIf_kept; assumption
  extract_lets +onlyGivenNames l6; clear_value l6; extract_lets +onlyGivenNames l7; (have k7 : Kept q l7 := ?_; clear_value l7)
  apply followCap_kept; assumption; unfold l7; apply kept_mk2; apply kept_mem (q := q); assumption; apply kept_host (q := q); assumption
  apply kept_pending; assumption

theorem execOvervoltage_kept {q : List Instr} : ∀ x0 x1 x2, Kept q x2 → KeptOut q (execOvervoltage x0 x1 x2) := by
  intro x0 x1 x2 h0; unfold execOvervoltage; extract_lets +onlyGivenNames l1; (have k1 : Kept q l1.2.2 := ?_; clear_value l1)
  apply kept_next; apply onlyIf_kept; assumption; apply detect_kept; assumption; unfold l1; apply monitor_kept; assumption

theorem execPartitionRailOvervoltage_kept {q : List Instr} : ∀ x0 x1 x2, Kept q x2 → KeptOut q (execPartitionRailOvervoltage x0 x1 x2) := by
  intro x0 x1 x2 h0; unfold execPartitionRailOvervoltage; extract_lets +onlyGivenNames l1
  (have k1 : Kept q l1.2.2 := ?_; clear_value l1); extract_lets +onlyGivenNames l2; clear_value l2; apply kept_next; apply onlyIf_kept
  assumption; apply detect_kept; assumption; unfold l1; apply monitor_kept; assumption

theorem execPartitionRailUndervoltage_kept {q : List Instr} : ∀ x0 x1 x2, Kept q x2 → KeptOut q (execPartitionRailUndervoltage x0 x1 x2) := by
  intro x0 x1 x2 h0; unfold execPartitionRailUndervoltage; extract_lets +onlyGivenNames l1
  (have k1 : Kept q l1.2.2 := ?_; clear_value l1); extract_lets +onlyGivenNames l2; clear_value l2; apply kept_next; apply onlyIf_kept
  assumption; apply detect_kept; assumption; unfold l1; apply monitor_kept; assumption

theorem execTemperatureWarning_kept {q : List Instr} : ∀ x0 x1 x2, Kept q x2 → KeptOut q (execTemperatureWarning x0 x1 x2) := by
  intro x0 x1 x2 h0; unfold execTemperatureWarning; extract_lets +onlyGivenNames l1; (have k1 : Kept q l1.2.2 := ?_; clear_value l1)
  extract_lets +onlyGivenNames l2; clear_value l2; apply kept_next; apply onlyIf_kept; assumption; extract_lets +onlyGivenNames l6
  clear_value l6; extract_lets +onlyGivenNames l7; (have k7 : Kept q l7 := ?_; clear_value l7); apply kept_mk2; apply kept_mem (q := q)
  assumption; apply kept_host (q := q); assumption; apply kept_pending; assumption; unfold l7; apply raiseAs_kept; assumption; unfold l1
  apply monitor_kept; assumption

theorem execTemperatureWarningClear_kept {q : List Instr} : ∀ x0, Kept q x0 → KeptOut q (execTemperatureWarningClear x0) := by
  intro x0 h0; unfold execTemperatureWarningClear; apply kept_next; apply onlyIf_kept; assumption; apply grantQueue_kept; apply kept_mk2
  apply kept_mem (q := q); assumption; apply kept_host (q := q); assumption; apply kept_pending; assumption

theorem execTemperatureCritical_kept {q : List Instr} : ∀ x0 x1 x2, Kept q x2 → KeptOut q (execTemperatureCritical x0 x1 x2) := by
  intro x0 x1 x2 h0; unfold execTemperatureCritical; extract_lets +onlyGivenNames l1; (have k1 : Kept q l1.2.2 := ?_; clear_value l1)
  extract_lets +onlyGivenNames l2; clear_value l2; apply kept_next; apply onlyIf_kept; assumption; apply detect_kept; assumption; unfold l1
  apply monitor_kept; assumption

theorem execClockLoss_kept {q : List Instr} : ∀ x0 x1 x2, Kept q x2 → KeptOut q (execClockLoss x0 x1 x2) := by
  intro x0 x1 x2 h0; unfold execClockLoss; extract_lets +onlyGivenNames l1; (have k1 : Kept q l1.2 := ?_; clear_value l1)
  apply kept_next; apply onlyIf_kept; assumption; extract_lets +onlyGivenNames l5; (have k5 : Kept q l5 := ?_; clear_value l5); split
  apply kept_mk2; apply kept_mem (q := q); assumption; apply kept_host (q := q); assumption; apply kept_pending; assumption; apply kept_mk2
  apply kept_mem (q := q); assumption; apply kept_host (q := q); assumption; apply kept_pending; assumption; assumption; unfold l5
  apply detect_kept; assumption; unfold l1; apply takeInjection_kept; assumption

theorem countStretches_kept {q : List Instr} : ∀ x0 x1 x2, Kept q x0 → Kept q (countStretches x0 x1 x2) := by
  intro x0 x1 x2 h0; unfold countStretches; extract_lets +onlyGivenNames l1; clear_value l1; extract_lets +onlyGivenNames l2
  clear_value l2; extract_lets +onlyGivenNames l3; clear_value l3; apply patCount_kept; apply State_setCluster_kept; assumption

theorem voltageLimit_kept {q : List Instr} : ∀ x0 x1 x2, Kept q x0 → Kept q (voltageLimit x0 x1 x2) := by
  intro x0 x1 x2 h0; unfold voltageLimit; extract_lets +onlyGivenNames l1; clear_value l1; extract_lets +onlyGivenNames l2
  (have k2 : Kept q l2 := ?_; clear_value l2); apply State_setCluster_kept; assumption; unfold l2; apply raiseAs_kept; assumption

theorem excessStretch_kept {q : List Instr} : ∀ x0 x1 x2, Kept q x0 → Kept q (excessStretch x0 x1 x2) := by
  intro x0 x1 x2 h0; unfold excessStretch; extract_lets +onlyGivenNames l1; clear_value l1; extract_lets +onlyGivenNames l2
  (have k2 : Kept q l2 := ?_; clear_value l2); apply State_setCluster_kept; assumption; unfold l2; apply raiseAs_kept; assumption

theorem execVoltageLoopPeriod_kept {q : List Instr} : ∀ x0 x1, Kept q x1 → KeptOut q (execVoltageLoopPeriod x0 x1) := by
  intro x0 x1 h0; unfold execVoltageLoopPeriod; extract_lets +onlyGivenNames l1; clear_value l1; apply kept_next; apply onlyIf_kept
  assumption; extract_lets +onlyGivenNames l5; clear_value l5; extract_lets +onlyGivenNames l6; clear_value l6
  extract_lets +onlyGivenNames l7; (have k7 : Kept q l7.2 := ?_; clear_value l7); extract_lets +onlyGivenNames l8
  (have k8 : Kept q l8 := ?_; clear_value l8); extract_lets +onlyGivenNames l9; clear_value l9; split; apply voltageLimit_kept
  apply State_setCluster_kept; assumption; extract_lets +onlyGivenNames l14; clear_value l14; extract_lets +onlyGivenNames l15
  clear_value l15; extract_lets +onlyGivenNames l16; clear_value l16; extract_lets +onlyGivenNames l17
  (have k17 : Kept q l17 := ?_; clear_value l17); split; apply countStretches_kept; assumption; assumption; unfold l17
  apply State_setCluster_kept; assumption; unfold l8; assumption; unfold l7; apply takeInjection_kept; assumption

theorem execVoltageLoopLimit_kept {q : List Instr} : ∀ x0 x1, Kept q x1 → KeptOut q (execVoltageLoopLimit x0 x1) := by
  intro x0 x1 h0; unfold execVoltageLoopLimit; extract_lets +onlyGivenNames l1; clear_value l1; apply kept_next; apply onlyIf_kept
  assumption; apply voltageLimit_kept; assumption

theorem execDroopStretch_kept {q : List Instr} : ∀ x0 x1, Kept q x1 → KeptOut q (execDroopStretch x0 x1) := by
  intro x0 x1 h0; unfold execDroopStretch; extract_lets +onlyGivenNames l1; clear_value l1; apply kept_next; apply onlyIf_kept
  assumption; extract_lets +onlyGivenNames l5; (have k5 : Kept q l5.2 := ?_; clear_value l5); extract_lets +onlyGivenNames l6
  clear_value l6; extract_lets +onlyGivenNames l7; (have k7 : Kept q l7 := ?_; clear_value l7); split; apply excessStretch_kept
  assumption; assumption; unfold l7; apply countStretches_kept; assumption; unfold l5; apply takeInjection_kept; assumption

theorem execExcessDroopStretch_kept {q : List Instr} : ∀ x0 x1, Kept q x1 → KeptOut q (execExcessDroopStretch x0 x1) := by
  intro x0 x1 h0; unfold execExcessDroopStretch; extract_lets +onlyGivenNames l1; clear_value l1; apply kept_next; apply onlyIf_kept
  assumption; apply excessStretch_kept; assumption

theorem execPartitionRailLoop_kept {q : List Instr} : ∀ x0 x1 x2 x3, Kept q x3 → KeptOut q (execPartitionRailLoop x0 x1 x2 x3) := by
  intro x0 x1 x2 x3 h0; unfold execPartitionRailLoop; extract_lets +onlyGivenNames l1; clear_value l1; apply kept_next; apply onlyIf_kept
  assumption; extract_lets +onlyGivenNames l5; clear_value l5; extract_lets +onlyGivenNames l6
  (have k6 : Kept q l6 := ?_; clear_value l6); extract_lets +onlyGivenNames l7; clear_value l7; split; assumption; split
  apply State_setPart_kept; assumption; split; apply State_setPart_kept; assumption; apply detect_kept; apply State_setPart_kept; assumption
  unfold l6; apply State_setPart_kept; assumption

theorem execPowerAverageWindow_kept {q : List Instr} : ∀ x0 x1 x2 x3 x4, Kept q x4 → KeptOut q (execPowerAverageWindow x0 x1 x2 x3 x4) := by
  intro x0 x1 x2 x3 x4 h0; unfold execPowerAverageWindow; apply kept_next; apply onlyIf_kept; assumption; extract_lets +onlyGivenNames l4
  clear_value l4; extract_lets +onlyGivenNames l5; (have k5 : Kept q l5 := ?_; clear_value l5); extract_lets +onlyGivenNames l6
  clear_value l6; extract_lets +onlyGivenNames l7; clear_value l7; extract_lets +onlyGivenNames l8; clear_value l8
  extract_lets +onlyGivenNames l9; (have k9 : Kept q l9 := ?_; clear_value l9); split; apply patCount_kept; assumption; assumption
  unfold l9; apply forEach_kept; intro _ _ _; apply State_setCluster_kept; assumption; assumption; unfold l5; apply kept_mk2
  apply kept_mem (q := q); assumption; apply kept_host (q := q); assumption; apply kept_pending; assumption

theorem portsOff_kept {q : List Instr} : ∀ x0, Kept q x0 → Kept q (portsOff x0) := by
  intro x0 h0; unfold portsOff; extract_lets +onlyGivenNames l1; (have k1 : Kept q l1 := ?_; clear_value l1)
  extract_lets +onlyGivenNames l2; clear_value l2; apply forEach_kept; intro _ _ _; apply invalidate_kept; assumption
  apply standAlone_kept; assumption; unfold l1; apply forEach_kept; intro _ _ _; extract_lets +onlyGivenNames l16; clear_value l16
  apply failCrossing_kept; apply setFport_kept; assumption; assumption

theorem takeKeeper_kept {q : List Instr} : ∀ x0, Kept q x0 → Kept q (takeKeeper x0) := by
  intro x0 h0; unfold takeKeeper; extract_lets +onlyGivenNames l1; clear_value l1; extract_lets +onlyGivenNames l2; clear_value l2
  extract_lets +onlyGivenNames l3; clear_value l3; extract_lets +onlyGivenNames l4; clear_value l4; apply kept_mk2
  apply kept_mem (q := q); assumption; apply kept_host (q := q); assumption; apply kept_pending; assumption

theorem enterStandby_kept {q : List Instr} : ∀ x0, Kept q x0 → Kept q (enterStandby x0) := by
  intro x0 h0; unfold enterStandby; extract_lets +onlyGivenNames l1; clear_value l1; extract_lets +onlyGivenNames l2
  (have k2 : Kept q l2 := ?_; clear_value l2); extract_lets +onlyGivenNames l3; (have k3 : Kept q l3 := ?_; clear_value l3); apply kept_mk2
  apply kept_mem (q := q); assumption; apply kept_host (q := q); assumption; apply kept_pending; assumption; unfold l3; apply forEach_kept
  intro _ _ _; extract_lets +onlyGivenNames l16; (have k16 : Kept q l16 := ?_; clear_value l16); apply State_setPart_kept; assumption
  unfold l16; apply writeBackLines_kept; assumption; assumption; unfold l2; apply takeKeeper_kept; apply portsOff_kept
  apply changePower_kept; assumption

theorem enterKeeper_kept {q : List Instr} : ∀ x0, Kept q x0 → Kept q (enterKeeper x0) := by
  intro x0 h0; unfold enterKeeper; extract_lets +onlyGivenNames l1; clear_value l1; extract_lets +onlyGivenNames l2
  (have k2 : Kept q l2 := ?_; clear_value l2); apply kept_mk2; apply kept_mem (q := q); assumption; apply kept_host (q := q); assumption
  apply kept_pending; assumption; unfold l2; apply volatileLost_kept; apply takeKeeper_kept; apply portsOff_kept; apply changePower_kept
  assumption

theorem enterState_kept {q : List Instr} : ∀ x0 x1, Kept q x0 → Kept q (enterState x0 x1) := by
  intro x0 x1 h0; unfold enterState; extract_lets +onlyGivenNames l1; clear_value l1; extract_lets +onlyGivenNames l2
  (have k2 : Kept q l2 := ?_; clear_value l2); split; apply enterStandby_kept; assumption; apply enterKeeper_kept; assumption
  apply grantQueue_kept; apply changePower_kept; assumption; apply changePower_kept; assumption; unfold l2; split; assumption; apply kept_mk2; apply kept_mem (q := q); assumption
  apply kept_host (q := q); assumption; apply kept_pending; assumption

theorem setCap_kept {q : List Instr} : ∀ x0 x1 x2 x3 x4, Kept q x0 → (∀ y100, Kept q y100 → Kept q (x4 y100)) → Kept q (setCap x0 x1 x2 x3 x4) := by
  intro x0 x1 x2 x3 x4 h0 h1; unfold setCap; split; apply h1; assumption; split; apply complete_kept; assumption; split; apply h1
  apply grantQueue_kept; apply noteCap_kept; apply kept_mk2; apply kept_mem (q := q); assumption; apply kept_host (q := q); assumption
  apply kept_pending; assumption; apply await_kept; apply enforceCap_kept; assumption

theorem execPowerMode_kept {q : List Instr} : ∀ x0 x1 x2 x3 x4, Kept q x4 → KeptOut q (execPowerMode x0 x1 x2 x3 x4) := by
  intro x0 x1 x2 x3 x4 h0; unfold execPowerMode; apply command0_kept; assumption; intro _ _; extract_lets +onlyGivenNames l5
  (have k5 : ∀ v0, Kept q v0 → Kept q (l5 v0) := ?_; clear_value l5); split; apply complete_kept; assumption; split; apply setCap_kept
  assumption; intro _ _; apply k5; assumption; split; apply complete_kept; assumption; apply setCap_kept; assumption; intro _ _
  apply enterState_kept; apply k5; assumption; intro _ _; unfold l5; apply complete_kept; assumption

theorem execWakeN_kept {q : List Instr} : ∀ x0 x1 x2 x3, Kept q x3 → KeptOut q (execWakeN x0 x1 x2 x3) := by
  intro x0 x1 x2 x3 h0; unfold execWakeN; apply kept_next; apply onlyIf_kept; assumption; split; apply grantQueue_kept; apply changePower_kept; assumption
  apply kept_mk2; apply kept_mem (q := q); assumption; apply kept_host (q := q); assumption; apply kept_pending; assumption
  extract_lets +onlyGivenNames l13; clear_value l13
  extract_lets +onlyGivenNames l14; (have k14 : Kept q l14 := ?_; clear_value l14); apply kept_mk2; apply kept_mem (q := q); assumption
  apply kept_host (q := q); assumption; apply kept_pending; assumption; unfold l14; apply coldStart_kept; apply changePower_kept; apply kept_mk2; apply kept_mem (q := q); assumption
  apply kept_host (q := q); assumption; apply kept_pending; assumption; assumption

theorem execWakeComplete_kept {q : List Instr} : ∀ x0, Kept q x0 → KeptOut q (execWakeComplete x0) := by
  intro x0 h0; unfold execWakeComplete; apply kept_next; apply onlyIf_kept; assumption; extract_lets +onlyGivenNames l4
  (have k4 : Kept q l4 := ?_; clear_value l4); extract_lets +onlyGivenNames l5; (have k5 : Kept q l5 := ?_; clear_value l5)
  extract_lets +onlyGivenNames l6; (have k6 : Kept q l6 := ?_; clear_value l6); extract_lets +onlyGivenNames l7
  (have k7 : Kept q l7 := ?_; clear_value l7); apply kept_mk2; apply kept_mem (q := q); assumption; apply kept_host (q := q); assumption
  apply kept_pending; assumption; unfold l7; apply powerPorts_kept; assumption; unfold l6; apply forEach_kept; intro _ _ _
  extract_lets +onlyGivenNames l23; (have k23 : Kept q l23 := ?_; clear_value l23); apply State_setPart_kept; assumption; unfold l23
  apply kept_mk2; apply kept_clear; apply kept_mem (q := q); assumption; apply kept_host (q := q); assumption; apply kept_pending; assumption
  assumption; unfold l5; apply changePower_kept; assumption; unfold l4; apply loadKeeper_kept; assumption

theorem execPowerFailSequenceEnd_kept {q : List Instr} : ∀ x0, Kept q x0 → KeptOut q (execPowerFailSequenceEnd x0) := by
  intro x0 h0; unfold execPowerFailSequenceEnd; apply kept_next; apply onlyIf_kept; assumption; extract_lets +onlyGivenNames l4
  clear_value l4; extract_lets +onlyGivenNames l5; (have k5 : Kept q l5 := ?_; clear_value l5); extract_lets +onlyGivenNames l6
  (have k6 : Kept q l6 := ?_; clear_value l6); extract_lets +onlyGivenNames l7; (have k7 : Kept q l7 := ?_; clear_value l7); apply kept_mk2
  apply kept_mem (q := q); assumption; apply kept_host (q := q); assumption; apply kept_pending; assumption; unfold l7
  apply volatileLost_kept; assumption; unfold l6; apply drainLog_kept; apply commitPatina_kept; assumption; unfold l5; apply patCount_kept
  assumption

theorem execProtectiveStopEnd_kept {q : List Instr} : ∀ x0 x1 x2 x3, Kept q x3 → KeptOut q (execProtectiveStopEnd x0 x1 x2 x3) := by
  intro x0 x1 x2 x3 h0; unfold execProtectiveStopEnd; apply kept_next; apply onlyIf_kept; assumption; apply coldStart_kept; assumption

theorem execPatinaFold_kept {q : List Instr} : ∀ x0, Kept q x0 → KeptOut q (execPatinaFold x0) := by
  intro x0 h0; unfold execPatinaFold; apply kept_next; apply onlyIf_kept; assumption; apply fold_kept; assumption

theorem execPatinaCommit_kept {q : List Instr} : ∀ x0 x1, Kept q x1 → KeptOut q (execPatinaCommit x0 x1) := by
  intro x0 x1 h0; unfold execPatinaCommit; apply kept_next; apply onlyIf_kept; assumption; apply commitPatina_kept; assumption

theorem execEventLogDrain_kept {q : List Instr} : ∀ x0, Kept q x0 → KeptOut q (execEventLogDrain x0) := by
  intro x0 h0; unfold execEventLogDrain; apply kept_next; apply onlyIf_kept; assumption; apply drainLog_kept; assumption

theorem execBackupCellLow_kept {q : List Instr} : ∀ x0, Kept q x0 → KeptOut q (execBackupCellLow x0) := by
  intro x0 h0; unfold execBackupCellLow; apply kept_next; apply onlyIf_kept; assumption; apply kept_mk2; apply kept_mem (q := q); assumption
  apply kept_host (q := q); assumption; apply kept_pending; assumption

theorem execPatinaRead_kept {q : List Instr} : ∀ x0 x1 x2 x3 x4 x5, Kept q x5 → KeptOut q (execPatinaRead x0 x1 x2 x3 x4 x5) := by
  intro x0 x1 x2 x3 x4 x5 h0; unfold execPatinaRead; apply command_kept; assumption; intro _ _; split; apply complete_kept; assumption
  extract_lets +onlyGivenNames l8; clear_value l8; apply replyBuf_kept; assumption; intro _ _; apply complete_kept; assumption

theorem stampWithin_kept {q : List Instr} : ∀ x0 x1, Kept q x0 → Kept q (stampWithin x0 x1).2 := by
  intro x0 x1 h0; unfold stampWithin; extract_lets +onlyGivenNames l1; (have k1 : Kept q l1.2 := ?_; clear_value l1)
  with_reducible apply kept_p1; assumption; assumption; unfold l1; apply State_fresh_kept; assumption

theorem presentPort_kept {q : List Instr} : ∀ x0 x1 x2, Kept q x0 → Kept q (presentPort x0 x1 x2) := by
  intro x0 x1 x2 h0; unfold presentPort; split; split; apply present_kept; assumption; assumption; assumption

theorem portEntry_kept {q : List Instr} : ∀ x0 x1 x2, Kept q x0 → Kept q (portEntry x0 x1 x2) := by
  intro x0 x1 x2 h0; unfold portEntry; apply ingress_kept; apply presentPort_kept; assumption

theorem finishEntry_kept {q : List Instr} : ∀ x0 x1 x2 x3, Kept q x0 → Kept q (finishEntry x0 x1 x2 x3) := by
  intro x0 x1 x2 x3 h0; unfold finishEntry; extract_lets +onlyGivenNames l1; (have k1 : Kept q l1 := ?_; clear_value l1)
  apply objSetWord_kept; assumption; unfold l1; apply objWriteBytes_kept; assumption

theorem execTransmitRingPoll_kept {q : List Instr} : ∀ x0 x1, Kept q x1 → KeptOut q (execTransmitRingPoll x0 x1) := by
  intro x0 x1 h0; unfold execTransmitRingPoll; apply kept_next; apply onlyIf_kept; assumption; apply readProducer_kept; assumption

theorem setEthPort_kept {q : List Instr} : ∀ x0 x1 x2, Kept q x0 → Kept q (setEthPort x0 x1 x2) := by
  intro x0 x1 x2 h0; unfold setEthPort; apply kept_mk2; apply kept_mem (q := q); assumption; apply kept_host (q := q); assumption
  apply kept_pending; assumption

theorem execServiceFrameReceived_kept {q : List Instr} : ∀ x0 x1 x2 x3 x4, Kept q x4 → KeptOut q (execServiceFrameReceived x0 x1 x2 x3 x4) := by
  intro x0 x1 x2 x3 x4 h0; unfold execServiceFrameReceived; apply kept_next; apply onlyIf_kept; assumption
  extract_lets +onlyGivenNames l4; clear_value l4; split; apply setEthPort_kept; assumption; split; apply setEthPort_kept; assumption
  split; assumption; extract_lets +onlyGivenNames l13; clear_value l13; extract_lets +onlyGivenNames l14
  (have k14 : Kept q l14.2 := ?_; clear_value l14); extract_lets +onlyGivenNames l15; (have k15 : Kept q l15 := ?_; clear_value l15)
  apply portEntry_kept; assumption; unfold l15; apply setEthPort_kept; assumption; unfold l14; apply stampWithin_kept; assumption

theorem queueStamp_kept {q : List Instr} : ∀ x0 x1 x2 x3, Kept q x0 → Kept q (queueStamp x0 x1 x2 x3) := by
  intro x0 x1 x2 x3 h0; unfold queueStamp; extract_lets +onlyGivenNames l1; (have k1 : Kept q l1.2 := ?_; clear_value l1)
  extract_lets +onlyGivenNames l2; (have k2 : Kept q l2 := ?_; clear_value l2); extract_lets +onlyGivenNames l3; clear_value l3; split
  assumption; split; apply raiseAs_kept; apply setTsq_kept; assumption; apply setTsq_kept; assumption; unfold l2; assumption; unfold l1
  apply takeInjection_kept; assumption

theorem sendService_kept {q : List Instr} : ∀ x0 x1 x2 x3 x4, Kept q x0 → Kept q (sendService x0 x1 x2 x3 x4) := by
  intro x0 x1 x2 x3 x4 h0; unfold sendService; extract_lets +onlyGivenNames l1; clear_value l1; extract_lets +onlyGivenNames l2
  clear_value l2; split; apply setEthPort_kept; apply finishEntry_kept; assumption; split; assumption; extract_lets +onlyGivenNames l9
  clear_value l9; extract_lets +onlyGivenNames l10; (have k10 : Kept q l10 := ?_; clear_value l10); extract_lets +onlyGivenNames l11
  (have k11 : Kept q l11.2 := ?_; clear_value l11); extract_lets +onlyGivenNames l12; (have k12 : Kept q l12 := ?_; clear_value l12)
  apply finishEntry_kept; assumption; unfold l12; split; apply queueStamp_kept; assumption; assumption; unfold l11; apply stampWithin_kept
  assumption; unfold l10; apply State_emit_kept; assumption

theorem execServiceFrameTransmit_kept {q : List Instr} : ∀ x0 x1, Kept q x1 → KeptOut q (execServiceFrameTransmit x0 x1) := by
  intro x0 x1 h0; unfold execServiceFrameTransmit; apply kept_next; apply onlyIf_kept; assumption; split; assumption
  apply sendService_kept; apply presentPort_kept; assumption

theorem dropBoundary_kept {q : List Instr} : ∀ x0, Kept q x0 → Kept q (dropBoundary x0) := by
  intro x0 h0; unfold dropBoundary; apply kept_mk2; apply kept_mem (q := q); assumption; apply kept_host (q := q); assumption
  apply kept_pending; assumption

theorem execBoundaryFrameReceived_kept {q : List Instr} : ∀ x0 x1 x2, Kept q x2 → KeptOut q (execBoundaryFrameReceived x0 x1 x2) := by
  intro x0 x1 x2 h0; unfold execBoundaryFrameReceived; apply kept_next; apply onlyIf_kept; assumption; extract_lets +onlyGivenNames l4
  (have k4 : Kept q l4 := ?_; clear_value l4); extract_lets +onlyGivenNames l5; clear_value l5; split; apply dropBoundary_kept
  assumption; extract_lets +onlyGivenNames l9; clear_value l9; extract_lets +onlyGivenNames l10; clear_value l10; split; assumption
  extract_lets +onlyGivenNames l13; (have k13 : Kept q l13.2 := ?_; clear_value l13); extract_lets +onlyGivenNames l14; clear_value l14
  extract_lets +onlyGivenNames l15; clear_value l15; extract_lets +onlyGivenNames l16; (have k16 : Kept q l16 := ?_; clear_value l16)
  extract_lets +onlyGivenNames l17; clear_value l17; extract_lets +onlyGivenNames l18; (have k18 : Kept q l18 := ?_; clear_value l18)
  apply flushBoundary_kept; apply presentPort_kept; assumption; unfold l18; apply kept_mk2; apply kept_mem (q := q); assumption
  apply kept_host (q := q); assumption; apply kept_pending; assumption; unfold l16; assumption; unfold l13; apply stampWithin_kept
  assumption; unfold l4; apply flushBoundary_kept; assumption

theorem execPerstNAssert_kept {q : List Instr} : ∀ x0, Kept q x0 → KeptOut q (execPerstNAssert x0) := by
  intro x0 h0; unfold execPerstNAssert; apply kept_next; apply onlyIf_kept; assumption; extract_lets +onlyGivenNames l4
  (have k4 : Kept q l4 := ?_; clear_value l4); apply kept_mk2; apply kept_mem (q := q); assumption; apply kept_host (q := q); assumption
  apply kept_pending; assumption; unfold l4; apply forEach_kept; intro _ _ _; extract_lets +onlyGivenNames l17; clear_value l17; split
  assumption; apply disableBox_kept; apply State_setBox_kept; assumption; assumption

theorem execDownstreamInboundAccess_kept {q : List Instr} : ∀ x0 x1 x2 x3 x4, Kept q x4 → KeptOut q (execDownstreamInboundAccess x0 x1 x2 x3 x4) := by
  intro x0 x1 x2 x3 x4 h0; unfold execDownstreamInboundAccess; apply kept_next; apply onlyIf_kept; assumption
  extract_lets +onlyGivenNames l4; clear_value l4; extract_lets +onlyGivenNames l5; clear_value l5; split; apply State_emit_kept
  assumption; split; extract_lets +onlyGivenNames l10; (have k10 : Kept q l10.s := ?_; clear_value l10); split; assumption
  extract_lets +onlyGivenNames l13; (have k13 : Kept q l13 := ?_; clear_value l13); apply kept_mk2; apply kept_write; apply kept_mem (q := q)
  assumption; apply kept_host (q := q); assumption; apply kept_pending; assumption; unfold l13; assumption; unfold l10
  apply bar2Access_kept; assumption; extract_lets +onlyGivenNames l27; (have k27 : Kept q l27.1 := ?_; clear_value l27)
  apply State_emit_kept; assumption; unfold l27; apply bar2Fetch_kept; assumption

theorem setCamera_kept {q : List Instr} : ∀ x0 x1 x2, Kept q x0 → Kept q (setCamera x0 x1 x2) := by
  intro x0 x1 x2 h0; unfold setCamera; apply kept_mk2; apply kept_mem (q := q); assumption; apply kept_host (q := q); assumption
  apply kept_pending; assumption

theorem discardPacket_kept {q : List Instr} : ∀ x0 x1, Kept q x0 → Kept q (discardPacket x0 x1) := by
  intro x0 x1 h0; unfold discardPacket; apply setCamera_kept; assumption

theorem execFrameStart_kept {q : List Instr} : ∀ x0 x1 x2 x3 x4, Kept q x4 → KeptOut q (execFrameStart x0 x1 x2 x3 x4) := by
  intro x0 x1 x2 x3 x4 h0; unfold execFrameStart; apply kept_next; apply onlyIf_kept; assumption; extract_lets +onlyGivenNames l4
  clear_value l4; split; apply discardPacket_kept; assumption; extract_lets +onlyGivenNames l8
  (have k8 : Kept q l8.2 := ?_; clear_value l8); extract_lets +onlyGivenNames l9; (have k9 : Kept q l9 := ?_; clear_value l9)
  extract_lets +onlyGivenNames l10; clear_value l10; extract_lets +onlyGivenNames l11; clear_value l11; split; apply setCamera_kept
  assumption; split; apply setCamera_kept; apply ringDrop_kept; assumption; apply setCamera_kept; apply objWriteBytes_kept; assumption
  unfold l9; assumption; unfold l8; apply stampWithin_kept; assumption

theorem writeLine_kept {q : List Instr} : ∀ x0 x1 x2 x3 x4 x5, Kept q x0 → Kept q (writeLine x0 x1 x2 x3 x4 x5) := by
  intro x0 x1 x2 x3 x4 x5 h0; unfold writeLine; extract_lets +onlyGivenNames l1; clear_value l1; extract_lets +onlyGivenNames l2
  clear_value l2; extract_lets +onlyGivenNames l3; clear_value l3; apply forEach_kept; intro _ _ _; split; apply objWriteBytes_kept
  assumption; assumption; assumption

theorem execCameraLine_kept {q : List Instr} : ∀ x0 x1 x2 x3 x4 x5 x6, Kept q x6 → KeptOut q (execCameraLine x0 x1 x2 x3 x4 x5 x6) := by
  intro x0 x1 x2 x3 x4 x5 x6 h0; unfold execCameraLine; apply kept_next; apply onlyIf_kept; assumption; extract_lets +onlyGivenNames l4
  clear_value l4; extract_lets +onlyGivenNames l5; clear_value l5; split; apply discardPacket_kept; assumption; split; assumption
  split; assumption; extract_lets +onlyGivenNames l13; clear_value l13; extract_lets +onlyGivenNames l14
  (have k14 : Kept q l14 := ?_; clear_value l14); apply setCamera_kept; assumption; unfold l14; split; assumption; apply writeLine_kept
  assumption

theorem execFrameEnd_kept {q : List Instr} : ∀ x0 x1 x2, Kept q x2 → KeptOut q (execFrameEnd x0 x1 x2) := by
  intro x0 x1 x2 h0; unfold execFrameEnd; apply kept_next; apply onlyIf_kept; assumption; extract_lets +onlyGivenNames l4; clear_value l4
  extract_lets +onlyGivenNames l5; clear_value l5; split; apply discardPacket_kept; assumption; split; apply setCamera_kept; assumption
  extract_lets +onlyGivenNames l12; (have k12 : Kept q l12.2 := ?_; clear_value l12); extract_lets +onlyGivenNames l13; clear_value l13
  extract_lets +onlyGivenNames l14; clear_value l14; extract_lets +onlyGivenNames l15; clear_value l15
  extract_lets +onlyGivenNames l16; (have k16 : Kept q l16 := ?_; clear_value l16); extract_lets +onlyGivenNames l17
  (have k17 : Kept q l17 := ?_; clear_value l17); apply setCamera_kept; assumption; unfold l17; apply objSetWord_kept; assumption
  unfold l16; apply presentPort_kept; apply objWriteBytes_kept; assumption; unfold l12; apply stampWithin_kept; assumption

theorem execFrameSyncPulse_kept {q : List Instr} : ∀ x0 x1, Kept q x1 → KeptOut q (execFrameSyncPulse x0 x1) := by
  intro x0 x1 h0; unfold execFrameSyncPulse; apply kept_next; apply onlyIf_kept; assumption; split; assumption
  extract_lets +onlyGivenNames l6; clear_value l6; apply onlyIf_kept; assumption; apply State_emit_kept; apply kept_mk2
  apply kept_mem (q := q); assumption; apply kept_host (q := q); assumption; apply kept_pending; assumption

theorem execCameraGroupPowerOn_kept {q : List Instr} : ∀ x0 x1, Kept q x1 → KeptOut q (execCameraGroupPowerOn x0 x1) := by
  intro x0 x1 h0; unfold execCameraGroupPowerOn; apply kept_next; apply onlyIf_kept; assumption; extract_lets +onlyGivenNames l4
  clear_value l4; extract_lets +onlyGivenNames l5; (have k5 : Kept q l5 := ?_; clear_value l5); apply State_emit_kept; assumption
  unfold l5; apply kept_mk2; apply kept_mem (q := q); assumption; apply kept_host (q := q); assumption; apply kept_pending; assumption

theorem setCanPort_kept {q : List Instr} : ∀ x0 x1 x2, Kept q x0 → Kept q (setCanPort x0 x1 x2) := by
  intro x0 x1 x2 h0; unfold setCanPort; apply kept_mk2; apply kept_mem (q := q); assumption; apply kept_host (q := q); assumption
  apply kept_pending; assumption

theorem execCanFrameReceived_kept {q : List Instr} : ∀ x0 x1 x2 x3, Kept q x3 → KeptOut q (execCanFrameReceived x0 x1 x2 x3) := by
  intro x0 x1 x2 x3 h0; unfold execCanFrameReceived; apply kept_next; apply onlyIf_kept; assumption; extract_lets +onlyGivenNames l4
  (have k4 : Kept q l4.2 := ?_; clear_value l4); apply portEntry_kept; assumption; unfold l4; apply stampWithin_kept; assumption

theorem execCanFrameTransmit_kept {q : List Instr} : ∀ x0 x1 x2, Kept q x2 → KeptOut q (execCanFrameTransmit x0 x1 x2) := by
  intro x0 x1 x2 h0; unfold execCanFrameTransmit; apply kept_next; apply onlyIf_kept; assumption; split; assumption; apply onlyIf_kept
  assumption; extract_lets +onlyGivenNames l8; (have k8 : Kept q l8 := ?_; clear_value l8); extract_lets +onlyGivenNames l9
  (have k9 : Kept q l9 := ?_; clear_value l9); apply setCanPort_kept; apply finishEntry_kept; assumption; unfold l9; apply State_emit_kept
  assumption; unfold l8; apply presentPort_kept; assumption

theorem execCanFrameAbandon_kept {q : List Instr} : ∀ x0 x1, Kept q x1 → KeptOut q (execCanFrameAbandon x0 x1) := by
  intro x0 x1 h0; unfold execCanFrameAbandon; apply kept_next; apply onlyIf_kept; assumption; split; assumption; apply onlyIf_kept
  assumption; extract_lets +onlyGivenNames l8; clear_value l8; apply setCanPort_kept; apply finishEntry_kept; assumption

theorem execCanBusOff_kept {q : List Instr} : ∀ x0 x1, Kept q x1 → KeptOut q (execCanBusOff x0 x1) := by
  intro x0 x1 h0; unfold execCanBusOff; extract_lets +onlyGivenNames l1; clear_value l1; apply kept_next; apply onlyIf_kept; assumption
  apply setCanPort_kept; assumption

theorem execCanBusOffRecovery_kept {q : List Instr} : ∀ x0 x1, Kept q x1 → KeptOut q (execCanBusOffRecovery x0 x1) := by
  intro x0 x1 h0; unfold execCanBusOffRecovery; apply kept_next; apply onlyIf_kept; assumption; apply setCanPort_kept; assumption

theorem setSpiPort_kept {q : List Instr} : ∀ x0 x1 x2, Kept q x0 → Kept q (setSpiPort x0 x1 x2) := by
  intro x0 x1 x2 h0; unfold setSpiPort; apply kept_mk2; apply kept_mem (q := q); assumption; apply kept_host (q := q); assumption
  apply kept_pending; assumption

theorem execDataReadyEdge_kept {q : List Instr} : ∀ x0 x1, Kept q x1 → KeptOut q (execDataReadyEdge x0 x1) := by
  intro x0 x1 h0; unfold execDataReadyEdge; extract_lets +onlyGivenNames l1; clear_value l1; apply kept_next; apply onlyIf_kept
  assumption; split; apply setSpiPort_kept; assumption; extract_lets +onlyGivenNames l8; (have k8 : Kept q l8.2 := ?_; clear_value l8)
  apply State_emit_kept; apply setSpiPort_kept; assumption; unfold l8; apply stampWithin_kept; assumption

theorem execSpiTransactionComplete_kept {q : List Instr} : ∀ x0 x1 x2, Kept q x2 → KeptOut q (execSpiTransactionComplete x0 x1 x2) := by
  intro x0 x1 x2 h0; unfold execSpiTransactionComplete; extract_lets +onlyGivenNames l1; clear_value l1; apply kept_next
  apply onlyIf_kept; assumption; extract_lets +onlyGivenNames l5; clear_value l5; extract_lets +onlyGivenNames l6; clear_value l6
  apply portEntry_kept; apply setSpiPort_kept; assumption

theorem execEncoderEdge_kept {q : List Instr} : ∀ x0 x1 x2 x3 x4, Kept q x4 → KeptOut q (execEncoderEdge x0 x1 x2 x3 x4) := by
  intro x0 x1 x2 x3 x4 h0; unfold execEncoderEdge; extract_lets +onlyGivenNames l1; clear_value l1; apply kept_next; apply onlyIf_kept
  assumption; extract_lets +onlyGivenNames l5; clear_value l5; extract_lets +onlyGivenNames l6; clear_value l6
  extract_lets +onlyGivenNames l7; clear_value l7; extract_lets +onlyGivenNames l8; clear_value l8; extract_lets +onlyGivenNames l9
  clear_value l9; extract_lets +onlyGivenNames l10; clear_value l10; apply kept_mk2; apply kept_mem (q := q); assumption
  apply kept_host (q := q); assumption; apply kept_pending; assumption

theorem execEncoderSample_kept {q : List Instr} : ∀ x0, Kept q x0 → KeptOut q (execEncoderSample x0) := by
  intro x0 h0; unfold execEncoderSample; extract_lets +onlyGivenNames l1; clear_value l1; extract_lets +onlyGivenNames l2
  clear_value l2; apply kept_next; apply onlyIf_kept; assumption; extract_lets +onlyGivenNames l6; clear_value l6
  extract_lets +onlyGivenNames l7; clear_value l7; extract_lets +onlyGivenNames l8; clear_value l8; extract_lets +onlyGivenNames l9
  clear_value l9; extract_lets +onlyGivenNames l10; clear_value l10; extract_lets +onlyGivenNames l11
  (have k11 : Kept q l11 := ?_; clear_value l11); apply portEntry_kept; assumption; unfold l11; apply kept_mk2; apply kept_mem (q := q)
  assumption; apply kept_host (q := q); assumption; apply kept_pending; assumption

theorem execHaltReqAccept_kept {q : List Instr} : ∀ x0, Kept q x0 → KeptOut q (execHaltReqAccept x0) := by
  intro x0 h0; unfold execHaltReqAccept; apply kept_next; apply onlyIf_kept; assumption; extract_lets +onlyGivenNames l4; clear_value l4
  extract_lets +onlyGivenNames l5; (have k5 : Kept q l5 := ?_; clear_value l5); apply latchHeaders_kept; apply kept_mk2
  apply kept_mem (q := q); assumption; apply kept_host (q := q); assumption; apply kept_pending; assumption; unfold l5
  apply writeHaltWord_kept; apply kept_mk2; apply kept_mem (q := q); assumption; apply kept_host (q := q); assumption; apply kept_pending
  assumption

theorem execJtagBypass_kept {q : List Instr} : ∀ x0 x1, Kept q x1 → KeptOut q (execJtagBypass x0 x1) := by
  intro x0 x1 h0; unfold execJtagBypass; apply kept_next; apply onlyIf_kept; assumption; apply State_emit_kept; apply kept_mk2
  apply kept_mem (q := q); assumption; apply kept_host (q := q); assumption; apply kept_pending; assumption

theorem execJtagIdcode_kept {q : List Instr} : ∀ x0, Kept q x0 → KeptOut q (execJtagIdcode x0) := by
  intro x0 h0; unfold execJtagIdcode; apply kept_next; apply onlyIf_kept; assumption; apply State_emit_kept; apply kept_mk2
  apply kept_mem (q := q); assumption; apply kept_host (q := q); assumption; apply kept_pending; assumption

theorem captureBoundary_kept {q : List Instr} : ∀ x0 x1 x2, Kept q x0 → Kept q (captureBoundary x0 x1 x2) := by
  intro x0 x1 x2 h0; unfold captureBoundary; extract_lets +onlyGivenNames l1; clear_value l1; extract_lets +onlyGivenNames l2
  clear_value l2; apply State_emit_kept; apply kept_mk2; apply kept_mem (q := q); assumption; apply kept_host (q := q); assumption
  apply kept_pending; assumption

theorem execJtagSamplePreload_kept {q : List Instr} : ∀ x0 x1, Kept q x1 → KeptOut q (execJtagSamplePreload x0 x1) := by
  intro x0 x1 h0; unfold execJtagSamplePreload; apply kept_next; apply onlyIf_kept; assumption; apply captureBoundary_kept; assumption

theorem execJtagExtest_kept {q : List Instr} : ∀ x0 x1, Kept q x1 → KeptOut q (execJtagExtest x0 x1) := by
  intro x0 x1 h0; unfold execJtagExtest; apply kept_next; apply onlyIf_kept; assumption; apply captureBoundary_kept; assumption

theorem execJtagDebugAccess_kept {q : List Instr} : ∀ x0 x1 x2 x3 x4, Kept q x4 → KeptOut q (execJtagDebugAccess x0 x1 x2 x3 x4) := by
  intro x0 x1 x2 x3 x4 h0; unfold execJtagDebugAccess; apply kept_next; apply onlyIf_kept; assumption; split
  extract_lets +onlyGivenNames l5; clear_value l5; split; assumption; split; apply kept_mk2; apply kept_write; apply kept_mem (q := q)
  assumption; apply kept_host (q := q); assumption; apply kept_pending; assumption; apply State_emit_kept; assumption; split; assumption
  apply State_emit_kept; assumption; split; assumption; extract_lets +onlyGivenNames l25
  (have k25 : Kept q l25.2 := ?_; clear_value l25); apply State_emit_kept; assumption; unfold l25; apply State_freeBytes_kept; assumption
  assumption

theorem execJtagNorProgram_kept {q : List Instr} : ∀ x0 x1 x2 x3, Kept q x3 → KeptOut q (execJtagNorProgram x0 x1 x2 x3) := by
  intro x0 x1 x2 x3 h0; unfold execJtagNorProgram; apply kept_next; apply onlyIf_kept; assumption; apply programFlash_kept; assumption

end Sys2Proof.Machine
end

