-- ==== Sys2Proof/WellFormed.lean ====
section
/-! DEFINITION. When a command is well-formed: every number lies in the width of the field that carries it. A value inside its field that breaks a rule of the spec is well-formed; the command's meaning says what the module does with it. -/

namespace Sys2Proof

/-- A number fits a field of `n` bits. -/
def fits (n v : Nat) : Bool := decide (v < 2 ^ n)

/-- A signed number fits a field of `n` bits. -/
def fitsInt (n : Nat) (v : Int) : Bool := decide (-(2 ^ (n - 1)) ≤ v ∧ v < 2 ^ (n - 1))

/-- A buffer reference: 8 bytes of address, 4 of length (R356). -/
def Bref.ok (b : Bref) : Bool := fits 64 b.addr && fits 32 b.len

/-- A command header: length in 2 bytes, timeout in 4 (R354). -/
def CmdHdr.ok (h : CmdHdr) : Bool := fits 16 h.length && fits 32 h.timeout

/-- A binding list entry: slot in 2 bytes, object in 4 (R359). -/
def BindEntry.ok (b : BindEntry) : Bool := fits 16 b.slot && fits 32 b.object

/-- The per-port bytes of a `TIME_CONFIG` payload (R356). -/
def PtpPortCfg.ok (p : PtpPortCfg) : Bool :=
  fits 8 p.mode && fits 8 p.step && fits 8 p.delay && fits 8 p.transport && fits 8 p.domain &&
  fitsInt 8 p.logSync && fitsInt 8 p.logDelayReq

/-- An event's fields as an event entry carries them (R367, R408). -/
def DetEvent.ok (e : DetEvent) : Bool :=
  fits 8 e.detector && fits 8 e.partition && fits 16 e.job && fits 8 e.cause && fits 16 e.unit &&
  fits 64 e.value

/-- A symbol error names one of the 36 symbols of a codeword of a burst (R154). -/
def SymErr.ok (e : SymErr) : Bool := decide (e.codeword < 16) && decide (e.symbol < 36)

/-- The fields of an Announce message (R449). -/
def AnnounceData.ok (d : AnnounceData) : Bool :=
  fits 8 d.priority1 && fits 8 d.clockClass && fits 8 d.clockAccuracy && fits 16 d.variance &&
  fits 8 d.priority2 && fits 64 d.grandmaster && fits 16 d.stepsRemoved && fits 80 d.sender &&
  fits 16 d.utcOffset

/-- A frame's address field (R460). -/
def FrameHdr.ok (h : FrameHdr) : Bool := fits 64 h.address

/-- A node's report (R461). -/
def Report.ok (r : Report) : Bool :=
  fits 128 r.identity && fits 32 r.bootCount && fits 10 r.nodeId && fits 10 r.preferred &&
  fits 32 r.assigned && decide (r.ports.length = 6) &&
  r.ports.all (fun p => fits 8 p.state && fits 8 p.partnerPort && fits 10 p.partnerNode)

/-- A changed route entry (R461). -/
def RouteEntry.ok (e : RouteEntry) : Bool := fits 10 e.dest && decide (e.port < 6) && fits 8 e.hops

/-- Every number of a command lies in the width of its field. -/
def Instr.wellFormed : Instr → Bool
  | .nop _ | .setp _ _ _ | .addp _ _ _ | .setmode _ _ _ _ _ _ | .loop _ _ _ _ | .accz _ _
  | .mma _ _ _ _ _ _ | .accrd _ _ _ _ _ | .vop _ _ _ _ _ _ | .vpoly _ _ _ _ _ | .vred _ _ _ _ _ _
  | .xpose _ _ _ _ | .shuf _ _ _ _ _ | .spop _ _ _ _ _ _ _ | .sls _ _ _ _ _ | .tmove _ _ _ _ _ _
  | .send _ _ _ _ _ | .recv _ _ _ _ _ | .recvFilled _ _ | .wait _ _ _ | .waitSatisfied _
  | .signal _ _ _ _ | .fence _ _ _ _ | .mark _ _ | .commitWord _ _ | .endWord _ | .illegalWord _ _
  | .flitParityError _ _ | .unitWordComplete _ _ => true
  | .arbiterRequest _ _ cls bytes job => decide (cls ≤ 2) && fits 32 bytes && fits 16 job
  | .arbiterGrant _ errs => errs.all SymErr.ok
  | .turnEstimateUpdate _ | .transferWritten _ _ | .dramRefresh _ _ | .scrubWindowBoundary _ => true
  | .arbiterProtocolBreach _ _ _ job => fits 16 job
  | .lateThresholdExpiry _ _ => true
  | .scrubBurst _ errs reread => errs.all SymErr.ok && reread.all SymErr.ok
  | .bar2Read _ size => fits 13 size
  | .bar2Write _ data => fits 13 data.length
  | .hangCheck | .atelierWatchdogExpiry | .atelierMemoryUncorrected | .injectionDisarm => true
  | .invocationStart job | .periodicStartInstant job | .attnPassStart job | .gatePassPrepare job
  | .epochCutoff job | .invocationCommit job | .milestoneDue job | .leaseLoadComplete job
  | .switchSaveWritten job | .switchReloadComplete job | .shadowEstablish job => fits 16 job
  | .spillWritten entry | .pageRecallWritten entry => fits 16 entry
  | .ingressWrite object entry => fits 32 object && fits 16 entry.length
  | .swapOutWritten _ stream | .swapInWritten _ stream => fits 32 stream
  | .detectorEvent e => e.ok
  | .castReadTimeout _ kind unit => fits 8 kind && fits 16 unit
  | .castComplete _ | .sliceWriteBackComplete _ | .partitionResetRelease _
  | .dramTrainingComplete _ _ | .partitionInService _ => true
  | .commandFetch _ | .commandTimeout _ => true
  | .undefinedOpcode _ h _ | .identify _ h | .getLimits _ h => h.ok
  | .plinthRead _ h offset b => h.ok && fits 32 offset && b.ok
  | .reliefList _ h b | .fabricStatus _ h b | .faultStatus _ h b => h.ok && b.ok
  | .reliefApply _ h relief => h.ok && fits 16 relief
  | .objCreate _ h length _ => h.ok && fits 64 length
  | .objPlace _ h object tier partition node _ =>
    h.ok && fits 32 object && fits 8 tier && fits 8 partition && fits 16 node
  | .objWrite _ h object offset b | .objRead _ h object offset b =>
    h.ok && fits 32 object && fits 64 offset && b.ok
  | .objFree _ h object | .imageLoad _ h object => h.ok && fits 32 object
  | .objDelta _ h object b => h.ok && fits 32 object && b.ok
  | .imageUnload _ h image => h.ok && fits 16 image
  | .jobSubmit _ h image cls _ periodNs count bindings b =>
    h.ok && fits 16 image && fits 8 cls && fits 32 periodNs && fits 16 count && b.ok &&
    decide (bindings.length ≤ 16) && bindings.all BindEntry.ok
  | .jobCancel _ h job mode => h.ok && fits 16 job && fits 8 mode
  | .jobQuery _ h job b => h.ok && fits 16 job && b.ok
  | .jobFeed _ h job kind rowCount rowSize b =>
    h.ok && fits 16 job && fits 8 kind && fits 16 rowCount && fits 16 rowSize && b.ok
  | .jobSetFallback _ h job image => h.ok && fits 16 job && fits 16 image
  | .streamOpen _ h job count b | .streamResetRows _ h job count b | .streamPark _ h job count b
  | .streamClose _ h job count b => h.ok && fits 16 job && fits 16 count && b.ok
  | .kvPrefixPin _ h sequence count key => h.ok && fits 32 sequence && fits 32 count && fits 32 key
  | .kvRelease _ h kind key => h.ok && fits 8 kind && fits 32 key
  | .timeConfig _ h mask jumpLimit increment port0 port1 holdover =>
    h.ok && fits 32 mask && fits 32 jumpLimit && fits 64 increment && port0.ok && port1.ok &&
    fits 32 holdover
  | .timeForce _ h _ => h.ok
  | .fabricJoinPolicy _ h policy count b => h.ok && fits 8 policy && fits 8 count && b.ok
  | .faultInjectArm _ h windowMs => h.ok && fits 32 windowMs
  | .castFetch _ h partition which b => h.ok && fits 8 partition && fits 8 which && b.ok
  | .partitionReset _ h partition path => h.ok && fits 8 partition && fits 8 path
  | .patinaRead _ h sect offset b => h.ok && fits 16 sect && fits 32 offset && b.ok
  | .calendarSet _ h seconds nanoseconds => h.ok && fits 64 seconds && fits 32 nanoseconds
  | .fwStage _ h target b => h.ok && fits 8 target && b.ok
  | .fwCommit _ h target => h.ok && fits 8 target
  | .attest _ h nonce b => h.ok && decide (nonce.length = 32) && b.ok
  | .powerMode _ h state cap => h.ok && fits 8 state && fits 16 cap
  | .dblCmd _ _ _ | .dblCpl _ _ _ | .mailboxEnable _ _ _ | .mailboxDisable _ _ _ | .mbxLostRead _ _
  | .evtStatusClear _ _ | .fltStatusClear _ _ | .injectionRequest _ _ | .fltInjDoneRead _
  | .timIncrWrite _ _ | .timAdjWrite _ _ | .timLowWordRead _ _ | .timStatusClear _ _ | .tsqPop _ _
  | .tsqDroppedRead _ _ | .tsqDisable _ _ | .tsqStatusClear _ _ _ | .windowLowWordWrite _ _ _
  | .windowHighWordWrite _ _ _ => true
  | .badSizeAccess _ _ size _ => fits 13 size
  | .registerWrite _ _ size _ => size == 4 || size == 8
  | .timeBaseTick => true
  | .sync _ sender domain _ _ _ _ | .followUp _ sender domain _ _ | .delayReq _ sender domain _
  | .delayResp _ sender domain _ _ | .pdelayReq _ sender domain _ | .pdelayResp _ sender domain _ _ _ _
  | .pdelayRespFollowUp _ sender domain _ _ => fits 80 sender && fits 8 domain
  | .announce _ domain d => fits 8 domain && d.ok
  | .ptpMessageDiscard _ | .followUpAbandon _ | .announceReceiptTimeout _ => true
  | .ptpMessageSend _ kind => decide (kind < 16)
  | .holdoverExceeded | .calendarUpdate | .perstNAssert | .encoderSample | .haltReqAccept
  | .jtagIdcode => true
  | .serviceFrameReceived _ frame _ _ | .boundaryFrameReceived frame _ => fits 16 frame.length
  | .serviceFrameTransmit _ => true
  | .transmitRingPoll object => fits 32 object
  | .downstreamInboundAccess addr _ size _ => fits 64 addr && fits 13 size
  | .frameStart _ vc dataType frameNumber => fits 4 vc && fits 6 dataType && fits 16 frameNumber
  | .cameraLine _ vc dataType samples _ _ => fits 4 vc && fits 6 dataType && samples.all (fits 16)
  | .frameEnd _ vc => fits 4 vc
  | .frameSyncPulse _ | .cameraGroupPowerOn _ | .canFrameTransmit _ _ | .canFrameAbandon _ | .canBusOff _
  | .dataReadyEdge _ | .encoderEdge _ _ _ _ => true
  | .canFrameReceived _ _ data => decide (data.length ≤ 64)
  | .spiTransactionComplete _ response => decide (response.length ≤ 64)
  | .jtagBypass _ | .jtagSamplePreload _ | .jtagExtest _ => true
  | .jtagDebugAccess target addr _ data => decide (target ≤ 2) && fits 64 addr && fits 16 data.length
  | .jtagNorProgram _ offset data => fits 24 offset && fits 24 data.length
  | .writeRequest _ h data | .readData _ h data => h.ok && fits 13 data.length
  | .readRequest _ h _ | .writeAcknowledgement _ h | .linkControl _ h => h.ok
  | .failureResponse _ h status => h.ok && fits 8 status
  | .windowRead _ _ _ offset size bodyLen | .windowWrite _ _ _ offset size _ bodyLen =>
    fits 32 offset && fits 16 size && fits 16 bodyLen
  | .lowestIdentity _ identity bootCount => fits 128 identity && fits 32 bootCount
  | .report _ _ r => r.ok
  | .idAssignment _ _ identity nodeId assigned => fits 128 identity && fits 10 nodeId && fits 32 assigned
  | .routeEntries _ _ generation entries _ => fits 32 generation && entries.all RouteEntry.ok
  | .routePhaseReissue => true
  | .phaseDone _ _ node generation => fits 10 node && fits 32 generation
  | .release _ _ generation => fits 32 generation
  | .reservationRequest _ _ _ length _ bootCount _ => fits 64 length && fits 32 bootCount
  | .reservationResponse _ _ _ status rid base => fits 8 status && fits 32 rid && fits 64 base
  | .reservationRelease _ _ _ rid => fits 32 rid
  | .reservationFailureNotice _ _ rid cause => fits 32 rid && fits 8 cause
  | .helloNonce _ identity nonce => fits 128 identity && decide (nonce.length = 32)
  | .helloProof _ sigR sigS devCert caCert =>
    fits 256 sigR && fits 256 sigS && fits 16 devCert.length && fits 16 caCert.length
  | .helloVerdict _ verdict mergedNodes => fits 8 verdict && fits 16 mergedNodes
  | .managementRequestTimeout _ | .t3RequestTimeout _ | .creditTimeout _ _ | .linkIdleTimeout _
  | .linkSignalLoss _ | .linkIdleFrameSend _ | .identityBroadcast | .signalDetect _ | .trainingBoundMiss _
  | .trainingComplete _ _ | .linkFullPathEnd _ | .equalisationUpdate _ | .widthChange _ _
  | .reservedFrameType _ _ | .retrainComplete _ => true
  | .undefinedKindRequest _ _ _ kind => fits 16 kind
  | .windowAccessResponse _ _ status _ => fits 8 status
  | .powerOn _ _ _ | .mailboxReady | .powerFailDetect | .inputRecovered
  | .temperatureWarningClear | .protectiveStopEnd _ _ _ | .wakeN _ _ _ | .wakeComplete | .voltageLoopLimit _
  | .droopStretch _ | .excessDroopStretch _ | .patinaFold | .eventLogDrain
  | .canBusOffRecovery _ | .powerFailSequenceEnd | .backupCellLow => true
  | .inputUndervoltage mV | .partitionRailOvervoltage _ mV | .partitionRailUndervoltage _ mV => fits 32 mV
  | .overvoltage cause mV => fits 8 cause && fits 32 mV
  | .temperatureWarning cause celsius | .temperatureCritical cause celsius => fits 8 cause && fitsInt 32 celsius
  | .clockLoss cause ppm => fits 8 cause && fitsInt 32 ppm
  | .firmwareStart dieTemp => fitsInt 32 dieTemp
  | .partitionRailLoop _ _ sliceTemp => fitsInt 32 sliceTemp
  | .powerAverageWindow averageTenthsW inputMv case0 case1 =>
    fits 16 averageTenthsW && fits 32 inputMv && fitsInt 32 case0 && fitsInt 32 case1
  | .voltageLoopPeriod r => fitsInt 32 r.margin && fitsInt 32 r.temp
  | .patinaCommit cause => fits 8 cause

end Sys2Proof
end

