-- ==== Sys2Proof/Tests/Slice0.lean ====
section
/-! SUPPORT. The author's own tests: ill-formed terms, words of the sequencer, one-step tests with values of the spec, and a witness for the hypotheses of every statement. -/

namespace Sys2Proof.Tests

open Sys2Proof Sys2Proof.Machine

set_option Elab.async false

/-! ### Ill-formed terms: each check of `Instr.wellFormed` refuses one -/

/-- A well-formed header. -/
def h0 : CmdHdr := { tag := 1, length := 0, timeout := 0 }

/-- A well-formed buffer. -/
def b0 : Bref := { addr := 0, len := 0 }

/-- A buffer whose address needs 65 bits. -/
def bHigh : Bref := { addr := 2 ^ 64, len := 0 }

/-- A buffer whose length needs 33 bits. -/
def bLong : Bref := { addr := 0, len := 2 ^ 32 }

/-- A header whose length needs 17 bits. -/
def hLong : CmdHdr := { tag := 1, length := 2 ^ 16, timeout := 0 }

/-- A header whose timeout needs 33 bits. -/
def hLate : CmdHdr := { tag := 1, length := 0, timeout := 2 ^ 32 }

/-- A well-formed port configuration. -/
def c0 : PtpPortCfg := { mode := 0, step := 0, delay := 0, transport := 0, domain := 0, logSync := 0, logDelayReq := 0 }

/-- A well-formed event. -/
def e0 : DetEvent := { detector := 0, partition := 0, job := 0, cause := 0, unit := 0, value := 0, mild := false }

/-- A well-formed Announce data set. -/
def d0 : AnnounceData :=
  { priority1 := 0, clockClass := 0, clockAccuracy := 0, variance := 0, priority2 := 0, grandmaster := 0, stepsRemoved := 0, sender := 0
    utcOffset := 0, utcValid := false }

/-- A well-formed frame header. -/
def f0 : FrameHdr :=
  { dest := 0, src := 0, vc := 0, linkSeq := 0, linkAck := 0, creditVc := 0, credits := 0, address := 0, tag := 0, attempt := 0
    crcOk := true, fecOk := true }

/-- A well-formed port of a report. -/
def rp0 : ReportPort := { state := 0, partnerPort := 0, partnerNode := 0 }

/-- A well-formed report. -/
def r0 : Report := { identity := 0, bootCount := 0, nodeId := 0, preferred := 0, assigned := 0, ports := List.replicate 6 rp0 }

/-- A well-formed route entry. -/
def re0 : RouteEntry := { dest := 0, port := 0, valid := true, hops := 0 }

/-- None of the terms is well-formed. -/
def allBad (l : List Instr) : Bool := l.all (fun i => !i.wellFormed)

theorem test_wf_accepts : ([.nop 0, .identify 0 h0, .plinthRead 0 h0 0 b0, .timeConfig 0 h0 0 0 0 c0 c0 0, .detectorEvent e0,
  .announce 0 0 d0, .linkControl 0 f0, .report 0 0 r0, .routeEntries 0 0 0 [re0] true] : List Instr).all Instr.wellFormed = true := by decide

theorem test_wf_header : allBad [.identify 0 hLong, .identify 0 hLate, .undefinedOpcode 0 hLong 0xFF] = true := by decide

theorem test_wf_buffer : allBad [.reliefList 0 h0 bHigh, .fabricStatus 0 h0 bLong, .faultStatus 0 hLong b0] = true := by decide

theorem test_wf_arbiter : allBad [.arbiterRequest 0 0 3 0 0, .arbiterRequest 0 0 0 (2 ^ 32) 0, .arbiterRequest 0 0 0 0 (2 ^ 16),
  .arbiterProtocolBreach 0 0 0 (2 ^ 16), .arbiterGrant 0 [{ codeword := 16, symbol := 0, pattern := 1 }],
  .arbiterGrant 0 [{ codeword := 0, symbol := 36, pattern := 1 }], .scrubBurst 0 [{ codeword := 16, symbol := 0, pattern := 1 }] [],
  .scrubBurst 0 [] [{ codeword := 0, symbol := 36, pattern := 1 }], .bar2Read 0 (2 ^ 13), .bar2Write 0 (List.replicate 0x2000 0)] = true := by decide +kernel

theorem test_wf_jobs : allBad ([.invocationStart (2 ^ 16), .periodicStartInstant (2 ^ 16), .attnPassStart (2 ^ 16), .gatePassPrepare (2 ^ 16),
  .epochCutoff (2 ^ 16), .invocationCommit (2 ^ 16), .milestoneDue (2 ^ 16), .leaseLoadComplete (2 ^ 16), .switchSaveWritten (2 ^ 16),
  .switchReloadComplete (2 ^ 16), .shadowEstablish (2 ^ 16), .spillWritten (2 ^ 16), .pageRecallWritten (2 ^ 16)] ++
  [.ingressWrite (2 ^ 32) [], .swapOutWritten 0 (2 ^ 32), .swapInWritten 0 (2 ^ 32)]) = true := by decide

theorem test_wf_event : allBad [.detectorEvent { e0 with detector := 256 }, .detectorEvent { e0 with partition := 256 },
  .detectorEvent { e0 with job := 2 ^ 16 }, .detectorEvent { e0 with cause := 256 }, .detectorEvent { e0 with unit := 2 ^ 16 },
  .detectorEvent { e0 with value := 2 ^ 64 }, .castReadTimeout 0 256 0, .castReadTimeout 0 0 (2 ^ 16)] = true := by decide

theorem test_wf_objects : allBad [.plinthRead 0 h0 (2 ^ 32) b0, .reliefApply 0 h0 (2 ^ 16), .objCreate 0 h0 (2 ^ 64) 0, .objPlace 0 h0 (2 ^ 32) 1 0 0 0,
  .objPlace 0 h0 0 256 0 0 0, .objPlace 0 h0 0 1 256 0 0, .objPlace 0 h0 0 1 0 (2 ^ 16) 0, .objWrite 0 h0 (2 ^ 32) 0 b0, .objRead 0 h0 0 (2 ^ 64) b0,
  .objFree 0 h0 (2 ^ 32), .imageLoad 0 h0 (2 ^ 32), .objDelta 0 h0 0 bLong, .imageUnload 0 h0 (2 ^ 16)] = true := by decide

theorem test_wf_submit : allBad [.jobSubmit 0 h0 (2 ^ 16) 0 0 0 0 [] b0, .jobSubmit 0 h0 0 256 0 0 0 [] b0, .jobSubmit 0 h0 0 0 0 (2 ^ 32) 0 [] b0,
  .jobSubmit 0 h0 0 0 0 0 (2 ^ 16) [] b0, .jobSubmit 0 h0 0 0 0 0 0 (List.replicate 17 { slot := 0, object := 0 }) b0,
  .jobSubmit 0 h0 0 0 0 0 0 [{ slot := 2 ^ 16, object := 0 }] b0, .jobSubmit 0 h0 0 0 0 0 0 [{ slot := 0, object := 2 ^ 32 }] b0,
  .jobSubmit 0 h0 0 0 0 0 0 [] bLong] = true := by decide

theorem test_wf_job_commands : allBad [.jobCancel 0 h0 (2 ^ 16) 0, .jobCancel 0 h0 0 256, .jobQuery 0 h0 (2 ^ 16) b0, .jobFeed 0 h0 (2 ^ 16) 0 0 0 b0,
  .jobFeed 0 h0 0 256 0 0 b0, .jobFeed 0 h0 0 0 (2 ^ 16) 0 b0, .jobFeed 0 h0 0 0 0 (2 ^ 16) b0, .jobSetFallback 0 h0 (2 ^ 16) 0,
  .jobSetFallback 0 h0 0 (2 ^ 16), .streamOpen 0 h0 (2 ^ 16) 0 b0, .streamResetRows 0 h0 0 (2 ^ 16) b0, .streamPark 0 h0 0 0 bHigh,
  .streamClose 0 hLate 0 0 b0, .kvPrefixPin 0 h0 (2 ^ 32) 0 0, .kvPrefixPin 0 h0 0 (2 ^ 32) 0, .kvPrefixPin 0 h0 0 0 (2 ^ 32)] = true := by decide

theorem test_wf_administration : allBad [.kvRelease 0 h0 256 0, .kvRelease 0 h0 0 (2 ^ 32), .timeConfig 0 h0 (2 ^ 32) 0 0 c0 c0 0,
  .timeConfig 0 h0 0 (2 ^ 32) 0 c0 c0 0, .timeConfig 0 h0 0 0 (2 ^ 64) c0 c0 0, .timeConfig 0 h0 0 0 0 { c0 with mode := 256 } c0 0,
  .timeConfig 0 h0 0 0 0 { c0 with step := 256 } c0 0, .timeConfig 0 h0 0 0 0 { c0 with delay := 256 } c0 0,
  .timeConfig 0 h0 0 0 0 c0 { c0 with transport := 256 } 0, .timeConfig 0 h0 0 0 0 c0 { c0 with domain := 256 } 0,
  .timeConfig 0 h0 0 0 0 c0 { c0 with logSync := 128 } 0, .timeConfig 0 h0 0 0 0 c0 { c0 with logDelayReq := -129 } 0,
  .timeConfig 0 h0 0 0 0 c0 c0 (2 ^ 32), .timeForce 0 hLong 0, .fabricJoinPolicy 0 h0 256 0 b0, .fabricJoinPolicy 0 h0 0 256 b0,
  .faultInjectArm 0 h0 (2 ^ 32)] = true := by decide

theorem test_wf_maintenance : allBad [.castFetch 0 h0 256 0 b0, .castFetch 0 h0 0 256 b0, .partitionReset 0 h0 256 0, .partitionReset 0 h0 0 256,
  .patinaRead 0 h0 (2 ^ 16) 0 b0, .patinaRead 0 h0 0 (2 ^ 32) b0, .calendarSet 0 h0 (2 ^ 64) 0, .calendarSet 0 h0 0 (2 ^ 32), .fwStage 0 h0 256 b0,
  .fwCommit 0 h0 256, .attest 0 h0 (List.replicate 31 0) b0, .powerMode 0 h0 256 0, .powerMode 0 h0 0 (2 ^ 16), .badSizeAccess .pcie 0 (2 ^ 13) true,
  .registerWrite .pcie 0 2 0] = true := by decide

theorem test_wf_ptp : allBad [.sync 0 (2 ^ 80) 0 0 0 0 false, .followUp 0 0 256 0 0, .delayReq 0 (2 ^ 80) 0 0, .delayResp 0 0 256 0 0,
  .pdelayReq 0 (2 ^ 80) 0 0, .pdelayResp 0 0 256 0 0 0 false, .pdelayRespFollowUp 0 (2 ^ 80) 0 0 0, .announce 0 256 d0,
  .announce 0 0 { d0 with priority1 := 256 }, .announce 0 0 { d0 with clockClass := 256 }, .announce 0 0 { d0 with clockAccuracy := 256 },
  .announce 0 0 { d0 with variance := 2 ^ 16 }, .announce 0 0 { d0 with priority2 := 256 }, .announce 0 0 { d0 with grandmaster := 2 ^ 64 },
  .announce 0 0 { d0 with stepsRemoved := 2 ^ 16 }, .announce 0 0 { d0 with sender := 2 ^ 80 }, .announce 0 0 { d0 with utcOffset := 2 ^ 16 },
  .ptpMessageSend 0 16] = true := by decide

theorem test_wf_ports : allBad [.transmitRingPoll (2 ^ 32), .downstreamInboundAccess (2 ^ 64) false 4 [], .downstreamInboundAccess 0 false (2 ^ 13) [],
  .frameStart 0 16 0 0, .frameStart 0 0 64 0, .frameStart 0 0 0 (2 ^ 16), .cameraLine 0 16 0 [] false false, .cameraLine 0 0 64 [] false false,
  .cameraLine 0 0 0 [2 ^ 16] false false, .frameEnd 0 16, .canFrameReceived 0 0 (List.replicate 65 0), .spiTransactionComplete 0 (List.replicate 65 0),
  .jtagDebugAccess 3 0 true [], .jtagDebugAccess 0 (2 ^ 64) true [], .jtagNorProgram 0 (2 ^ 24) []] = true := by decide

theorem test_wf_frames : allBad [.linkControl 0 { f0 with address := 2 ^ 64 }, .failureResponse 0 f0 256, .windowRead 0 0 0 (2 ^ 32) 4 8,
  .windowRead 0 0 0 0 (2 ^ 16) 8, .windowWrite 0 0 0 0 4 0 (2 ^ 16), .lowestIdentity 0 (2 ^ 128) 0, .lowestIdentity 0 0 (2 ^ 32),
  .report 0 0 { r0 with identity := 2 ^ 128 }, .report 0 0 { r0 with bootCount := 2 ^ 32 }, .report 0 0 { r0 with nodeId := 1024 },
  .report 0 0 { r0 with preferred := 1024 }, .report 0 0 { r0 with assigned := 2 ^ 32 }, .report 0 0 { r0 with ports := [] },
  .report 0 0 { r0 with ports := List.replicate 6 { rp0 with state := 256 } }, .report 0 0 { r0 with ports := List.replicate 6 { rp0 with partnerPort := 256 } },
  .report 0 0 { r0 with ports := List.replicate 6 { rp0 with partnerNode := 1024 } }] = true := by decide

theorem test_wf_routes : allBad [.idAssignment 0 0 (2 ^ 128) 0 0, .idAssignment 0 0 0 1024 0, .idAssignment 0 0 0 0 (2 ^ 32), .routeEntries 0 0 (2 ^ 32) [] true,
  .routeEntries 0 0 0 [{ re0 with dest := 1024 }] true, .routeEntries 0 0 0 [{ re0 with port := 6 }] true, .routeEntries 0 0 0 [{ re0 with hops := 256 }] true,
  .phaseDone 0 0 1024 0, .phaseDone 0 0 0 (2 ^ 32), .release 0 0 (2 ^ 32), .reservationRequest 0 0 0 (2 ^ 64) 0 0 0, .reservationRequest 0 0 0 0 0 (2 ^ 32) 0,
  .reservationResponse 0 0 0 256 0 0, .reservationResponse 0 0 0 0 (2 ^ 32) 0, .reservationResponse 0 0 0 0 0 (2 ^ 64), .reservationRelease 0 0 0 (2 ^ 32),
  .reservationFailureNotice 0 0 (2 ^ 32) 0, .reservationFailureNotice 0 0 0 256] = true := by decide

theorem test_wf_hello : allBad [.helloNonce 0 (2 ^ 128) (List.replicate 32 0), .helloNonce 0 0 [], .helloProof 0 (2 ^ 256) 0 [] [], .helloProof 0 0 (2 ^ 256) [] [],
  .helloVerdict 0 256 0, .helloVerdict 0 0 (2 ^ 16), .undefinedKindRequest 0 0 0 (2 ^ 16), .windowAccessResponse 0 0 256 0] = true := by decide

theorem test_wf_power : allBad [.inputUndervoltage (2 ^ 32), .partitionRailOvervoltage 0 (2 ^ 32), .partitionRailUndervoltage 0 (2 ^ 32), .overvoltage 256 0,
  .overvoltage 0 (2 ^ 32), .temperatureWarning 256 0, .temperatureWarning 0 (2 ^ 31), .temperatureCritical 0 (-(2 ^ 31) - 1), .clockLoss 256 0,
  .clockLoss 0 (2 ^ 31), .firmwareStart (2 ^ 31), .partitionRailLoop 0 true (2 ^ 31), .powerAverageWindow (2 ^ 16) 0 0 0, .powerAverageWindow 0 (2 ^ 32) 0 0,
  .powerAverageWindow 0 0 (2 ^ 31) 0, .powerAverageWindow 0 0 0 (2 ^ 31), .voltageLoopPeriod { cluster := 0, margin := 2 ^ 31, temp := 0 },
  .voltageLoopPeriod { cluster := 0, margin := 0, temp := 2 ^ 31 }, .patinaCommit 256] = true := by decide

theorem test_wf_long_lists : fits 16 (List.replicate (2 ^ 16) (0 : Byte)).length = false ∧ fits 13 (List.replicate (2 ^ 13) (0 : Byte)).length = false ∧
    fits 24 (List.replicate (2 ^ 24) (0 : Byte)).length = false := by
  simp only [fits, List.length_replicate]; decide

/-! ### Witnesses: states that meet the hypotheses of the statements

One theorem for each statement that has hypotheses; its conjuncts follow the statement's clauses. -/

/-- After reset, with tile 0 issuing words in the INT8 mode (R50). -/
def sRun : State := State.reset.setTile 0 { TileState.cleared with phase := .running, mode := 0x03330000 }

/-- An image of zeros. -/
def im0 : Image := Image.ofBytes (List.replicate 64 0) 0 0

/-- A Quarter job of mailbox 0 that holds cluster 0 and binds object 9 at slot 0. -/
def jLeased : Job := { newJob 1 0 0 0 [{ slot := 0, object := 9 }] im0 with lease := 3, clusters := [0] }

/-- A placement in T2 of partition 0. -/
def pl2 : Placement := { tier := 2, partition := 0, node := 0, offset := 0, rid := 0, base := 0 }

/-- An object of 4,096 bytes in T2 of partition 0. -/
def ob0 : Obj := { Obj.fresh 4096 0 false with place := some pl2 }

/-- Tile 0 issues words of job 5, whose lease is cluster 0. -/
def sLeased : State :=
  { (sRun.setCluster 0 { State.reset.cluster 0 with powered := true, job := 5, role := .primary }) with jobs := [(5, jLeased)], objects := [(9, ob0)] }

/-- Change tile 0 of a state. -/
def withTile (s : State) (f : TileState → TileState) : State := s.setTile 0 (f (s.tile 0))

theorem wit_SeqWordRoundTrip : SeqWord.fieldsOk (.loop 7 0xFFF 0) = true ∧ SeqWord.fieldsOk (.signal 15 511 255) = true ∧
    SeqWord.fieldsOk .endWord = true := by decide

theorem wit_SeqWordCanonical : decodeSeq (encodeSeq (.signal 15 511 255)) = some (.signal 15 511 255) := by decide

theorem wit_MemoryCanonicalKept : MemoryCanonical State.reset ∧ step State.reset = .next State.reset ∧
    step { State.reset with pending := [.nop 0, .nop 1] } = .next { State.reset with pending := [.nop 1] } := by
  unfold MemoryCanonical; exact ⟨by decide, rfl, rfl⟩

theorem wit_SequencerWords : Issuing sRun 0 := by unfold Issuing; decide

/-- A tile at the end of an inner loop inside an outer one. -/
def xLoop (c : BitVec 13) (fs : List LoopFrame) : TileState :=
  { TileState.cleared with pc := 9, loops := { k := 1, first := 5, last := 9 } :: fs, counters := TileState.cleared.counters.set 1 c }

theorem wit_LoopBranch : Issuing (withTile sRun (fun x => { x with progLen := 2 })) 0 ∧
    loopOk ((withTile sRun (fun x => { x with progLen := 2 })).tile 0) 7 1 = true ∧ (xLoop 1 [{ k := 0, first := 1, last := 9 }]).pc = 9 ∧
    (xLoop 2 []).pc = 9 ∧ (xLoop 2 []).counters[1] ≠ 1 ∧ (xLoop 1 []).counters[1] = 1 ∧
    ({ xLoop 4096 [] with pc := 8 } : TileState).pc ≠ 9 ∧ TileState.cleared.loops = [] := by unfold Issuing; decide

theorem wit_SemaphoreWords : Issuing sLeased 0 ∧ physTile (leaseOf sLeased 0) 7 = some 7 ∧ (sendsTo (sLeased.tile 0) 7).all (fun n => n == 0) = true ∧
    physTile (leaseOf sLeased 0) 8 = none ∧
    (let u := withTile sRun (fun x => { x with stall := .waitSem 15 65535, sems := x.sems.set 15 65535 })
     (u.tile 0).phase = .running ∧ (u.tile 0).stall = .waitSem 15 65535 ∧ (65535#16).toNat ≤ (u.tile 0).sems[15].toNat) := by
  unfold Issuing; decide +kernel

theorem wit_BarrierWords : Issuing sRun 0 ∧ (sRun.tile 0).barrierOpen .endWord = true ∧
    (let u := withTile sRun (fun x => { x with openRuns := 1 })
     Issuing u 0 ∧ (u.tile 0).barrierOpen (.fence false true false) = false) ∧
    (let x := (withTile sRun (fun x => { x with stall := .barrier .endWord })).tile 0
     x.phase = .running ∧ x.frozen = false ∧ x.stall = .barrier .endWord) := by unfold Issuing; decide

theorem wit_CellArrayWords : Issuing sRun 0 ∧ (sRun.tile 0).cellQ.length < 5 ∧
    kOk (modeA (sRun.tile 0).mode) (modeB (sRun.tile 0).mode) 64 = true ∧ modeA (sRun.tile 0).mode = .int8 ∧ modeB (sRun.tile 0).mode = .int8 ∧
    (let u := withTile sRun (fun x => { x with mode := 0x04000000 })
     Issuing u 0 ∧ kOk (modeA (u.tile 0).mode) (modeB (u.tile 0).mode) 1 = true) := by unfold Issuing; decide

theorem wit_MmaInt8Element : modeA (sRun.tile 0).mode = .int8 ∧ modeB (sRun.tile 0).mode = .int8 ∧ (63 : Nat) < 64 := by decide

/-- A table with `n` segments at granule 16 of tile 0. -/
def sTable (n : Byte) : State :=
  let u := withTile sRun (fun x => { x with ptrs := x.ptrs.set 1 16 })
  { u with mem := u.mem.write (t0Base 0 + 16 * 16) [n] }

theorem wit_RowWordsFrame : Issuing sRun 0 ∧ (sRun.tile 0).drainQ.length < 5 ∧ (sRun.tile 0).vectorQ.length < 5 ∧
    (modeOut (sRun.tile 0).mode).laneType ≠ .fp32 ∧ Issuing (sTable 32) 0 ∧
    ofLe (scratchRead (sTable 32) 0 ((sTable 32).tile 0 |>.addr 1) 4) = 32 ∧ ofLe (scratchRead (sTable 1) 0 ((sTable 1).tile 0 |>.addr 1) 4) = 1 ∧
    ofLe (scratchRead (sTable 33) 0 ((sTable 33).tile 0 |>.addr 1) 4) = 33 ∧ ofLe (scratchRead sRun 0 ((sRun.tile 0).addr 1) 4) = 0 := by
  unfold Issuing; decide +kernel

theorem wit_VopRows : Issuing (withTile sRun (fun x => { x with ptrs := x.ptrs.set 1 0x8000 })) 0 ∧
    (let x := (withTile sRun (fun x => { x with ptrs := x.ptrs.set 1 0x8000 })).tile 0
     x.vectorQ.length < 5 ∧ modeSr x.mode = false ∧ (modeOut x.mode).laneType ≠ .fp32 ∧
     rowsMeet (x.addr 0) ((modeOut x.mode).rowBytes * 512) (x.addr 1) ((modeOut x.mode).rowBytes * 512) = false ∧
     rowsMeet (x.addr 0) ((modeOut x.mode).rowBytes * 512) (x.addr 0) ((modeOut x.mode).rowBytes * 512) = false ∧
     rowsMeet (x.addr 0) ((modeOut x.mode).rowBytes * 512) (x.addr 1) ((modeA x.mode).rowBytes * 512) = false) := by
  unfold Issuing; decide +kernel

theorem wit_TransposeWords : Issuing (sTable 0) 0 ∧ ((sTable 0).tile 0).transQ.length < 5 ∧
    (let x := (withTile sRun (fun x => { x with ptrs := (x.ptrs.set 1 16).set 2 32 })).tile 0
     meets (x.addr 0) (modeOut x.mode).rowBytes (x.addr 1) (modeOut x.mode).rowBytes = false ∧
     meets (x.addr 0) (modeOut x.mode).rowBytes (x.addr 2) 64 = false) := by unfold Issuing; decide +kernel

theorem wit_ScalarWords : Issuing sRun 0 ∧ (sRun.tile 0).scalarQ.length < 5 := by unfold Issuing; decide

theorem wit_ScalarFixedPoint : (0x80000000#32).toInt < 0 := by decide

/-- Tile 0 has a `SEND` of one flit to tile 1 that flows, and tile 1 the posted `RECV`. -/
def sFlow : State :=
  let u := withTile sLeased (fun x => { x with sendQ := x.sendQ.set 3 [{ vt := 1, src := 0, flits := 1, flowing := true }] })
  u.setTile 1 { TileState.cleared with phase := .running, recvQ := TileState.cleared.recvQ.set 3 [{ vt := 0, dst := 0, flits := 1, pc := 0 }] }

theorem wit_StreamPortWords : Issuing sLeased 0 ∧ physTile (leaseOf sLeased 0) 511 = none ∧ physTile (leaseOf sLeased 0) 0 = some 0 ∧
    headRecv (sFlow.tile 1) 3 = some { vt := 0, dst := 0, flits := 1, pc := 0 } ∧ physTile (leaseOf sFlow 1) 0 = some 0 ∧
    headSend (sFlow.tile 0) 3 = some { vt := 1, src := 0, flits := 1, flowing := true } ∧ physTile (leaseOf sFlow 0) 1 = some 1 := by
  unfold Issuing; decide +kernel

/-- A descriptor of one tile of bytes at slot 0. -/
def ds0 : Descriptor :=
  { format := 0, layout := 0, rowsM1 := 15, colsM1 := 15, runM1 := 0, flags := 0, prefetchLead := 0, slot := 0, offset := 0, rowStride := 16
    runStride := 256, scaleOffset := 0, scaleStride := 0, lateThreshold := 0, via := none, idle := false }

theorem wit_TileMoveWord : (let u := withTile sLeased (fun x => { x with descs := [ds0] })
    Issuing u 0 ∧ (u.tile 0).descs[0]? = some ds0 ∧ moverQueue u 0 < 5 ∧ descObject u 0 ds0 = some 9 ∧ u.obj? 9 = some ob0 ∧
    runPlace ob0 (tileShadow u 0) = some pl2 ∧ ds0.fitsIn ds0.offset ds0.scaleOffset ob0.length = true ∧
    ds0.fitsIn (ds0.indexed ((u.tile 0).counters[0]).toNat).1 (ds0.indexed ((u.tile 0).counters[0]).toNat).2 ob0.length = true) ∧
    (let o := { ob0 with place := some { pl2 with tier := 3 } }
     let u := { withTile sLeased (fun x => { x with descs := [ds0] }) with objects := [(9, o)] }
     Issuing u 0 ∧ descObject u 0 ds0 = some 9 ∧ runPlace o (tileShadow u 0) = some { pl2 with tier := 3 } ∧ resHeld u { pl2 with tier := 3 } = false) := by
  unfold Issuing; decide +kernel

theorem wit_WordEvents : unitQ ((withTile sRun (fun x => { x with cellQ := [.accz 0] })).tile 0) .cellArray = [.accz 0] ∧
    (sRun.tile 0).issues = true ∧ illegalHere (sRun.tile 0) 0xFFFFFFFF = true ∧
    (let five : List SeqWord := List.replicate 5 .endWord
     let u := withTile sRun (fun x => { x with cellQ := five, drainQ := five, vectorQ := five, transQ := five, scalarQ := five })
     Issuing u 0 ∧ kOk (modeA (u.tile 0).mode) (modeB (u.tile 0).mode) 64 = true ∧
     ((u.tile 0).cellQ ++ (u.tile 0).drainQ ++ (u.tile 0).vectorQ ++ (u.tile 0).transQ ++ (u.tile 0).scalarQ).length = 25) := by
  unfold Issuing; decide

/-- A transfer request of requester 10 of class 1 with no run behind it. -/
def q0 : ArbReq :=
  { requester := 10, cls := 1, bytes := 64, job := 0, move := none, lines := [], prefetcher := none, revoked := false, revocations := 0, estimate := 0 }

/-- Change partition 7 of the state after reset. -/
def withPart (f : Part → Part) : State := State.reset.setPart 7 (f (State.reset.part 7))

/-- Partition 7 with the request waiting. -/
def sWaits : State := withPart (fun x => { x with arb := { x.arb with waiting := [q0] } })

/-- Partition 7 with every requester masked, as after a reset. -/
def sMasked : State := withPart (fun x => { x with arb := { x.arb with masked := List.range 11 } })

theorem wit_ArbiterRequests : masked State.reset 7 10 = false ∧ (State.reset.part 7).arb.waiting.any (fun w => w.requester == 10) = false ∧
    (let q := requestOf State.reset 7 10 0 64 0
     let u := setXfer (updArb (takeLines State.reset 7 q) 7 (fun a => { a with waiting := a.waiting ++ [q] })) q (fun x => { x with state := .waiting })
     (u.part 7).arb.waiting.length = 1 ∧ (u.part 7).arb.unserved = []) ∧
    masked sWaits 7 10 = false ∧ (sWaits.part 7).arb.waiting.any (fun w => w.requester == 10) = true ∧
    masked sMasked 7 10 = true ∧ remoteRun sMasked 7 10 0 64 0 = none := by decide +kernel

theorem wit_ArbiterOrder : (sWaits.part 7).arb.next = some q0 := by decide +kernel

theorem wit_ArbiterGrants : (sWaits.part 7).state = 0 ∧ sWaits.flt.pending = none ∧ (sWaits.part 7).arb.free = 0 :: [1, 2, 3, 4, 5, 6, 7] ∧
    (sWaits.part 7).arb.next = some q0 ∧ (sWaits.part 7).arb.waiting = [q0] ∧ (sWaits.part 7).arb.heldBack = [] ∧ q0.move = none ∧
    (State.reset.part 7).arb.waiting = [] ∧ (∀ w ∈ (sWaits.part 7).arb.waiting, w.requester.val ≠ 8) ∧
    ((withPart (fun x => { x with arb := { x.arb with engines := Vector.replicate 8 (some { req := q0, order := 1, got := [] }) } })).part 7).arb.free = [] := by
  decide +kernel

/-- A run of one transfer issued at tick 0 by tile 0 for job 5, with a late threshold of 1 half cycle. -/
def rn0 : Run :=
  { id := 3, tile := 0, job := 5, shadow := false, sem := 0, desc := ds0, object := 9, offset := 0, scaleOff := 0, localAddr := 0, tier := 2, partition := 0
    issueTick := 0, threshold := 1, lateRaised := false, xfers := [{ state := .granted, revocations := 0 }], missed := false, injected := false
    queuedCycles := 0, transferCycles := 0, restartCycles := 0 }

/-- A request for the run's transfer 0. -/
def q1 : ArbReq := { q0 with requester := 0, move := some (0, 3, 0) }

/-- The run is at cluster 0's mover, its transfer on engine 7 of partition 0 and the request `q0` on engine 6, one tick after the issue. -/
def sRuns : State :=
  let u := sLeased.setCluster 0 { sLeased.cluster 0 with runs := [rn0] }
  let u := u.setPart 0 { u.part 0 with arb := ((u.part 0).arb.setEngine 7 (some { req := q1, order := 1, got := [] })).setEngine 6 (some { req := q0, order := 2, got := [] }) }
  { u with time := { u.time with ticks := 1 } }

/-- The run's transfer waits at the arbiter of partition 0, alone. -/
def sMoves : State :=
  let u := sLeased.setCluster 0 { sLeased.cluster 0 with runs := [rn0] }
  u.setPart 0 { u.part 0 with arb := { (u.part 0).arb with waiting := [q1] } }

theorem wit_ArbiterGrants_move : (sMoves.part 0).state = 0 ∧ sMoves.flt.pending = none ∧ (sMoves.part 0).arb.free = 0 :: [1, 2, 3, 4, 5, 6, 7] ∧
    (sMoves.part 0).arb.next = some q1 ∧ (sMoves.part 0).arb.waiting = [q1] ∧ (sMoves.part 0).arb.heldBack = [] ∧ q1.move = some (0, 3, 0) ∧
    (let u := updArb sMoves 0 (fun a => a.take q1)
     let u := u.setPart 0 (turnPrefetcher (u.part 0) q1)
     let u := updArb u 0 (fun a => a.setEngine 0 (some { req := q1, order := (u.part 0).arb.grants, got := [] }))
     let u := gateFor (setXfer u q1 (fun y => { y with state := .granted, revocations := 0 })) q1 false
     (u.cluster 0).runs.find? (fun y => y.id == 3) = some rn0 ∧
     (runObj u rn0).all (fun x => (transferRanges u x.2 (rn0.desc.pieces 0 0 0)).isSome) = true ∧ (accessRun u 0 0 rn0 0 1 []).failed = false) := by
  decide +kernel

theorem wit_ArbiterEvents : (State.reset.part 7).state = 0 ∧ (State.reset.part 7).backFast = none ∧ (State.reset.part 7).backFull = none ∧
    (sRuns.part 0).arb.grantOf 6 = some { req := q0, order := 2, got := [] } ∧ peerOpen sRuns 0 6 = false ∧ q0.move = none ∧ q0.lines = [] ∧
    (sRuns.part 0).arb.grantOf 7 = some { req := q1, order := 1, got := [] } ∧ peerOpen sRuns 0 7 = false ∧ q1.move = some (0, 3, 0) ∧
    (sRuns.cluster 0).runs.find? (fun x => x.id == 3) = some rn0 ∧ rn0.written = false ∧ rn0.lateRaised = false ∧ rn0.threshold ≠ 0 ∧
    rn0.lateTick < sRuns.time.ticks := by decide +kernel

theorem wit_ScrubAndRefresh : t2Works State.reset 7 = true ∧
    (let up := setting State.reset 0x0030 16; let down := setting State.reset 0x0031 2
     up ≤ 16 ∧ (15 < up ∧ down < 15) ∧ (2 < up ∧ (2 : Nat) ≤ down) ∧ (3 < up ∧ down < 3)) ∧
    (0 : Nat) < 2 ^ 34 ∧ (2 ^ 34 - 1 : Nat) < 2 ^ 34 := by decide +kernel

theorem wit_Bar2Accesses : t2Works (withPart (fun x => { x with selfRefresh := true })) 7 = false ∧ t2Works State.reset (bar2Addr State.reset 0 / 0x400000000) = true ∧
    0 + 8 ≤ 0x10000000 ∧ (accessRange (startRange State.reset []) 0 0 8 0 false false).failed = false ∧
    (accessRange (startRange State.reset []) 0 0 8 0 true false).failed = false := by decide +kernel

/-- The cycles that two checks in a row have found. -/
def foundIn (s : State) : List (List Nat) :=
  (hangSetsOf s ((hangNodes s).filter (fun x => x.blocked && s.hangSeen.contains (x.id, x.token)))).filter (fun c => s.hangSets.contains c)

/-- Tile 0 waits on a semaphore that nothing signals, as it did at the last check. -/
def sDead : State := { withTile sRun (fun x => { x with stall := .waitSem 0 1 }) with hangSets := [[0]], hangSeen := [(0, 0)] }

theorem wit_HangChecks : foundIn sRun = [] ∧ foundIn sDead = [[0]] := by decide +kernel

/-- An invocation in progress, in a pass of its own choice. -/
def iv0 (p : Pass) : Invocation :=
  { number := 1, started := true, begun := true, gateInjected := false, passAt := 0, headers := [], start := 0, due := [(0, 0)], met := [], watching := true, pass := p, rows := [], calls := []
    feedFirst := 0, feedLast := 0, isFallback := false, missed := 0, faulted := false, faultDetector := 0, faultPartition := 8, waitPart := 8
    shadowServed := false, newSpans := [], buffer := none, warmRejected := false, absentRows := 0, epoch := 0, egoFrom := 0, fuse := none, kv := KvRec.zero }

/-- A state with job 5 of image 1, tile 0 having a program of one word. -/
def sRan (im : Image) (p : TilePhase) (j : Job) : State :=
  withTile { sLeased with jobs := [(5, j)], images := [(1, im)] } (fun x => { x with progLen := 1, phase := p })

/-- The same with an image of zeros and no program. -/
def sJob (j : Job) : State := { sLeased with jobs := [(5, j)], images := [(1, im0)] }

/-- An instance of a function whose objects are all at slot 0 and whose dimensions are 0. -/
def inst0 (f v : Nat) (dims : List Nat) : InstEntry :=
  { function := f, variant := v, inFormat := 0, weightFormat := 0, outFormat := 0, flags := 0, activation := 0, inSlot := 0, weightSlot := 0
    outSlot := 0, tiles := 0, dims := dims }

/-- A fusion state at its first epoch. -/
def fs0 : FuseState :=
  { firstEdge := 0, nextEpoch := 0, rows := [], rejected := 0, lateDiscarded := 0, dropped := [], droppedRaised := [], frozen := none, cutting := false, waitSince := 0 }

/-- A job that binds nothing, whose lease is in a state. -/
def jBare (n : Nat) : Job := { jLeased with lease := n, bindings := [] }

theorem wit_RunLifecycle_start : leaseInService (sJob (jBare 2)) (jBare 2).clusters = true ∧
    ((jBare 2).invocation = none ∧ (jBare 2).lease = 2 ∧ (jBare 2).owed = [] ∧ (jBare 2).shadow = none) ∧
    mayStart (sJob { jBare 2 with triggers := [1] }) 5 { jBare 2 with triggers := [1] } im0 = true ∧
    mayStart (sJob (jBare 2)) 5 (jBare 2) im0 = false ∧ (iv0 .single).started = true ∧
    (let i := { iv0 .single with started := false }
     i.isFallback = false ∧ (jBare 2).rerun = false) := by decide +kernel

theorem prepareWriter_bare (s : State) (cs : List Nat) (img : Nat) (j : Job) (h : s.job? 5 = some j) (hb : ∀ n, boundObj s j n = none) :
    prepareWriter s 5 cs img = (some s, s) := by
  unfold prepareWriter
  cases Config.fieldWriter img with
  | none => rfl
  | some w => simp only [takeBuffer, h, hb]

/-- The job that binds nothing has its invocation in hand. -/
def sTaken : State := sRan im0 .running { jBare 2 with invocation := some { iv0 .single with started := false } }

theorem wit_RunLifecycle_prepared : (Prep.andThen (prepareFuse (clearCounts sTaken []) 5 [0]) (fun s => Prep.andThen (preparePlan s 5 [0] im0) (fun s =>
      Prep.andThen (prepareWriter s 5 [0] 1) (fun s => prepareCall s 5 [0] im0)))).1 = some (clearCounts sTaken []) ∧
    (let w := assignFor (prepareRest (clearCounts sTaken []) 5 [0] im0) 5 [0]
     ((w.job? 5).bind Job.invocation).isSome = true ∧ ∃ e ∈ leaseTiles [0], (w.tile e.2).progLen ≠ 0) := by
  have h : prepareWriter sTaken 5 [0] 1 = (some sTaken, sTaken) := prepareWriter_bare _ _ _ (jBare 2 |> fun j => { j with invocation := some { iv0 .single with started := false } }) rfl (fun _ => rfl)
  refine ⟨?_, by decide +kernel⟩
  show (Prep.andThen (prepareWriter sTaken 5 [0] 1) (fun s => prepareCall s 5 [0] im0)).1 = some sTaken
  rw [h]; rfl

theorem wit_RunLifecycle_periodic :
    (let j := { jLeased with period := 1000, readyAt := some 0 }
     (sJob j).job? 5 = some j ∧ j.period ≠ 0 ∧ j.readyAt.isSome = true ∧ j.nextStart ≤ (sJob j).now ∧ j.fuse = none ∧ j.startWaiting = false ∧
     (sJob j).now < ({ j with nextStart := 1000 } : Job).nextStart ∧ ({ j with startWaiting := true } : Job).startWaiting = true) := by decide +kernel

theorem wit_RunLifecycle_passes :
    (let im := { im0 with insts := [inst0 0x09 0 []] }
     let i := iv0 (.append 0 0)
     let j := { jLeased with invocation := some i }
     let s := sRan im .ended j
     passEnded s j = some i ∧ s.image? (runImage j i) = some im ∧ nextPass s im i (runRows s 5 j i) = some (.score 0 0) ∧
     (let u := preparePassOf (updInv s 5 (fun i => { i with pass := .score 0 0 })) 5 [0] 1 im { i with pass := .score 0 0 } (runRows s 5 j i) (.score 0 0)
      ∃ e ∈ leaseTiles (runClusters j i), (u.tile e.2).progLen ≠ 0)) ∧
    (let im := { im0 with insts := [inst0 0x0D 1 []] }
     let j := { jLeased with invocation := some (iv0 .plan) }
     let s := sRan im .ended j
     passEnded s j = some (iv0 .plan) ∧ (iv0 .plan).isFallback = false ∧ ((s.image? j.image).bind Image.gate?).isSome = true) := by
  constructor <;> decide +kernel

/-- An image with one milestone, its final one. -/
def imDue : Image := { im0 with milestones := [{ index := 0, final := true, tile := 0, budget := 1 }] }

theorem dropWork_plain (s : State) (j : Job) : dropWork s j (iv0 .single) = stopClusters s (runClusters j (iv0 .single)) := by
  unfold dropWork emptyField; cases Config.fieldWriter j.image <;> rfl

theorem wit_RunLifecycle_ends :
    (let j := { jLeased with invocation := some { iv0 .single with due := [] } }
     (mayCommit (sRan im0 .ended j) 5 j).isSome = true ∧ dueNow (sRan im0 .ended j) 5 j false = none) ∧
    (let j := { jLeased with invocation := some (iv0 .single) }
     let u := fun (k : Job) => updInv (raiseAs (dropWork (sRan imDue .running k) k (iv0 .single)) 1 0 (mkEvent 0x30 0xFF 5 0 5 1)) 5
       (fun i => { i with missed := 0, newSpans := [], buffer := none, watching := false })
     let k := { j with fallback := 1, fbClusters := [1] }
     (sRan imDue .running j).flt.pending = none ∧ dueNow (sRan imDue .running j) 5 j false = some (iv0 .single, 0) ∧
     dueNow (sRan imDue .running k) 5 k false = some (iv0 .single, 0) ∧
     ((u j).job? 5).any (fun x => (fallbackAfter (u j) 5 x (iv0 .single)).isNone) = true ∧
     ((u k).job? 5).any (fun x => (fallbackAfter (u k) 5 x (iv0 .single)).isSome) = true) := by
  refine ⟨by decide +kernel, ?_⟩
  simp only [dropWork_plain]; decide +kernel

/-- The fusion job with a cutoff at 4: its parameters in object 9 name one sensor, whose ring is object 10. -/
def sFuse (t : Nat) : State :=
  let o : Obj := { ob0 with place := some { pl2 with offset := 4096 } }
  let u := { sLeased with
    jobs := [(5, { jLeased with fuse := some fs0, bindings := [{ slot := 0, object := 9 }, { slot := 1, object := 10 }] })]
    images := [(1, { im0 with insts := [inst0 0x12 0 [0, 0, 0, 0, 0x00010000]] })]
    objects := [(9, ob0), (10, o)], time := { sLeased.time with t := t } }
  objSetWord (objWriteBytes u ob0 6 [1, 0, 4]) o 8 4

theorem wit_RunLifecycle_epochs :
    (let cut := fun (t : Nat) => ((sFuse t).job? 5).bind (fun j => (fuseEnv (sFuse t) j).map (fun env => epochCutoff fs0 env fs0.nextEpoch))
     cut 3 = some 4 ∧ cut 4 = some 4 ∧ cut 5 = some 4 ∧ ((sFuse 3).now, (sFuse 4).now, (sFuse 5).now) = (3, 4, 5)) ∧
    ((sFuse 3).job? 5).bind Job.fuse = some fs0 ∧ (10 : Nat) < 0xFFFF0000 ∧ (obsEntry (sFuse 3) 10).isSome = true ∧
    ((sFuse 3).obj? 10).any (fun o => ringCap (sFuse 3) o != 0) = true ∧ obsEntry (sFuse 3) 9 = none := by
  decide +kernel

theorem wit_LeaseLifecycle :
    (sJob (jBare 1)).job? 5 = some (jBare 1) ∧ mayLoad (sJob (jBare 1)) (jBare 1) = true ∧
    (let j := { jLeased with lease := 4, saveObject := 9 }
     (sJob j).job? 5 = some j ∧ ((landStopped (sJob j) 5).job? 5).any (fun k => ((landStopped (sJob j) 5).obj? k.saveObject).isSome) = true) ∧
    (let j := { jLeased with lease := 6 }
     (sJob j).job? 5 = some j ∧ leaseInService (sJob j) j.clusters = true) := by decide +kernel

/-- Job 5 between runs, with a shadow chosen on cluster 8. -/
def jTwin : Job :=
  let sh : Shadow := { partition := 1, clusters := [8], fallbackClusters := [], state := 0, run := none, queued := [], commits := [], streams := [] }
  { jLeased with lease := 2, wantShadow := true, shadow := some sh }

theorem wit_LeaseLifecycle_shadow : (let u := sJob jTwin
    u.job? 5 = some jTwin ∧ shadowClusters u jTwin = some (1, [8], []) ∧ jTwin.wantShadow = true ∧ jTwin.invocation = none ∧ jTwin.lease = 2 ∧
    (u.part 1).state = 0 ∧ twinsFit u (needTwins u jTwin 0) 1 = true ∧ secondsFit u 1 [] = true ∧ u.image? 1 = some im0 ∧
    (u.part 0).streams.filter (fun x => x.job == 5) = [] ∧
    roomFor u (leaseCap u) (([8] ++ []).filter (fun c => !(u.cluster c).leased)).length = true ∧
    (makeTwins (powerOnCluster u 5 .shadow 8) (needTwins u jTwin 0) 1).images = u.images) ∧
    (let j := { jTwin with invocation := some (iv0 .single) }
     shadowClusters (sJob j) j = some (1, [8], []) ∧ j.invocation.isSome = true) := by decide +kernel

/-- A page of layer 0 in pool object 9, with a spill object 10, in the state of a move. -/
def pg0 (st mv : Nat) : PageEntry :=
  { state := st, pool := 0, location := 0, refs := 1, valid := 64, sealed := true, hash := 0, lastUse := 0, layer := 0, layers := 1, frame := 256, poolObject := 9
    spillObject := 10, moving := mv, target := 0 }

/-- A stream of job 5 in a state. -/
def st0 (x : Nat) : Stream :=
  { id := 2, job := 5, state := x, slot := 0, half := 1, parkSlot := 0, queue := [], resetPending := false, held := false, gap := false, steps := 0
    lastUse := 0, selected := false, parkAsked := false }

theorem wit_KvAndStreamMoves :
    (let u := { sLeased with objects := [(10, ob0)], kv := { sLeased.kv with dir := [(4, pg0 1 1), (5, pg0 2 2)] } }
     u.kv.dir.get? 4 = some (pg0 1 1) ∧ (pg0 1 1).moving = 1 ∧ u.kv.dir.get? 5 = some (pg0 2 2) ∧ (pg0 2 2).moving = 2 ∧
     ((u.obj? (pg0 2 2).spillObject).bind Obj.place).any (placeServes u) = true) ∧
    (let u := withPart (fun x => { x with streams := [st0 1] })
     (u.part 7).streams.find? (fun y => y.id == 2 && y.state == 1) = some (st0 1) ∧ (u.part 7).streams.find? (fun y => y.id == 2 && y.state == 3) = none) ∧
    (let u := withPart (fun x => { x with streams := [st0 3] })
     (u.part 7).streams.find? (fun y => y.id == 2 && y.state == 3) = some (st0 3) ∧ u.flt.pending = none ∧
     (u.part 7).streams.find? (fun y => y.id == 2 && y.state == 1) = none) := by
  refine ⟨?_, ?_, ?_⟩ <;> decide +kernel

theorem wit_DetectorEvents : detectorKnown ({ e0 with detector := 0xFF } : DetEvent).detector = false ∧
    ({ e0 with detector := 0x04 } : DetEvent).mild = false ∧ (State.reset.part e0.partition).step ≠ .restoring ∧
    (State.reset.part e0.partition).state = 0 ∧ (State.reset.part e0.partition).backFast = none ∧ (State.reset.part e0.partition).backFull = none ∧
    (let u := { State.reset with power := { State.reset.power with state := 0 }, boot := { State.reset.boot with stage := 7, atelierOk := true } }
     atelierRuns u = true ∧ u.flt.pending = none) := by decide +kernel

/-- An empty capture. -/
def cs0 : Cast :=
  { partition := 7, path := 0, seq := 0, eventTime := 0, captureStart := 0, captureEnd := 0, detector := 0, cause := 0, unit := 0, eventSeq := 0, records := [] }

/-- The mailboxes are open. -/
def opened (s : State) : State := { s with boot := { s.boot with mailboxReady := true } }

theorem wit_ResetSequence : ((withPart (fun x => { x with casting := some cs0 })).part 7).casting = some cs0 ∧
    (let x := (withPart (fun x => { x with step := .casting, casting := some cs0, state := 1 })).part 7
     x.step = .casting ∧ x.casting = some cs0 ∧ x.state = 1 ∧ castEscalates { cs0 with captureEnd := 0, path := 0 } = false) ∧
    ((withPart (fun x => { x with step := .casting, casting := some cs0, state := 2 })).part 7).state = 2 ∧
    (let u := withPart (fun x => { x with step := .writeBack, state := 1 })
     (u.part 7).step = .writeBack ∧ ((resetUnits u 7).part 7).state = 1) ∧
    (let x := (withPart (fun x => { x with step := .asserted, state := 1 })).part 7
     x.step = .asserted ∧ x.state = 1) ∧
    (let x := (withPart (fun x => { x with step := .training, trainFails := 1 })).part 7
     x.step = .training ∧ x.trainFails < 2) ∧
    (∀ n ∈ [1, 2], let u := opened (withPart (fun x => { x with step := .restoring, state := n }))
     (u.part 7).step = .restoring ∧ u.boot.mailboxReady = true) ∧
    (State.reset.part 7).step = .none := by decide +kernel

theorem wit_ResetUnits : (7 : Nat) < 8 ∧ partOfTile 511 = 7 ∧ partOfTile 447 ≠ 7 := by decide

/-- Change mailbox `m` of a state. -/
def withBox (s : State) (m : MbxId) (f : Mailbox → Mailbox) : State := s.setBox m (f (s.box m))

/-- Mailbox `m` of a state is enabled and has a command of zeros in hand. -/
def commandIn (s : State) (m : MbxId) : State := withBox s m (fun b => { b with ctrl := 1, current := some (List.replicate 128 0) })

/-- After reset, with a command in hand. -/
def sCmd (m : MbxId) : State := commandIn State.reset m

/-- A header with a payload length and the longest timeout. -/
def hdr (n : Nat) : CmdHdr := { tag := 1, length := n, timeout := 60000000 }

/-- The opcodes with their payload lengths, from the commands of the table. -/
def opLengths : List (Nat × Nat) :=
  [(0x01, 0), (0x02, 0), (0x10, 0x20), (0x11, 0x10), (0x12, 2), (0x20, 0xA), (0x21, 0x10), (0x22, 0x20), (0x23, 0x20), (0x24, 4), (0x25, 0x20),
   (0x30, 4), (0x31, 2), (0x40, 0x70), (0x41, 3), (0x42, 0x20), (0x43, 0x20), (0x44, 4), (0x50, 0x20), (0x51, 0x20), (0x52, 0x20), (0x53, 0x20),
   (0x60, 0xC), (0x61, 8), (0x70, 0x24), (0x71, 8), (0x80, 0x10), (0x81, 0x20), (0x90, 4), (0x91, 0x10), (0x92, 0x20), (0x93, 2), (0xA0, 0x20),
   (0xA1, 0xC), (0xB0, 0x20), (0xB1, 1), (0xB2, 0x30), (0xC0, 4)]

theorem zeros_reserved : opLengths.all (fun x => reservedOk (List.replicate 128 0) x.1 x.2) = true := by decide +kernel

/-- Whatever the rest of the state is, the command of zeros is in hand and well formed. -/
theorem commanded_in (s : State) (m : MbxId) (op len : Nat) (hw : (s.box m).waiting = none) (hop : (op, len) ∈ opLengths) :
    Commanded (commandIn s m) m (hdr len) op len := by
  have h := List.all_eq_true.mp zeros_reserved _ hop
  exact ⟨by simp [inHand, commandIn, withBox, hw], rfl, Nat.le_refl _, by simpa [commandIn, withBox] using h⟩

/-- A buffer of mailbox memory that a reply of at most its length fits. -/
theorem writable_of (s : State) (m : MbxId) (b : Bref) (bs : List Byte) (hp : (s.box m).path1 = false) (hl : bs.length ≤ b.len)
    (ha : b.addr + b.len ≤ 2 ^ 64) : ∃ t, Writable s m b bs t := by
  have h : busWrite s (s.box m).path1 b.addr bs = ({ s with hostMem := s.hostMem.write b.addr bs }, true) := by
    unfold busWrite; rw [if_neg (by omega), hp]; rfl
  exact ⟨_, hl, by simp only [bufWrite, h, if_true]; rfl⟩

theorem wit_MailboxChecks : mailboxCommand (.fwStage 5 (hdr 0x20) 0 b0) = some (5, hdr 0x20, 0xB0, 0x20, true) ∧ inHand (sCmd 5) 5 = true ∧
    Commanded (sCmd 5) 5 (hdr 0x20) 0xB0 0x20 ∧ (5 : MbxId) ≠ 0 ∧ (hdr 0x1F).length ≠ 0x20 ∧ 60000000 < ({ hdr 0x20 with timeout := 60000001 } : CmdHdr).timeout ∧
    reservedOk ((List.replicate 127 (0 : Byte)) ++ [1]) 0xB0 0x20 = false ∧
    Commanded (sCmd 0) 0 (hdr 8) 0x71 8 ∧ setting (sCmd 0) 0x0081 0 ≠ 1 :=
  ⟨rfl, by decide, commanded_in _ _ _ _ rfl (by decide), by decide, by decide, by decide, by decide +kernel, commanded_in _ _ _ _ rfl (by decide), by decide⟩

theorem wit_CommandCompletion : (let b := (sCmd 5).box 5
    b.enabled = true ∧ b.path1 = false ∧ b.stale = false ∧ b.held = [] ∧ b.cplHeld < 64 ∧
    b.ringCpl.toNat + 128 * (b.cplProd.toNat % 64) + 128 ≤ 2 ^ 64 ∧ (List.replicate 112 (0 : Byte)).length ≤ 112) := by decide +kernel

/-- Mailbox 5 may fetch, with its command ring at an address. -/
def sFetch (base : Word64) : State :=
  let u := withBox (opened { State.reset with power := { State.reset.power with state := 0 } }) 5 (fun b => { b with ctrl := 1, dblCmd := 1, ringCmd := base })
  { u with boot := { u.boot with stage := 7, atelierOk := true } }

theorem wit_FetchAndTimeout : mayFetch (sFetch 0) 5 = true ∧ (busRead (sFetch 0) ((sFetch 0).box 5).path1 0 128).2 = some (List.replicate 128 0) ∧
    (let u := sFetch 0xFFFFFFFFFFFFFFC0
     mayFetch u 5 = true ∧ (busRead u (u.box 5).path1 0xFFFFFFFFFFFFFFC0 128).2 = none) ∧
    (let bs : List Byte := List.replicate 8 0 ++ [1] ++ List.replicate 119 0
     let u := withBox { State.reset with time := { State.reset.time with ticks := 125 } } 5 (fun b => { b with current := some bs })
     (u.box 5).current = some bs ∧ (u.box 5).waiting = none ∧ fld bs 8 4 ≠ 0 ∧ (u.box 5).fetchTick + 125 * fld bs 8 4 ≤ u.time.ticks) ∧
    inHand (sCmd 5) 5 = true ∧ opcodes.contains 0xFFFF = false := by decide +kernel

/-- The largest buffer. -/
def bBig : Bref := { addr := 0x1000, len := 0xFFFFFFFF }

/-- Job 5 and a kept Cast of partition 7, with a command in hand at mailbox 0. -/
def sQuery : State :=
  let u := { State.reset with jobs := [(5, jLeased)], boot := { State.reset.boot with identityOk := true } }
  commandIn (u.setPart 7 { u.part 7 with casts := [cs0, cs0] }) 0

theorem writable_query (bs : List Byte) (h : bs.length ≤ 0xFFFFFFFF) : ∃ t, Writable sQuery 0 bBig bs t :=
  writable_of _ _ _ _ (by decide) h (by decide)

/-- The replies of the queries that write into the buffer. -/
def replies : List (List Byte) :=
  [(sQuery.boot.plinth.bytes.drop 0).take bBig.len, (sQuery.boot.plinth.reliefs.map Relief.entry).flatten, queryBytes 5 jLeased, faultBytes sQuery, cs0.bytes]

theorem wit_QueryCommands_replies : ∀ bs ∈ replies, ∃ t, Writable sQuery 0 bBig bs t := by
  have h : ∀ bs ∈ replies, bs.length ≤ 0xFFFFFFFF := by decide +kernel
  exact fun bs hb => writable_query bs (h bs hb)

theorem wit_QueryCommands : (∀ x ∈ opLengths, Commanded sQuery 0 (hdr x.2) x.1 x.2) ∧ (0 ≤ sQuery.boot.plinth.bytes.length ∧
    sQuery.job? 5 = some jLeased ∧ mayUse 0 jLeased.owner = true ∧ 20992 ≤ bBig.len ∧ (sQuery.part 7).casts[1]? = some cs0 ∧
    sQuery.flt.pending = none ∧ sQuery.boot.identityOk = true ∧ (288 + 36 * sQuery.images.length + 15) / 16 * 16 + 8192 ≤ bBig.len) :=
  ⟨fun _ hx => commanded_in _ _ _ _ (by decide) hx, by decide +kernel⟩

theorem wit_QueryCommands_attest : ∃ t, Writable sQuery 0 bBig (padUp 16 (quote sQuery (List.replicate 32 0)) ++ Config.certChain.take 8192) t := by
  refine writable_query _ ?_
  have h : (padUp 16 (quote sQuery (List.replicate 32 0))).length ≤ 4096 := by decide +kernel
  rw [List.length_append, List.length_take]; omega

theorem wit_QueryCommands_patina : patinaSection sQuery 1 = some sQuery.pat.always.bytes ∧
    (∃ t, Writable sQuery 0 bBig ((sQuery.pat.always.bytes.drop 0).take bBig.len) t) := by
  refine ⟨rfl, writable_query _ ?_⟩
  rw [List.length_take]; exact Nat.min_le_left _ _

theorem wit_QueryCommands_fabric : ∃ t, Writable sQuery 0 bBig (fabricBytes sQuery) t := by
  refine writable_query _ ?_
  simp only [fabricBytes, List.length_append, padTo, resvGroup]
  decide +kernel

/-- Objects for mailbox 5: 9 of 4,096 bytes in T2, 11 of 256 bytes not placed, 12 in T2 with the signature of a structure object, an empty field bank and no data list. -/
def sObj : State :=
  let o12 : Obj := { Obj.fresh 256 5 false with place := some { pl2 with offset := 4096 } }
  let u := { State.reset with objects := [(9, { ob0 with owner := 5 }), (11, Obj.fresh 256 5 false), (12, o12)] }
  let u := objWriteBytes u o12 0 ([0x53, 0x51, 0x50, 0x53] ++ List.replicate 4 0 ++ [1, 0] ++ List.replicate 246 0)
  commandIn u 5

/-- The buffer of a delta list of one entry, index 0 and value 1.0, at address 0 of the host's memory. -/
def sDelta : State :=
  { sObj with hostMem := sObj.hostMem.write 0 (leBytes 8 0 ++ leBytes 4 1 ++ leBytes 4 0 ++ leBytes 4 0 ++ leBytes 4 0x3F800000) }

theorem wit_ObjectCommands_create : Commanded sObj 5 (hdr 0x0A) 0x20 0x0A ∧ sObj.obj? 9 = some { ob0 with owner := 5 } ∧
    mayUse 5 ({ ob0 with owner := 5 } : Obj).owner = true ∧ (9 : Nat) < 0xFFFF0000 ∧ 2 ^ 34 % 256 = 0 ∧ (256 : Nat) % 256 = 0 ∧ sObj.objects.length < 16384 :=
  ⟨commanded_in _ _ _ _ (by decide +kernel) (by decide), by decide +kernel⟩

theorem wit_ObjectCommands_place : (let o := Obj.fresh 256 5 false
    let new : Placement := { tier := 2, partition := 7, node := 0, offset := 0x3FFFFFF00, rid := 0, base := 0 }
    sObj.obj? 11 = some o ∧ o.sealed = false ∧ inUse sObj 11 = false ∧ (0x3FFFFFF00#64).toNat % 256 = 0 ∧
    (0x3FFFFFF00#64).toNat + o.length ≤ tierSize sObj 2 7 ∧ (sObj.part 7).state = 0 ∧ rangeFreeFor sObj 11 2 7 0x3FFFFFF00 o.length = true ∧
    rangeFreeFor sObj 11 2 0 0 o.length = false ∧ (movePlace sObj.fresh.2 11 o new).2 = true) ∧
    (let u := sObj.setPart 7 { sObj.part 7 with pinned := 1 }
     (0x1FFF00#64).toNat + 256 ≤ tierSize u 1 7 ∧ rangeFreeFor u 11 1 7 0x1FFF00 256 = true) ∧
    (let u := sObj.setPart 0 { sObj.part 0 with state := 1 }
     (movePlace u.fresh.2 9 { ob0 with owner := 5 } { pl2 with partition := 7 }).2 = false) := by decide +kernel

theorem wit_ObjectCommands_remote : sObj.fab.heldRes.length < 256 ∧ (3 : Nat) ≠ sObj.fab.node ∧ sObj.fab.node = 0 ∧
    (grantAt sObj 256 2 0 0 = none ∧ (grantAt sObj 256 2 (135 % 8) 0x3FFFFFF00).isSome = true) := by decide +kernel

theorem wit_ObjectCommands_data : (let o := { ob0 with owner := 5 }
    let bs : List Byte := List.replicate 96 0
    o.place = some pl2 ∧ 4000 + 96 ≤ o.length ∧ o.sealed = false ∧ isBound sObj 9 = false ∧ o.lost = false ∧ holdsData sObj 9 = false ∧
    (bufRead sObj 5 { addr := 0, len := 96 } 96).2 = some bs ∧ (storeObj sObj 9 o 4000 bs).2 = true ∧ (firmwareRead sObj pl2 4000 96).2 = some bs ∧
    (let u := sObj.setPart 0 { sObj.part 0 with state := 1 }
     (storeObj u 9 o 4000 bs).2 = false ∧ (firmwareRead u pl2 4000 96).2 = none) ∧
    (let u := { sObj with jobs := [(5, jLeased)], images := [(1, im0)] }
     isBound u 9 = true ∧ boundCheck u 9 (patched u o 4000 bs) = .accept)) := by decide +kernel

theorem wit_ObjectCommands_read : ∃ t, Writable (firmwareRead sObj pl2 4000 96).1 5 { addr := 0, len := 96 } (List.replicate 96 0) t :=
  writable_of _ _ _ _ (by decide +kernel) (by decide) (by decide)

theorem wit_ObjectCommands_delta : (let o : Obj := { Obj.fresh 256 5 false with place := some { pl2 with offset := 4096 } }
    let b : Bref := { addr := 0, len := 24 }
    sDelta.obj? 12 = some o ∧ objBytes sDelta o 0 4 = [0x53, 0x51, 0x50, 0x53] ∧ 16 ≤ b.len ∧
    (let r := bufRead sDelta 5 b 16
     let head := r.2.getD []
     let bs := (bufRead r.1 5 b 24).2.getD []
     r.2.isSome = true ∧ fld head 8 4 = 1 ∧ fld head 0xC 4 = 0 ∧ (bufRead r.1 5 b 24).2.isSome = true ∧
     deltaStatus (bufRead r.1 5 b 24).1 12 (fld bs 0 8) (deltaEntries bs 1) = 0 ∧ inUse (bufRead r.1 5 b 24).1 12 = false)) := by
  decide +kernel

/-- An object in T2 whose bytes start as an image's, 208 bytes in all. -/
def sImage : State :=
  let u := objWriteBytes sObj { ob0 with owner := 5 } 0
    ([0x53, 0x4D, 0x57, 0x49] ++ leBytes 2 1 ++ leBytes 2 0x80 ++ List.replicate 0x14 0 ++ leBytes 4 208)
  { u with images := [(1, { im0 with owner := 5 })] }

theorem wit_ImageAndJobCommands_images : (let o := { ob0 with owner := 5 }
    sImage.obj? 9 = some o ∧ mayUse 5 o.owner = true ∧ o.place.isSome = true ∧ imageHeadOk (objBytes sImage o 0 (min 0x80 o.length)) o.length = true) ∧
    sImage.image? 1 = some { im0 with owner := 5 } ∧ imageUsed sImage 1 = false := by decide +kernel

/-- An image for Held, Quarter and Ambient jobs of one cluster with one read slot. -/
def im1 : Image := { im0 with classMask := 7, clusters := 1, shadowOk := true, bindings := [{ slot := 0, access := 1, format := 0xFF, minLength := 1 }], owner := 0 }

/-- Every cluster is reserved for Held jobs; the image is loaded, and mailbox 0 has a command in hand. -/
def sSubmit : State :=
  commandIn { State.reset with
    images := [(1, im1)], objects := [(9, ob0)], power := { State.reset.power with state := 0 }
    boot := { State.reset.boot with plinth := { State.reset.boot.plinth with settings := [{ key := 0x0040, value := List.replicate 8 8 }] } } } 0

theorem wit_ImageAndJobCommands_submit : Commanded sSubmit 0 (hdr 0x70) 0x40 0x70 ∧
    (let bd : List BindEntry := [{ slot := 0, object := 9 }]
     let j := newJob 1 0 0 0 bd im1
     zeros (slice ((sSubmit.box 0).current.getD []) 16 112) (0x10 + 6 * 1) (96 - 6 * 1) = true ∧ sSubmit.image? 1 = some im1 ∧ mayUse 0 im1.owner = true ∧
     submitOk sSubmit 0 im1 j = true ∧ contentsOk sSubmit im1 j = .accept ∧ jobCount sSubmit < 512 ∧
     roomFor sSubmit (leaseCap sSubmit) 2 = true ∧ im1.shadowOk = true ∧
     (let cs := place sSubmit im1.onePartition 1 0 (eligible sSubmit 0) none
      cs = some ([0], []) ∧ place sSubmit true 1 0 (eligible sSubmit 0) none = cs ∧ writesIn sSubmit j im1 0 = true ∧
      placeOne sSubmit 1 0 (eligible sSubmit 0) (some 0) = some ([8], []) ∧ twinsFit sSubmit (needTwins sSubmit j 0) 1 = true) ∧
     zeros (slice ((sSubmit.box 0).current.getD []) 16 112) 0x1C 84 = true ∧ 6 * 256 ≤ bBig.len ∧ (bufRead (wake sSubmit) 0 bBig (6 * 256)).2.isSome = true) :=
  ⟨commanded_in _ _ _ _ (by decide) (by decide), by decide +kernel⟩

/-- No cluster is reserved but those of partitions 1 to 7 and 7 of partition 0; an Ambient job holds the last. -/
def sTight : State :=
  let u := { sSubmit with
    boot := { sSubmit.boot with plinth := { sSubmit.boot.plinth with settings := [{ key := 0x0040, value := 7 :: List.replicate 7 8 }] } }
    jobs := [(5, { jLeased with cls := 2, lease := 2, clusters := [7] })] }
  u.setCluster 7 { u.cluster 7 with powered := true, job := 5, role := .primary }

theorem chooses (s : State) (t p n : Nat) (h : (lowestFree s t p n).isSome = true) : (chooseOffset s t p n).isSome = true := by
  unfold chooseOffset; dsimp only; split
  · rfl
  · exact h

/-- With a free place in partition 0, in service, and room in the object table, a save object is found whatever place the firmware prefers. -/
theorem saves (s : State) (owner n : Nat) (h0 : (s.part 0).state = 0) (hl : (lowestFree s 2 0 n).isSome = true)
    (ho : s.objects.length < 16384) : (makeSave s owner n).isSome = true := by
  have go : ∀ (l : List (Nat × Nat)) (a : Nat × Nat), (l.foldl (fun acc x => match acc with
      | none => some x
      | some y => if freeT2 s y.1 < freeT2 s x.1 then some x else some y) (some a)).isSome = true := by
    intro l
    induction l with
    | nil => intro a; rfl
    | cons x l ih => intro a; rw [List.foldl_cons]; dsimp only; split <;> exact ih _
  obtain ⟨o, hc⟩ := Option.isSome_iff_exists.mp (chooses s 2 0 n hl)
  have hr : (roomiest s n).isSome = true := by
    unfold roomiest
    rw [show List.range 8 = 0 :: [1, 2, 3, 4, 5, 6, 7] from rfl, List.filterMap_cons_some (b := (0, o)) (by rw [if_pos h0, hc]; rfl)]
    exact go _ _
  unfold makeSave
  rw [if_neg (by omega), Option.isSome_map]; exact hr

theorem wit_ImageAndJobCommands_classes : (let bd : List BindEntry := [{ slot := 0, object := 9 }]
    submitOk sTight 0 im1 (newJob 1 1 0 0 bd im1) = true ∧ place sTight im1.onePartition 1 0 (eligible sTight 1) none = none ∧
    choosePreempt sTight im1.onePartition 1 0 = some [5] ∧ submitOk sSubmit 0 im1 (newJob 1 2 0 0 bd im1) = true ∧
    saveBytes im1 ≤ 0x4000000) ∧ (makeSave sSubmit 0 ((saveBytes im1 + 255) / 256 * 256)).isSome = true :=
  ⟨by decide +kernel, saves _ _ _ (by decide +kernel) (by decide +kernel) (by decide +kernel)⟩

/-- Job 5 of image 1 with a free fallback choice, without and with an invocation. -/
def sFeed (i : Option Invocation) : State :=
  commandIn { State.reset with images := [(1, im0), (2, im0)], jobs := [(5, { jLeased with fbClusters := [1], invocation := i })] } 0

/-- Job 5 has one row of streams of up to 8 steps, stream 2 is its, and a feed row of one step for it stands in the buffer. -/
def sRows : State :=
  let im := { im0 with insts := [inst0 0x0A 0 [0, 1, 8, 0, 0, 256]] }
  let u := State.reset.setPart 0 { State.reset.part 0 with streams := [st0 0] }
  commandIn { u with images := [(1, im)], jobs := [(5, jLeased)], hostMem := Memory.write [] 0x1000 (leBytes 4 2 ++ leBytes 2 1) } 0

theorem wit_ImageAndJobCommands_feed : (jobStreamGeo sRows jLeased).map StreamGeo.rowBytes = some 32 ∧
    (let r := bufRead sRows 0 bBig 32
     r.2.isSome = true ∧ (jobStreamGeo sRows jLeased).any (fun g => rowStatus1 r.1 0 5 g (slice (r.2.getD []) 0 32) [] == 0) = true) := by decide +kernel

theorem wit_ImageAndJobCommands_jobs : (let j := { jLeased with fbClusters := [1] }
    (sFeed none).job? 5 = some j ∧ mayUse 0 j.owner = true ∧ j.invocation = none ∧ (sFeed none).image? j.image = some im0 ∧
    zeros (slice (((sFeed none).box 0).current.getD []) 16 112) 8 24 = true ∧ j.period = 0 ∧ rowFed im0 = false ∧ j.triggers.length < 16 ∧
    (sFeed none).image? 2 = some im0 ∧ j.cls ≠ 2 ∧ j.fbClusters ≠ [] ∧ im0.fallbackClusters ≤ j.fbClusters.length ∧
    im0.bindings.all (fun d => (j.slotObj d.slot).isSome) = true ∧ fallbackRuns j = false) ∧
    (sFeed (some (iv0 .single))).job? 5 = some { jLeased with fbClusters := [1], invocation := some (iv0 .single) } := by decide +kernel

/-- Job 5, a sequence of one page and a pinned prefix, all of mailbox 0, with a command in hand there. -/
def sKv : State :=
  commandIn { State.reset with
    jobs := [(5, jLeased)]
    kv := { State.reset.kv with
      sequences := [(7, { owner := 0, family := (inst0 0x09 0 []).attn.fam, pools := [], length := 64, spans := [0], layers := 1, frameBytes := 256, broken := false })]
      pinned := [(8, { owner := 0, spans := [0], count := 64, layers := 1, broken := false })] } } 0

theorem wit_StreamAndKvCommands : sKv.job? 5 = some jLeased ∧ mayUse 0 jLeased.owner = true ∧ 4 * 64 ≤ bBig.len ∧ (bufRead sKv 0 bBig (4 * 64)).2.isSome = true ∧
    (sKv.kv.sequences.get? 7).any (fun q => mayUse 0 q.owner) = true ∧ pinCheck sKv 7 64 0xFFFFFFFF = 0 ∧ pinCheck sKv 7 1 1 = 0 ∧
    (sKv.kv.pinned.get? 8).any (fun p => mayUse 0 p.owner) = true := by decide +kernel

theorem wit_StreamAndKvCommands_hand : ∀ x ∈ opLengths, Commanded sKv 0 (hdr x.2) x.1 x.2 := fun _ hx => commanded_in _ _ _ _ (by decide) hx

/-- A Relief that overrides nothing. -/
def rl0 : Relief := { id := 3, plinthVersion := 0, name := [], settings := [], verified := true, measurement := 0, flags := 0, keyId := 0 }

/-- A port configuration within its ranges. -/
def pc0 (l d : Int) : PtpPortCfg := { mode := 2, step := 1, delay := 1, transport := 2, domain := 127, logSync := l, logDelayReq := d }

/-- Mailbox 0 has a command in hand where forcing and injection are permitted, Relief 3 is in the Plinth, and slot B of the firmware is staged and verified. -/
def sAdmin : State :=
  commandIn { State.reset with
    power := { State.reset.power with state := 0 }
    boot := { State.reset.boot with
      runtime := [(0x0080, 1), (0x0081, 1)], plinth := { State.reset.boot.plinth with version := 0, reliefs := [rl0] }
      fwB := { Slot.empty with state := 1, verified := true } } } 0

/-- The shortest firmware image. -/
def fwBytes : List Byte :=
  [0x53, 0x4D, 0x46, 0x57] ++ leBytes 2 1 ++ leBytes 2 0x40 ++ leBytes 4 0 ++ leBytes 4 0x90 ++ leBytes 4 0x40 ++ leBytes 4 0 ++ List.replicate 120 0

theorem wit_AdministrationCommands : (∀ x ∈ opLengths, Commanded sAdmin 0 (hdr x.2) x.1 x.2) ∧
    (incrOk 0x0800000000 = true ∧ portCfgOk (pc0 (-7) 5) = true ∧ portCfgOk (pc0 4 (-7)) = true ∧ portsAgree (pc0 (-7) 5) (pc0 4 (-7)) = true ∧
     portCodesOk c0 = true ∧ portsAgree sAdmin.time.port0.cfg sAdmin.time.port1.cfg = true) ∧
    (setting sAdmin 0x0081 0 = 1 ∧ sAdmin.jobs.all (fun e => !forbidsForce sAdmin e.2) = true ∧ setting sAdmin 0x0080 0 = 1 ∧
     (bufRead sAdmin 0 bBig (16 * 64)).2.isSome = true) :=
  ⟨fun _ hx => commanded_in _ _ _ _ (by decide) hx, by decide +kernel⟩

/-- Partition 7 of the state, as PARTITION_RESET leaves it before the reset, after it came back by the two paths at given times. -/
def asked (st : Nat) (fast full : Option Nat) : State :=
  sAdmin.setPart 7 { sAdmin.part 7 with state := st, backFast := fast, backFull := full, resetMbx := some (0, hdr 2), railOn := true }

theorem wit_AdministrationCommands_reset : (sAdmin.part 7).state = 0 ∧ ((asked 3 none none).part 7).state = 3 ∧
    escalation (asked 0 none none) 7 = .none ∧ ((beginReset (asked 0 none none) 7 0 0 0 0).part 7).state ≠ 3 ∧
    escalation (asked 0 (some 0) none) 7 = .toFull ∧ ((beginReset (asked 0 (some 0) none) 7 1 0 0 0).part 7).state ≠ 3 ∧
    escalation (asked 0 none (some 0)) 7 = .down ∧ ((takeDown (asked 0 none (some 0)) 7).part 7).state = 3 := by decide +kernel

theorem wit_AdministrationCommands_relief : checkRelief sAdmin 3 = (sAdmin, some rl0) ∧ (checkRelief sAdmin 9).2 = none ∧ reliefBusy sAdmin 3 = false := by
  refine ⟨rfl, ?_, ?_⟩ <;> decide +kernel

theorem wit_AdministrationCommands_firmware : (let b : Bref := { addr := 0, len := 144 }
    let u := { sAdmin with hostMem := Memory.write [] 0 fwBytes }
    (bufRead u 0 b b.len).2 = some fwBytes ∧ (bufRead u 0 b b.len).1.flt.pending = none ∧ imageLayout 0 (fwBytes.take (fld fwBytes 0xC 4)) = true) ∧
    (let x := slotOf sAdmin.boot 0 (1 - inUseSlot sAdmin.boot 0)
     x.state = 1 ∧ (checkSigned sAdmin (x.verified && reliefsHold 0 (slotImage sAdmin.boot 0 (1 - inUseSlot sAdmin.boot 0))) 0 0).2 = true) ∧
    sAdmin.power.state = 0 ∧ mayEnter sAdmin 2 = true := by
  refine ⟨?_, ?_, ?_⟩ <;> decide +kernel

/-- The module is ACTIVE with its mailboxes open, every port is enabled, debugging and boundary frames are permitted, and the loop settings are given. -/
def sOn : State :=
  { State.reset with
    power := { State.reset.power with state := 0, cameraOn0 := true, cameraOn1 := true }
    boot := { State.reset.boot with
      mailboxReady := true, rootPort := true, stage := 7
      runtime := [(0x0050, 250), (0x0082, 1), (0x0100, 600), (0x0101, 900), (0x0103, 40), (0x0105, 1), (0x0120, 0x03E80320), (0x0121, 0x04B00384),
        (0x0200, 0xFFFFFFFF), (0x0220, 1)] } }

theorem wit_DoorbellsAndEnable : onPath State.reset .pcie = true ∧ onPath sOn .pcie = false ∧ onPath sOn (.frieze 0) = true ∧
    (State.reset.box 5).owner = Path.pcie ∧ (State.reset.box 5).owner ≠ Path.frieze 0 ∧
    (let b := State.reset.box 5
     ((64#32).extractLsb' 0 16 - b.cmdCons).toNat ≤ 64 ∧ (b.dblCmd - b.cmdCons).toNat ≤ ((64#32).extractLsb' 0 16 - b.cmdCons).toNat ∧
     64 < ((65#32).extractLsb' 0 16 - b.cmdCons).toNat ∧ ((0#32).extractLsb' 0 16 - b.dblCpl).toNat ≤ (b.cplProd - b.dblCpl).toNat ∧
     (b.cplProd - b.dblCpl).toNat < ((1#32).extractLsb' 0 16 - b.dblCpl).toNat ∧ b.enabled = false) ∧
    ((sCmd 5).box 5).enabled = true := by decide +kernel

theorem wit_DisableDiscards : (let b := (withBox State.reset 5 (fun b => { b with held := [{ opcode := 1, tag := 0, status := 0, kind := 0, payload := [] }] })).box 5
    b.lost.toNat + b.held.length < 2 ^ 32 ∧ b.held ≠ []) := by decide +kernel

theorem wit_ClearedBits : onPath State.reset .pcie = true ∧ State.reset.highs = [] ∧ (tsqOf State.reset 1).entries = [] ∧
    (tsqOf (setTsq State.reset 1 { Tsq.reset with enable := true, entries := [(7, 9)] }) 1).entries = [(7, 9)] := by decide +kernel

theorem wit_WindowWords : onPath State.reset .pcie = true ∧ path0 State.reset = .pcie ∧ State.reset.highs = [] ∧ timLow 0x4000 = true ∧
    ({ State.reset with time := { State.reset.time with hostDisciplined := true } } : State).time.hostDisciplined = true ∧
    ¬(path0 State.reset = .pcie ∧ State.reset.time.hostDisciplined = true) ∧ (State.reset.box 5).owner = Path.pcie ∧ (State.reset.box 5).enabled = false ∧
    incrOk ((0x0800000000#64).toNat % 2 ^ 40) = true ∧ aligned 0x3004 8 = false ∧ aligned 0x3000 2 = false := by decide +kernel

/-- Injection is armed until tick 0, and the target is detector 0x11 on tile 0 of partition 0. -/
def sArmed (target : Word) : State := { State.reset with flt := { State.reset.flt with armed := true, injTarget := target } }

theorem wit_InjectionRequests : onPath State.reset .pcie = true ∧ path0 State.reset = .pcie ∧ path0 State.reset ≠ .frieze 0 ∧ State.reset.flt.armed = false ∧
    (let s := sArmed 0x70000000
     s.flt.armed = true ∧ (0x0100#32).extractLsb' 8 8 ≠ 0 ∧ injectionOk { s with flt := { s.flt with injCount := 1 } } s.flt.injTarget s.flt.injParam = true ∧
     (s.flt.injTarget.extractLsb' 24 8).toNat ∉ [0x06, 0x14, 0x22, 0x33, 0x67, 0x90] ∧ s.flt.armedUntil.toNat ≤ s.now) ∧
    (let s := sArmed 0x00000000
     injectionOk { s with flt := { s.flt with injCount := 1 } } s.flt.injTarget s.flt.injParam = false) := by decide +kernel

theorem wit_TimeBaseSteps : timeRuns sOn = true ∧ sOn.time.force = none ∧ sOn.jobs = [] ∧ timeRuns { State.reset with power := { State.reset.power with state := 2 } } = false ∧
    (let u := { sOn with time := { sOn.time with force := some (9, 0, hdr 8) } }
     timeRuns u = true ∧ (forEach (endTick u).tiles.keys (endTick u) (fun s t => chargeStall s (BitVec.ofNat 9 t))).time.force = some (9, 0, hdr 8)) ∧
    (forEach (endTick sOn).tiles.keys (endTick sOn) (fun s t => chargeStall s (BitVec.ofNat 9 t))).time.force = none := by decide +kernel

/-- Port 1 of a state with a PTP configuration, changed. -/
def withPort (f : PtpPort → PtpPort) : State :=
  setPport sOn 1 (f { pport sOn 1 with cfg := { mode := 2, step := 0, delay := 0, transport := 0, domain := 0, logSync := 0, logDelayReq := 0 }, master := some d0 })

theorem wit_PtpMessages_slave : fromMaster (withPort (fun p => { p with state := 9 })) 1 0 0 = true ∧
    (pport (withPort (fun p => { p with state := 9 })) 1).pendingSync = none ∧
    (let u := withPort (fun p => { p with state := 9, pendingSync := some (5, 0), pendingDelay := some 5 })
     fromMaster u 1 0 0 = true ∧ (pport u 1).pendingSync = some (5, 0) ∧ (pport u 1).cfg.delay ≠ 1 ∧ (pport u 1).pendingDelay = some 5) := by decide +kernel

theorem wit_PtpMessages_peer : (let u := withPort (fun p => { p with state := 6 })
     hears u 1 0 = true ∧ (pport u 1).cfg.delay ≠ 1 ∧ (pport u 1).state = 6) ∧
    (∀ w ∈ [none, some ((8 : Int), (7 : Int))], let u := withPort (fun p => { p with cfg := { p.cfg with delay := 1 }, pendingPdelay := some (5, w) })
     hears u 1 0 = true ∧ (pport u 1).cfg.delay = 1 ∧ (pport u 1).pendingPdelay = some (5, w)) := by decide +kernel

theorem wit_PtpMessages_announce : (Config.ptpIdentity + 1 ≠ Config.ptpIdentity) ∧ ((254 : Nat) < 255 ∧ sOn.flt.pending = none ∧
    (let u := setPport sOn 1 { pport sOn 1 with cfg := { (pport sOn 1).cfg with mode := 2 } }
     hears u 1 0 = true ∧ (pport u 1).master = none) ∧
    (let u := withPort (fun p => p)
     hears u 1 0 = true ∧ (pport u 1).master = some d0 ∧ betterClock { d0 with priority1 := 1, grandmaster := 1, sender := 1 } d0 = false ∧
     d0.sender ≠ ({ d0 with priority1 := 1, grandmaster := 1, sender := 1 } : AnnounceData).sender) ∧
    betterClock d0 { d0 with priority1 := 1, grandmaster := 1 } = true) :=
  ⟨by omega, by decide +kernel⟩

theorem wit_PtpMessages_rest : (∀ st ∈ [1, 4, 6, 9],
      let u := { withPort (fun p => { p with state := st, announceAt := 1, awaitingStamp := some (1, 5) }) with time :=
        { (withPort (fun p => { p with state := st, announceAt := 1, awaitingStamp := some (1, 5) })).time with t := 6000000002 } }
      timeRuns u = true ∧ (pport u 1).cfg.mode ≠ 0 ∧ (pport u 1).state = st ∧ (pport u 1).cfg.delay = 0 ∧ (pport u 1).announceAt + 6000000000 < u.now ∧
      (pport u 1).awaitingStamp = some (1, 5) ∧ 1 + 1000000 < u.now ∧ u.flt.pending = none) ∧
    sOn.now ≤ (pport (withPort (fun p => p)) 1).announceAt + 6000000000 ∧
    (let u := withPort (fun p => { p with state := 4, cfg := { p.cfg with delay := 1 } })
     (pport u 1).state ≠ 1 ∧ (pport u 1).cfg.delay = 1) ∧
    (let u := { sOn with time := { sOn.time with holdover := true, holdoverEst := 1000001, locked := true } }
     u.time.holdover = true ∧ u.time.exceededRaised = false ∧ u.flt.pending = none ∧ u.time.holdoverLimit < u.time.holdoverEst ∧ u.time.locked = true) := by
  decide +kernel

/-- A ring object of 4 entries of a size in T2, with its first producer index and entry. -/
def ringAt (s : State) (oid size prod : Nat) (entry : List Byte) : State :=
  let o : Obj := { Obj.fresh 65536 0 false with place := some pl2, port := true }
  objWriteBytes { s with objects := [(oid, o)] } o 0 (leBytes 4 prod ++ leBytes 4 0 ++ leBytes 4 4 ++ leBytes 4 size ++ List.replicate 48 0 ++ entry)

theorem wit_ServicePorts_service : portsWork sOn = true ∧ enabledBit sOn 1 = true ∧ goodFrame (List.replicate 63 0) true = false ∧
    goodFrame (List.replicate 1522 0) true = true ∧ slice (List.replicate 64 (0 : Byte)) 12 2 ≠ [0x88, 0x08] ∧
    (let f : List Byte := List.replicate 12 0 ++ [0x88, 0x08] ++ List.replicate 50 0
     goodFrame f true = true ∧ slice f 12 2 = [0x88, 0x08]) ∧
    (pport sOn 1).cfg.mode = 0 ∧ (portsWork (withPort (fun p => p)) = true ∧ (pport (withPort (fun p => p)) 1).cfg.mode ≠ 0) ∧
    headEntry sOn 0xFFFF0111 (ethPort sOn 1).txProd = none ∧
    (let u := ringAt sOn 0xFFFF0111 2048 1 []
     let v := setEthPort u 1 { ethPort u 1 with txProd := 1 }
     portsWork v = true ∧ enabledBit v 1 = true ∧ (headEntry v 0xFFFF0111 (ethPort v 1).txProd).isSome = true) := by decide +kernel

theorem wit_ServicePorts_rest : enabledBit sOn 2 = true ∧
    (let frame : List Byte := List.replicate 64 0
     goodFrame frame true = true ∧ goodFrame frame false = false ∧ ((flushBoundary sOn).ports.boundaryHeld.map List.length).sum + 2048 ≤ 0x40000 ∧
     (boundaryFate (flushBoundary sOn) (frame.take 60)).1 = true ∧
     (let u := flushBoundary { sOn with boot := { sOn.boot with runtime := [(0x0200, 4)] } }
      (u.ports.boundaryHeld.map List.length).sum + 2048 ≤ 0x40000 ∧ (boundaryFate u (frame.take 60)).1 = false)) ∧
    jobWrites sOn 0xFFFF0110 = false ∧ (State.reset.boot.rootPort = false ∧ (opened State.reset).boot.mailboxReady = true) ∧
    supplied sOn = true ∧ sOn.boot.rootPort = true ∧ timeRuns sOn = true ∧ (2 ^ 37 : Nat) < 2 ^ 37 - 4 + 8 ∧ ¬(2 ^ 37 < (2 ^ 37 - 4) + 4) ∧
    ¬((0x400000000 : Nat) < (2 ^ 37 - 4) % 0x400000000 + 4) ∧ t2Works sOn ((2 ^ 37 - 4) / 0x400000000) = true := by decide +kernel

/-- Camera 7 with an open slot in a ring of 4 frames. -/
def sCam : State :=
  let u := ringAt sOn 0xFFFF0307 4096 0 []
  setCamera u 7 { camera u 7 with slotOpen := true }

theorem wit_CameraAndCanPorts_camera : (cameraWorks sCam 7 = true ∧ cameraSet sCam 7 = (0, 0, 0, 0, 0) ∧
    (openSlot (stampWithin sCam 8).2 7).isSome = true ∧ openSlot (stampWithin sOn 8).2 7 = none ∧ cameraWorks sOn 7 = true ∧
    (camera sCam 7).slotOpen = true ∧ (openSlot sCam 7).isSome = true ∧ (camera sOn 7).slotOpen = false) ∧
    (portsWork sCam = true ∧ sCam.power.state = 0) := by decide +kernel

/-- Channel 3 with an entry at the head of its transmit ring, due at 8 ns. -/
def sCan (t : Nat) : State :=
  let u := ringAt sOn 0xFFFF0413 96 1 (leBytes 8 8 ++ List.replicate 88 0)
  let u := { u with time := { u.time with t := t } }
  setCanPort u 3 { canPort u 3 with txProd := 1 }

theorem wit_CameraAndCanPorts_can : (List.replicate 64 (0 : Byte)).length ≤ 64 ∧ ∀ t ∈ [8, 10000009],
    canWorks (sCan t) 3 = true ∧ (canPort (sCan t) 3).busOff = false ∧ (canHead (sCan t) 3).map (fun e => e.2.2.2) = some 8 ∧
    ((8 ≤ (sCan t).now ∧ (sCan t).now ≤ 8 + 10000000) ∨ 8 + 10000000 < (sCan t).now) := by decide +kernel

/-- SPI master 3 is configured; a halt line, encoders and debug access are open, and a sampling instant has passed. -/
def sSpi (busy : Bool) : State :=
  let u := { sOn with
    boot := { sOn.boot with plinth := { sOn.boot.plinth with settings := [{ key := 0x026B, value := [] }] } }, time := { sOn.time with t := 1000000 } }
  setSpiPort u 3 { spiPort u 3 with busy := busy }

theorem wit_SensorHaltAndTestPorts : (∀ b ∈ [false, true], spiWorks (sSpi b) 3 = true ∧ (spiPort (sSpi b) 3).busy = b) ∧
    (let u := sSpi true
     portsWork u = true ∧ enabledBit u (19 + 7) = true ∧ 250000 ≤ encoderPeriod u ∧ encoderPeriod u ≤ 10000000 ∧ encoderPeriod u % 8 = 0 ∧
     u.ports.encoderLast < u.now / encoderPeriod u * encoderPeriod u) ∧
    (jtagAlive sOn = true ∧ debugPermitted sOn = true ∧ (0x401FFFFFF8 : Nat) + 8 ≤ 0x4020000000 ∧
     (let u := { sOn with boot := { sOn.boot with runtime := [], stage := 0xE1 } }
      jtagAlive u = true ∧ debugPermitted u = false ∧ u.boot.stage = 0xE1)) ∧
    ({ State.reset with power := { State.reset.power with heldInReset := true } } : State).power.heldInReset = true := by decide +kernel

/-- The last Frieze port. -/
def p5 : FriezePort := 5

/-- Port 5 in a state of 4 lanes, changed. -/
def withLink (s : State) (n : Nat) (f : FPort → FPort) : State := setFport s 5 (f { FPort.off with state := n, width := 4, lanes := 15 })

/-- Port 5 is UP on a working module; a T3 read and a T3 write to node 3 are open. -/
def sUp : State :=
  let u := withLink sOn 3 (fun x => x)
  let rd : T3Req := { tag := 1, node := 3, attempt := 0, isRead := true, address := 0, bytes := 64, job := 0, partition := 0, engine := 0 }
  { u with fab := { u.fab with t3 := [rd, { rd with tag := 2, isRead := false }], routes := [{ dest := 3, valid := true, isLocal := false, port := 5, hops := 1, held := false }] } }

theorem wit_FriezeDataFrames : (sUp.flt.pending = none ∧ (fport sUp 5).state = 3 ∧ f0.crcOk = true ∧ f0.fecOk = true ∧
     f0.dest.toNat = (takeLink sUp 5 f0).fab.node ∧ (3#10).toNat ≠ (takeLink sUp 5 { f0 with dest := 3 }).fab.node ∧
     f0.linkSeq = (fport (takeLink sUp 5 f0) 5).rxSeq) ∧
    (let got := fun (n : Nat) => acceptFrame (takeLink sUp 5 f0) 5 f0.vc.toNat (1 + (n + 63) / 64)
     let bad := (got 0).setPart 0 { (got 0).part 0 with poisoned := [0] }
     peerProblem (got 64) (localOf f0.address) 64 = none ∧ (peerProblem (got 64) (localOf 0x4000000000) 64).isSome = true ∧
     (localRead (presentPeer (got 0) f0 64) (localOf f0.address) 64).2.isSome = true ∧
     (localRead (presentPeer bad f0 64) (localOf f0.address) 64).2 = none ∧ openT3 (got 64) f0 = none ∧
     (openT3 (got 64) { f0 with tag := 1 }).map T3Req.isRead = some true ∧ (openT3 (got 0) { f0 with tag := 2 }).map T3Req.isRead = some false) ∧
    ((fport (takeLink (setFport sUp 5 { fport sUp 5 with partnerNode := f0.src.toNat }) 5 f0) 5).unacked = [] ∧ 7 ≤ (7#4).toNat ∧
     ∀ n ∈ [2, 4, 5], (fport (withLink sOn n (fun x => x)) 5).state = n) := by
  and_intros <;> decide +kernel

/-- Port 5 is UP, this node is the registrar of identity 5 in generation 0, and one request of each kind is open. -/
def sReg : State :=
  let u := commandIn { sUp with boot := { sUp.boot with identity := 7 } } 5
  let u := { u with fab := { u.fab with
    registrar := true, registrarIdentity := 5, updating := 1
    mgmt := [{ seq := 1, kind := 1, node := 3, mbx := 0, object := 0 }, { seq := 2, kind := 0x20, node := 3, mbx := 5, object := 9 }] } }
  withBox u 5 (fun b => { b with waiting := some (0x21, hdr 0x10, .place 9 2) })

theorem wit_FabricManagement : (fport sReg 5).state = 3 ∧
    (let got := fun (n : Nat) => acceptFrame sReg 5 3 (1 + (16 + n + 63) / 64)
     4 < (got 20).fab.registrarIdentity ∧ (got 20).fab.registrarIdentity < 6 ∧ (got 20).fab.registrar = true ∧ knownKind 0xFFFF = false ∧
     (got 32).boot.identity ≠ 1 ∧
     ((got 8).fab.mgmt.find? (fun q => q.seq == 1 && (q.kind == 1 || q.kind == 2))).isSome = true ∧
     (got 8).fab.mgmt.find? (fun q => q.seq == 9 && (q.kind == 1 || q.kind == 2)) = none) ∧
    (let u := acceptFrame { sReg with fab := { sReg.fab with registrar := false, hearPort := some 5 } } 5 3 2
     u.fab.registrar = false ∧ u.fab.hearPort = some 5 ∧ u.fab.registrarIdentity = 5 ∧ u.fab.registrarBoot ≠ 1) ∧
    (∀ e ∈ [{ re0 with dest := 1023, port := 5 }, { re0 with dest := 0, port := 255, valid := false }], e.dest < 1024 ∧ (e.valid = true → e.port ≤ 5)) ∧
    timeRuns sReg = true ∧ sReg.fab.updating ≠ 0 ∧ (sReg.fab.mgmt.find? (fun q => q.seq == 2)).isSome = true ∧
    (waitsFor { sReg with fab := { sReg.fab with mgmt := sReg.fab.mgmt.drop 2 } } 2).isSome = true ∧
    (sReg.fab.mgmt.find? (fun q => q.seq == 1)).isSome = true ∧
    waitsFor { sReg with fab := { sReg.fab with mgmt := sReg.fab.mgmt.drop 1 } } 1 = none := by and_intros <;> decide +kernel

theorem wit_ReservationsAndHello : (let got := fun (n : Nat) => acceptFrame sReg 5 3 (1 + (16 + n + 63) / 64)
     let u := reclaim (got 24) (fun r => r.node == 3 && r.boot != 0)
     (7 : Byte).toNat / 8 % 16 = 0 ∧ (0x87 : Byte).toNat / 8 % 16 = 0 ∧ (8 : Byte).toNat / 8 % 16 ≠ 0 ∧ grantAt u 256 (resvTier 7) 7 0x400000000 = none ∧
     grantAt u 256 (resvTier 7) 7 0x3FFFFFF00 = some 0x3FFFFFF00 ∧
     ((got 16).fab.mgmt.find? (fun q => q.seq == 2 && q.kind == 0x20 && q.node == 3)).isSome = true ∧ (waitsFor (got 16) 2).isSome = true ∧
     waitsFor (got 16) 9 = none) ∧
    (sUp.fab.t3.find? (fun r => r.tag == 1)).map T3Req.node = some 3 ∧ (routeTo sUp 3).isSome = true ∧
    (let u := withLink { sOn with boot := { sOn.boot with identityOk := true } } 2 (fun x => x)
     (fport u 5).state = 2 ∧ (fport u 5).width ≠ 0 ∧ u.flt.pending = none ∧ u.boot.identityOk = true ∧ (fport u 5).verdictSent = 3) ∧
    (∀ n ∈ [1024, 1025], let x := fport (withLink sOn 2 (fun x => { x with verdictSent := 0, verdictGot := 0, merged := n })) 5
     x.state = 2 ∧ x.verdictSent = 0 ∧ x.verdictGot = 0 ∧ x.merged = n) := by and_intros <;> decide +kernel

/-- A frame of two blocks that waits for credits of channel 3. -/
def tx0 : TxFrame :=
  { ty := 4, dest := 3, src := 0, vc := 3, seq := 0, blocks := 2, replays := 0, address := 0, tag := 0, units := 0, passed := 0, body := [] }

theorem wit_LinkStates : sOn.flt.pending = none ∧ (∀ n ∈ [1, 2, 3, 4, 5], (fport (withLink sOn n (fun x => x)) 5).state = n) ∧
    (8 : BitVec 4) ≠ 0 ∧ (fport (withLink sOn 2 (fun x => { x with fullPath := true })) 5).fullPath = true ∧
    (let x := fport (withLink sOn 3 (fun x => x)) 5
     x.lanes &&& ~~~(8 : BitVec 4) ≠ 0 ∧ x.lanes &&& ~~~(0 : BitVec 4) ≠ 0 ∧ x.lanes &&& ~~~(15 : BitVec 4) = 0 ∧ x.waiting = []) ∧
    (widthOf 8 4).1 ≠ 0 ∧ (widthOf 0 4).1 = 0 ∧ carries (fport (withLink sOn 4 (fun x => x)) 5) = true ∧
    starved (fport (withLink sOn 3 (fun x => { x with waiting := [tx0], credits := Vector.replicate 4 1 })) 5) (heldDest sOn) 3 = true := by and_intros <;> decide +kernel

/-- A state with another power record. -/
def withPower (f : Power → Power) : State := { State.reset with power := f State.reset.power }

/-- A state in a start-up stage. -/
def inStage (n : Nat) : State := { State.reset with boot := { State.reset.boot with stage := n } }

theorem wit_PowerStates : (State.reset.power.state = 4 ∧ sOn.power.state ≠ 4 ∧ State.reset.power.heldInReset = false ∧ State.reset.boot.stage ∉ [3, 4, 5]) ∧
    (∀ n ∈ [3, 4, 5, 6], (inStage n).boot.stage = n ∧ startTraining (inStage n) = false ∧ ((inStage n).part 7).state ≠ 3) ∧
    (supplied sOn = true ∧ sOn.power.state = 0 ∧ (withPower (fun p => { p with failRunning := true })).power.failRunning = true) ∧
    (let u := withPower (fun p => { p with heldInReset := true, stopCause := 1 })
     u.power.heldInReset = true ∧ u.power.stopCause = 1) ∧
    (∀ n ∈ [1, 2, 3], supplied (withPower (fun p => { p with state := n })) = true) ∧
    (let u := withPower (fun p => { p with state := 2, waking := true })
     u.power.state = 2 ∧ u.power.waking = true ∧ u.power.failRunning = false) := by and_intros <;> decide +kernel

/-- Cluster 63 of a working module, on and changed. -/
def withCluster (f : Cluster → Cluster) : State := sOn.setCluster 63 (f { sOn.cluster 63 with powered := true })

theorem wit_MonitorsAndPatina : supplied sOn = true ∧ sOn.flt.pending = none ∧ (35999 : Nat) < 36000 ∧ sOn.boot.mailboxReady = true ∧
    ({ sOn with power := { sOn.power with capBefore := some 250 } } : State).power.capBefore = some 250 ∧ (62000 : Nat) < 62001 ∧
    (let u := sOn.setPart 7 { sOn.part 7 with railMv := 1000 }
     (u.part 7).railOn = true ∧ (u.part 7).railMv + 50 < 1051 ∧ 969 + 30 < (u.part 7).railMv) ∧
    (loopHalf sOn 0x0120 0 : Int) ≤ 800 ∧ (loopHalf sOn 0x0121 0 : Int) ≤ 900 ∧ (loopHalf sOn 0x0120 1 : Int) ≤ 1000 ∧ (loopHalf sOn 0x0121 1 : Int) ≤ 1200 ∧
    ({ sOn with power := { sOn.power with junctionWarn := true } } : State).power.junctionWarn = true ∧
    ((withCluster (fun x => x)).cluster 63).powered = true ∧ ((withCluster (fun x => x)).cluster 63).stretching = false ∧
    (let u := withCluster (fun x => { x with stretches := 2 })
     loopSetting u 0x0105 < (u.cluster 63).stretches) ∧
    (let u := withCluster (fun x => { x with voltage := 900, marginLow := 20, margin := 19 })
     (u.cluster 63).voltage = loopSetting u 0x0101 ∧ (u.cluster 63).margin < (u.cluster 63).marginLow ∧ (u.cluster 63).stretching = false) ∧
    (capInForce sOn = 250 ∧ (2375 * 1000 - 1 : Nat) < 9500 * 250) ∧ timeRuns sOn = true ∧ (sOn.part 7).railOn = true := by and_intros <;> decide +kernel

/-! ### Words of the sequencer, written out bit by bit from the encoding table (R51) -/

theorem test_word_setp : decodeSeq 0b00001_0101_0000000_0001001000110100 = some (.setp 5 0x1234) := by decide
theorem test_word_setmode : decodeSeq 0b00011_0110_1000_1001_01100_1_000000000 = some (.setmode 6 8 9 12 true) := by decide
theorem test_word_setmode_reserved : decodeSeq 0b00011_0110_1000_1001_01100_1_000000001 = none := by decide
theorem test_word_loop : decodeSeq 0b00100_011_000000000111_000000001001 = some (.loop 3 7 9) := by decide
theorem test_word_mma : decodeSeq 0b00110_0001_0010_111111_1_1_00000000000 = some (.mma 1 2 63 1 true) := by decide
theorem test_word_accrd : decodeSeq 0b00111_0011_1_0100_1_00000000000000000 = some (.accrd 3 1 4 true) := by decide
theorem test_word_vop : decodeSeq 0b01000_001101_0001_0010_0011_111111111 = some (.vop 13 1 2 3 511) := by decide
theorem test_word_vpoly : decodeSeq 0b01001_0001_00_0010_0011_0000_000000100 = some (.vpoly 1 2 3 4) := by decide
theorem test_word_vpoly_reserved : decodeSeq 0b01001_0001_01_0010_0011_0000_000000100 = none := by decide
theorem test_word_xpose : decodeSeq 0b01011_10_0000_0001_0010_0000000000000 = some (.xpose 2 1 2) := by decide
theorem test_word_spop : decodeSeq 0b01101_0011_1_00001_00010_00011_00100_00 = some (.spop 3 1 1 2 3 4) := by decide
theorem test_word_sls : decodeSeq 0b01110_1_11111_0010_11_000000000000000 = some (.sls 1 31 2 3) := by decide
theorem test_word_tmove : decodeSeq 0b01111_100001_0010_0011_100_1_000000000 = some (.tmove 33 2 3 4 true) := by decide
theorem test_word_send : decodeSeq 0b10000_11_100000001_0010_000000001111 = some (.send 3 257 2 15) := by decide
theorem test_word_recv : decodeSeq 0b10001_11_0010_100000001_000000001111 = some (.recv 3 2 257 15) := by decide
theorem test_word_wait : decodeSeq 0b10010_1111_0000000000000001_0000000 = some (.wait 15 1) := by decide
theorem test_word_signal : decodeSeq 0b10011_1111_111111111_00000001_000000 = some (.signal 15 511 1) := by decide
theorem test_word_fence : decodeSeq 0b10100_1_0_1_000000000000000000000000 = some (.fence true false true) := by decide
theorem test_word_end : decodeSeq 0b10111_000000000000000000000000000 = some .endWord := by decide
theorem test_word_undefined : decodeSeq 0b11000_000000000000000000000000000 = none := by decide

/-! ### Figures of the spec's examples -/

/-- R17, R19: tile 0x1A5 lies at column 21, row 12, and its scratchpad at 0x40_1A50_0000. -/
theorem test_tile_place : meshX 0x1A5 = 21 ∧ meshY 0x1A5 = 12 ∧ t0Base 0x1A5 = 0x401A500000 := by decide

/-- The T2 local address 0x0B_4D2C_3A80 lies in PT2 at offset 0x3_4D2C_3A80, in set 0xC3A of the slice (the example of 03). -/
theorem test_t2_place : 0x0B4D2C3A80 / 0x400000000 = 2 ∧ 0x0B4D2C3A80 % 0x400000000 = 0x34D2C3A80 ∧ lineSet 0x34D2C3A80 = 0xC3A := by decide

/-- Its DRAM coordinates: row 54,091, burst 3, bank 2 of bank group 2, codeword 8, byte 0 (R152 and the example after R153). -/
theorem test_dram_place : dramCoord 0x34D2C3A80 = { row := 54091, burst := 3, bank := 2, bankGroup := 2, codeword := 8, byte := 0 } := by decide

/-- FP32 0x3E99_999A converts to FP8-E4M3 0x2A to nearest even (the example of 02). -/
theorem test_e4m3 : e4m3.encode .rne (fp32.decode 0x3E99999A) = 0x2A := by decide +kernel

/-- A block with amax 2.7 has scale 0x7E, and 2.7, −0.8, 0.2 and 0.1 take the codes 7, 0xB, 1 and 0 (the example of 02). -/
theorem test_fp4b : blockScale [fp32.decode 0x402CCCCD, fp32.decode 0xBF4CCCCD] = 0x7E ∧
    ([0x402CCCCD, 0xBF4CCCCD, 0x3E4CCCCD, 0x3DCCCCCD].map (fun v => (blockCode .fp4b 0x7E .rne (fp32.decode v)).code)) = [7, 0xB, 1, 0] := by
  decide +kernel

/-- The accumulator 52,524,432,960 drained at scale 2^−24 to FX16 is q = 3,131 (the example of 02). -/
theorem test_fx16_drain : (narrow .fx16 3 .rne (.num ((Num.ofInt 52524432960 (-24)).mul (Num.ofInt 1 (-3))))).code = 3131 := by decide +kernel

/-- Lanes 0, 2 and 3 usable leave width 2 on lanes 0 and 2 (the example of 14). -/
theorem test_width : widthOf 0b1101 4 = (2, 0b0101) ∧ widthOf 0b1110 1 = (1, 0b0010) := by decide

/-- FIPS 180-4: the hash of "abc". -/
theorem test_sha256 : ofBe (sha256 [0x61, 0x62, 0x63]) = 0xba7816bf8f01cfea414140de5dae2223b00361a396177a9cb410ff61f20015ad := by decide +kernel

/-- The check value of CRC-32/IEEE: "123456789". -/
theorem test_crc32 : crc32 [0x31, 0x32, 0x33, 0x34, 0x35, 0x36, 0x37, 0x38, 0x39] = 0xCBF43926 := by decide +kernel

/-- One wrong symbol of a codeword is corrected at its place (R156). -/
theorem test_sc4_single : ((List.range 36).all (fun i => match sc4Errors [(i, 9)] with
    | .corrected k _ => k == i
    | _ => false)) = true := by decide +kernel

/-! ### One step -/

/-- The state that a command leaves. -/
def after (c : Instr) (s : State) : State := match exec c s with
  | .next t => t
  | _ => s

/-- A tile of `sRun` changed, and the command's tile 0 afterwards. -/
def tileAfter (c : Instr) (f : TileState → TileState) : TileState := (after c (withTile sRun f)).tile 0

/-- R54: the pointer wraps modulo 65,536. -/
theorem test_addp_wraps : ((tileAfter (.addp 0 5 0xFFFF) (fun x => { x with ptrs := x.ptrs.set 5 0 })).ptrs[5]) = 0xFFFF := by decide +kernel

/-- R45: a `WAIT` on a semaphore that holds its count subtracts it; one that does not stalls. -/
theorem test_wait : (tileAfter (.wait 0 2 3) (fun x => { x with sems := x.sems.set 2 5 })).sems[2] = 2 ∧
    (tileAfter (.wait 0 2 3) (fun x => { x with sems := x.sems.set 2 2 })).stall = .waitSem 2 3 := by decide +kernel

/-- R53: an illegal word stops the tile. -/
theorem test_illegal_stops : (tileAfter (.illegalWord 0 0xFFFFFFFF) (fun x => x)).phase = .stopped := by decide +kernel

/-- R64: with `SLS` a register goes to the granule's word 3, least significant byte first. -/
theorem test_sls : (after (.sls 0 1 7 0 3) (withTile sRun (fun x => { x with sregs := x.sregs.set 7 0x12345678 }))).mem.read (t0Base 0 + 12) 4 =
    [0x78, 0x56, 0x34, 0x12] := by decide +kernel

/-- R102, R566: one INT8 step of −128 × −128 into a cleared set. -/
theorem test_mma_int8 : 
    ((mmaTile { TileState.cleared with mode := 0x03330000 } (List.replicate 64 0x80) (List.replicate 64 0x80) 0 1).acc 0 63 63) = 16384 := by decide +kernel

/-- R63: the most negative FX32 value divided by −1 at binary point 0 is the largest one, with an overflow. -/
theorem test_spop_divide : spopResult 4 1 0 0x80000000 0xFFFFFFFF 0 = (0x7FFFFFFF, true) := by decide +kernel

/-- R347: with cmd_cons 0xFFFC, DBL_CMD 0x0002 claims 6 commands and is accepted; 0x003D claims 65 and halts the mailbox with halt_cause 1. -/
theorem test_dbl_cmd :
    (let s := withBox State.reset 4 (fun b => { b with ctrl := 1, cmdCons := 0xFFFC, dblCmd := 0xFFFE })
     ((after (.dblCmd .pcie 4 0x0002) s).box 4).dblCmd = 2 ∧ ((after (.dblCmd .pcie 4 0x003D) s).box 4).halted = true ∧
     ((after (.dblCmd .pcie 4 0x003D) s).box 4).haltCause = 1) := by decide +kernel

/-- R365, R366: EVT_STATUS bits written 1 are cleared, the others stay. -/
theorem test_evt_clear : (after (.evtStatusClear .pcie 0x0001) { State.reset with evt := { Evt.reset with status := 0x0005 } }).evt.status = 4 := by
  decide +kernel

/-- R441: one tick adds 8.0 ns. -/
theorem test_tick : (after .timeBaseTick sOn).time.t = 8 ∧ (after .timeBaseTick sOn).time.ticks = 1 := by decide +kernel

/-- R441: the fraction carries into T. -/
theorem test_tick_fraction : (after .timeBaseTick { sOn with time := { sOn.time with f := 0x80000000, incr := 0x0880000000 } }).time.t = 9 := by decide +kernel

/-- R160: 16 corrected codewords raise the scrub level. -/
theorem test_scrub_window : ((after (.scrubWindowBoundary 3) (State.reset.setPart 3 { State.reset.part 3 with corrected := 16 })).part 3).scrubLevel = 1 := by
  decide +kernel

/-- R309: HALT_REQ latches and asserts RESTING. -/
theorem test_halt : (after .haltReqAccept { sOn with resting := false }).resting = true ∧ (after .haltReqAccept sOn).haltLatched = true ∧
    (after .haltReqAccept sOn).haltSeq = 1 := by decide +kernel

/-- R415 to R418: of two tiles that wait for each other, 0x0C2 at `WAIT` and 0x0C5 behind its held `SEND`, the hang check finds the cycle. -/
theorem test_hang_cycle :
    hangSetsOf State.reset [{ id := 0x0C2, token := 0, blocked := true, edges := [0x0C5] }, { id := 0x0C5, token := 0, blocked := true, edges := [0x0C2] }] =
      [[0x0C2, 0x0C5]] := by decide +kernel

/-- R411: severity INFO sets no bit of FLT_STATUS; DEGRADE sets its own. -/
theorem test_raise : (raiseAs State.reset 1 0 (mkEvent 0x43 0xFF 0 0 0 0)).flt.degrade = true ∧
    (raiseAs State.reset 0 0 (mkEvent 0x90 0xFF 0 0 0 0)).flt.degrade = false := by decide +kernel

/-- R407: events of one tick stand in the ring and in the Patina's buffer by detector, then partition, whichever was raised first. -/
theorem test_tick_order :
    (let s := { State.reset with evt := { Evt.reset with ringCtrl := 1 } }
     let t := raise (raise (raise s (mkEvent 0x90 0xFF 0 0 0 0)) (mkEvent 0x43 3 0 0 0 0)) (mkEvent 0x43 2 0 0 0 0)
     t.evt.tick.map (fun e => (e.detector, e.partition)) = [(0x43, 2), (0x43, 3), (0x90, 0xFF)] ∧
     t.pat.buffer.map LogEntry.detector = [0x43, 0x43, 0x90] ∧ t.hostMem.read 0x4C 1 = [0x90] ∧ t.evt.prod = 3) := by decide +kernel

/-- R437: after a power-fail detect the lease starts nothing. -/
theorem test_power_fail_start : leaseInService (powerFail State.reset 0) [] = false ∧ leaseInService State.reset [] = true := by decide +kernel

/-- R356: IDENTIFY completes, and its mailbox has no command in hand. -/
theorem test_identify : ((after (.identify 5 (hdr 0)) (sCmd 5)).box 5).current = none ∧ ((after (.identify 5 (hdr 0)) (sCmd 5)).box 5).cplProd = 1 := by
  decide +kernel

/-- R354: a payload of another length completes with BAD_PARAM, status 3, in byte 4 of the entry. -/
theorem test_bad_length : (after (.identify 5 (hdr 1)) (sCmd 5)).hostMem.read 4 1 = [3] := by decide +kernel

/-- R356: OBJ_CREATE with a length that is no multiple of 256 creates nothing. -/
theorem test_obj_create : (after (.objCreate 5 (hdr 0x0A) 255 0) (sCmd 5)).objects.length = 0 ∧
    (after (.objCreate 5 (hdr 0x0A) 256 0) (sCmd 5)).objects.length = 1 := by decide +kernel

/-- The queue: the front command runs, the rest stays. -/
theorem test_step_queue : (match step { State.reset with pending := [.nop 0, .nop 1] } with
    | .next t => t.pending
    | _ => []) = [.nop 1] := by decide

/-- Nothing decodes: the table gives no bits. -/
theorem test_no_table_words : decodeTableWord 32 0 = none := by decide

end Sys2Proof.Tests
end

section
/-! SUPPORT. The scope of the model: a step and its command, every command's answer, fetching and expiry of mailbox commands, and the accesses of the host window that clear what they touch. -/

namespace Sys2Proof.Machine

open Sys2Proof

/-! ### Steps and answers -/

/-- Settles O1: both halves are the two branches of `step`. -/
theorem stepRunsFrontCommand : Obligations.StepRunsFrontCommand := by
  unfold Obligations.StepRunsFrontCommand
  refine ⟨fun _ _ _ => rfl, fun s hq => ?_⟩
  simp only [step, hq]

/-- A read over BAR2 gives data or a Completer Abort (R120). -/
theorem execBar2Read_next (offset : BitVec 28) (size : Nat) (s : State) : ∃ t, execBar2Read offset size s = .next t := by
  simp only [execBar2Read]
  split
  · exact ⟨_, rfl⟩
  · exact ⟨_, rfl⟩

/-- A write over BAR2 is taken or discarded (R120). -/
theorem execBar2Write_next (offset : BitVec 28) (data : List Byte) (s : State) : ∃ t, execBar2Write offset data s = .next t := by
  simp only [execBar2Write]
  split
  · exact ⟨_, rfl⟩
  · exact ⟨_, rfl⟩

/-- Settles O2. Only the two BAR2 accesses choose between outcomes; the meaning of every other command, directly or through the
shape it shares with others (`word`, `command`, `onWindow`, `managed`, `receive`), is one next state whatever the state holds. -/
theorem everyCommandCompletes : Obligations.EveryCommandCompletes := by
  unfold Obligations.EveryCommandCompletes Completes
  intro c s
  cases c with
  | bar2Read offset size => exact execBar2Read_next offset size s
  | bar2Write offset data => exact execBar2Write_next offset data s
  | _ => exact ⟨_, rfl⟩

/-! ### Fetching and expiry of mailbox commands (R346, R349, R353) -/

/-- A fetch whose ring access succeeds takes the command and passes it. -/
theorem exec_commandFetch_of_read {s u : State} {m : MbxId} {bs : List Byte} (hf : mayFetch s m = true)
    (hr : busRead s (s.box m).path1 ((s.box m).ringCmd.toNat + 128 * ((s.box m).cmdCons.toNat % 64)) 128 = (u, some bs)) :
    exec (.commandFetch m) s = .next
      (u.setBox m { s.box m with current := some bs, cmdCons := (s.box m).cmdCons + 1, fetchTick := u.time.ticks }) := by
  simp only [exec, execCommandFetch, hf, hr, onlyIf_true]

/-- A fetch whose ring access fails halts the mailbox with halt_cause 2. -/
theorem exec_commandFetch_of_failed {s u : State} {m : MbxId} (hf : mayFetch s m = true)
    (hr : busRead s (s.box m).path1 ((s.box m).ringCmd.toNat + 128 * ((s.box m).cmdCons.toNat % 64)) 128 = (u, none)) :
    exec (.commandFetch m) s = .next (haltBox u m 2) := by
  simp only [exec, execCommandFetch, hf, hr, onlyIf_true]

theorem expired_iff (s : State) (m : MbxId) (timeout : Nat) :
    expired s m timeout = true ↔ timeout ≠ 0 ∧ (s.box m).fetchTick + 125 * timeout ≤ s.time.ticks := by
  simp [expired]

/-- A command in hand that does not wait completes with `TIMEOUT` once its own timeout has expired. -/
theorem exec_commandTimeout_of_expired {s : State} {m : MbxId} {bs : List Byte} (hc : (s.box m).current = some bs)
    (hw : (s.box m).waiting = none) (he : expired s m (fld bs 8 4) = true) :
    exec (.commandTimeout m) s = .next (complete s m
      { tag := BitVec.ofNat 16 (fld bs 2 2), length := fld bs 4 2, timeout := fld bs 8 4 } (fld bs 0 2) 0x06 []) := by
  simp only [exec, execCommandTimeout, hc, hw, he, if_true, stTimeout]

/-- Settles O39: a fetch, by the answer of its ring access; an expiry; an undefined opcode. -/
theorem fetchAndTimeout : Obligations.FetchAndTimeout := by
  unfold Obligations.FetchAndTimeout
  refine ⟨fun s m hf => ⟨fun u bs hr => exec_commandFetch_of_read hf hr, fun u hr => exec_commandFetch_of_failed hf hr⟩,
    fun s m bs hc hw h0 ht => exec_commandTimeout_of_expired hc hw ((expired_iff s m _).mpr ⟨h0, ht⟩), fun s m h op hh ho => ?_⟩
  simp only [exec, execUndefinedOpcode, hh, ho, Bool.not_false, Bool.and_self, onlyIf_true, stBadOpcode]

/-! ### Accesses of the host window -/

/-- An access on a path that finds the window has its effect. -/
theorem onWindow_of_onPath {s : State} {path : Path} (hp : onPath s path = true) (f : State → State) :
    onWindow s path f = .next (f s) := by
  simp only [onWindow, hp, onlyIf_true]

/-- A write of a 32-bit register outside the mailboxes is the write of that word (R341). -/
theorem write32_of_word {off : Nat} (hb : boxAt off = none) (hw : wide off = false) (hh : wide (off - 4) = false)
    (s : State) (path : Path) (v : Word) : write32 s path off v = writeWord s path off v := by
  simp [write32, hb, hw, hh]

/-- No 64-bit register of the time block lies outside it (R443). -/
theorem timLow_eq_false {off : Nat} (ho : off < 0x4000 ∨ 0x5000 ≤ off) : timLow off = false := by
  simp [timLow]; omega

/-- Outside the time block an aligned 32-bit read answers the register and has the effect of its read: only high words of the
time block are latched (R443). -/
theorem windowReadOf_word {s : State} {off : Nat} (hl : ∀ x ∈ s.highs, 0x4000 ≤ x.offset ∧ x.offset < 0x5000)
    (ho : off < 0x4000 ∨ 0x5000 ≤ off) (ha : off % 4 = 0) (path : Path) :
    windowReadOf s path off 4 = (readEffect s off, (peek s off).toNat) := by
  have hn : s.highs.find? (fun x => x.path == path && x.offset == off) = none := by
    simp only [List.find?_eq_none, Bool.and_eq_true, beq_iff_eq]
    rintro x hx ⟨-, rfl⟩
    have := hl x hx
    omega
  have hr : refresh s off = s := if_neg (by omega)
  simp [windowReadOf, aligned, ha, read32, hn, hr, timLow_eq_false ho]

/-! ### The registers that a read clears (R343, R411, R455) -/

/-- The mailbox of a register's offset in its block. -/
theorem mbx_of_offset (m : MbxId) {r : Nat} (hr : r < 0x40) :
    BitVec.ofNat 4 ((0x1000 + r + 0x40 * m.toNat - 0x1000) / 0x40) = m := by
  have h : (0x1000 + r + 0x40 * m.toNat - 0x1000) / 0x40 = m.toNat := by omega
  rw [h, BitVec.ofNat_toNat, BitVec.setWidth_eq]

theorem peek_mbxLost (s : State) (m : MbxId) : peek s (0x1018 + 0x40 * m.toNat) = (s.box m).lost := by
  have hm := m.isLt
  have hr : (0x1018 + 0x40 * m.toNat) % 0x40 = 0x18 := by omega
  have h := mbx_of_offset m (r := 0x18) (by decide)
  rw [peek, if_neg (by omega), if_neg (by omega), if_pos (by omega), h, hr]
  rfl

theorem readEffect_mbxLost (s : State) (m : MbxId) :
    readEffect s (0x1018 + 0x40 * m.toNat) = s.setBox m { s.box m with lost := 0 } := by
  have hm := m.isLt
  have h := mbx_of_offset m (r := 0x18) (by decide)
  rw [readEffect, if_pos (by omega), h]

/-- The timestamp queue of a register's offset in its block. -/
theorem tsq_of_offset (p : BitVec 1) {r : Nat} (hr : r < 0x40) : (0x5000 + r + 0x40 * p.toNat - 0x5000) / 0x40 = p.toNat := by
  omega

/-- A read in the block of a timestamp queue is a read of that queue's registers. -/
theorem peek_tsq (s : State) (p : BitVec 1) {r : Nat} (hr : r < 0x40) (ha : r % 4 = 0) :
    peek s (0x5000 + r + 0x40 * p.toNat) = peekTsq (tsqOf s p.toNat) r := by
  have hp := p.isLt
  have hm : (0x5000 + r + 0x40 * p.toNat) % 0x40 = r := by omega
  rw [peek, if_neg (by omega), if_neg (by omega), if_neg (by omega), if_neg (by omega), if_neg (by omega), if_neg (by omega),
    if_neg (by omega), if_neg (by omega), if_neg (by omega), if_pos (by omega), tsq_of_offset p hr, hm]

theorem readEffect_tsqDropped (s : State) (p : BitVec 1) :
    readEffect s (0x5018 + 0x40 * p.toNat) = setTsq s p.toNat { tsqOf s p.toNat with dropped := 0 } := by
  have hp := p.isLt
  rw [readEffect, if_neg (by omega), if_neg (by omega), if_neg (by omega), if_pos (by omega), tsq_of_offset p (r := 0x18) (by decide)]

theorem readEffect_tsqPop (s : State) (p : BitVec 1) : readEffect s (0x5008 + 0x40 * p.toNat) = popTsq s p.toNat := by
  have hp := p.isLt
  rw [readEffect, if_neg (by omega), if_neg (by omega), if_pos (by omega), tsq_of_offset p (r := 0x08) (by decide)]

/-! ### The bits that a write clears (R365, R411, R443, R455) -/

section
variable {s : State} {path : Path} (hp : onPath s path = true)
include hp

/-- On a path that finds the window, a command that writes a 32-bit register outside the mailboxes writes its word. -/
theorem onWindow_write32 {off : Nat} (hb : boxAt off = none) (hw : wide off = false) (hh : wide (off - 4) = false) (v : Word) :
    onWindow s path (fun s => write32 s path off v) = .next (writeWord s path off v) := by
  rw [onWindow_of_onPath hp, write32_of_word hb hw hh]

/-- On a path that finds the window, a command that reads a 32-bit register outside the time block shows what the register held
and has the effect of the read. -/
theorem onWindow_read {off : Nat} (hl : ∀ x ∈ s.highs, 0x4000 ≤ x.offset ∧ x.offset < 0x5000)
    (ho : off < 0x4000 ∨ 0x5000 ≤ off) (ha : off % 4 = 0) :
    onWindow s path (fun s => showRead (windowReadOf s path off 4) off) =
      .next ((readEffect s off).emit (.readValue off ((peek s off).setWidth 64))) := by
  rw [onWindow_of_onPath hp, windowReadOf_word hl ho ha, showRead, BitVec.ofNat_toNat]

theorem exec_tsqStatusClear (p : BitVec 1) (v : Word) : exec (.tsqStatusClear path p v) s = .next (clearTsq s p.toNat v) := by
  obtain rfl | rfl := BitVec.eq_zero_or_eq_one p
  · exact onWindow_write32 hp (off := 0x5004) rfl rfl rfl v
  · exact onWindow_write32 hp (off := 0x5044) rfl rfl rfl v

theorem exec_tsqDisable (p : BitVec 1) : exec (.tsqDisable path p) s = .next (writeTsqCtrl s p.toNat 0) := by
  obtain rfl | rfl := BitVec.eq_zero_or_eq_one p
  · exact onWindow_write32 hp (off := 0x5000) rfl rfl rfl 0
  · exact onWindow_write32 hp (off := 0x5040) rfl rfl rfl 0

variable (hl : ∀ x ∈ s.highs, 0x4000 ≤ x.offset ∧ x.offset < 0x5000)
include hl

theorem exec_mbxLostRead (m : MbxId) : exec (.mbxLostRead path m) s = .next ((s.setBox m { s.box m with lost := 0 }).emit
    (.readValue (0x1018 + 0x40 * m.toNat) ((s.box m).lost.setWidth 64))) := by
  have hm := m.isLt
  have h := onWindow_read hp (off := 0x1018 + 0x40 * m.toNat) hl (by omega) (by omega)
  rwa [peek_mbxLost, readEffect_mbxLost] at h

theorem exec_tsqDroppedRead (p : BitVec 1) :
    exec (.tsqDroppedRead path p) s = .next ((setTsq s p.toNat { tsqOf s p.toNat with dropped := 0 }).emit
      (.readValue (0x5018 + 0x40 * p.toNat) (BitVec.ofNat 64 ((tsqOf s p.toNat).dropped % 2 ^ 32)))) := by
  have h := onWindow_read hp (off := 0x5018 + 0x40 * p.toNat) hl (by omega) (by omega)
  rw [peek_tsq s p (r := 0x18) (by decide) rfl, readEffect_tsqDropped] at h
  rwa [peekTsq, ← BitVec.ofNat_toNat, BitVec.toNat_ofNat] at h

/-- TSQ_POP shows the register and takes the oldest entry, if there is one. -/
theorem exec_tsqPop (p : BitVec 1) : exec (.tsqPop path p) s = .next ((popTsq s p.toNat).emit
    (.readValue (0x5008 + 0x40 * p.toNat) ((peekTsq (tsqOf s p.toNat) 0x08).setWidth 64))) := by
  have h := onWindow_read hp (off := 0x5008 + 0x40 * p.toNat) hl (by omega) (by omega)
  rwa [peek_tsq s p (r := 0x08) (by decide) rfl, readEffect_tsqPop] at h

end

/-- Settles O47: each clear is the write of one word, each count the read of one, and TSQ_POP turns on whether its queue is empty. -/
theorem clearedBits : Obligations.ClearedBits := by
  unfold Obligations.ClearedBits
  intro s path v hp hl
  refine ⟨onWindow_write32 hp (off := 0x3000) rfl rfl rfl v, onWindow_write32 hp (off := 0x6000) rfl rfl rfl v,
    onWindow_write32 hp (off := 0x401C) rfl rfl rfl v, fun p => exec_tsqStatusClear hp p v, exec_tsqDisable hp,
    exec_mbxLostRead hp hl, onWindow_read hp (off := 0x6024) hl (by decide) rfl, exec_tsqDroppedRead hp hl, fun p => ⟨?_, ?_⟩⟩
  · intro e es he
    rw [exec_tsqPop hp hl]
    have hv : 2 ^ 31 + e.1.toNat < 2 ^ 32 := by have := e.1.isLt; omega
    simp only [popTsq, peekTsq, he, BitVec.setWidth_ofNat_of_le_of_lt (by decide : 32 ≤ 64) hv]
  · intro he
    rw [exec_tsqPop hp hl]
    simp only [popTsq, peekTsq, he]
    rfl

end Sys2Proof.Machine
end

section
/-! SUPPORT. The encoding of sequencer words (R51 to R53): a word decodes exactly when it is the encoding of what it decodes to and the fields lie in their ranges. -/

namespace Sys2Proof

/-! ### Fields of a concatenation (R11) -/

/-- Two adjacent fields of a word, read as one, are the two put together. -/
theorem append_eq_field_iff {v : Word} {lo m n : Nat} {a : BitVec m} {b : BitVec n} :
    a ++ b = field v lo (m + n) ↔ a = field v (lo + n) m ∧ b = field v lo n := by
  have hv : field v lo (m + n) = field v (lo + n) m ++ field v lo n :=
    (BitVec.extractLsb'_append_extractLsb'_eq_extractLsb' rfl).symm
  rw [hv]
  constructor
  · intro h
    have hhi := congrArg (BitVec.extractLsb' n m) h
    have hlo := congrArg (BitVec.extractLsb' 0 n) h
    simp only [BitVec.extractLsb'_append_eq_of_le, BitVec.extractLsb'_append_eq_of_add_le, Nat.le_refl, Nat.sub_self, Nat.zero_add,
      BitVec.extractLsb'_eq_self] at hhi hlo
    exact ⟨hhi, hlo⟩
  · rintro ⟨rfl, rfl⟩
    rfl

theorem field_full (v : Word) : field v 0 32 = v := BitVec.extractLsb'_eq_self

theorem bit1_eq_field_iff {v : Word} {i : Nat} {b : Bool} : bit1 b = field v i 1 ↔ bit v i = b := by
  have h : field v i 1 = bit1 (bit v i) := by
    apply BitVec.eq_of_getLsbD_eq
    intro j hj
    obtain rfl : j = 0 := by omega
    simp [bit1, bit, field]
  rw [h]
  cases b <;> cases bit v i <;> decide

theorem field_toNat_eq_iff {v : Word} {lo n k : Nat} (h : k < 2 ^ n) :
    (field v lo n).toNat = k ↔ BitVec.ofNat n k = field v lo n := by
  rw [← BitVec.toNat_inj, BitVec.toNat_ofNat, Nat.mod_eq_of_lt h, eq_comm]

/-! ### Reading and writing words (R51, R52) -/

/-- Reading the fields of an encoding gives the word back. -/
theorem readSeq_encodeSeq (w : SeqWord) : readSeq (encodeSeq w) = some w := by
  generalize hv : encodeSeq w = v
  rw [← field_full v] at hv
  have op_rest {op : BitVec 5} (rest : BitVec 27) (h : op ++ rest = field v 0 32) : op = field v 27 5 ∧ rest = field v 0 27 :=
    append_eq_field_iff.mp h
  cases w with
  | nop | endWord =>
    obtain ⟨hop, hz⟩ := op_rest _ hv
    simp [readSeq, ← hop, ← hz]
  | _ =>
    have h := append_eq_field_iff.mp hv
    simp only [append_eq_field_iff, bit1_eq_field_iff] at h
    simp only [Nat.zero_add, Nat.reduceAdd, @eq_comm (BitVec _) _ (field v _ _)] at h
    simp [readSeq, h]

/-- A word that reads as a sequencer word is the encoding of that word: its opcode and its fields, with 0 in each reserved field. -/
theorem encodeSeq_of_readSeq {v : Word} {w : SeqWord} (h : readSeq v = some w) : encodeSeq w = v := by
  rw [← field_full v]
  unfold readSeq at h
  split at h
  case h_25 => cases h
  case h_1 op | h_24 op =>
    rw [field_toNat_eq_iff (by decide)] at op
    obtain ⟨hz, h⟩ := Option.ite_none_right_eq_some.mp h
    cases h
    exact append_eq_field_iff.mpr ⟨op, hz.symm⟩
  case h_5 op | h_9 op | h_17 op | h_18 op =>
    rw [field_toNat_eq_iff (by decide)] at op
    cases h
    refine append_eq_field_iff.mpr ?_
    simp only [append_eq_field_iff]
    simp [op]
  all_goals
    rename_i op
    rw [field_toNat_eq_iff (by decide)] at op
    obtain ⟨hz, h⟩ := Option.ite_none_right_eq_some.mp h
    cases h
    refine append_eq_field_iff.mpr ?_
    simp only [append_eq_field_iff]
    simp [bit1_eq_field_iff, op, hz]

/-- Decoding undoes encoding and nothing else decodes. -/
theorem decodeSeq_eq_some_iff {v : Word} {w : SeqWord} : decodeSeq v = some w ↔ encodeSeq w = v ∧ w.fieldsOk = true := by
  unfold decodeSeq
  constructor
  · intro h
    split at h
    · obtain ⟨hf, h⟩ := Option.ite_none_right_eq_some.mp h
      cases h
      exact ⟨encodeSeq_of_readSeq ‹_›, hf⟩
    · cases h
  · rintro ⟨rfl, hf⟩
    simp [readSeq_encodeSeq, hf]

/-- Settles O3: the words that decode are the encodings of words in range, and decoding gives those back. -/
theorem seqWordRoundTrip : Obligations.SeqWordRoundTrip := by
  unfold Obligations.SeqWordRoundTrip
  exact fun w hf => decodeSeq_eq_some_iff.mpr ⟨rfl, hf⟩

/-- Settles O4, by the same equivalence read the other way. -/
theorem seqWordCanonical : Obligations.SeqWordCanonical := by
  unfold Obligations.SeqWordCanonical
  exact fun v w h => (decodeSeq_eq_some_iff.mp h).symm

end Sys2Proof
end

section
/-! SUPPORT. The words the sequencer executes itself: NOP, SETP, ADDP, SETMODE, LOOP, WAIT, SIGNAL and the barrier words (R40 to R56, R67 to R71). -/

namespace Sys2Proof.Machine

open Sys2Proof

/-! ### NOP, SETP, ADDP, SETMODE and LOOP (R40, R44, R54 to R56) -/

/-- Settles O8: each word is issued, and its effect is the one its rule gives. -/
theorem sequencerWords : Obligations.SequencerWords := by
  unfold Obligations.SequencerWords
  refine ⟨fun s t p v h => ⟨?_, ?_, ?_, rfl⟩, fun s t h => ⟨fun a b out bp sr => ?_, fun k c e => ?_⟩⟩
  · simp only [exec, execNop, word_issuing h, goOn_eq]
  · simp only [exec, execSetp, word_issuing h, updTile, goOn_setTile]
  · simp only [exec, execAddp, word_issuing h, updTile, goOn_setTile]
  · simp only [exec, execSetmode, word_issuing h, issueSetmode, updTile, goOn_setTile]
  · simp only [exec, execLoop, word_issuing h, issueLoop]

theorem exec_loop_of_ok {s : State} {t : TileId} {k : BitVec 3} {countM1 e : BitVec 12} (h : Issuing s t) (hok : loopOk (s.tile t) k e = true) :
    exec (.loop t k countM1 e) s = .next (s.setTile t { s.tile t with
      loops := { k := k, first := (s.tile t).pc + 1, last := e } :: (s.tile t).loops
      counters := (s.tile t).counters.set k.toNat (BitVec.ofNat 13 (countM1.toNat + 1))
      pc := (s.tile t).pc + 1, issued := (s.tile t).issued + 1 }) := by
  simp only [exec, execLoop, word_issuing h, issueLoop, hok, if_true]

/-! ### The branch back (R44) -/

section
variable {pc : BitVec 12} {f : LoopFrame} {fs : List LoopFrame} {k : Vector (BitVec 13) 8}

theorem branchBack_before_last (h : pc ≠ f.last) : branchBack pc (f :: fs) k = (pc + 1, f :: fs, k) := by
  simp only [branchBack, h, if_false]

theorem branchBack_again (h : pc = f.last) (hk : k[f.k.toNat] ≠ 1) :
    branchBack pc (f :: fs) k = (f.first, f :: fs, k.set f.k.toNat (k[f.k.toNat] - 1)) := by
  have hn : k[f.k.toNat] - 1 ≠ 0 := by bv_omega
  simp only [branchBack, h, hn, if_true, if_false]

theorem branchBack_done (h : pc = f.last) (hk : k[f.k.toNat] = 1) :
    branchBack pc (f :: fs) k = branchBack pc fs (k.set f.k.toNat 0) := by
  have hn : k[f.k.toNat] - 1 = 0 := by rw [hk]; rfl
  simp only [branchBack, h, hn, if_true]

end

/-- Settles O9, by the three cases of `branchBack` on the innermost loop and the one without a loop. -/
theorem loopBranch : Obligations.LoopBranch := by
  unfold Obligations.LoopBranch
  refine ⟨fun s t k c e h hok => exec_loop_of_ok h hok, fun x f fs hx => ⟨fun h hk => ?_, fun h hk => ?_, fun h => ?_⟩, fun x hx => ?_⟩
  · rw [TileState.advance_eq, hx, branchBack_again h hk]
  · rw [TileState.advance_eq, hx, branchBack_done h hk]
    rfl
  · rw [TileState.advance_eq, hx, branchBack_before_last h, ← hx]
  · rw [TileState.advance_eq, hx, branchBack, ← hx]

/-! ### WAIT and SIGNAL (R45, R46, R67, R73) -/

theorem exec_signal {s : State} {t : TileId} (h : Issuing s t) (m : BitVec 4) (vt : BitVec 9) (inc : BitVec 8) :
    exec (.signal t m vt inc) s = .next (issueSignal s t m vt inc) := by
  simp only [exec, execSignal, word_issuing h]

/-- With no earlier `SEND` to its target in the queues, or to the tile itself, a signal adds to the semaphore at once. -/
theorem issueSignal_of_clear {s : State} {t d : TileId} {m : BitVec 4} {vt : BitVec 9} {inc : BitVec 8} (hi : inc ≠ 0)
    (hd : physTile (leaseOf s t) vt.toNat = some d) (hc : d = t ∨ (sendsTo (s.tile t) vt).all (fun n => n == 0) = true) :
    issueSignal s t m vt inc = addSem (goOn s t) d m inc.toNat := by
  have ha : (if d = t then [] else sendsTo (s.tile t) vt).all (fun n => n == 0) = true := by
    split
    · rfl
    · exact hc.resolve_left ‹_›
  simp only [issueSignal, hi, hd, ha, if_true, if_false]

/-- An earlier `SEND` to another tile holds the signal back. -/
theorem issueSignal_of_held {s : State} {t d : TileId} {m : BitVec 4} {vt : BitVec 9} {inc : BitVec 8} (hi : inc ≠ 0)
    (hd : physTile (leaseOf s t) vt.toNat = some d) (ht : d ≠ t) (hc : (sendsTo (s.tile t) vt).all (fun n => n == 0) = false) :
    issueSignal s t m vt inc = s.setTile t { (s.tile t).advance with
      signals := (s.tile t).signals ++ [{ sem := m, vt := vt, inc := inc, ahead := sendsTo (s.tile t) vt }] } := by
  simp only [issueSignal, hi, hd, ht, hc, if_false, Bool.false_eq_true, goOn_eq, updTile_setTile]
  rfl

/-- Settles O10: a signal turns on whether an earlier `SEND` to its target is queued. -/
theorem semaphoreWords : Obligations.SemaphoreWords := by
  unfold Obligations.SemaphoreWords
  refine ⟨⟨fun s t m n h => ?_, fun s t m n hr hs hn => ?_⟩, fun s t m vt inc h =>
    ⟨fun hi => ?_, fun hi d hd hc => ?_, fun hi d hd ht hc => ?_, fun hi hd => ?_⟩⟩
  · simp only [exec, execWait, word_issuing h, issueWait, goOn_setTile]
  · simp only [exec, execWaitSatisfied, hs, hr, hn, goOn_setTile, beq_self_eq_true, decide_true, Bool.and_self, if_true]
  · simp only [exec_signal h, issueSignal, hi, if_true]
  · rw [exec_signal h, issueSignal_of_clear hi hd hc]
    rfl
  · rw [exec_signal h, issueSignal_of_held hi hd ht hc]
  · simp only [exec_signal h, issueSignal, hi, hd, if_false]

/-! ### FENCE, MARK, COMMIT and END (R48, R68 to R71) -/

theorem barrier_eq (s : State) (t : TileId) (w : SeqWord) : barrier s t w =
    if (s.tile t).barrierOpen w then takeBarrier s t w else s.setTile t { s.tile t with stall := .barrier w } := rfl

theorem TileState.portsIdle_iff (x : TileState) :
    x.portsIdle = true ↔ (∀ q ∈ x.sendQ.toList, q = []) ∧ ∀ q ∈ x.recvQ.toList, q = [] := by
  simp only [TileState.portsIdle, Bool.and_eq_true, List.all_eq_true, List.isEmpty_iff]

theorem TileState.unitsIdle_iff (x : TileState) :
    x.unitsIdle = true ↔ x.cellQ = [] ∧ x.drainQ = [] ∧ x.vectorQ = [] ∧ x.transQ = [] ∧ x.scalarQ = [] := by
  simp [TileState.unitsIdle, and_assoc]

theorem TileState.barrierOpen_fence (x : TileState) (st mv loc : Bool) : x.barrierOpen (.fence st mv loc) = true ↔
    (st = true → x.portsIdle = true) ∧ (mv = true → x.openRuns = 0) ∧ (loc = true → x.unitsIdle = true) := by
  simp only [TileState.barrierOpen, Bool.and_eq_true, Bool.or_eq_true, Bool.not_eq_true', beq_iff_eq, and_assoc,
    or_iff_not_imp_left, Bool.not_eq_false]

/-- Settles O11: a barrier word turns on `barrierOpen`, which is read off the queues. -/
theorem barrierWords : Obligations.BarrierWords := by
  unfold Obligations.BarrierWords
  refine ⟨fun s t h => ⟨fun st mv loc hb => ?_, fun ix => ?_, fun g => ?_, ?_, ?_⟩, fun x st mv loc => ?_, fun x ix g w hw => ?_,
    fun s t w hr hf hs => ?_⟩
  · simp only [exec, execFence, word_issuing h, issueFence, hb, if_true, barrier_eq, takeBarrier, goOn_eq]
  · simp only [exec, execMark, word_issuing h, barrier_eq, takeBarrier]
  · simp only [exec, execCommitWord, word_issuing h, barrier_eq, takeBarrier, updTile, goOn_setTile]
  · simp only [exec, execEndWord, word_issuing h, barrier_eq, takeBarrier, updTile]
  · simp only [exec, execFence, word_issuing h, issueFence, Bool.or_self, Bool.false_eq_true, if_false]
  · rw [TileState.barrierOpen_fence, TileState.portsIdle_iff, TileState.unitsIdle_iff]
  · simp only [List.mem_cons, List.not_mem_nil, or_false] at hw
    rcases hw with rfl | rfl | rfl <;> simp [TileState.barrierOpen, Bool.and_right_comm]
  · simp only [progress, hr, hf, hs, bne_self_eq_false, Bool.or_self, Bool.false_eq_true, if_false]

end Sys2Proof.Machine
end

section
/-! SUPPORT. The words of the cell array, the scalar pipe and the stream ports, and what happens as a unit completes or is full (R24, R40, R43, R49, R57, R58, R63, R64, R66). -/

namespace Sys2Proof.Machine

open Sys2Proof

/-! ### What a tile keeps when a unit accepts a word (R40) -/

/-- Where a tile issues words no injection is pending, and none is once a unit has accepted one. -/
theorem queued_pending_of_issuing {s : State} {t : TileId} (h : Issuing s t) (u : UnitId) (w : SeqWord) :
    (queued s t u w).flt.pending = none := by
  rw [queued_flt]
  exact h.2

theorem withReads_queued {s : State} {t : TileId} (h : Issuing s t) (u : UnitId) (w : SeqWord) (rs : List Span) (f : State → State) :
    withReads (queued s t u w) t rs f = f (queued s t u w) :=
  withReads_none (queued_pending_of_issuing h u w) t rs f

section
variable (s : State) (t : TileId) (u : UnitId) (w : SeqWord)

theorem queued_tile : (queued s t u w).tile t = TileState.advance (setUnitQ (s.tile t) u (unitQ (s.tile t) u ++ [w])) := by
  rw [queued_eq, State.tile_setTile]

@[simp] theorem queued_tile_mode : ((queued s t u w).tile t).mode = (s.tile t).mode := by
  rw [queued_tile]; cases u <;> rfl

@[simp] theorem queued_tile_sregs : ((queued s t u w).tile t).sregs = (s.tile t).sregs := by
  rw [queued_tile]; cases u <;> rfl

end

/-! ### ACCZ and MMA (R40, R57, R58) -/

/-- Settles O12: with room in the queue the word joins it and the unit reads what its pointers name. -/
theorem cellArrayWords : Obligations.CellArrayWords := by
  unfold Obligations.CellArrayWords
  intro s t h hq
  refine ⟨fun set => ?_, fun pa pb kM1 set post => ?_⟩
  · simp only [exec, execAccz, word_issuing h, issueAccz, toUnit_room (u := .cellArray) hq]
  · simp only [exec, execMma, word_issuing h, issueMma, toUnit_room (u := .cellArray) hq, withReads_queued h, scratchRead_queued,
      Bool.not_eq_true']

/-! ### SPOP and SLS (R39, R63, R64) -/

/-- Settles O18: without a pending injection the overflow alone raises the event. -/
theorem scalarWords : Obligations.ScalarWords := by
  unfold Obligations.ScalarWords
  intro s t h hq
  refine ⟨fun sub fmt d s1 s2 s3 hs => ?_, fun sub fmt d s1 s2 s3 hs => ?_, fun sreg base sel => ⟨?_, ?_⟩⟩
  · simp only [exec, execSpop, word_issuing h, issueSpop, Nat.not_lt.mpr hs, toUnit_room (u := .scalar) hq, if_false,
      takeInjection_none (queued_pending_of_issuing h ..), queued_tile_sregs, queued_tile_mode, Option.isSome_none,
      Bool.or_false, Bool.false_eq_true, injFlags]
  · simp only [exec, execSpop, word_issuing h, issueSpop, hs, if_true]
  · simp only [exec, execSls, word_issuing h, issueSls, toUnit_room (u := .scalar) hq, if_true, withReads_queued h, scratchRead_queued]
  · simp only [exec, execSls, word_issuing h, issueSls, toUnit_room (u := .scalar) hq, queued_tile_sregs]
    rfl

/-! ### SEND and RECV (R40, R46, R49, R66, R72, R73) -/

theorem getD_toList {α : Type} {n : Nat} (q : Vector α n) (p : Nat) (hp : p < n) (d : α) : q.toList.getD p d = q[p] := by
  simp [hp]

theorem pushAt_eq_set {α : Type} (q : Vector (List α) 4) (p : Nat) (hp : p < 4) (a : α) : pushAt q p a = q.set p (q[p] ++ [a]) := by
  ext1 i hi
  simp only [pushAt, Vector.getElem_ofFn, Vector.getElem_set, eq_comm (a := i)]
  split
  · subst p; rfl
  · rfl

/-- A filled buffer of a flowing `SEND` named by the posted `RECV` of its destination. -/
theorem flowing?_of_posted {s : State} {src t : TileId} {p : Nat} {o : SendOp} {r : RecvOp} (ho : headSend (s.tile src) p = some o)
    (hd : physTile (leaseOf s src) o.vt.toNat = some t) (hr : headRecv (s.tile t) p = some r)
    (hs : physTile (leaseOf s t) r.vt.toNat = some src) (hf : o.flowing = true) : flowing? s src p = some (o, t, r) := by
  simp [flowing?, ho, hd, hr, hs, hf]

/-- Settles O20: the two words by the map entry and the room in the port, the filled buffer by `flowing?`. -/
theorem streamPortWords : Obligations.StreamPortWords := by
  unfold Obligations.StreamPortWords
  refine ⟨fun s t p vt ptr n h => ⟨fun hv => ⟨?_, ?_⟩, fun d hv => ⟨?_, ?_⟩⟩, fun s t src p r o hr hs ho hf hd hp => ?_, fun s t p hr => ?_⟩
  · simp only [exec, execSend, word_issuing h, issueSend, takeInjection_none h.2, hv, Option.isSome_none, Bool.false_eq_true, if_false]
  · simp only [exec, execRecv, word_issuing h, issueRecv, hv]
  · simp only [exec, execSend, word_issuing h, issueSend, takeInjection_none h.2, hv, Option.isSome_none, Bool.false_eq_true, if_false,
      getD_toList _ _ p.isLt, pushAt_eq_set _ _ p.isLt, ← Nat.not_lt (b := 5), ite_not]
    rfl
  · simp only [exec, execRecv, word_issuing h, issueRecv, hv, 
      getD_toList _ _ p.isLt, pushAt_eq_set _ _ p.isLt, ← Nat.not_lt (b := 5), ite_not]
    rfl
  · simp only [exec, execRecvFilled, hr, Option.bind_some, hs, flowing?_of_posted ho hd hr hs hf, if_true, fillRecv, landSend,
      withReads_none hp, deliver]
  · simp only [exec, execRecvFilled, hr, Option.bind_none]

/-! ### Words that units complete, illegal words, parity errors and full queues (R24, R40, R43, R53) -/

/-- Settles O22: a full queue stalls every unit word before its effect. -/
theorem wordEvents : Obligations.WordEvents := by
  unfold Obligations.WordEvents
  refine ⟨fun s t u w ws hu => ?_, fun s t w hi hw => ?_, fun s r d => rfl, fun s t a b c sc dr set dir ax sz sel k rows r1 r2 r3 r4 p h =>
    ⟨fun hq => ⟨?_, fun hk => ?_⟩, fun hq => ?_, fun hq => ⟨?_, ?_⟩, fun hq => ⟨?_, ?_⟩, fun hq => ⟨fun hd => ?_, ?_⟩⟩⟩
  · simp only [exec, execUnitWordComplete, hu, List.isEmpty_cons, Bool.not_false, onlyIf_true, updTile, List.tail_cons]
  · simp only [exec, execIllegalWord, hi, hw, Bool.and_self, onlyIf_true, illegal, illegalAt, updTile]
  · simp only [exec, execAccz, word_issuing h, issueAccz, toUnit_full (u := .cellArray) hq]
  · simp only [exec, execMma, word_issuing h, issueMma, hk, toUnit_full (u := .cellArray) hq, Bool.not_true, Bool.false_eq_true, if_false]
  · simp only [exec, execAccrd, word_issuing h, issueAccrd, toUnit_full (u := .drain) hq]
  · have hv : ¬(0x0D < (0 : BitVec 6).toNat ∨
        (((0 : BitVec 6).toNat = 8 ∨ (0 : BitVec 6).toNat = 9) ∧ (modeOut (s.tile t).mode).laneType = .fp32)) := by
      simp
    simp only [exec, execVop, word_issuing h, issueVop, toUnit_full (u := .vector) hq, hv, if_false]
  · have hv : ¬3 < (0 : BitVec 3).toNat := by decide
    simp only [exec, execVred, word_issuing h, issueVred, toUnit_full (u := .vector) hq, hv, if_false]
  · simp only [exec, execXpose, word_issuing h, issueXpose, toUnit_full (u := .transpose) hq]
  · simp only [exec, execShuf, word_issuing h, issueShuf, toUnit_full (u := .transpose) hq]
  · simp only [exec, execSpop, word_issuing h, issueSpop, Nat.not_lt.mpr hd, toUnit_full (u := .scalar) hq, if_false]
  · simp only [exec, execSls, word_issuing h, issueSls, toUnit_full (u := .scalar) hq]

end Sys2Proof.Machine
end

section
/-! SUPPORT. Words over rows: what VOP, VPOLY, VRED, ACCRD, XPOSE and SHUF write, and what they leave (R30, R31, R59 to R62, R567). -/

namespace Sys2Proof.Machine

open Sys2Proof

/-! ### Bytes that a word does not meet (R54, R567) -/

theorem inDest_eq_false_iff {d n a : Nat} : inDest d n a = false ↔ n ≤ (a + 0x100000 - d % 0x100000) % 0x100000 := by
  simp [inDest]

/-- An address outside the first `n` bytes from `d` is none of them. -/
theorem ne_of_inDest_eq_false {d n a j : Nat} (h : inDest d n (a % 0x100000) = false) (hj : j < n) : a % 0x100000 ≠ (d + j) % 0x100000 := by
  rw [inDest_eq_false_iff] at h
  omega

/-- Ranges that do not meet have no byte in common. -/
theorem inDest_of_meets_eq_false {d n a m i : Nat} (h : meets d n a m = false) (hi : i < m) : inDest d n ((a + i) % 0x100000) = false := by
  simp only [meets, Bool.or_eq_false_iff, inDest_eq_false_iff] at h ⊢
  omega

theorem inDest_mono {d n n' a : Nat} (hn : n ≤ n') (h : inDest d n' a = false) : inDest d n a = false := by
  rw [inDest_eq_false_iff] at h ⊢
  omega

/-- Row `r` of a source lies outside the destination rows before row `r`, where the two meet nowhere or are the same rows (R567). -/
theorem sourceRow_outside {d db a rb rows r i : Nat} (hdb : db ≤ 256) (hrows : rows ≤ 512)
    (h : rowsMeet d (db * rows) a (rb * rows) = false) (hr : r < rows) (hi : i < rb) : inDest d (db * r) ((a + rb * r + i) % 0x100000) = false := by
  have hd : db * r + db ≤ db * rows := by rw [← Nat.mul_succ]; exact Nat.mul_le_mul_left _ hr
  have hs : rb * r + rb ≤ rb * rows := by rw [← Nat.mul_succ]; exact Nat.mul_le_mul_left _ hr
  have hN : db * rows ≤ 256 * 512 := Nat.mul_le_mul hdb hrows
  rw [rowsMeet, Bool.and_eq_false_iff, Bool.not_eq_false', Bool.and_eq_true, beq_iff_eq, beq_iff_eq] at h
  rcases h with h | ⟨ha, hn⟩
  · rw [Nat.add_assoc]
    exact inDest_mono (by omega) (inDest_of_meets_eq_false h (by omega))
  · obtain rfl : db = rb := Nat.eq_of_mul_eq_mul_right (by omega) hn
    rw [inDest_eq_false_iff]
    omega

/-- Bytes that the word has not written yet read as they stood before it. -/
theorem readOver_outside {old new : State} {t : TileId} {d w a n key : Nat} (ho : ∀ i < n, inDest d w ((a + i) % 0x100000) = false)
    (hm : ∀ b, (∀ i < w, b ≠ t0Base t + (d + i) % 0x100000) → new.mem.byte b = old.mem.byte b) :
    readOver old new t d w a n key = scratchRead old t a n := by
  apply List.map_congr_left
  intro i hi
  have hi := ho i (List.mem_range.mp hi)
  simp only [hi, Bool.false_and, Bool.false_eq_true, if_false]
  refine hm _ fun j hj he => ne_of_inDest_eq_false hi hj (by omega)

/-! ### What a fold of row writes leaves (R54, R60) -/

/-- Rows written one after the other, each from what the rows before it left outside the destination, stand at their places afterwards. -/
theorem foldRows_read {α : Type} (π : α → State) (go : α → Nat → α) (t : TileId) (d db n : Nat) (a0 : α) (row : Nat → List Byte)
    (hn : db * n ≤ 0x100000) (hlen : ∀ r, (row r).length = db)
    (hgo : ∀ x r, r < n → (∀ b, (∀ i < db * r, b ≠ t0Base t + (d + i) % 0x100000) → (π x).mem.byte b = (π a0).mem.byte b) →
      π (go x r) = scratchWrite (π x) t (d + db * r) (row r)) :
    (∀ b, (∀ i < db * n, b ≠ t0Base t + (d + i) % 0x100000) → (π ((List.range n).foldl go a0)).mem.byte b = (π a0).mem.byte b) ∧
    ∀ r < n, scratchRead (π ((List.range n).foldl go a0)) t (d + db * r) db = row r := by
  induction n with
  | zero => exact ⟨fun _ _ => rfl, fun r hr => absurd hr (Nat.not_lt_zero r)⟩
  | succ n ih =>
    rw [Nat.mul_succ] at hn ⊢
    obtain ⟨hout, hrows⟩ := ih (by omega) (fun x r hr => hgo x r (by omega))
    rw [List.range_succ, List.foldl_append, List.foldl_cons, List.foldl_nil, hgo _ n (Nat.lt_succ_self n) hout]
    have hl := hlen n
    refine ⟨fun b hb => ?_, fun r hr => ?_⟩
    · rw [scratchWrite_outside _ _ _ _ _ (by omega) (fun i hi => ?_)]
      · exact hout b fun i hi => hb i (by omega)
      · rw [Nat.add_assoc]; exact hb _ (by omega)
    · rcases Nat.lt_succ_iff_lt_or_eq.mp hr with hr | rfl
      · have hle : db * r + db ≤ db * n := by rw [← Nat.mul_succ]; exact Nat.mul_le_mul_left _ hr
        rw [scratchRead_scratchWrite_apart _ _ _ _ _ _ (by omega) (fun i hi j hj => by omega), hrows r hr]
      · have := scratchRead_scratchWrite (π ((List.range r).foldl go a0)) t (d + db * r) (row r) (by omega)
        rwa [hl] at this

/-- Without stochastic rounding a row is written the same whatever the generators hold. -/
theorem writeRow_bytes_gens (f : Fmt) (b : Nat) (gens gens' : List Word) (lanes : List Lane) :
    (writeRow f b false gens lanes).bytes = (writeRow f b false gens' lanes).bytes := by
  cases f <;> rfl


/-! ### VOP (R60) -/

/-- The condition under which a `VOP` is an illegal word (R53, R60). -/
def vopIllegal (x : TileState) (sub : BitVec 6) : Prop :=
  0x0D < sub.toNat ∨ ((sub = 8 ∨ sub = 9) ∧ (modeOut x.mode).laneType = .fp32)

theorem vopIllegal_iff (x : TileState) (sub : BitVec 6) : vopIllegal x sub ↔
    0x0D < sub.toNat ∨ ((sub.toNat = 8 ∨ sub.toNat = 9) ∧ (modeOut x.mode).laneType = .fp32) := by
  have h8 : sub = 8 ↔ sub.toNat = 8 := BitVec.toNat_inj.symm
  have h9 : sub = 9 ↔ sub.toNat = 9 := BitVec.toNat_inj.symm
  rw [vopIllegal, h8, h9]

/-- Row `r` of a `VOP` of a tile whose registers were `x` as the word was issued. -/
def vopRow (old : State) (t : TileId) (x : TileState) (n : Nat) (dst s1 s2 : BitVec 4) (run : RowRun) (r : Nat) : RowRun :=
  let out := modeOut x.mode
  let f1 := if n = 0x0A then modeA x.mode else out
  let d := x.addr dst
  let r1 := sourceRow old run t f1 d out.rowBytes (x.addr s1) r (3 * r)
  let r2 := if vopReadsS2 n then sourceRow old run t out d out.rowBytes (x.addr s2) r (3 * r + 1) else []
  let rd := if vopReadsD n then sourceRow old run t out d out.rowBytes d r (3 * r + 2) else []
  putRow run t out x.mode d r ((List.range 64).map (fun i =>
      vopLane n (if n = 0x0A then f1.laneType else out.laneType) (modeB0 x.mode) (readLane f1 r1 i)
        (if vopReadsS2 n then readLane out r2 i else .fx 0) (if vopReadsD n then readLane out rd i else .fx 0)))
    (rowAnomaly f1 r1 || (vopReadsS2 n && rowAnomaly out r2) || (vopReadsD n && rowAnomaly out rd))

/-- The bytes of row `r` of a `VOP`, from the source rows as they stood before the word (R60, R109). -/
def vopBytes (old : State) (t : TileId) (x : TileState) (n : Nat) (dst s1 s2 : BitVec 4) (r : Nat) : List Byte :=
  let out := modeOut x.mode
  let f1 := if n = 0x0A then modeA x.mode else out
  let row1 := scratchRead old t (x.addr s1 + f1.rowBytes * r) f1.rowBytes
  let row2 := if vopReadsS2 n then scratchRead old t (x.addr s2 + out.rowBytes * r) out.rowBytes else []
  let rowD := if vopReadsD n then scratchRead old t (x.addr dst + out.rowBytes * r) out.rowBytes else []
  (writeRow out (modeB0 x.mode) false x.gens ((List.range 64).map (fun i =>
    (vopLane n f1.laneType (modeB0 x.mode) (readLane f1 row1 i)
      (if vopReadsS2 n then readLane out row2 i else .fx 0) (if vopReadsD n then readLane out rowD i else .fx 0)).1))).bytes

/-- All rows of a `VOP` that its unit has accepted. -/
def vopRun (s : State) (t : TileId) (sub : BitVec 6) (dst s1 s2 : BitVec 4) (rowsM1 : BitVec 9) : RowRun :=
  let old := queued s t .vector (.vop sub dst s1 s2 rowsM1)
  (List.range (rowsM1.toNat + 1)).foldl (vopRow old t (s.tile t) sub.toNat dst s1 s2) (startRows old t)

/-- A legal `VOP` with room in the vector unit writes its rows, and draws a free value where R567 leaves bytes open. -/
theorem exec_vop_of_legal {s : State} {t : TileId} {sub : BitVec 6} (h : Issuing s t) (hq : (s.tile t).vectorQ.length < 5)
    (hl : ¬vopIllegal (s.tile t) sub) (dst s1 s2 : BitVec 4) (rowsM1 : BitVec 9) :
    ∃ c, exec (.vop t sub dst s1 s2 rowsM1) s = .next (drawIf c (endRows (vopRun s t sub dst s1 s2 rowsM1) t)) := by
  rw [vopIllegal_iff] at hl
  simp only [exec, execVop, word_issuing h, issueVop, hl, if_false, toUnit_room (u := .vector) hq, withReads_queued h]
  exact ⟨_, rfl⟩

theorem exec_vop_of_illegal {s : State} {t : TileId} {sub : BitVec 6} (h : Issuing s t) (hl : vopIllegal (s.tile t) sub)
    (dst s1 s2 : BitVec 4) (rowsM1 : BitVec 9) : exec (.vop t sub dst s1 s2 rowsM1) s = .next (illegal s t 0) := by
  rw [vopIllegal_iff] at hl
  simp only [exec, execVop, word_issuing h, issueVop, hl, if_true]


/-- Where the destination meets no source but one that is the same rows, row `r` is made of the source rows as they stood before the
word (R567). -/
theorem vopRow_of_apart {old : State} {t : TileId} {x : TileState} {n : Nat} {dst s1 s2 : BitVec 4} {rows r : Nat} {run : RowRun}
    (hrows : rows ≤ 512) (hr : r < rows) (hsr : modeSr x.mode = false)
    (h1 : rowsMeet (x.addr dst) ((modeOut x.mode).rowBytes * rows) (x.addr s1)
      ((if n = 0x0A then modeA x.mode else modeOut x.mode).rowBytes * rows) = false)
    (h2 : vopReadsS2 n = true → rowsMeet (x.addr dst) ((modeOut x.mode).rowBytes * rows) (x.addr s2) ((modeOut x.mode).rowBytes * rows) = false)
    (hm : ∀ b, (∀ i < (modeOut x.mode).rowBytes * r, b ≠ t0Base t + (x.addr dst + i) % 0x100000) → run.s.mem.byte b = old.mem.byte b) :
    (vopRow old t x n dst s1 s2 run r).s = scratchWrite run.s t (x.addr dst + (modeOut x.mode).rowBytes * r)
      (vopBytes old t x n dst s1 s2 r) := by
  have source {f : Fmt} {a key : Nat} (ha : rowsMeet (x.addr dst) ((modeOut x.mode).rowBytes * rows) a (f.rowBytes * rows) = false) :
      sourceRow old run t f (x.addr dst) (modeOut x.mode).rowBytes a r key = scratchRead old t (a + f.rowBytes * r) f.rowBytes :=
    readOver_outside (fun i hi => sourceRow_outside (Fmt.rowBytes_le _) hrows ha hr hi) hm
  have hdd : rowsMeet (x.addr dst) ((modeOut x.mode).rowBytes * rows) (x.addr dst) ((modeOut x.mode).rowBytes * rows) = false := by
    simp [rowsMeet]
  have e2 (key : Nat) : (if vopReadsS2 n then sourceRow old run t (modeOut x.mode) (x.addr dst) (modeOut x.mode).rowBytes (x.addr s2) r key
      else []) = if vopReadsS2 n then scratchRead old t (x.addr s2 + (modeOut x.mode).rowBytes * r) (modeOut x.mode).rowBytes else [] := by
    split
    · exact source (h2 ‹_›)
    · rfl
  have ety : (if n = 0x0A then (if n = 0x0A then modeA x.mode else modeOut x.mode).laneType else (modeOut x.mode).laneType) =
      (if n = 0x0A then modeA x.mode else modeOut x.mode).laneType := by
    split <;> rfl
  simp only [vopRow, putRow, source h1, source hdd, e2, ety, hsr, List.map_map]
  rw [writeRow_bytes_gens _ _ _ x.gens]
  rfl

theorem vopBytes_length (old : State) (t : TileId) (x : TileState) (n : Nat) (dst s1 s2 : BitVec 4) (r : Nat) :
    (vopBytes old t x n dst s1 s2 r).length = (modeOut x.mode).rowBytes :=
  writeRow_length _ _ _ _ (by simp)

theorem rows_le (rowsM1 : BitVec 9) : rowsM1.toNat + 1 ≤ 512 := rowsM1.isLt

@[simp] theorem scratchRead_drawIf (c : Bool) (s : State) (t : TileId) (a n : Nat) : scratchRead (drawIf c s) t a n = scratchRead s t a n := by
  simp only [scratchRead, drawIf_mem]

@[simp] theorem scratchRead_endRows (run : RowRun) (t v : TileId) (a n : Nat) :
    scratchRead (endRows run t) v a n = scratchRead run.s v a n := rfl

/-- Settles O15: no row reads what an earlier row wrote, so each is made of the source rows as they stood. -/
theorem vopRows : Obligations.VopRows := by
  unfold Obligations.VopRows
  intro s t sub dst s1 s2 rowsM1 h x n out f1 rows d a1 a2 db hq hn hl hsr h1 h2
  obtain ⟨c, hc⟩ := exec_vop_of_legal h hq (fun hi => hi.elim (Nat.not_lt.mpr hn) hl) dst s1 s2 rowsM1
  refine ⟨_, hc, fun r hr => ?_⟩
  have hsize : db * rows ≤ 256 * 512 := Nat.mul_le_mul (Fmt.rowBytes_le _) (rows_le rowsM1)
  have hread := (foldRows_read RowRun.s (vopRow (queued s t .vector (.vop sub dst s1 s2 rowsM1)) t x n dst s1 s2) t d db rows
    (startRows _ t) (vopBytes _ t x n dst s1 s2) (by omega) (vopBytes_length _ t x n dst s1 s2)
    (fun run k hk hm => vopRow_of_apart (rows_le rowsM1) hk hsr h1 h2 hm)).2 r hr
  rw [scratchRead_drawIf, scratchRead_endRows]
  refine hread.trans ?_
  simp only [vopBytes, scratchRead_queued]
  rfl

/-! ### The frame of a row word (R54, R59 to R61) -/

theorem vop_frame {s : State} {t : TileId} {sub : BitVec 6} (h : Issuing s t) (hq : (s.tile t).vectorQ.length < 5)
    (hl : ¬vopIllegal (s.tile t) sub) (dst s1 s2 : BitVec 4) (rowsM1 : BitVec 9) :
    ∃ u, exec (.vop t sub dst s1 s2 rowsM1) s = .next u ∧
      RowFrame s u t { (s.tile t).advance with vectorQ := (s.tile t).vectorQ ++ [.vop sub dst s1 s2 rowsM1] } ((s.tile t).addr dst)
        ((rowsM1.toNat + 1) * (modeOut (s.tile t).mode).rowBytes) := by
  obtain ⟨c, hc⟩ := exec_vop_of_legal h hq hl dst s1 s2 rowsM1
  refine ⟨_, hc, rowWord_frame (u := .vector) (w := .vop sub dst s1 s2 rowsM1) RowRun.s (Nat.le_trans (Fmt.rowBytes_le _) (by decide)) rfl
    fun run r hr => ⟨_, writeRow_length_le _ _ _ _ _ (by simp), rfl⟩⟩


section
variable {s : State} {t : TileId} (h : Issuing s t)
include h

theorem accrd_frame (hq : (s.tile t).drainQ.length < 5) (dst scale : BitVec 4) (set : BitVec 1) (en : Bool) :
    ∃ u, exec (.accrd t dst set scale en) s = .next u ∧
      RowFrame s u t { (s.tile t).advance with drainQ := (s.tile t).drainQ ++ [.accrd dst set scale en] } ((s.tile t).addr dst)
        (64 * (modeOut (s.tile t).mode).rowBytes) := by
  simp only [exec, execAccrd, word_issuing h, issueAccrd, toUnit_room (u := .drain) hq, withReads_queued h, updTile_drawIf]
  exact ⟨_, rfl, rowWord_frame (u := .drain) (w := .accrd dst set scale en) Prod.fst (Nat.le_trans (Fmt.rowBytes_le _) (by decide)) rfl
    fun run r hr => ⟨_, writeRow_length_le _ _ _ _ _ (by simp), rfl⟩⟩

theorem vpoly_frame (hq : (s.tile t).vectorQ.length < 5) (table dst src : BitVec 4) (rowsM1 : BitVec 9)
    (hn : ¬(ofLe (scratchRead s t ((s.tile t).addr table) 4) = 0 ∨ 32 < ofLe (scratchRead s t ((s.tile t).addr table) 4))) :
    ∃ u, exec (.vpoly t table dst src rowsM1) s = .next u ∧
      RowFrame s u t { (s.tile t).advance with vectorQ := (s.tile t).vectorQ ++ [.vpoly table dst src rowsM1] } ((s.tile t).addr dst)
        ((rowsM1.toNat + 1) * (modeOut (s.tile t).mode).rowBytes) := by
  simp only [exec, execVpoly, word_issuing h, issueVpoly, hn, if_false, toUnit_room (u := .vector) hq, withReads_queued h]
  exact ⟨_, rfl, rowWord_frame (u := .vector) (w := .vpoly table dst src rowsM1) RowRun.s (Nat.le_trans (Fmt.rowBytes_le _) (by decide)) rfl
    fun run r hr => ⟨_, writeRow_length_le _ _ _ _ _ (by simp), rfl⟩⟩

/-- Along axis 0 each row of the source gives a destination row; along axis 1 all rows together give one. -/
theorem vred_frame (hq : (s.tile t).vectorQ.length < 5) {sub : BitVec 3} (hn : ¬3 < sub.toNat) (axis : BitVec 1) (dst src : BitVec 4)
    (rowsM1 : BitVec 9) :
    ∃ u, exec (.vred t sub axis dst src rowsM1) s = .next u ∧
      RowFrame s u t { (s.tile t).advance with vectorQ := (s.tile t).vectorQ ++ [.vred sub axis dst src rowsM1] } ((s.tile t).addr dst)
        ((if axis = 0 then rowsM1.toNat + 1 else 1) * (modeOut (s.tile t).mode).rowBytes) := by
  have hdb : (modeOut (s.tile t).mode).rowBytes ≤ 0x100000 := Nat.le_trans (Fmt.rowBytes_le _) (by decide)
  simp only [exec, execVred, word_issuing h, issueVred, hn, if_false, toUnit_room (u := .vector) hq, withReads_queued h]
  split
  · exact ⟨_, rfl, rowWord_frame (u := .vector) (w := .vred sub axis dst src rowsM1) RowRun.s hdb rfl
      fun run r hr => ⟨_, writeRow_length_le _ _ _ _ _ (by simp), rfl⟩⟩
  · exact ⟨_, rfl, rowWord_frame (u := .vector) (w := .vred sub axis dst src rowsM1) (c := false) (n := 1) (a0 := startRows _ t) RowRun.s
      (go := fun run r => putRow run t _ _ _ r _ _) hdb rfl fun run r hr => ⟨_, writeRow_length_le _ _ _ _ _ (by simp), rfl⟩⟩

end

theorem exec_vpoly_of_illegal {s : State} {t : TileId} (h : Issuing s t) (table dst src : BitVec 4) (rowsM1 : BitVec 9)
    (hn : ofLe (scratchRead s t ((s.tile t).addr table) 4) = 0 ∨ 32 < ofLe (scratchRead s t ((s.tile t).addr table) 4)) :
    exec (.vpoly t table dst src rowsM1) s = .next (illegal s t 0) := by
  simp only [exec, execVpoly, word_issuing h, issueVpoly, hn, if_true]

theorem exec_vred_of_illegal {s : State} {t : TileId} (h : Issuing s t) {sub : BitVec 3} (hn : 3 < sub.toNat) (axis : BitVec 1)
    (dst src : BitVec 4) (rowsM1 : BitVec 9) : exec (.vred t sub axis dst src rowsM1) s = .next (illegal s t 0) := by
  simp only [exec, execVred, word_issuing h, issueVred, hn, if_true]

/-- Settles O14, by the frame of a fold of row writes. -/
theorem rowWordsFrame : Obligations.RowWordsFrame := by
  unfold Obligations.RowWordsFrame
  refine ⟨fun s t h => ⟨fun dst scale set en hq => accrd_frame h hq dst scale set en, fun sub dst s1 s2 rowsM1 hq hn hl => ?_,
      fun table dst src rowsM1 hq h0 h32 => vpoly_frame h hq table dst src rowsM1 (by omega),
      fun sub axis dst src rowsM1 hq hn => vred_frame h hq (Nat.not_lt.mpr hn) axis dst src rowsM1⟩,
    fun s t h => ⟨fun sub dst s1 s2 rowsM1 hi => exec_vop_of_illegal h hi dst s1 s2 rowsM1,
      fun table dst src rowsM1 hn => exec_vpoly_of_illegal h table dst src rowsM1 hn,
      fun sub axis dst src rowsM1 hn => exec_vred_of_illegal h hn axis dst src rowsM1⟩⟩
  exact vop_frame h hq (fun hi => hi.elim (Nat.not_lt.mpr hn) hl) dst s1 s2 rowsM1


/-! ### XPOSE and SHUF (R30, R31, R62) -/

/-- Row `j` of a transpose, with the elements at index `j` of the source rows as they stood (R30). -/
def transposedRow (s : State) (t : TileId) (w rb src j : Nat) : List Byte :=
  packElems w (((List.range 64).map (fun i => scratchRead s t (src + rb * i) rb)).map (fun r => element w r j))

/-- The bytes that an `XPOSE` of elements of `w` bits in `cols` columns leaves (R30, R62). -/
def transposed (s : State) (t : TileId) (w cols src : Nat) : List Byte :=
  ((List.range cols).map (transposedRow s t w (cols * w / 8) src)).flatten

theorem exec_xpose_of_room {s : State} {t : TileId} (h : Issuing s t) (hq : (s.tile t).transQ.length < 5) (size : BitVec 2) (dst src : BitVec 4) :
    exec (.xpose t size dst src) s = .next (scratchWrite (queued s t .transpose (.xpose size dst src)) t ((s.tile t).addr dst)
      (transposed s t (4 * 2 ^ size.toNat) (if size = 0 then 128 else 64) ((s.tile t).addr src))) := by
  simp only [exec, execXpose, word_issuing h, issueXpose, toUnit_room (u := .transpose) hq, withReads_queued h, scratchRead_queued, transposed]
  rfl

/-- With nothing written yet, or where the word does not meet the bytes, they read as before. -/
theorem readOver_of_none (s : State) (t : TileId) (d a n key : Nat) : readOver s s t d 0 a n key = scratchRead s t a n :=
  readOver_outside (fun _ _ => inDest_eq_false_iff.mpr (Nat.zero_le _)) (fun _ _ => rfl)

theorem rowsMeet_of_meets_eq_false {d n a m : Nat} (h : meets d n a m = false) : rowsMeet d n a m = false := by
  rw [rowsMeet, h, Bool.false_and]

/-- A `SHUF` of one row that its destination does not meet. -/
theorem exec_shuf_one {s : State} {t : TileId} (h : Issuing s t) (hq : (s.tile t).transQ.length < 5) {table dst src : BitVec 4}
    (ha : meets ((s.tile t).addr dst) (modeOut (s.tile t).mode).rowBytes ((s.tile t).addr src) (modeOut (s.tile t).mode).rowBytes = false)
    (ht : meets ((s.tile t).addr dst) (modeOut (s.tile t).mode).rowBytes ((s.tile t).addr table) 64 = false) :
    exec (.shuf t table dst src 0) s = .next (scratchWrite (queued s t .transpose (.shuf table dst src 0)) t ((s.tile t).addr dst)
      (shuffleRow (modeOut (s.tile t).mode) (scratchRead s t ((s.tile t).addr table) 64)
        (scratchRead s t ((s.tile t).addr src) (modeOut (s.tile t).mode).rowBytes))) := by
  have hrows : (0 : BitVec 9).toNat + 1 = 1 := rfl
  simp only [exec, execShuf, word_issuing h, issueShuf, toUnit_room (u := .transpose) hq, withReads_queued h, hrows, List.range_one,
    List.foldl_cons, List.foldl_nil, Nat.mul_one, Nat.mul_zero, Nat.add_zero, Nat.zero_add, startRows, sourceRow, readOver_of_none, scratchRead_queued,
    rowsMeet_of_meets_eq_false ha, ht, Bool.or_self, drawIf, Bool.false_eq_true, if_false]

theorem shuf_frame {s : State} {t : TileId} (h : Issuing s t) (hq : (s.tile t).transQ.length < 5) (table dst src : BitVec 4) (rowsM1 : BitVec 9) :
    ∃ u, exec (.shuf t table dst src rowsM1) s = .next u ∧
      RowFrame s u t { (s.tile t).advance with transQ := (s.tile t).transQ ++ [.shuf table dst src rowsM1] } ((s.tile t).addr dst)
        ((rowsM1.toNat + 1) * (modeOut (s.tile t).mode).rowBytes) := by
  simp only [exec, execShuf, word_issuing h, issueShuf, toUnit_room (u := .transpose) hq, withReads_queued h]
  exact ⟨_, rfl, rowMove_frame (u := .transpose) (w := .shuf table dst src rowsM1) RowRun.s (Nat.le_trans (Fmt.rowBytes_le _) (by decide)) rfl
    fun run r hr => ⟨_, Nat.le_of_eq (shuffleRow_length _ _ _ (readOver_length ..)), rfl⟩⟩

/-- Settles O16: one row meets nothing that it has written itself. -/
theorem transposeWords : Obligations.TransposeWords := by
  unfold Obligations.TransposeWords
  intro s t h hq
  refine ⟨fun size dst src => exec_xpose_of_room h hq size dst src, fun table dst src ha ht => exec_shuf_one h hq ha ht,
    fun table dst src rowsM1 => shuf_frame h hq table dst src rowsM1⟩

/-! ### The elements of a transpose (R30, R62) -/

theorem ofLe_lt (bs : List Byte) : ofLe bs < 256 ^ bs.length := by
  induction bs with
  | nil => simp [ofLe]
  | cons b bs ih =>
    have hb := b.isLt
    rw [ofLe, List.length_cons, Nat.pow_succ]
    omega

theorem fld_lt (bs : List Byte) (off n : Nat) : fld bs off n < 256 ^ n :=
  Nat.lt_of_lt_of_le (ofLe_lt _) (Nat.pow_le_pow_right (by decide) (List.length_take_le ..))

/-- An element is no wider than its format. -/
theorem element_lt {w : Nat} (hw : w = 4 ∨ w = 8 ∨ w = 16 ∨ w = 32) (bs : List Byte) (i : Nat) : element w bs i < 2 ^ w := by
  unfold element
  rcases hw with rfl | rfl | rfl | rfl
  · exact Nat.mod_lt _ (by decide)
  · exact fld_lt _ _ _
  · exact fld_lt _ _ _
  · exact fld_lt _ _ _

/-- Chunk `j` of chunks of one length put together. -/
theorem slice_flatten {chunks : List (List Byte)} {n : Nat} (hn : ∀ c ∈ chunks, c.length = n) {j : Nat} (hj : j < chunks.length) :
    slice chunks.flatten (n * j) n = chunks[j] := by
  induction chunks generalizing j with
  | nil => exact absurd hj (Nat.not_lt_zero j)
  | cons c cs ih =>
    have hc : c.length = n := hn c List.mem_cons_self
    cases j with
    | zero => simp [slice, ← hc]
    | succ j =>
      have := ih (fun c h => hn c (List.mem_cons_of_mem _ h)) (Nat.lt_of_succ_lt_succ hj)
      rw [List.getElem_cons_succ, ← this, slice, slice, List.flatten_cons, Nat.mul_succ, Nat.add_comm, ← List.drop_drop, List.drop_left' hc]

/-- A read inside a scratchpad write of at most 1 MiB gives those bytes. -/
theorem scratchRead_scratchWrite_slice (s : State) (t : TileId) (a k n : Nat) (bs : List Byte) (hbs : bs.length ≤ 0x100000) (hk : k + n ≤ bs.length) :
    scratchRead (scratchWrite s t a bs) t (a + k) n = slice bs k n := by
  apply List.ext_getElem
  · simp [slice]; omega
  · intro i h1 h2
    have hi : i < n := by simpa using h1
    simp only [scratchRead, List.getElem_map, List.getElem_range, slice, List.getElem_take, List.getElem_drop]
    rw [Nat.add_assoc]
    exact scratchWrite_inside s t a bs (k + i) hbs (by omega)

theorem transposedRow_length (s : State) (t : TileId) (w rb src j : Nat) : (transposedRow s t w rb src j).length = 8 * w := by
  simp [transposedRow]; omega

theorem transposed_length (s : State) (t : TileId) (w cols src : Nat) : (transposed s t w cols src).length = 8 * w * cols := by
  simp [transposed, Function.comp_def, transposedRow_length, Nat.mul_comm]

theorem element_transposedRow {w : Nat} (hw : w = 4 ∨ w = 8 ∨ w = 16 ∨ w = 32) (s : State) (t : TileId) (rb src j : Nat) {i : Nat} (hi : i < 64) :
    element w (transposedRow s t w rb src j) i = element w (scratchRead s t (src + rb * i) rb) j := by
  rw [transposedRow, element_packElems w hw _ i (by simpa using hi) (by simp)]
  simp only [List.getElem_map, List.getElem_range]
  exact Nat.mod_eq_of_lt (element_lt hw _ _)

theorem scratchRead_transposed {w cols j : Nat} (hw : w ≤ 32) (hcols : cols ≤ 128) (hj : j < cols) (s u : State) (t : TileId) (d src : Nat) :
    scratchRead (scratchWrite u t d (transposed s t w cols src)) t (d + 8 * w * j) (8 * w) = transposedRow s t w (cols * w / 8) src j := by
  have hlen := transposed_length s t w cols src
  have hle : 8 * w * cols ≤ 8 * 32 * 128 := Nat.mul_le_mul (by omega) hcols
  have hj' : 8 * w * j + 8 * w ≤ 8 * w * cols := by rw [← Nat.mul_succ]; exact Nat.mul_le_mul_left _ hj
  have hrows : ∀ c ∈ (List.range cols).map (transposedRow s t w (cols * w / 8) src), c.length = 8 * w := by
    simp [transposedRow_length]
  rw [scratchRead_scratchWrite_slice _ _ _ _ _ _ (by omega) (by omega), transposed, slice_flatten hrows (by simpa using hj),
    List.getElem_map, List.getElem_range]

/-- Settles O17: row `j` of what XPOSE writes is packed from element `j` of each source row. -/
theorem transposedElements : Obligations.TransposedElements := by
  unfold Obligations.TransposedElements
  intro s t size dst src h hq w cols
  refine ⟨_, exec_xpose_of_room h hq size dst src, fun i hi j hj => ?_⟩
  have hw : w = 4 ∨ w = 8 ∨ w = 16 ∨ w = 32 := by
    have hs : size.toNat = 0 ∨ size.toNat = 1 ∨ size.toNat = 2 ∨ size.toNat = 3 := by have := size.isLt; omega
    rcases hs with hs | hs | hs | hs <;> simp [w, hs]
  have hcols : cols ≤ 128 := by simp only [cols]; split <;> decide
  rw [← element_transposedRow hw s t _ _ j hi, ← scratchRead_transposed (by omega) hcols hj s]

end Sys2Proof.Machine
end

section
/-! SUPPORT. The arithmetic of the scalar pipe in fixed point and of the cell array in the INT8 mode (R39, R57, R58, R63, R102). -/

namespace Sys2Proof.Machine

open Sys2Proof

/-! ### Saturation to 32 bits (R39, R102) -/

theorem clampInt_eq_self_iff {lo hi v : Int} : clampInt lo hi v = v ↔ ¬(v < lo ∨ hi < v) := by
  unfold clampInt
  split
  · omega
  · split <;> omega

theorem clampInt_mem {lo hi : Int} (h : lo ≤ hi) (v : Int) : lo ≤ clampInt lo hi v ∧ clampInt lo hi v ≤ hi := by
  unfold clampInt
  split
  · omega
  · split <;> omega

/-- A result saturated to 32 bits is the limited value, with an overflow exactly when a limit was applied. -/
theorem fxResult_spec (v : Int) : (fxResult v).1.toInt = clampInt (-2147483648) 2147483647 v ∧
    ((fxResult v).2 = true ↔ clampInt (-2147483648) 2147483647 v ≠ v) := by
  obtain ⟨hlo, hhi⟩ := clampInt_mem (lo := -2147483648) (hi := 2147483647) (by decide) v
  refine ⟨?_, ?_⟩
  · simp only [fxResult, sat32, BitVec.toInt_ofInt]
    exact Int.bmod_eq_of_le (by omega) (by omega)
  · simp only [fxResult, sat32, Bool.or_eq_true, decide_eq_true_eq, ne_eq, clampInt_eq_self_iff, not_not]

/-! ### SPOP in fixed point (R63) -/

theorem spopResult_fx (sub b : Nat) (x y z : Word) : spopResult sub 1 b x y z = spopFx sub b x.toInt y.toInt z.toInt := rfl

theorem toInt_eq_zero_iff (x : Word) : x.toInt = 0 ↔ x = 0 := by
  rw [← BitVec.toInt_inj]; rfl

/-- Settles O19: every operation ends in `fxResult` or in one of the special cases. -/
theorem scalarFixedPoint : Obligations.ScalarFixedPoint := by
  unfold Obligations.ScalarFixedPoint
  intro b x y z
  refine ⟨fun p hp => ?_, fun hy => ?_, fun hx => ⟨?_, ?_⟩, rfl⟩
  · simp only [List.mem_cons, List.not_mem_nil, or_false] at hp
    rcases hp with rfl | rfl | rfl | rfl
    · exact fxResult_spec _
    · exact fxResult_spec _
    · exact fxResult_spec _
    · exact fxResult_spec _
  · rw [spopResult_fx]
    simp only [spopFx, (toInt_eq_zero_iff y).mpr hy, if_true, toInt_eq_zero_iff]
    split
    · rfl
    · rfl
  · simp only [spopResult_fx, spopFx, hx, if_true]
    rfl
  · have h0 : x.toInt ≠ 0 := by omega
    simp only [spopResult_fx, spopFx, hx, h0, if_true, if_false]
    rfl

/-! ### MMA in the INT8 mode (R57, R58, R102) -/

/-- One K step of an INT32 element: the contribution is added, or written on the first step into a cleared set, and limited to 32 bits (R57, R102). -/
def accStep (r : BitVec 48 × Bool) (v : Int) : BitVec 48 × Bool :=
  (acc32 (BitVec.ofInt 32 (sat32 (if r.2 then v else (r.1.setWidth 32).toInt + v)).1), false)

/-- The steps of an INT32 element, the saturation count left out. -/
theorem runElement_int32 (first : Bool) (a : BitVec 48) (vs : List Int) :
    (runElement .int32 first a (vs.map .int)).1 = (vs.foldl accStep (a, first)).1 := by
  unfold runElement
  rw [List.foldl_map]
  suffices h : ∀ (sat : Bool) (a : BitVec 48) (first : Bool),
      (vs.foldl (fun (r : (BitVec 48 × Bool) × Bool) v =>
        (((accumulate .int32 r.2 r.1.1 (.int v)).1, r.1.2 || (accumulate .int32 r.2 r.1.1 (.int v)).2), false)) ((a, sat), first)).1.1 =
      (vs.foldl accStep (a, first)).1 from h false a first
  induction vs with
  | nil => intros; rfl
  | cons v vs ih =>
    intro sat a first
    simp only [List.foldl_cons]
    exact ih _ _ _

theorem contribs_int8 (b : Nat) (abs bbs : List Byte) (k i j : Nat) : contribs .int8 .int8 b abs bbs k i j =
    ((List.range k).map (fun q => signed 8 (element 8 (slice abs (64 * q) 64) i) * signed 8 (element 8 (slice bbs (64 * q) 64) j))).map .int := by
  rw [List.map_map]
  rfl

@[simp] theorem TileState.acc_count (x : TileState) (sat anom : Bool) (set : BitVec 1) (i j : Nat) :
    (x.count sat anom).acc set i j = x.acc set i j := rfl

@[simp] theorem TileState.cleared?_count (x : TileState) (sat anom : Bool) (set : BitVec 1) :
    (x.count sat anom).cleared? set = x.cleared? set := rfl

theorem TileState.acc_setAcc (x : TileState) (set : BitVec 1) (v : List (BitVec 48)) (i j : Nat) :
    (x.setAcc set v).acc set i j = v.getD (64 * i + j) 0 := by
  unfold TileState.acc TileState.setAcc
  split <;> rfl

theorem TileState.cleared?_setAcc (x : TileState) (set : BitVec 1) (v : List (BitVec 48)) : (x.setAcc set v).cleared? set = false := by
  unfold TileState.cleared? TileState.setAcc
  split <;> rfl

/-- Element (i, j) of the set after an `MMA`. -/
theorem mmaTile_acc (x : TileState) (abs bbs : List Byte) (set : BitVec 1) (k i j : Nat) (hi : i < 64) (hj : j < 64) :
    (mmaTile x abs bbs set k).acc set i j = (runElement (accType (modeA x.mode)) (x.cleared? set) (x.acc set i j)
      (contribs (modeA x.mode) (modeB x.mode) (modeB0 x.mode) abs bbs k i j)).1 := by
  have hn : 64 * i + j < 4096 := by omega
  have hd : (64 * i + j) / 64 = i := by omega
  have hm : (64 * i + j) % 64 = j := by omega
  simp [mmaTile, TileState.acc_setAcc, hn, hd, hm]

theorem mmaTile_cleared? (x : TileState) (abs bbs : List Byte) (set : BitVec 1) (k : Nat) : (mmaTile x abs bbs set k).cleared? set = false := by
  simp only [mmaTile, TileState.cleared?_count, TileState.cleared?_setAcc]

/-- Settles O13, by the steps of one element. -/
theorem mmaInt8Element : Obligations.MmaInt8Element := by
  unfold Obligations.MmaInt8Element
  intro x abs bbs set k i j ha hb hi hj
  refine ⟨mmaTile_cleared? x abs bbs set k, ?_⟩
  rw [mmaTile_acc x abs bbs set k i j hi hj, ha, hb, contribs_int8]
  exact runElement_int32 _ _ _

end Sys2Proof.Machine
end

section
/-! SUPPORT. What the reset of a partition's units takes away and what it leaves (R74, R425, R426). -/

namespace Sys2Proof.Machine

open Sys2Proof

/-! ### The units of a partition that is reset (R74, R425, R426) -/

/-- A change of one transfer touches the table of clusters alone. -/
theorem setXfer_clusters (s : State) (q : ArbReq) (f : Xfer → Xfer) : ∃ cs, setXfer s q f = { s with clusters := cs } := by
  unfold setXfer
  split
  · exact ⟨_, rfl⟩
  · exact ⟨s.clusters, rfl⟩

theorem forEach_setXfer_clusters (qs : List ArbReq) (f : Xfer → Xfer) (s : State) :
    ∃ cs, forEach qs s (fun s q => setXfer s q f) = { s with clusters := cs } := by
  unfold forEach
  induction qs generalizing s with
  | nil => exact ⟨s.clusters, rfl⟩
  | cons q qs ih =>
    obtain ⟨cs, hq⟩ := setXfer_clusters s q f
    obtain ⟨ds, hqs⟩ := ih { s with clusters := cs }
    exact ⟨ds, by rw [List.foldl_cons, hq, hqs]⟩

/-- An arbiter is cleared: its requests and grants are gone, every requester is masked, and the transfers they stood for are unpresented. -/
theorem clearArbiter_eq (s : State) (p : Nat) : ∃ cs,
    clearArbiter s p = { s with clusters := cs }.setPart p { s.part p with arb := { Arbiter.reset with masked := List.range 11 } } := by
  obtain ⟨cs, h⟩ := forEach_setXfer_clusters
    ((s.part p).arb.waiting ++ (s.part p).arb.heldBack ++ (s.part p).arb.engines.toList.filterMap (fun g => g.map Grant.req))
    (fun x => { x with state := .unpresented }) s
  exact ⟨cs, by simp only [clearArbiter, h]; rfl⟩

theorem Tab.get?_filter_keep {α : Type} (t : Tab α) (keep : Nat → Bool) {k : Nat} (h : keep k = true) :
    Tab.get? (t.filter (fun e => keep e.1)) k = t.get? k := by
  unfold Tab.get?
  rw [find?_filter_of_imp _ _ (fun x hx => by simp only [beq_iff_eq] at hx; rw [hx, h])]

theorem Tab.get?_filter_drop {α : Type} (t : Tab α) (keep : Nat → Bool) {k : Nat} (h : keep k = false) :
    Tab.get? (t.filter (fun e => keep e.1)) k = none := by
  unfold Tab.get?
  rw [find?_filter_none _ _ (fun x hx => by simp only [beq_iff_eq] at hx; rw [hx, h])]

section
variable (s : State) (p : Nat)

@[simp] theorem clearArbiter_mem : (clearArbiter s p).mem = s.mem := by
  obtain ⟨cs, h⟩ := clearArbiter_eq s p
  rw [h]; rfl

@[simp] theorem clearArbiter_hostMem : (clearArbiter s p).hostMem = s.hostMem := by
  obtain ⟨cs, h⟩ := clearArbiter_eq s p
  rw [h]; rfl

@[simp] theorem clearArbiter_objects : (clearArbiter s p).objects = s.objects := by
  obtain ⟨cs, h⟩ := clearArbiter_eq s p
  rw [h]; rfl

@[simp] theorem clearArbiter_jobs : (clearArbiter s p).jobs = s.jobs := by
  obtain ⟨cs, h⟩ := clearArbiter_eq s p
  rw [h]; rfl

@[simp] theorem tile_clearArbiter (t : TileId) : (clearArbiter s p).tile t = s.tile t := by
  obtain ⟨cs, h⟩ := clearArbiter_eq s p
  rw [h]; rfl

theorem part_clearArbiter : (clearArbiter s p).part p = { s.part p with arb := { Arbiter.reset with masked := List.range 11 } } := by
  obtain ⟨cs, h⟩ := clearArbiter_eq s p
  rw [h, State.part_setPart]

theorem part_clearArbiter_ne {q : Nat} (hq : q ≠ p) : (clearArbiter s p).part q = s.part q := by
  obtain ⟨cs, h⟩ := clearArbiter_eq s p
  rw [h, State.part_setPart_ne _ _ hq]
  rfl

/-- What a partition's reset takes away before its arbiter is cleared: registers, scratchpads and lines (R74, R426). -/
def wiped : State :=
  { s with tiles := s.tiles.filter (fun e => e.1 / 64 != p), mem := s.mem.clear (0x4000000000 + 0x100000 * 64 * p) (0x100000 * 64) }.setPart p
    { s.part p with lines := [], plru := [], prefetchers := [] }

theorem resetUnits_eq : resetUnits s p = clearArbiter (wiped s p) p := rfl

theorem mem_wiped : (wiped s p).mem = s.mem.clear (0x4000000000 + 0x4000000 * p) 0x4000000 := rfl

theorem tile_wiped (t : TileId) (h : partOfTile t = p) : (wiped s p).tile t = TileState.cleared := by
  have := Tab.get?_filter_drop s.tiles (fun k => k / 64 != p) (k := t.toNat) (by simpa [partOfTile] using h)
  exact congrArg (·.getD TileState.cleared) this

theorem tile_wiped_ne (t : TileId) (h : partOfTile t ≠ p) : (wiped s p).tile t = s.tile t := by
  have := Tab.get?_filter_keep s.tiles (fun k => k / 64 != p) (k := t.toNat) (by simpa [partOfTile] using h)
  exact congrArg (·.getD TileState.cleared) this

theorem part_wiped : (wiped s p).part p = { s.part p with lines := [], plru := [], prefetchers := [] } :=
  State.part_setPart _ p _

theorem part_wiped_ne {q : Nat} (hq : q ≠ p) : (wiped s p).part q = s.part q :=
  State.part_setPart_ne _ _ hq

end

/-- Settles O36: the reset wipes the partition's tiles, scratchpads and lines and then clears its arbiter. -/
theorem resetUnits_spec : Obligations.ResetUnits := by
  unfold Obligations.ResetUnits
  intro s p hp
  simp only [resetUnits_eq, clearArbiter_mem, clearArbiter_hostMem, clearArbiter_objects, clearArbiter_jobs, tile_clearArbiter,
    part_clearArbiter, part_wiped, mem_wiped]
  refine ⟨fun a h1 h2 => ?_, fun a ha => ?_, fun t => tile_wiped s p t, fun t => tile_wiped_ne s p t, trivial, rfl, fun r => ?_, fun q hq => ?_,
    rfl, rfl, rfl⟩
  · rw [Nat.mul_succ, ← Nat.add_assoc] at h2
    exact Memory.byte_clear_inside _ _ _ _ h1 h2
  · rw [Nat.mul_succ, ← Nat.add_assoc] at ha
    exact Memory.byte_clear_outside _ _ _ _ ha
  · exact List.contains_iff_mem.mpr (List.mem_range.mpr r.isLt)
  · rw [part_clearArbiter_ne _ _ hq, part_wiped_ne _ _ hq]

end Sys2Proof.Machine
end

section
/-! SUPPORT. What TMOVE adds to its cluster mover (R65, R127, R129, R130, R138). -/

namespace Sys2Proof.Machine

open Sys2Proof

/-! ### TMOVE (R65, R127, R129, R130, R138) -/

/-- Lines asked of a prefetcher change the partitions alone (R149). -/
theorem prefetchRuns_parts (s : State) (t : TileId) (slot k : Nat) (d : Descriptor) (o : Obj) (p : Placement) :
    ∃ ps, prefetchRuns s t slot k d o p = { s with parts := ps } := by
  simp only [prefetchRuns]
  split
  · exact ⟨_, rfl⟩
  · exact ⟨s.parts, rfl⟩

/-- A `TMOVE` whose descriptor's object is found, placed and large enough, with room in the mover interface, joins its run to the mover;
`off` is the offset and the scale offset that the descriptor gives the run. -/
theorem exec_tmove_of_placed {s : State} {t : TileId} (h : Issuing s t) {slot : BitVec 6} {sem loc : BitVec 4} {k : BitVec 3} {indexed : Bool}
    {d : Descriptor} {oid : Nat} {o : Obj} {p : Placement} {off : Nat × Nat}
    (hoff : (if indexed then d.indexed ((s.tile t).counters[k.toNat]).toNat else (d.offset, d.scaleOffset)) = off)
    (hd : (s.tile t).descs[slot.toNat]? = some d) (hq : moverQueue s t < 5) (hoid : descObject s t d = some oid) (ho : s.obj? oid = some o)
    (hp : runPlace o (tileShadow s t) = some p) (hf : indexed = true → d.fitsIn off.1 off.2 o.length = true) :
    exec (.tmove t slot sem loc k indexed) s = .next
      (if indexed && p.tier == 3 && !resHeld (joinMover s t (newRun s t d oid p off sem loc false)) p then
        failRun (peerCause (joinMover s t (newRun s t d oid p off sem loc false)) (newRun s t d oid p off sem loc false))
          (clusterOfTile t) (newRun s t d oid p off sem loc false) [] 0
       else if indexed && d.prefetch && !d.outward then
        prefetchRuns (joinMover s t (newRun s t d oid p off sem loc false)) t slot.toNat ((s.tile t).counters[k.toNat]).toNat d o p
       else joinMover s t (newRun s t d oid p off sem loc false)) := by
  have hfit : (indexed && !d.fitsIn off.1 off.2 o.length) = false := by
    cases indexed
    · rfl
    · simp [hf rfl]
  simp only [exec, execTmove, word_issuing h, issueTmove, hd, Nat.not_le.mpr hq, hoff, hoid, ho, hp, hfit, takeInjection_none h.2, if_false,
    Bool.false_eq_true, Option.isSome_none]

section
variable (s : State) (t : TileId) (r : Run)

theorem joinMover_resHeld (p : Placement) : resHeld (joinMover s t r) p = resHeld s p := rfl

theorem joinMover_runs : ((joinMover s t r).cluster (clusterOfTile t)).runs = (s.cluster (clusterOfTile t)).runs ++ [r] :=
  congrArg Cluster.runs (State.cluster_setCluster { s with runIds := s.runIds + 1 } _ _)

theorem joinMover_cluster_ne {e : Nat} (he : e ≠ clusterOfTile t) : (joinMover s t r).cluster e = s.cluster e :=
  State.cluster_setCluster_ne { s with runIds := s.runIds + 1 } _ he

theorem joinMover_tile : (joinMover s t r).tile t = { (s.tile t).advance with openRuns := (s.tile t).openRuns + 1 } :=
  State.tile_setTile _ t _

theorem joinMover_tile_ne {v : TileId} (hv : v ≠ t) : (joinMover s t r).tile v = s.tile v :=
  State.tile_setTile_ne _ _ hv

end

/-- Settles O21: where no reservation is missing, only a prefetcher may be asked besides for lines. -/
theorem tileMoveWord : Obligations.TileMoveWord := by
  unfold Obligations.TileMoveWord
  intro s t slot sem loc k indexed d oid o p h x c off hd hq hoid ho hp hf
  have he := exec_tmove_of_placed h (sem := sem) (loc := loc) (off := off) rfl hd hq hoid ho hp hf
  refine ⟨fun hi ht hr => ?_, fun hr => ?_⟩
  · rw [he, joinMover_resHeld, if_pos (by simp [hi, ht, hr])]
  · have hheld : ¬((indexed && p.tier == 3 && !resHeld s p) = true) := by
      simpa using hr
    have hxfers : ∀ y ∈ (newRun s t d oid p off sem loc false).xfers, y.state = .unpresented := fun y hy => by
      rw [List.eq_of_mem_replicate hy]
    rw [joinMover_resHeld, if_neg hheld] at he
    obtain ⟨ps, hps⟩ : ∃ ps, exec (.tmove t slot sem loc k indexed) s =
        .next { joinMover s t (newRun s t d oid p off sem loc false) with parts := ps } := by
      rw [he]
      split
      · obtain ⟨ps, hps⟩ := prefetchRuns_parts (joinMover s t (newRun s t d oid p off sem loc false)) t slot.toNat
          ((s.tile t).counters[k.toNat]).toNat d o p
        exact ⟨ps, by rw [hps]⟩
      · exact ⟨(joinMover s t (newRun s t d oid p off sem loc false)).parts, rfl⟩
    exact ⟨_, _, hps, joinMover_runs s t _, rfl, rfl, rfl, rfl, rfl, rfl, rfl, rfl, rfl, List.length_replicate, hxfers, rfl, rfl,
      joinMover_tile s t _, fun v hv => joinMover_tile_ne s t _ hv, fun e he => joinMover_cluster_ne s t _ he, rfl, rfl, rfl, rfl⟩

end Sys2Proof.Machine
end

section
/-! SUPPORT. The life of a lease: loading, saving, reloading and the shadow (R74, R77, R384, R389, R390, R398, R399). -/

namespace Sys2Proof.Machine

open Sys2Proof

/-! ### Loading, saving and reloading a lease (R74, R77, R384, R389, R390) -/

theorem exec_leaseLoadComplete_of_mayLoad {s : State} {job : Nat} {j : Job} (hj : s.job? job = some j) (hm : mayLoad s j = true) :
    exec (.leaseLoadComplete job) s = .next
      (let l := loadLease s j
       let v := serveWaiting (recover (updJob l job (fun j => { (if j.lease = 3 then j else j.ready l.now) with rerun := false })) job)
       enforceCap v (capInForce v)) := by
  simp only [exec, execLeaseLoadComplete, hj, hm, if_true]

theorem exec_switchSaveWritten_of_saving {s : State} {job : Nat} {j k : Job} {o : Obj} (hj : s.job? job = some j) (hl : j.lease = 4)
    (hk : (landStopped s job).job? job = some k) (ho : (landStopped s job).obj? k.saveObject = some o) :
    exec (.switchSaveWritten job) s = .next
      (let w := landStopped s job
       let f := w.freeBytes o.length
       let u := objWriteBytes f.2 o 0 f.1
       let v := freeClusters (u.setJob job { k with lease := 5, clusters := [], queuedSince := u.now }) k.clusters
       afterwards (enforceCap v (capInForce v))) := by
  simp only [exec, execSwitchSaveWritten, hj, hl, hk, ho, ne_eq, not_true_eq_false, if_false]

theorem exec_switchReloadComplete_of_reloading {s : State} {job : Nat} {j : Job} (hj : s.job? job = some j) (hl : j.lease = 6)
    (hs : leaseInService s j.clusters = true) :
    exec (.switchReloadComplete job) s = .next
      (let u := restore (loadLease s j) j (j.roleClusters .primary)
       let u := updJob u job (fun k => { k with
         saved := [], savedMem := [], savedRuns := [], resumeRunning := false, rerun := false
         lease := if k.cancelled then 8 else if j.resumeRunning && !j.saved.isEmpty then 3 else 2 })
       let v := serveWaiting (if j.rerun then recover u job else u)
       enforceCap v (capInForce v)) := by
  simp only [exec, execSwitchReloadComplete, hj, hl, hs, ne_eq, not_true_eq_false, Bool.true_eq_false, or_self, if_false]
  rfl

/-! ### The shadow of a lease (R398, R399) -/

theorem exec_shadowEstablish_of_running {s : State} {job : Nat} {j : Job} (hj : s.job? job = some j) (hi : j.invocation.isSome = true) :
    exec (.shadowEstablish job) s = .next s := by
  simp only [exec, execShadowEstablish, hj]
  split
  · rfl
  · rw [if_pos (by simp [hi])]

/-- A shadow that may be established: `u` is the state with its clusters powered and its twins copied. -/
theorem exec_shadowEstablish_of_ready {s u : State} {job p : Nat} {j : Job} {cs fb : List Nat} {im : Image} {here : Nat} {mine : List Stream}
    (hhere : (j.clusters.head?.getD 0) / 8 = here) (hmine : (s.part here).streams.filter (fun x => x.job == job) = mine)
    (hj : s.job? job = some j) (hc : shadowClusters s j = some (p, cs, fb)) (hw : j.wantShadow = true) (hi : j.invocation = none)
    (hl : j.lease = 2) (hp : (s.part p).state = 0) (hh : p ≠ here) (ht : twinsFit s (needTwins s j here) p = true)
    (hsec : secondsFit s p mine = true)
    (hr : roomFor s (leaseCap s) ((cs ++ fb).filter (fun c => !(s.cluster c).leased)).length = true)
    (hu : makeTwins (forEach fb (forEach cs s (fun s c => powerOnCluster s job .shadow c)) (fun s c => powerOnCluster s job .shadowFallback c))
      (needTwins s j here) p = u) (him : u.image? j.image = some im) :
    exec (.shadowEstablish job) s = .next
      (let v := loadImage u (sortBy (fun a b => a < b) cs) im
       let w := match v.image? j.fallback with
        | some fim => loadImage v (sortBy (fun a b => a < b) fb) fim
        | none => v
       let sh : Shadow := { partition := p, clusters := cs, fallbackClusters := fb, state := 1, run := none, queued := []
                            commits := [], streams := mine }
       noteCap (updJob w job (fun j => { j with shadow := some sh, shadowPart := none }))) := by
  simp only [exec, execShadowEstablish, hj, hc, hhere, hmine, hw, hi, hl, hp, beq_eq_false_iff_ne.mpr hh, ht, hsec, hr, hu, him,
    Option.isSome_none, bne_self_eq_false, Bool.not_true, Bool.or_self, Bool.false_eq_true, if_false] <;> rfl

/-- Settles O32, by what each of the four events does in the state that its rule names. -/
theorem leaseLifecycle : Obligations.LeaseLifecycle := by
  unfold Obligations.LeaseLifecycle
  refine ⟨fun s job j hj hm => exec_leaseLoadComplete_of_mayLoad hj hm,
    fun s job j k o hj hl hk ho => exec_switchSaveWritten_of_saving hj hl hk ho,
    fun s job j hj hl hs => exec_switchReloadComplete_of_reloading hj hl hs,
    fun s job j p cs fb im hj hc => ⟨exec_shadowEstablish_of_running hj, ?_⟩⟩
  intro hw hi hl hp here mine hh ht hsec hr him powered u hu
  exact exec_shadowEstablish_of_ready rfl rfl hj hc hw hi hl hp hh ht hsec hr rfl ((congrArg (Tab.get? · j.image) hu).trans him)

end Sys2Proof.Machine
end

section
/-! SUPPORT. The commands for images and jobs where their checks pass: loading, submitting, cancelling, feeding, fallbacks (R85, R357, R359, R361, R375, R383, R386, R396 to R398, R404). -/

namespace Sys2Proof.Machine

open Sys2Proof

/-! ### What a command names (R351) -/

theorem withObj_of_mayUse {s : State} {m : MbxId} {oid : Nat} {o : Obj} (ho : s.obj? oid = some o) (hu : mayUse m o.owner = true)
    (h : CmdHdr) (op : Nat) (free : Bool) (f : Obj → State) : withObj s m h op oid free f = f o := by
  simp only [withObj, ho, hu, Bool.or_true, if_true]

theorem withJob_of_mayUse {s : State} {m : MbxId} {jid : Nat} {j : Job} (hj : s.job? jid = some j) (hu : mayUse m j.owner = true)
    (h : CmdHdr) (op : Nat) (f : Job → State) : withJob s m h op jid f = f j := by
  simp only [withJob, hj, hu, if_true]

theorem State.setJob_setJob (s : State) (j : Nat) (x y : Job) : (s.setJob j x).setJob j y = s.setJob j y := by
  simp [State.setJob]

/-! ### IMAGE_LOAD and IMAGE_UNLOAD (R84, R85, R357) -/

theorem exec_imageLoad_of_placed {s : State} {m : MbxId} {h : CmdHdr} {oid : Nat} {o : Obj} (hc : Commanded s m h 0x30 4)
    (ho : s.obj? oid = some o) (hu : mayUse m o.owner = true) (hp : o.place.isSome = true)
    (hh : imageHeadOk (objBytes s o 0 (min 0x80 o.length)) o.length = true) {b : List Byte} (hb : objBytes s o 0 (objWord s o 0x1C) = b)
    {r : State × Bool} (hr : checkSigned (objTouch s o 0 b.length) (signedBy b (imageKey s)) 3 (blockKeyId b) = r) :
    exec (.imageLoad m h oid) s = .next (if r.2 = false then complete r.1 m h 0x30 0x05 [] else admitImage r.1 m h oid b) := by
  have hp' : o.place.isNone = false := by simpa using hp
  simp only [exec, execImageLoad, command_of_commanded hc, withObj_of_mayUse ho hu, hp', hh, hb, hr, Bool.not_true, Bool.false_eq_true,
    if_false, stDenied]
  cases r.2
  · rfl
  · rfl

/-- The checks of a signed image, in their order (R85). -/
theorem admitImage_eq (s : State) (m : MbxId) (h : CmdHdr) (oid : Nat) (b : List Byte) : admitImage s m h oid b =
    if imageBodyOk b = false then complete s m h 0x30 0x03 []
    else if (s.image? (fld b 8 2)).isSome = true then complete s m h 0x30 0x01 []
    else if 256 ≤ s.images.length then complete s m h 0x30 0x04 []
    else complete (sealObj { s with images := s.images.put (fld b 8 2) (Image.ofBytes b oid m.toNat) } oid true)
      m h 0x30 0 (leBytes 2 (fld b 8 2) ++ leBytes 2 (Image.ofBytes b oid m.toNat).version) := by
  unfold admitImage
  cases imageBodyOk b
  · rfl
  · rfl

theorem exec_imageUnload_of_unused {s : State} {m : MbxId} {h : CmdHdr} {id : Nat} {im : Image} (hc : Commanded s m h 0x31 2)
    (hi : s.image? id = some im) (hu : mayUse m im.owner = true) (hn : imageUsed s id = false) :
    exec (.imageUnload m h id) s = .next (complete (sealObj { s with images := s.images.erase id } im.object false) m h 0x31 0 []) := by
  simp only [exec, execImageUnload, command_of_commanded hc, hi, hu, hn, Bool.not_true, Bool.false_eq_true, if_false, stOk]

/-! ### JOB_SUBMIT (R359, R383, R386, R398) -/

section
variable {s : State} {m : MbxId} {h : CmdHdr} {id cls period count : Nat} {fl : BitVec 8} {bd : List BindEntry} {b : Bref}

theorem exec_jobSubmit_inline (hc : Commanded s m h 0x40 0x70) (hf : fl = 0 ∨ fl = 1) (h1 : 1 ≤ count) (h16 : count ≤ 16) (hl : bd.length = count)
    (hz : zeros (slice ((s.box m).current.getD []) 16 112) (0x10 + 6 * count) (96 - 6 * count) = true) :
    exec (.jobSubmit m h id cls fl period count bd b) s = .next (submitJob (wake s) m h id cls (fl.getLsbD 0) period bd) := by
  have hbad : ¬(3 < fl.toNat ∨ count = 0 ∨ 256 < count) := by rcases hf with rfl | rfl <;> simp <;> omega
  have hbit : fl.getLsbD 1 = false := by rcases hf with rfl | rfl <;> rfl
  have hbad' : ¬(16 < count ∨ bd.length ≠ count ∨ (!zeros (slice ((s.box m).current.getD []) 16 112) (0x10 + 6 * count) (96 - 6 * count)) = true) := by
    simp [hl, hz, h16]
  simp only [exec, execJobSubmit, command_of_commanded hc, hbad, hbit, hbad', if_false, Bool.false_eq_true]

theorem exec_jobSubmit_listed {r : State} {bs : List Byte} (hc : Commanded s m h 0x40 0x70) (hf : fl = 2 ∨ fl = 3) (h1 : 1 ≤ count)
    (h256 : count ≤ 256) (hz : zeros (slice ((s.box m).current.getD []) 16 112) 0x1C 84 = true) (hb : 6 * count ≤ b.len)
    (hr : bufRead (wake s) m b (6 * count) = (r, some bs)) :
    exec (.jobSubmit m h id cls fl period count bd b) s = .next
      (submitJob r m h id cls (fl.getLsbD 0) period (bindEntries bs count)) := by
  have hbad : ¬(3 < fl.toNat ∨ count = 0 ∨ 256 < count) := by rcases hf with rfl | rfl <;> simp <;> omega
  have hbit : fl.getLsbD 1 = true := by rcases hf with rfl | rfl <;> rfl
  simp only [exec, execJobSubmit, command_of_commanded hc, hbad, hbit, hz, if_true, if_false, Bool.not_true, Bool.false_eq_true,
    withBuf_of_read hb hr]

end

/-- A checked submit goes on by its class: Held, Prompt or Ambient (R383). -/
def submitByClass (s : State) (m : MbxId) (h : CmdHdr) (j : Job) (im : Image) (shadow : Bool) : Nat → State
  | 0 => submitHeld s m h j im shadow
  | 1 => submitPrompt s m h j im
  | _ => submitAmbient s m h j im

theorem submitJob_of_accepted {s : State} {m : MbxId} {id cls period : Nat} {shadow : Bool} {bd : List BindEntry} {im : Image} {j : Job}
    (hj : newJob id cls period m.toNat bd im = j) (hi : s.image? id = some im) (hu : mayUse m im.owner = true) (hok : submitOk s m im j = true)
    (hco : contentsOk s im j = .accept) (hn : jobCount s < 512) (hs : shadow = true → cls = 0) (h : CmdHdr) :
    submitJob s m h id cls shadow period bd = submitByClass s m h j im shadow cls := by
  have hns : ¬(shadow = true ∧ cls ≠ 0) := fun hc => hc.2 (hs hc.1)
  simp only [submitJob, hi, hj, hu, hok, hco, Nat.not_le.mpr hn, hns, Bool.not_true, Bool.false_eq_true, if_false]
  rcases cls with _ | _ | k <;> rfl

section
variable {s : State} {m : MbxId} {h : CmdHdr} {j : Job} {im : Image}

theorem submitHeld_of_room (hr : roomFor s (leaseCap s) (j.wantsClusters + j.wantsFallback) = true) {cs fb : List Nat}
    (hp : place s im.onePartition j.wantsClusters j.wantsFallback (eligible s 0) none = some (cs, fb)) :
    submitHeld s m h j im false = accept (grantTo (enterJob s j im).1 (enterJob s j im).2 cs fb 1) m h (enterJob s j im).2 := by
  simp only [submitHeld, Bool.or_false, hp, hr, Bool.not_false, if_true]

/-- A Held submit with a shadow: both sets of clusters are found, in two partitions, with room for the twins. -/
theorem submitHeld_of_shadow (hok : im.shadowOk = true) (hr : roomFor s (leaseCap s) (2 * (j.wantsClusters + j.wantsFallback)) = true)
    {cs fb cs2 fb2 : List Nat} (hp : place s true j.wantsClusters j.wantsFallback (eligible s 0) none = some (cs, fb))
    (hw : writesIn s j im ((cs.head?.getD 0) / 8) = true)
    (hp2 : placeOne s j.wantsClusters j.wantsFallback (eligible s 0) (some ((cs.head?.getD 0) / 8)) = some (cs2, fb2))
    (ht : twinsFit s (needTwins s j ((cs.head?.getD 0) / 8)) ((cs2.head?.getD 0) / 8) = true) :
    submitHeld s m h j im true = accept (noteCap (grantShadow (grantTo (enterJob s j im).1 (enterJob s j im).2 cs fb 1) (enterJob s j im).2
      ((cs2.head?.getD 0) / 8) cs2 fb2 (needTwins s j ((cs.head?.getD 0) / 8)))) m h (enterJob s j im).2 := by
  simp only [submitHeld, Bool.or_true, hp, hw, hp2, hok, hr, ht, Bool.not_true, Bool.or_self, Bool.false_eq_true, if_false]

theorem submitPrompt_of_room (hr : roomFor s (leaseCap s) (j.wantsClusters + j.wantsFallback) = true) {cs fb : List Nat}
    (hp : place s im.onePartition j.wantsClusters j.wantsFallback (eligible s 1) none = some (cs, fb)) :
    submitPrompt s m h j im = accept (grantTo (enterJob s j im).1 (enterJob s j im).2 cs fb 1) m h (enterJob s j im).2 := by
  simp only [submitPrompt, hr, hp, if_true]

/-- Without room or clusters a Prompt submit pre-empts the Ambient jobs chosen and waits (R386). -/
theorem submitPrompt_of_preempt
    (hn : roomFor s (leaseCap s) (j.wantsClusters + j.wantsFallback) = true →
      place s im.onePartition j.wantsClusters j.wantsFallback (eligible s 1) none = none) {ks : List Nat}
    (hk : choosePreempt s im.onePartition j.wantsClusters j.wantsFallback = some ks) :
    submitPrompt s m h j im = await (preemptFirst { clearPools s j im with jobs := s.jobs.put (waitKey m) (j.epochs im s) } ks) m h 0x40
      (.submit (waitKey m)) := by
  have hd : (if roomFor s (leaseCap s) (j.wantsClusters + j.wantsFallback) = true then
      place s im.onePartition j.wantsClusters j.wantsFallback (eligible s 1) none else none) = none := by
    split
    · exact hn ‹_›
    · rfl
  simp only [submitPrompt, hd, hk]

theorem submitAmbient_of_saved (hb : saveBytes im ≤ 0x4000000) {t : State} {save : Nat}
    (hs : makeSave s m.toNat ((saveBytes im + 255) / 256 * 256) = some (t, save)) :
    submitAmbient s m h j im = accept (grantQueue 64 (enterJob t { j with saveObject := save, queuedSince := s.now } im).1) m h
      (enterJob t { j with saveObject := save, queuedSince := s.now } im).2 := by
  simp only [submitAmbient, Nat.not_lt.mpr hb, hs, if_false]

end

/-! ### JOB_CANCEL, JOB_FEED and JOB_SET_FALLBACK (R236 to R239, R361, R375, R384, R396, R397, R404) -/

/-- A fallback named while no invocation has begun is taken at once; else it stays named. -/
theorem takeFallback_of_named {s : State} {jid id : Nat} {j : Job} {im : Image} (hi : s.image? id = some im) :
    takeFallback (s.setJob jid { j with nextFallback := some id }) jid =
      if j.invocation.any Invocation.begun = true then s.setJob jid { j with nextFallback := some id }
      else loadImage (loadImage (s.setJob jid { j with fallback := id, nextFallback := none }) (j.roleClusters .fallback) im)
        (j.roleClusters .shadowFallback) im := by
  simp only [takeFallback, State.job?_setJob, State.image?_setJob, Option.bind_some, hi, Option.map_some, State.setJob_setJob]
  rfl

section
variable {s : State} {m : MbxId} {jid : Nat} {j : Job} (hj : s.job? jid = some j) (hu : mayUse m j.owner = true)
include hj hu

theorem exec_jobCancel_idle {h : CmdHdr} (hc : Commanded s m h 0x41 3) (hi : j.invocation = none) :
    exec (.jobCancel m h jid 0) s = .next (endJob (await s m h 0x41 (.cancel jid)) jid) := by
  simp only [exec, execJobCancel, command_of_commanded hc, withJob_of_mayUse hj hu, cancelLater, hi, Option.isNone_none, if_true]

theorem exec_jobCancel_running {h : CmdHdr} (hc : Commanded s m h 0x41 3) (hi : j.invocation.isSome = true) :
    exec (.jobCancel m h jid 0) s = .next
      ((await s m h 0x41 (.cancel jid)).setJob jid { j with cancelled := true, lease := if j.lease = 3 then 8 else j.lease }) := by
  have hn : j.invocation.isNone = false := by simpa using hi
  simp only [exec, execJobCancel, command_of_commanded hc, withJob_of_mayUse hj hu, cancelLater, hn, Bool.false_eq_true, if_false]

theorem exec_jobCancel_now {h : CmdHdr} (hc : Commanded s m h 0x41 3) : exec (.jobCancel m h jid 1) s = .next
    (serveWaiting (complete (cancelNow (stopClusters s j.allClusters) jid) m h 0x41 0 [])) := by
  simp only [exec, execJobCancel, command_of_commanded hc, withJob_of_mayUse hj hu, stOk]

theorem exec_jobFeed_trigger {h : CmdHdr} (hc : Commanded s m h 0x43 0x20) {im : Image} {b : Bref} (hi : s.image? j.image = some im)
    (ha : b.addr = 0) (hl : b.len = 0) (hz : zeros (slice ((s.box m).current.getD []) 16 112) 8 24 = true) (hp : j.period = 0)
    (hr : rowFed im = false) :
    exec (.jobFeed m h jid 0 0 0 b) s = .next (if 16 ≤ j.triggers.length then complete s m h 0x43 0x04 []
      else acceptFeed (s.setJob jid { j with triggers := j.triggers ++ [j.nextFeed] }) m h jid 0) := by
  simp only [exec, execJobFeed, command_of_commanded hc, withJob_of_mayUse hj hu, hi, feedTrigger, ha, hl, hz, hp, hr, ne_eq, not_true_eq_false,
    Bool.true_eq_false, Bool.false_eq_true, or_self, if_false, stNoResource]

/-- A feed of stream rows none of which breaks a rule is queued row by row. -/
theorem exec_jobFeed_streams {h : CmdHdr} (hc : Commanded s m h 0x43 0x20) {im : Image} {n size : Nat} {b : Bref} {g : StreamGeo} {r : State}
    {bs : List Byte} (hi : s.image? j.image = some im) (hg : jobStreamGeo s j = some g) (h1 : 1 ≤ n) (h256 : n ≤ 256) (hs : size = g.rowBytes)
    (hb : n * size ≤ b.len) (hr : bufRead s m b (n * size) = (r, some bs)) {rows : List (List Byte)} {ids : List Nat} {chunk : Nat → Chunk}
    (hrows : (List.range n).map (fun k => slice bs (k * size) size) = rows) (hids : rows.map (fun x => fld x 0 4) = ids)
    (hchunk : (fun k => chunkOf (rows.getD k []) j.nextFeed m.toNat (b.addr + k * size) r.now) = chunk)
    (hok : ∀ x ∈ rows.zipIdx, rowStatus1 r m jid g x.1 (ids.take x.2) = 0) :
    exec (.jobFeed m h jid 1 n size b) s = .next (serveStreams (acceptFeed (forEach (List.range n) r (fun s k =>
      rowState1 (queueChunk s jid (ids.getD k 0) (chunk k)) (chunk k) 1 0)) m h jid n)) := by
  have hn : ¬(n = 0 ∨ 256 < n ∨ size ≠ g.rowBytes) := by omega
  have hbad : firstBad (rows.zipIdx.map (fun x => rowStatus1 r m jid g x.1 (ids.take x.2))) = 0 := by
    have hf : (rows.zipIdx.map (fun x => rowStatus1 r m jid g x.1 (ids.take x.2))).find? (fun x => x != 0) = none := by
      rw [List.find?_eq_none]
      intro st hst
      obtain ⟨x, hx, rfl⟩ := List.mem_map.mp hst
      simp [hok x hx]
    rw [firstBad, hf, Option.getD_none]
  simp only [exec, execJobFeed, command_of_commanded hc, withJob_of_mayUse hj hu, hi, feedStreams, hg, hn, if_false, withBuf_of_read hb hr, hrows,
    hids, hbad, ne_eq, not_true_eq_false, stOk, ← hchunk]

theorem exec_jobFeed_sequences {h : CmdHdr} (hc : Commanded s m h 0x43 0x20) {im : Image} (hi : s.image? j.image = some im) (n size : Nat) (b : Bref) :
    exec (.jobFeed m h jid 2 n size b) s = .next (feedSequences s m h jid j im n size b) := by
  simp only [exec, execJobFeed, command_of_commanded hc, withJob_of_mayUse hj hu, hi]

theorem exec_jobSetFallback_of_fits {h : CmdHdr} (hc : Commanded s m h 0x44 4) {id : Nat} {im : Image} (hi : s.image? id = some im)
    (hui : mayUse m im.owner = true) (h2 : j.cls ≠ 2) (hf : j.fbClusters ≠ []) (hn : im.fallbackClusters ≤ j.fbClusters.length)
    (hb : im.bindings.all (fun d => (j.slotObj d.slot).isSome) = true) (hr : fallbackRuns j = false) :
    exec (.jobSetFallback m h jid id) s = .next
      (complete (takeFallback (s.setJob jid { j with nextFallback := some id }) jid) m h 0x44 0 []) := by
  have hbad : ¬(j.cls = 2 ∨ j.fbClusters.isEmpty = true ∨ j.fbClusters.length < im.fallbackClusters ∨
      im.bindings.any (fun d => (j.slotObj d.slot).isNone) = true) := by
    have hb' : im.bindings.any (fun d => (j.slotObj d.slot).isNone) = false := by
      simpa [List.any_eq_false, Option.isSome_iff_ne_none] using hb
    simp [h2, hf, Nat.not_lt.mpr hn, hb']
  simp only [exec, execJobSetFallback, command_of_commanded hc, withJob_of_mayUse hj hu, hi, hui, hbad, hr, Bool.not_true, Bool.false_eq_true,
    if_false, stOk]

end

/-! ### Every clause -/

/-- Settles O42: each clause is the meaning of its command where the checks before it pass. -/
theorem imageAndJobCommands : Obligations.ImageAndJobCommands := by
  unfold Obligations.ImageAndJobCommands
  refine ⟨fun s m h oid o hc ho hu hp hh => ?_, fun s m h id im hc hi hu hn => exec_imageUnload_of_unused hc hi hu hn,
    fun s m h id cls period count fl bd b hc hf h1 h16 hl hz => exec_jobSubmit_inline hc hf h1 h16 hl hz,
    fun s m h id cls period shadow bd im hi hu => ?_,
    fun s r m h id cls period count fl bd b bs hc hf h1 h256 hz hb hr => exec_jobSubmit_listed hc hf h1 h256 hz hb hr,
    fun s m h jid j hj hu => ⟨exec_jobCancel_idle hj hu, exec_jobCancel_running hj hu, exec_jobCancel_now hj hu,
      fun im b hc hi ha hl hz hp hr => exec_jobFeed_trigger hj hu hc hi ha hl hz hp hr,
      fun im n size b g r bs hc hi hg h1 h256 hs hb hr => exec_jobFeed_streams hj hu hc hi hg h1 h256 hs hb hr rfl rfl rfl,
      fun im n size b hc hi => exec_jobFeed_sequences hj hu hc hi n size b,
      fun id im hc hi hui h2 hf hn hb hr => ?_⟩⟩
  · rw [exec_imageLoad_of_placed hc ho hu hp hh rfl rfl, admitImage_eq]
  · intro j n run hok hco hn
    refine ⟨fun hcls hs hr cs fb hp => ?_, fun hcls hs hso hr cs fb cs2 fb2 hp hw hp2 ht => ?_, fun hcls hs hnr ks hk => ?_,
      fun hcls hs hb t save hsave => ?_⟩
    · rw [submitJob_of_accepted rfl hi hu hok hco hn (by simp [hs])]
      subst hs
      rcases hcls with rfl | rfl
      · exact submitHeld_of_room hr hp
      · exact submitPrompt_of_room hr hp
    · rw [submitJob_of_accepted rfl hi hu hok hco hn (fun _ => hcls)]
      subst hs hcls
      exact submitHeld_of_shadow hso hr hp hw hp2 ht
    · rw [submitJob_of_accepted rfl hi hu hok hco hn (by simp [hs])]
      subst hcls
      exact submitPrompt_of_preempt hnr hk
    · rw [submitJob_of_accepted rfl hi hu hok hco hn (by simp [hs])]
      subst hcls
      exact submitAmbient_of_saved hb hsave
  · rw [exec_jobSetFallback_of_fits hj hu hc hi hui h2 hf hn hb hr, takeFallback_of_named hi]
    split
    · rfl
    · rfl

end Sys2Proof.Machine
end

section
/-! SUPPORT. What each step keeps: both memories stay in canonical form, and the queue loses exactly its front command (R117, R133). -/

namespace Sys2Proof.Machine

open Sys2Proof

/-- Every command keeps both memories in canonical form and leaves the queue alone: one arm per command, as `exec` has. -/
theorem exec_kept {q : List Instr} (c : Instr) {s : State} (h : Kept q s) : KeptOut q (exec c s) :=
  match c with
  | .nop .. => execNop_kept _ _ h
  | .setp .. => execSetp_kept _ _ _ _ h
  | .addp .. => execAddp_kept _ _ _ _ h
  | .setmode .. => execSetmode_kept _ _ _ _ _ _ _ h
  | .loop .. => execLoop_kept _ _ _ _ _ h
  | .accz .. => execAccz_kept _ _ _ h
  | .mma .. => execMma_kept _ _ _ _ _ _ _ h
  | .accrd .. => execAccrd_kept _ _ _ _ _ _ h
  | .vop .. => execVop_kept _ _ _ _ _ _ _ h
  | .vpoly .. => execVpoly_kept _ _ _ _ _ _ h
  | .vred .. => execVred_kept _ _ _ _ _ _ _ h
  | .xpose .. => execXpose_kept _ _ _ _ _ h
  | .shuf .. => execShuf_kept _ _ _ _ _ _ h
  | .spop .. => execSpop_kept _ _ _ _ _ _ _ _ h
  | .sls .. => execSls_kept _ _ _ _ _ _ h
  | .tmove .. => execTmove_kept _ _ _ _ _ _ _ h
  | .send .. => execSend_kept _ _ _ _ _ _ h
  | .recv .. => execRecv_kept _ _ _ _ _ _ h
  | .recvFilled .. => execRecvFilled_kept _ _ _ h
  | .wait .. => execWait_kept _ _ _ _ h
  | .waitSatisfied .. => execWaitSatisfied_kept _ _ h
  | .signal .. => execSignal_kept _ _ _ _ _ h
  | .fence .. => execFence_kept _ _ _ _ _ h
  | .mark .. => execMark_kept _ _ _ h
  | .commitWord .. => execCommitWord_kept _ _ _ h
  | .endWord .. => execEndWord_kept _ _ h
  | .illegalWord .. => execIllegalWord_kept _ _ _ h
  | .flitParityError .. => execFlitParityError_kept _ _ _ h
  | .unitWordComplete .. => execUnitWordComplete_kept _ _ _ h
  | .arbiterRequest .. => execArbiterRequest_kept _ _ _ _ _ _ h
  | .arbiterGrant .. => execArbiterGrant_kept _ _ _ h
  | .turnEstimateUpdate .. => execTurnEstimateUpdate_kept _ _ h
  | .arbiterProtocolBreach .. => execArbiterProtocolBreach_kept _ _ _ _ _ h
  | .transferWritten .. => execTransferWritten_kept _ _ _ h
  | .lateThresholdExpiry .. => execLateThresholdExpiry_kept _ _ _ h
  | .scrubBurst .. => execScrubBurst_kept _ _ _ _ h
  | .scrubWindowBoundary .. => execScrubWindowBoundary_kept _ _ h
  | .dramRefresh .. => execDramRefresh_kept _ _ _ h
  | .bar2Read .. => execBar2Read_kept _ _ _ h
  | .bar2Write .. => execBar2Write_kept _ _ _ h
  | .hangCheck => execHangCheck_kept _ h
  | .invocationStart .. => execInvocationStart_kept _ _ h
  | .periodicStartInstant .. => execPeriodicStartInstant_kept _ _ h
  | .spillWritten .. => execSpillWritten_kept _ _ h
  | .attnPassStart .. => execAttnPassStart_kept _ _ h
  | .pageRecallWritten .. => execPageRecallWritten_kept _ _ h
  | .gatePassPrepare .. => execGatePassPrepare_kept _ _ h
  | .epochCutoff .. => execEpochCutoff_kept _ _ h
  | .ingressWrite .. => execIngressWrite_kept _ _ _ h
  | .swapOutWritten .. => execSwapOutWritten_kept _ _ _ h
  | .swapInWritten .. => execSwapInWritten_kept _ _ _ h
  | .invocationCommit .. => execInvocationCommit_kept _ _ h
  | .milestoneDue .. => execMilestoneDue_kept _ _ h
  | .leaseLoadComplete .. => execLeaseLoadComplete_kept _ _ h
  | .switchSaveWritten .. => execSwitchSaveWritten_kept _ _ h
  | .switchReloadComplete .. => execSwitchReloadComplete_kept _ _ h
  | .shadowEstablish .. => execShadowEstablish_kept _ _ h
  | .detectorEvent .. => execDetectorEvent_kept _ _ h
  | .castReadTimeout .. => execCastReadTimeout_kept _ _ _ _ h
  | .castComplete .. => execCastComplete_kept _ _ h
  | .sliceWriteBackComplete .. => execSliceWriteBackComplete_kept _ _ h
  | .partitionResetRelease .. => execPartitionResetRelease_kept _ _ h
  | .dramTrainingComplete .. => execDramTrainingComplete_kept _ _ _ h
  | .partitionInService .. => execPartitionInService_kept _ _ h
  | .atelierWatchdogExpiry => execAtelierWatchdogExpiry_kept _ h
  | .atelierMemoryUncorrected => execAtelierMemoryUncorrected_kept _ h
  | .injectionDisarm => execInjectionDisarm_kept _ h
  | .commandFetch .. => execCommandFetch_kept _ _ h
  | .commandTimeout .. => execCommandTimeout_kept _ _ h
  | .undefinedOpcode .. => execUndefinedOpcode_kept _ _ _ _ h
  | .identify .. => execIdentify_kept _ _ _ h
  | .getLimits .. => execGetLimits_kept _ _ _ h
  | .plinthRead .. => execPlinthRead_kept _ _ _ _ _ h
  | .reliefList .. => execReliefList_kept _ _ _ _ h
  | .reliefApply .. => execReliefApply_kept _ _ _ _ h
  | .objCreate .. => execObjCreate_kept _ _ _ _ _ h
  | .objPlace .. => execObjPlace_kept _ _ _ _ _ _ _ _ h
  | .objWrite .. => execObjWrite_kept _ _ _ _ _ _ h
  | .objRead .. => execObjRead_kept _ _ _ _ _ _ h
  | .objFree .. => execObjFree_kept _ _ _ _ h
  | .objDelta .. => execObjDelta_kept _ _ _ _ _ h
  | .imageLoad .. => execImageLoad_kept _ _ _ _ h
  | .imageUnload .. => execImageUnload_kept _ _ _ _ h
  | .jobSubmit .. => execJobSubmit_kept _ _ _ _ _ _ _ _ _ _ h
  | .jobCancel .. => execJobCancel_kept _ _ _ _ _ h
  | .jobQuery .. => execJobQuery_kept _ _ _ _ _ h
  | .jobFeed .. => execJobFeed_kept _ _ _ _ _ _ _ _ h
  | .jobSetFallback .. => execJobSetFallback_kept _ _ _ _ _ h
  | .streamOpen .. => execStreamOpen_kept _ _ _ _ _ _ h
  | .streamResetRows .. => execStreamResetRows_kept _ _ _ _ _ _ h
  | .streamPark .. => execStreamPark_kept _ _ _ _ _ _ h
  | .streamClose .. => execStreamClose_kept _ _ _ _ _ _ h
  | .kvPrefixPin .. => execKvPrefixPin_kept _ _ _ _ _ _ h
  | .kvRelease .. => execKvRelease_kept _ _ _ _ _ h
  | .timeConfig .. => execTimeConfig_kept _ _ _ _ _ _ _ _ _ h
  | .timeForce .. => execTimeForce_kept _ _ _ _ h
  | .fabricStatus .. => execFabricStatus_kept _ _ _ _ h
  | .fabricJoinPolicy .. => execFabricJoinPolicy_kept _ _ _ _ _ _ h
  | .faultInjectArm .. => execFaultInjectArm_kept _ _ _ _ h
  | .faultStatus .. => execFaultStatus_kept _ _ _ _ h
  | .castFetch .. => execCastFetch_kept _ _ _ _ _ _ h
  | .partitionReset .. => execPartitionReset_kept _ _ _ _ _ h
  | .patinaRead .. => execPatinaRead_kept _ _ _ _ _ _ h
  | .calendarSet .. => execCalendarSet_kept _ _ _ _ _ h
  | .fwStage .. => execFwStage_kept _ _ _ _ _ h
  | .fwCommit .. => execFwCommit_kept _ _ _ _ h
  | .attest .. => execAttest_kept _ _ _ _ _ h
  | .powerMode .. => execPowerMode_kept _ _ _ _ _ h
  | .dblCmd .. => execDblCmd_kept _ _ _ _ h
  | .dblCpl .. => execDblCpl_kept _ _ _ _ h
  | .mailboxEnable .. => execMailboxEnable_kept _ _ _ _ h
  | .mailboxDisable .. => execMailboxDisable_kept _ _ _ _ h
  | .mbxLostRead .. => execMbxLostRead_kept _ _ _ h
  | .evtStatusClear .. => execEvtStatusClear_kept _ _ _ h
  | .fltStatusClear .. => execFltStatusClear_kept _ _ _ h
  | .injectionRequest .. => execInjectionRequest_kept _ _ _ h
  | .fltInjDoneRead .. => execFltInjDoneRead_kept _ _ h
  | .timIncrWrite .. => execTimIncrWrite_kept _ _ _ h
  | .timAdjWrite .. => execTimAdjWrite_kept _ _ _ h
  | .timLowWordRead .. => execTimLowWordRead_kept _ _ _ h
  | .timStatusClear .. => execTimStatusClear_kept _ _ _ h
  | .tsqPop .. => execTsqPop_kept _ _ _ h
  | .tsqDroppedRead .. => execTsqDroppedRead_kept _ _ _ h
  | .tsqDisable .. => execTsqDisable_kept _ _ _ h
  | .tsqStatusClear .. => execTsqStatusClear_kept _ _ _ _ h
  | .windowLowWordWrite .. => execWindowLowWordWrite_kept _ _ _ _ h
  | .windowHighWordWrite .. => execWindowHighWordWrite_kept _ _ _ _ h
  | .badSizeAccess .. => execBadSizeAccess_kept _ _ _ _ _ h
  | .registerWrite .. => execRegisterWrite_kept _ _ _ _ _ h
  | .timeBaseTick => execTimeBaseTick_kept _ h
  | .sync .. => execSync_kept _ _ _ _ _ _ _ _ h
  | .followUp .. => execFollowUp_kept _ _ _ _ _ _ h
  | .delayReq port sender domain rxStamp => execDelayReq_kept port sender domain rxStamp s h
  | .delayResp .. => execDelayResp_kept _ _ _ _ _ _ h
  | .pdelayReq port sender domain rxStamp => execPdelayReq_kept port sender domain rxStamp s h
  | .pdelayResp port sender domain rxStamp peerRx correction twoStep => execPdelayResp_kept port sender domain rxStamp peerRx correction twoStep s h
  | .pdelayRespFollowUp port sender domain peerTx correction => execPdelayRespFollowUp_kept port sender domain peerTx correction s h
  | .announce .. => execAnnounce_kept _ _ _ _ h
  | .ptpMessageDiscard port => execPtpMessageDiscard_kept port s h
  | .ptpMessageSend .. => execPtpMessageSend_kept _ _ _ h
  | .followUpAbandon .. => execFollowUpAbandon_kept _ _ h
  | .announceReceiptTimeout port => execAnnounceReceiptTimeout_kept port s h
  | .holdoverExceeded => execHoldoverExceeded_kept _ h
  | .calendarUpdate => execCalendarUpdate_kept _ h
  | .serviceFrameReceived .. => execServiceFrameReceived_kept _ _ _ _ _ h
  | .serviceFrameTransmit .. => execServiceFrameTransmit_kept _ _ h
  | .transmitRingPoll .. => execTransmitRingPoll_kept _ _ h
  | .boundaryFrameReceived .. => execBoundaryFrameReceived_kept _ _ _ h
  | .perstNAssert => execPerstNAssert_kept _ h
  | .downstreamInboundAccess .. => execDownstreamInboundAccess_kept _ _ _ _ _ h
  | .frameStart .. => execFrameStart_kept _ _ _ _ _ h
  | .cameraLine .. => execCameraLine_kept _ _ _ _ _ _ _ h
  | .frameEnd .. => execFrameEnd_kept _ _ _ h
  | .frameSyncPulse .. => execFrameSyncPulse_kept _ _ h
  | .cameraGroupPowerOn .. => execCameraGroupPowerOn_kept _ _ h
  | .canFrameReceived .. => execCanFrameReceived_kept _ _ _ _ h
  | .canFrameTransmit .. => execCanFrameTransmit_kept _ _ _ h
  | .canFrameAbandon .. => execCanFrameAbandon_kept _ _ h
  | .canBusOff .. => execCanBusOff_kept _ _ h
  | .dataReadyEdge .. => execDataReadyEdge_kept _ _ h
  | .spiTransactionComplete .. => execSpiTransactionComplete_kept _ _ _ h
  | .encoderEdge .. => execEncoderEdge_kept _ _ _ _ _ h
  | .encoderSample => execEncoderSample_kept _ h
  | .haltReqAccept => execHaltReqAccept_kept _ h
  | .jtagBypass .. => execJtagBypass_kept _ _ h
  | .jtagIdcode => execJtagIdcode_kept _ h
  | .jtagSamplePreload .. => execJtagSamplePreload_kept _ _ h
  | .jtagExtest .. => execJtagExtest_kept _ _ h
  | .jtagDebugAccess .. => execJtagDebugAccess_kept _ _ _ _ _ h
  | .jtagNorProgram .. => execJtagNorProgram_kept _ _ _ _ h
  | .writeRequest .. => execWriteRequest_kept _ _ _ _ h
  | .readRequest .. => execReadRequest_kept _ _ _ _ h
  | .readData .. => execReadData_kept _ _ _ _ h
  | .writeAcknowledgement .. => execWriteAcknowledgement_kept _ _ _ h
  | .linkControl .. => execLinkControl_kept _ _ _ h
  | .failureResponse .. => execFailureResponse_kept _ _ _ _ h
  | .windowRead .. => execWindowRead_kept _ _ _ _ _ _ _ h
  | .windowWrite .. => execWindowWrite_kept _ _ _ _ _ _ _ _ h
  | .lowestIdentity .. => execLowestIdentity_kept _ _ _ _ h
  | .report .. => execReport_kept _ _ _ _ h
  | .idAssignment .. => execIdAssignment_kept _ _ _ _ _ _ h
  | .routeEntries .. => execRouteEntries_kept _ _ _ _ _ _ h
  | .routePhaseReissue => execRoutePhaseReissue_kept _ h
  | .phaseDone .. => execPhaseDone_kept _ _ _ _ _ h
  | .release .. => execRelease_kept _ _ _ _ h
  | .reservationRequest .. => execReservationRequest_kept _ _ _ _ _ _ _ _ h
  | .reservationResponse .. => execReservationResponse_kept _ _ _ _ _ _ _ h
  | .reservationRelease .. => execReservationRelease_kept _ _ _ _ _ h
  | .reservationFailureNotice port node rid cause => execReservationFailureNotice_kept port node rid cause s h
  | .helloNonce .. => execHelloNonce_kept _ _ _ _ h
  | .helloProof .. => execHelloProof_kept _ _ _ _ _ _ h
  | .helloVerdict .. => execHelloVerdict_kept _ _ _ _ h
  | .managementRequestTimeout .. => execManagementRequestTimeout_kept _ _ h
  | .t3RequestTimeout .. => execT3RequestTimeout_kept _ _ h
  | .creditTimeout .. => execCreditTimeout_kept _ _ _ h
  | .linkIdleTimeout .. => execLinkIdleTimeout_kept _ _ h
  | .linkSignalLoss .. => execLinkSignalLoss_kept _ _ h
  | .linkIdleFrameSend .. => execLinkIdleFrameSend_kept _ _ h
  | .identityBroadcast => execIdentityBroadcast_kept _ h
  | .signalDetect .. => execSignalDetect_kept _ _ h
  | .trainingBoundMiss .. => execTrainingBoundMiss_kept _ _ h
  | .trainingComplete .. => execTrainingComplete_kept _ _ _ h
  | .linkFullPathEnd .. => execLinkFullPathEnd_kept _ _ h
  | .equalisationUpdate .. => execEqualisationUpdate_kept _ _ h
  | .widthChange .. => execWidthChange_kept _ _ _ h
  | .undefinedKindRequest .. => execUndefinedKindRequest_kept _ _ _ _ _ h
  | .reservedFrameType .. => execReservedFrameType_kept _ _ _ h
  | .windowAccessResponse .. => execWindowAccessResponse_kept _ _ _ _ _ h
  | .retrainComplete .. => execRetrainComplete_kept _ _ h
  | .powerOn .. => execPowerOn_kept _ _ _ _ h
  | .firmwareStart .. => execFirmwareStart_kept _ _ h
  | .mailboxReady => execMailboxReady_kept _ h
  | .powerFailDetect => execPowerFailDetect_kept _ h
  | .inputUndervoltage .. => execInputUndervoltage_kept _ _ h
  | .inputRecovered => execInputRecovered_kept _ h
  | .overvoltage .. => execOvervoltage_kept _ _ _ h
  | .partitionRailOvervoltage .. => execPartitionRailOvervoltage_kept _ _ _ h
  | .partitionRailUndervoltage .. => execPartitionRailUndervoltage_kept _ _ _ h
  | .temperatureWarning .. => execTemperatureWarning_kept _ _ _ h
  | .temperatureCritical .. => execTemperatureCritical_kept _ _ _ h
  | .temperatureWarningClear => execTemperatureWarningClear_kept _ h
  | .clockLoss .. => execClockLoss_kept _ _ _ h
  | .protectiveStopEnd .. => execProtectiveStopEnd_kept _ _ _ _ h
  | .wakeN .. => execWakeN_kept _ _ _ _ h
  | .wakeComplete => execWakeComplete_kept _ h
  | .powerAverageWindow .. => execPowerAverageWindow_kept _ _ _ _ _ h
  | .voltageLoopPeriod .. => execVoltageLoopPeriod_kept _ _ h
  | .voltageLoopLimit .. => execVoltageLoopLimit_kept _ _ h
  | .droopStretch .. => execDroopStretch_kept _ _ h
  | .excessDroopStretch .. => execExcessDroopStretch_kept _ _ h
  | .partitionRailLoop .. => execPartitionRailLoop_kept _ _ _ _ h
  | .patinaFold => execPatinaFold_kept _ h
  | .patinaCommit .. => execPatinaCommit_kept _ _ h
  | .eventLogDrain => execEventLogDrain_kept _ h
  | .canBusOffRecovery .. => execCanBusOffRecovery_kept _ _ h
  | .powerFailSequenceEnd => execPowerFailSequenceEnd_kept _ h
  | .backupCellLow => execBackupCellLow_kept _ h

/-- A step keeps both memories in canonical form and leaves the queue without its front command. -/
theorem step_kept {s : State} (h : MemoryCanonical s) : KeptOut s.pending.tail (step s) := by
  unfold step
  split
  case h_1 hq => exact ⟨h, by rw [hq]; rfl⟩
  case h_2 c rest hq =>
    rw [hq]
    exact exec_kept c ⟨h, rfl⟩

/-- Settles O5: the invariant `Kept`, which every operation of the model keeps, taken along one step. -/
theorem memoryCanonicalKept : Obligations.MemoryCanonicalKept := by
  unfold Obligations.MemoryCanonicalKept
  intro s t hs ht
  exact kept_of_next (step_kept hs) ht

/-- Settles O6: after reset neither memory lists a byte. -/
theorem memoryCanonicalAtReset : Obligations.MemoryCanonicalAtReset := by
  unfold Obligations.MemoryCanonicalAtReset MemoryCanonical
  exact (State.memWf_iff _).mp State.memWf_reset

end Sys2Proof.Machine
end

section
/-! SUPPORT. The order in which the arbiter grants and the estimates it gives (R162, R167). -/

namespace Sys2Proof.Machine

open Sys2Proof

section
variable {α : Type}

theorem mem_insertBy (less : α → α → Bool) (x y : α) (l : List α) : y ∈ insertBy less x l ↔ y = x ∨ y ∈ l := by
  induction l with
  | nil => simp [insertBy]
  | cons z zs ih =>
    unfold insertBy
    split
    · rw [List.mem_cons, ih, List.mem_cons, or_left_comm]
    · rw [List.mem_cons]

theorem mem_sortBy (less : α → α → Bool) (y : α) (l : List α) : y ∈ sortBy less l ↔ y ∈ l := by
  induction l with
  | nil => rfl
  | cons x xs ih => rw [sortBy, mem_insertBy, ih, List.mem_cons]

/-- The head after an insertion is the element inserted, where the head before is not smaller, and else stays. -/
theorem head?_insertBy (less : α → α → Bool) (x : α) (l : List α) :
    (insertBy less x l).head? = some (match l.head? with
      | some y => if less y x then y else x
      | none => x) := by
  cases l with
  | nil => rfl
  | cons y ys =>
    simp only [insertBy, List.head?_cons]
    split <;> rfl

/-- Sorted by a key, a list begins with an element of least key. -/
theorem key_head?_sortBy_le (k : α → Nat) (l : List α) (q : α) (h : (sortBy (fun x y => decide (k x < k y)) l).head? = some q) :
    ∀ w ∈ l, k q ≤ k w := by
  induction l generalizing q with
  | nil => simp
  | cons x xs ih =>
    rw [sortBy, head?_insertBy, Option.some.injEq] at h
    split at h
    case h_1 y hy =>
      have hxs := ih y hy
      have hq : k q ≤ k x ∧ k q ≤ k y := by
        simp only [decide_eq_true_eq] at h
        split at h <;> subst h <;> omega
      intro w hw
      rcases List.mem_cons.mp hw with rfl | hw
      · exact hq.1
      · exact hq.2.trans (hxs w hw)
    case h_2 hn =>
      have hxs : ∀ w, w ∉ xs := fun w hw => by
        have := (mem_sortBy (fun x y => decide (k x < k y)) w xs).mpr hw
        rw [List.head?_eq_none_iff.mp hn] at this
        cases this
      intro w hw
      rcases List.mem_cons.mp hw with rfl | hw
      · exact Nat.le_of_eq (congrArg k h.symm)
      · exact absurd hw (hxs w)

end

theorem Arbiter.next_mem {a : Arbiter} {q : ArbReq} (h : a.next = some q) : q ∈ a.waiting :=
  (mem_sortBy _ _ _).mp (List.mem_of_mem_head? h)

theorem Arbiter.key_next_le {a : Arbiter} {q : ArbReq} (h : a.next = some q) : ∀ w ∈ a.waiting, a.key q ≤ a.key w :=
  key_head?_sortBy_le a.key a.waiting q h

/-- The key orders by class, then revoked first, then by the turns after the requester last granted (R162). -/
theorem Arbiter.key_le {a : Arbiter} {q w : ArbReq} (h : a.key q ≤ a.key w) :
    q.cls ≤ w.cls ∧ (w.cls = q.cls → w.revoked = true → q.revoked = true) ∧
      (w.cls = q.cls → w.revoked = q.revoked →
        (q.requester.val + 11 - a.last q.cls - 1) % 11 ≤ (w.requester.val + 11 - a.last q.cls - 1) % 11) := by
  unfold Arbiter.key at h
  have hq : (q.requester.val + 11 - a.last q.cls - 1) % 11 < 11 := Nat.mod_lt _ (by decide)
  have hw : (w.requester.val + 11 - a.last w.cls - 1) % 11 < 11 := Nat.mod_lt _ (by decide)
  refine ⟨?_, fun hc hr => ?_, fun hc hr => ?_⟩
  · split at h <;> split at h <;> omega
  · by_contra hn
    rw [if_pos hr, if_neg hn, hc] at h
    omega
  · rw [hr, hc] at h
    omega

/-- Settles O24: the request granted next has the least key, and the estimate is a quotient rounded up and cut at 255. -/
theorem arbiterOrder : Obligations.ArbiterOrder := by
  unfold Obligations.ArbiterOrder
  refine ⟨fun a q h => ⟨Arbiter.next_mem h, fun w hw => Arbiter.key_le (Arbiter.key_next_le h w hw)⟩, fun s p q => ?_⟩
  simp only [estimateOf]
  omega

end Sys2Proof.Machine
end

section
/-! SUPPORT. What accesses through the slice leave as it was, and why the cache is not visible in the contents of memory (R133, R143, R156). -/

namespace Sys2Proof.Machine

open Sys2Proof

/-! ### The frame of a range access (R133, R134) -/

/-- What the slice's frame leaves of the tables that the statements name. -/
theorem SliceFrame.tables {p : Nat} {s t : State} (f : SliceFrame p s t) :
    t.tiles = s.tiles ∧ t.clusters = s.clusters ∧ t.objects = s.objects ∧ t.jobs = s.jobs ∧ (∀ q, q ≠ p → t.part q = s.part q) ∧
      (t.part p).arb = (s.part p).arb := by
  obtain ⟨_, _, _, _, _, _, _, rfl, hother, _, _, harb⟩ := f
  exact ⟨rfl, rfl, rfl, rfl, hother, harb⟩

theorem accessBursts_cons (acc : RangeOut) (p : Nat) (b : Nat × Bool) (bs : List (Nat × Bool)) (job : Nat) (write noAlloc : Bool) :
    accessBursts acc p (b :: bs) job write noAlloc =
      accessBursts (if acc.failed then acc else acc.join (accessBurst acc.s p b.1 job write b.2 noAlloc acc.errs) (t2Base p + b.1) (!write || !b.2))
        p bs job write noAlloc := rfl

theorem accessBursts_slice (acc : RangeOut) (p : Nat) (bs : List (Nat × Bool)) (job : Nat) (write noAlloc : Bool) :
    SliceFrame p acc.s (accessBursts acc p bs job write noAlloc).s := by
  induction bs generalizing acc with
  | nil => exact .refl p acc.s
  | cons b bs ih =>
    rw [accessBursts_cons]
    split
    · exact ih acc
    · exact (accessBurst_slice acc.s p b.1 job write b.2 noAlloc acc.errs).trans (ih _)

/-! ### Reads of bursts that no symbol error touches (R156) -/

/-- Without a symbol error the words of a burst that is not poisoned are delivered as they stand. -/
theorem readWords_clean (bs : List Byte) (n : Nat) : (List.range n).foldl (readWord bs false []) { fixed := [], bad := false, bytes := [] } =
    { fixed := [], bad := false, bytes := bs.take (16 * n) } := by
  induction n with
  | zero => simp
  | succ n ih =>
    rw [List.range_succ, List.foldl_append, ih]
    simp [readWord, errorsOf, slice, Nat.mul_succ, List.take_add]

theorem readBurst_clean {bs : List Byte} (h : bs.length = 256) : readBurst bs false [] = { fixed := [], bad := false, bytes := bs } := by
  rw [readBurst, readWords_clean, List.take_of_length_le (by omega)]

@[simp] theorem Memory.read_length (m : Memory) (a n : Nat) : (m.read a n).length = n := by simp [Memory.read]

theorem injectT2_none {s : State} (h : s.flt.pending = none) (p : Nat) : injectT2 s p = ([], false, s) := by
  simp [injectT2, takeInjection_none h]

theorem injectT1_none {s : State} (h : s.flt.pending = none) (p : Nat) : injectT1 s p = ([], false, s) := by
  simp [injectT1, takeInjection_none h]

/-- A line that meets no symbol error is read as it stands, and nothing is raised. -/
theorem readT1_clean {s : State} (h : s.flt.pending = none) (p way value job : Nat) (line : Option CacheLine) {bytes : List Byte}
    (hb : bytes.length = 256) : (readT1 s p way value job line bytes []).s = s := by
  simp [readT1, injectT1_none h, readBurst_clean hb, raiseCorrected, forEach]

/-! ### A slice that holds what the devices hold -/

/-- No injection is pending, no burst of the partition is poisoned, and the devices hold what each clean line shows. -/
def CleanSlice (p : Nat) (s : State) : Prop :=
  s.flt.pending = none ∧ (s.part p).poisoned = [] ∧ ∀ l ∈ (s.part p).lines, l.under = []

/-- From a clean slice the second state is clean too, and every byte of the module's memory reads as before. -/
def Unseen (p : Nat) (s t : State) : Prop := CleanSlice p s → CleanSlice p t ∧ ∀ a, t.mem.byte a = s.mem.byte a

theorem Unseen.refl (p : Nat) (s : State) : Unseen p s s := fun h => ⟨h, fun _ => rfl⟩

theorem Unseen.trans {p : Nat} {s t u : State} (a : Unseen p s t) (b : Unseen p t u) : Unseen p s u := fun h =>
  ⟨(b (a h).1).1, fun x => ((b (a h).1).2 x).trans ((a h).2 x)⟩

theorem EventFrame.unseen {p : Nat} {s t : State} (f : EventFrame s t) : Unseen p s t := by
  obtain ⟨_, _, _, _, _, rfl, hp, _⟩ := f
  exact fun ⟨h1, h2, h3⟩ => ⟨⟨hp.trans h1, h2, h3⟩, fun _ => rfl⟩

/-- A change of the partition that poisons nothing and puts no other bytes under a line is not seen. -/
theorem setPart_unseen {p : Nat} {s : State} {x : Part} (hp : (s.part p).poisoned = [] → x.poisoned = [])
    (hl : (∀ l ∈ (s.part p).lines, l.under = []) → ∀ l ∈ x.lines, l.under = []) : Unseen p s (s.setPart p x) := by
  intro ⟨h1, h2, h3⟩
  refine ⟨⟨h1, ?_, ?_⟩, fun _ => rfl⟩
  · rw [State.part_setPart]; exact hp h2
  · rw [State.part_setPart]; exact hl h3

/-- Bytes written as they are read change no byte. -/
theorem Memory.byte_write_read (m : Memory) (a n b : Nat) : (m.write a (m.read a n)).byte b = m.byte b := by
  by_cases hb : a ≤ b ∧ b < a + n
  · obtain ⟨i, rfl⟩ := Nat.exists_eq_add_of_le hb.1
    rw [byte_write_inside _ _ _ i (by rw [read_length]; omega)]
    simp [Memory.read]
  · exact byte_write_outside _ _ _ _ (by rw [read_length]; omega)

theorem writeBack_unseen (p : Nat) (s : State) (a n : Nat) : Unseen p s { s with mem := s.mem.write a (s.mem.read a n) } :=
  fun ⟨h1, h2, h3⟩ => ⟨⟨h1, h2, h3⟩, Memory.byte_write_read s.mem a n⟩

theorem findLine_mem {x : Part} {o : Nat} {l : CacheLine} (h : findLine x o = some l) : l ∈ x.lines := List.mem_of_find?_eq_some h

/-- Over a clean slice the devices hold the bytes that the memory shows. -/
theorem deviceBytes_clean {p : Nat} {s : State} (h : CleanSlice p s) (o : Nat) : deviceBytes s p o = s.mem.read (t2Base p + o) 256 := by
  obtain ⟨_, _, hl⟩ := h
  unfold deviceBytes
  split
  case h_1 l hf => simp [hl l (findLine_mem hf)]
  case h_2 => rfl

theorem countPins_nil (s : State) (p : Nat) : countPins s p [] = s := rfl

theorem countCorrected_unseen (s : State) (p n : Nat) : Unseen p s (countCorrected s p n) :=
  (setPart_unseen (x := { s.part p with corrected := (s.part p).corrected + n }) id id).trans (patCount_event _ _ _).unseen

/-- A burst of a clean slice is delivered as the memory shows it, and its read is not seen. -/
theorem readT2_clean {p : Nat} {s : State} (h : CleanSlice p s) (o job : Nat) :
    (readT2 s p o job []).failed = false ∧ (readT2 s p o job []).bytes = s.mem.read (t2Base p + o) 256 ∧
      (readT2 s p o job []).s = countCorrected s p 0 := by
  have hr : readBurst (deviceBytes s p o) ((s.part p).poisoned.contains o) [] =
      { fixed := [], bad := false, bytes := s.mem.read (t2Base p + o) 256 } := by
    rw [deviceBytes_clean h, h.2.1]
    exact readBurst_clean (Memory.read_length _ _ _)
  simp only [readT2, injectT2_none h.1, List.append_nil, hr, Bool.false_eq_true, if_false, raiseCorrected, forEach, List.foldl_nil,
    List.length_nil, countPins_nil, and_self]

theorem evictLine_unseen {s : State} {p : Nat} {l : CacheLine} (hl : l ∈ (s.part p).lines) : Unseen p s (evictLine s p l) := by
  have hsub : (∀ y ∈ (s.part p).lines, y.under = []) → ∀ y ∈ (s.part p).lines.filter (fun y => y != l), y.under = [] :=
    fun h y hy => h y (List.mem_of_mem_filter hy)
  intro h
  have hu : l.under.isEmpty = true := by rw [h.2.2 l hl]; rfl
  revert h
  unfold evictLine
  simp only [hu, if_true]
  split
  · exact setPart_unseen (fun hp => by simp [unpoison, hp]) hsub
  · exact setPart_unseen id hsub

theorem installLine_unseen (s : State) (p o : Nat) (dirty staged : Bool) : Unseen p s (installLine s p o dirty staged []) := by
  have hadd : ∀ (t : State) (set way : Nat) (l : CacheLine), l.under = [] →
      Unseen p t (t.setPart p (touchWay { t.part p with lines := (t.part p).lines ++ [l] } set way)) := by
    intro t set way l hl
    refine setPart_unseen id fun h y hy => ?_
    rcases List.mem_append.mp hy with hy | hy
    · exact h y hy
    · rw [List.mem_singleton.mp hy, hl]
  unfold installLine
  dsimp only
  split
  case h_1 l hf => exact (evictLine_unseen (List.mem_of_find?_eq_some hf)).trans (hadd _ _ _ _ rfl)
  case h_2 => exact hadd _ _ _ _ rfl

/-- A fill with the bytes that the memory shows is not seen. -/
theorem fillLine_unseen (s : State) (p o : Nat) (dirty staged : Bool) :
    Unseen p s (fillLine s p o dirty staged (s.mem.read (t2Base p + o) 256)) := by
  simp only [fillLine, if_true]
  exact installLine_unseen s p o dirty staged

theorem useLine_poisoned (x : Part) (o : Nat) (w : Bool) : (useLine x o w).poisoned = x.poisoned := by
  unfold useLine; split <;> rfl

/-- A line in use is dirty or holds what it held: nothing new lies under it. -/
theorem useLine_under {x : Part} (h : ∀ l ∈ x.lines, l.under = []) (o : Nat) (w : Bool) : ∀ l ∈ (useLine x o w).lines, l.under = [] := by
  unfold useLine
  split
  · exact h
  · intro y hy
    obtain ⟨z, hz, rfl⟩ := List.mem_map.mp hy
    split
    · dsimp only; split
      · rfl
      · exact h z hz
    · exact h z hz

theorem useLine_unseen (s : State) (p o : Nat) (w : Bool) : Unseen p s (s.setPart p (useLine (s.part p) o w)) :=
  setPart_unseen (fun h => by rw [useLine_poisoned, h]) (fun h => useLine_under h o w)

theorem unpoison_unseen (s : State) (p o : Nat) : Unseen p s (s.setPart p (unpoison (s.part p) o)) :=
  setPart_unseen (fun h => by simp [unpoison, h]) id

/-! ### Accesses that meet no error are not seen (R133, R143) -/

theorem accessHit_unseen (s : State) (p o job : Nat) (l : CacheLine) (write whole : Bool) :
    Unseen p s (accessHit s p o job l write whole []).s := by
  have huse := useLine_unseen s p o write
  unfold accessHit
  dsimp only
  split
  · dsimp only
    split
    · exact huse.trans (unpoison_unseen _ p o)
    · exact huse
  · intro h
    dsimp only
    rw [readT1_clean (huse h).1.1 p _ _ _ _ (Memory.read_length _ _ _)]
    exact huse h

theorem accessMiss_unseen (s : State) (p o job : Nat) (write whole noAlloc : Bool) :
    Unseen p s (accessMiss s p o job write whole noAlloc []).s := by
  unfold accessMiss
  dsimp only
  split
  · dsimp only
    split
    · exact unpoison_unseen s p o
    · exact (unpoison_unseen s p o).trans (installLine_unseen _ p o true false)
  · intro h
    obtain ⟨hf, hb, hs⟩ := readT2_clean h o job
    have hc : Unseen p s (countCorrected s p 0) := countCorrected_unseen s p 0
    dsimp only
    rw [hf, hb, hs]
    revert h
    split
    · next h => cases h
    · split
      · exact hc.trans (fillLine_unseen (countCorrected s p 0) p o write false)
      · split
        · exact hc.trans (writeBack_unseen p (countCorrected s p 0) _ _)
        · exact hc

theorem accessBurst_unseen (s : State) (p o job : Nat) (write whole noAlloc : Bool) :
    Unseen p s (accessBurst s p o job write whole noAlloc []).s := by
  unfold accessBurst
  split
  · exact accessHit_unseen s p o job _ write whole
  · exact accessMiss_unseen s p o job write whole noAlloc

theorem RangeOut.errs_join {acc : RangeOut} (h : acc.errs = []) (a : Access) (at_ : Nat) (read : Bool) : (acc.join a at_ read).errs = [] := by
  simp [RangeOut.join, h]

theorem accessBursts_unseen (acc : RangeOut) (p : Nat) (bs : List (Nat × Bool)) (job : Nat) (write noAlloc : Bool) (he : acc.errs = []) :
    Unseen p acc.s (accessBursts acc p bs job write noAlloc).s := by
  induction bs generalizing acc with
  | nil => exact .refl p acc.s
  | cons b bs ih =>
    rw [accessBursts_cons]
    split
    · exact ih acc he
    · have hb := accessBurst_unseen acc.s p b.1 job write b.2 noAlloc
      rw [he]
      exact hb.trans (ih _ (RangeOut.errs_join he _ _ _))

/-- Settles O29: the frame of every burst's access, and that accesses to a clean slice are not seen. -/
theorem sliceKeepsMemory : Obligations.SliceKeepsMemory := by
  unfold Obligations.SliceKeepsMemory
  intro s errs p off len job write noAlloc r
  obtain ⟨htiles, _, hobjs, hjobs, hparts, harb⟩ := (accessBursts_slice (startRange s errs) p (burstsOf off len) job write noAlloc).tables
  refine ⟨htiles, hobjs, hjobs, hparts, harb, fun hp he hpo hl => ?_⟩
  exact (accessBursts_unseen (startRange s errs) p (burstsOf off len) job write noAlloc he ⟨hp, hpo, hl⟩).2

end Sys2Proof.Machine
end

section
/-! SUPPORT. Scrubbing, refreshing and the coordinates of the DRAM (R152, R153, R159, R160). -/

namespace Sys2Proof.Machine

open Sys2Proof

/-! ### What a read of the devices leaves (R156, R159) -/

/-- Beside the slice's frame, the memory stays, and of the partition only the count of corrected codewords and the poisoned bursts change. -/
def ReadFrame (p : Nat) (s t : State) : Prop :=
  SliceFrame p s t ∧ t.mem = s.mem ∧ ∃ c po, t.part p = { s.part p with corrected := c, poisoned := po }

theorem ReadFrame.refl (p : Nat) (s : State) : ReadFrame p s s := ⟨.refl p s, rfl, _, _, rfl⟩

theorem ReadFrame.trans {p : Nat} {s t u : State} (a : ReadFrame p s t) (b : ReadFrame p t u) : ReadFrame p s u := by
  obtain ⟨f, m, c, po, e⟩ := a
  obtain ⟨g, n, d, qo, k⟩ := b
  exact ⟨f.trans g, n.trans m, d, qo, by rw [k, e]⟩

/-- A read of the devices changes neither the memory nor a line. -/
theorem ReadFrame.contents {p : Nat} {s t : State} (f : ReadFrame p s t) : t.mem = s.mem ∧ (t.part p).lines = (s.part p).lines := by
  obtain ⟨_, hmem, _, _, hpart⟩ := f
  exact ⟨hmem, by rw [hpart]⟩

theorem EventFrame.read {p : Nat} {s t : State} (f : EventFrame s t) : ReadFrame p s t := by
  obtain ⟨_, _, _, _, _, rfl, _⟩ := id f
  exact ⟨f.slice, rfl, _, _, rfl⟩

theorem setPart_read (p : Nat) (s : State) (c : Nat) (po : List Nat) :
    ReadFrame p s (s.setPart p { s.part p with corrected := c, poisoned := po }) :=
  ⟨setPart_slice p s _ rfl, rfl, c, po, State.part_setPart _ _ _⟩

theorem takeInjection_read (p : Nat) (s : State) (d : Nat) (hit : Injection → Bool) : ReadFrame p s (takeInjection s d hit).2 := by
  have hs := takeInjection_slice p s d hit
  rw [takeInjection_frame] at hs ⊢
  exact ⟨hs, rfl, _, _, rfl⟩

theorem injectT2_read (s : State) (p : Nat) : ReadFrame p s (injectT2 s p).2.2 := by
  unfold injectT2
  dsimp only
  split
  · exact takeInjection_read p s _ _
  · split
    · exact takeInjection_read p s _ _
    · exact .refl p s

theorem countCorrected_read (s : State) (p n : Nat) : ReadFrame p s (countCorrected s p n) :=
  (setPart_read p s ((s.part p).corrected + n) (s.part p).poisoned).trans (patCount_event _ _ _).read

theorem readT2_read (s : State) (p burst job : Nat) (errs : List SymErr) : ReadFrame p s (readT2 s p burst job errs).s := by
  unfold readT2
  dsimp only
  have hi := injectT2_read s p
  generalize injectT2 s p = i at hi ⊢
  generalize (if i.2.1 = true then 1 else 0) = flags
  generalize readBurst (deviceBytes s p burst) ((s.part p).poisoned.contains burst) (errs ++ i.1) = r
  have base := hi.trans ((raiseCorrected_event i.2.2 flags r.fixed (t2Corrected p burst job)).read.trans
    ((countCorrected_read _ p r.fixed.length).trans (countPins_event _ p r.fixed).read))
  split
  · exact base.trans ((raiseAs_event _ 2 flags (t2Bad p burst job (errs ++ i.1))).read.trans (setPart_read p _ (State.part _ p).corrected _))
  · exact base

/-- Without a pending injection a read of the devices meets the errors it is given and no others. -/
theorem readT2_fixed {s : State} (h : s.flt.pending = none) (p burst job : Nat) (errs : List SymErr) :
    (readT2 s p burst job errs).fixed = (readBurst (deviceBytes s p burst) ((s.part p).poisoned.contains burst) errs).fixed := by
  simp only [readT2, injectT2_none h, List.append_nil]
  split <;> rfl

/-! ### The scrubber (R159) -/

/-- Beside the slice's frame, the scrubber of the partition stays where it is. -/
def ScrubFrame (p : Nat) (s t : State) : Prop := SliceFrame p s t ∧ (t.part p).scrubBurst = (s.part p).scrubBurst

theorem ScrubFrame.trans {p : Nat} {s t u : State} (a : ScrubFrame p s t) (b : ScrubFrame p t u) : ScrubFrame p s u :=
  ⟨a.1.trans b.1, b.2.trans a.2⟩

theorem ReadFrame.scrub {p : Nat} {s t : State} (f : ReadFrame p s t) : ScrubFrame p s t := by
  obtain ⟨hs, _, _, _, he⟩ := f
  exact ⟨hs, by rw [he]⟩

theorem setPart_scrub (p : Nat) (s : State) {x : Part} (ha : x.arb = (s.part p).arb) (hb : x.scrubBurst = (s.part p).scrubBurst) :
    ScrubFrame p s (s.setPart p x) := ⟨setPart_slice p s x ha, by rw [State.part_setPart, hb]⟩

theorem writeDevices_scrub (s : State) (p burst : Nat) (bytes : List Byte) : ScrubFrame p s (writeDevices s p burst bytes) := by
  have hu : ScrubFrame p s (s.setPart p (unpoison (s.part p) burst)) := setPart_scrub p s rfl rfl
  unfold writeDevices
  dsimp only
  split
  · exact hu.trans ⟨writeMem_slice p _ _ _, rfl⟩
  · exact hu.trans (setPart_scrub p _ rfl rfl)

theorem forEach_scrub {α : Type} {p : Nat} {f : State → α → State} (hf : ∀ s x, ScrubFrame p s (f s x)) (xs : List α) (s : State) :
    ScrubFrame p s (forEach xs s f) := by
  induction xs generalizing s with
  | nil => exact (ReadFrame.refl p s).scrub
  | cons x xs ih => exact (hf s x).trans (ih _)

theorem scrubReread_scrub (s : State) (p burst : Nat) (fixed : List (Nat × Nat)) (reread : List SymErr) :
    ScrubFrame p s (scrubReread s p burst fixed reread) := by
  unfold scrubReread
  refine (readT2_read s p burst 0 reread).scrub.trans (forEach_scrub (fun t c => ?_) fixed _)
  have hi := takeInjection_read p t 0x07 (fun q => injPart q.target == p && 9 * p + injIndex q.target == symbolChannel p c.2)
  dsimp only
  split
  · exact (hi.trans (raiseAs_event _ _ _ _).read).scrub
  · exact hi.scrub

/-- The state that the scrub of a burst reaches before the scrubber moves on. -/
def scrubbed (s : State) (p : Nat) (errs reread : List SymErr) : State :=
  let burst := 256 * (s.part p).scrubBurst
  let r := readT2 s p burst 0 errs
  if r.failed || r.fixed.isEmpty then r.s else scrubReread (writeDevices r.s p burst r.bytes) p burst r.fixed reread

theorem scrub_eq (s : State) (p : Nat) (errs reread : List SymErr) : scrub s p errs reread =
    (scrubbed s p errs reread).setPart p { (scrubbed s p errs reread).part p with
      scrubBurst := (((scrubbed s p errs reread).part p).scrubBurst + 1) % 2 ^ 26 } := rfl

theorem scrubbed_scrub (s : State) (p : Nat) (errs reread : List SymErr) : ScrubFrame p s (scrubbed s p errs reread) := by
  have hr := (readT2_read s p (256 * (s.part p).scrubBurst) 0 errs).scrub
  unfold scrubbed
  dsimp only
  split
  · exact hr
  · exact hr.trans ((writeDevices_scrub _ p _ _).trans (scrubReread_scrub _ p _ _ _))

/-- A burst in which no codeword is corrected is not written back. -/
theorem scrubbed_of_none {s : State} {p : Nat} {errs : List SymErr} (h : (readT2 s p (256 * (s.part p).scrubBurst) 0 errs).fixed = [])
    (reread : List SymErr) : scrubbed s p errs reread = (readT2 s p (256 * (s.part p).scrubBurst) 0 errs).s := by
  simp [scrubbed, h]

theorem exec_scrubBurst_of_working {s : State} {p : PartId} (h : t2Works s p.toNat = true) (errs reread : List SymErr) :
    exec (.scrubBurst p errs reread) s = .next (scrub s p.toNat errs reread) := by
  simp only [exec, execScrubBurst, h, onlyIf_true]

theorem exec_dramRefresh_of_working {s : State} {p : PartId} (h : t2Works s p.toNat = true) (bank : BitVec 4) :
    exec (.dramRefresh p bank) s = .next (s.setPart p.toNat { s.part p.toNat with refreshBank := bank.toNat }) := by
  simp only [exec, execDramRefresh, h, onlyIf_true]

/-! ### The scrub level (R160) -/

/-- A window writes the scrub level and the count of quiet windows, and clears the count of corrected codewords. -/
theorem scrubWindow_frame (x : Part) (up down : Nat) : scrubWindow x up down =
    { x with scrubLevel := (scrubWindow x up down).scrubLevel, quietWindows := (scrubWindow x up down).quietWindows, corrected := 0 } := by
  unfold scrubWindow
  split
  · rfl
  · split
    · split <;> rfl
    · rfl

section
variable {x : Part} {up down : Nat}

theorem scrubWindow_busy (h : up ≤ x.corrected) :
    (scrubWindow x up down).scrubLevel = min 3 (x.scrubLevel + 1) ∧ (scrubWindow x up down).quietWindows = 0 := by
  simp [scrubWindow, h]

theorem scrubWindow_sixth (hu : x.corrected < up) (hd : x.corrected ≤ down) (h : 5 ≤ x.quietWindows) :
    (scrubWindow x up down).scrubLevel = x.scrubLevel - 1 ∧ (scrubWindow x up down).quietWindows = 0 := by
  simp [scrubWindow, Nat.not_le.mpr hu, hd, h]

theorem scrubWindow_quiet (hu : x.corrected < up) (hd : x.corrected ≤ down) (h : x.quietWindows < 5) :
    (scrubWindow x up down).scrubLevel = x.scrubLevel ∧ (scrubWindow x up down).quietWindows = x.quietWindows + 1 := by
  simp [scrubWindow, Nat.not_le.mpr hu, hd, Nat.not_le.mpr h]

theorem scrubWindow_between (hu : x.corrected < up) (hd : down < x.corrected) :
    (scrubWindow x up down).scrubLevel = x.scrubLevel ∧ (scrubWindow x up down).quietWindows = 0 := by
  simp [scrubWindow, Nat.not_le.mpr hu, Nat.not_le.mpr hd]

end

/-! ### Coordinates (R152) -/

theorem dramCoord_offset {o : Nat} (h : o < 2 ^ 34) :
    256 * (dramCoord o).burstIndex + 16 * (dramCoord o).codeword + (dramCoord o).byte = o := by
  simp only [dramCoord, DramCoord.burstIndex, bits]
  omega

theorem dramCoord_rotates (n : Nat) :
    (dramCoord (256 * n)).bankGroup = n % 4 ∧ (dramCoord (256 * n)).bankIndex = n / 4 % 4 * 4 + n % 4 := by
  simp only [dramCoord, DramCoord.bankIndex, bits]
  omega

/-- Settles O27: the frame of a scrub, its case without a corrected codeword, the refresh, the windows case by case, the coordinates. -/
theorem scrubAndRefresh : Obligations.ScrubAndRefresh := by
  unfold Obligations.ScrubAndRefresh
  refine ⟨⟨fun s p hw => ⟨fun errs reread => ?_, exec_dramRefresh_of_working hw⟩, fun s p => ?_⟩, fun o => dramCoord_offset, dramCoord_rotates⟩
  · obtain ⟨hf, hb⟩ := scrubbed_scrub s p.toNat errs reread
    obtain ⟨htiles, _, hobjs, hjobs, hparts, harb⟩ := hf.tables
    refine ⟨_, exec_scrubBurst_of_working hw errs reread, ?_⟩
    rw [scrub_eq, State.part_setPart]
    refine ⟨htiles, hjobs, hobjs, fun q hq => ?_, by rw [hb], harb, ?_⟩
    · rw [State.part_setPart_ne _ _ hq]
      exact hparts q hq
    · intro b hp hfix
      rw [scrubbed_of_none ((readT2_fixed hp _ _ _ _).trans hfix)]
      exact (readT2_read s p.toNat b 0 errs).contents
  · intro x up down
    exact ⟨scrubWindow x up down, rfl, scrubWindow_frame x up down, scrubWindow_busy, scrubWindow_sixth, scrubWindow_quiet, scrubWindow_between⟩

end Sys2Proof.Machine
end

section
/-! SUPPORT. T2 seen through BAR2 and by the external ports (R120, R133, R134, R161, R343). -/

namespace Sys2Proof.Machine

open Sys2Proof

/-! ### BAR2 (R120, R343) -/

section
variable {s : State} {off : BitVec 28}

theorem exec_bar2Read_of_idle (h : t2Works s (bar2Addr s off.toNat / 0x400000000) = false) (n : Nat) :
    exec (.bar2Read off n) s = .next (s.emit .bar2Abort) := by
  simp only [exec, execBar2Read, h, Bool.false_eq_true, if_false]

theorem exec_bar2Write_of_idle (h : t2Works s (bar2Addr s off.toNat / 0x400000000) = false) (bs : List Byte) :
    exec (.bar2Write off bs) s = .next s := by
  simp only [exec, execBar2Write, h, Bool.false_eq_true, if_false]

/-- A read whose bursts can be read answers what the slice delivers of them. -/
theorem bar2Fetch_of_delivered {a n : Nat} (h : (bar2Access s a n false).failed = false) :
    bar2Fetch s a n = ((bar2Access s a n false).s, readGot (bar2Access s a n false).s.mem (bar2Access s a n false).got a n) := by
  simp only [bar2Fetch, h, Bool.false_eq_true, if_false]

theorem exec_bar2Read_of_working (h : t2Works s (bar2Addr s off.toNat / 0x400000000) = true) {n : Nat} (hn : off.toNat + n ≤ 0x10000000) :
    exec (.bar2Read off n) s = .next ((bar2Fetch s (bar2Addr s off.toNat) n).1.emit (.bar2Data (bar2Fetch s (bar2Addr s off.toNat) n).2)) := by
  have hmin : min n (0x10000000 - off.toNat) = n := by omega
  simp only [exec, execBar2Read, h, hmin, if_true]

theorem exec_bar2Write_of_working (h : t2Works s (bar2Addr s off.toNat / 0x400000000) = true) {bs : List Byte}
    (hn : off.toNat + bs.length ≤ 0x10000000) (hr : (bar2Access s (bar2Addr s off.toNat) bs.length true).failed = false) :
    exec (.bar2Write off bs) s = .next { (bar2Access s (bar2Addr s off.toNat) bs.length true).s with
      mem := (bar2Access s (bar2Addr s off.toNat) bs.length true).s.mem.write (bar2Addr s off.toNat) bs } := by
  have hcut : bs.take (0x10000000 - off.toNat) = bs := List.take_of_length_le (by omega)
  simp only [exec, execBar2Write, h, hcut, hr, Bool.false_eq_true, if_true, if_false]

end

/-- Settles O28: an access where the partition works, and one where it does not. -/
theorem bar2Accesses : Obligations.Bar2Accesses := by
  unfold Obligations.Bar2Accesses
  intro s off a p
  refine ⟨fun hw => ⟨exec_bar2Read_of_idle hw, exec_bar2Write_of_idle hw⟩, fun n hw hn => ?_, fun bs hw hn => ?_⟩
  · intro r hr
    rw [exec_bar2Read_of_working hw hn, bar2Fetch_of_delivered hr]
    rfl
  · intro r hr
    exact exec_bar2Write_of_working hw hn hr

end Sys2Proof.Machine
end

section
/-! SUPPORT. The service and boundary Ethernet ports, and what reaches the module over PCIe (R540 to R549). -/

namespace Sys2Proof.Machine

open Sys2Proof

/-! ### Service Ethernet (R542 to R544) -/

section
variable {s : State} {p : BitVec 1} (hw : portsWork s = true) (he : enabledBit s p.toNat = true)
include hw he

section
variable {fr : List Byte} {ok : Bool}

theorem exec_serviceFrameReceived_bad (hg : goodFrame fr ok = false) (ptp : Bool) : exec (.serviceFrameReceived p fr ok ptp) s = .next
    (setEthPort s p { ethPort s p with dropped := min 0xFFFFFFFF ((ethPort s p).dropped + 1) }) := by
  simp only [exec, execServiceFrameReceived, hw, he, hg, Bool.and_self, onlyIf_true, Bool.not_false, if_true]

theorem exec_serviceFrameReceived_macControl (hg : goodFrame fr ok = true) (hm : slice fr 12 2 = [0x88, 0x08]) (ptp : Bool) :
    exec (.serviceFrameReceived p fr ok ptp) s = .next
      (setEthPort s p { ethPort s p with macControl := min 0xFFFFFFFF ((ethPort s p).macControl + 1) }) := by
  simp only [exec, execServiceFrameReceived, hw, he, hg, hm, Bool.and_self, onlyIf_true, Bool.not_true, Bool.false_eq_true, if_true, if_false]

theorem exec_serviceFrameReceived_ptp (hg : goodFrame fr ok = true) (hm : slice fr 12 2 ≠ [0x88, 0x08]) (hp : (pport s p).cfg.mode ≠ 0) :
    exec (.serviceFrameReceived p fr ok true) s = .next s := by
  have hb : ((pport s p).cfg.mode != 0) = true := bne_iff_ne.mpr hp
  simp only [exec, execServiceFrameReceived, hw, he, hg, hm, hb, Bool.and_self, onlyIf_true, Bool.not_true, Bool.false_eq_true, if_true, if_false]

theorem exec_serviceFrameReceived_kept (hg : goodFrame fr ok = true) (hm : slice fr 12 2 ≠ [0x88, 0x08]) {ptp : Bool}
    (hp : ptp = false ∨ (pport s p).cfg.mode = 0) : exec (.serviceFrameReceived p fr ok ptp) s = .next (portEntry
      (setEthPort (stampWithin s 3).2 p { ethPort s p with rxSeq := ((ethPort s p).rxSeq + 1) % 2 ^ 32 }) (0xFFFF0100 + p.toNat)
      (receiveEntry (stampWithin s 3).1 (fr.length - 4) 0 (ethPort s p).rxSeq (fr.take (fr.length - 4)))) := by
  have hb : (ptp && (pport s p).cfg.mode != 0) = false := by
    rcases hp with rfl | hp
    · rfl
    · rw [hp]; exact Bool.and_false _
  simp only [exec, execServiceFrameReceived, hw, he, hg, hm, hb, Bool.and_self, onlyIf_true, Bool.not_true, Bool.false_eq_true, if_false]

end

theorem exec_serviceFrameTransmit_head {o : Obj} {off : Nat} {e : List Byte}
    (hh : headEntry s (0xFFFF0110 + p.toNat) (ethPort s p).txProd = some (o, off, e)) :
    exec (.serviceFrameTransmit p) s = .next (sendService (presentPort s (0xFFFF0110 + p.toNat) 2048) p o off e) := by
  simp only [exec, execServiceFrameTransmit, hw, he, hh, Bool.and_self, onlyIf_true]

theorem exec_serviceFrameTransmit_empty (hh : headEntry s (0xFFFF0110 + p.toNat) (ethPort s p).txProd = none) :
    exec (.serviceFrameTransmit p) s = .next s := by
  simp only [exec, execServiceFrameTransmit, hw, he, hh, Bool.and_self, onlyIf_true]

end

/-! ### The boundary port (R545) -/

section
variable {s : State} (hw : portsWork s = true) (he : enabledBit s 2 = true) {fr : List Byte} {ok : Bool}
include hw he

theorem exec_boundaryFrameReceived_dropped
    (hd : goodFrame fr ok = false ∨ 0x40000 < ((flushBoundary s).ports.boundaryHeld.map List.length).sum + 2048) :
    exec (.boundaryFrameReceived fr ok) s = .next (dropBoundary (flushBoundary s)) := by
  have hd' : (!goodFrame fr ok) = true ∨ 0x40000 < ((flushBoundary s).ports.boundaryHeld.map List.length).sum + 2048 := by
    rwa [Bool.not_eq_true']
  simp only [exec, execBoundaryFrameReceived, hw, he, hd', Bool.and_self, onlyIf_true, if_true]

variable (hg : goodFrame fr ok = true) (hh : ((flushBoundary s).ports.boundaryHeld.map List.length).sum + 2048 ≤ 0x40000)
include hg hh

theorem exec_boundaryFrameReceived_gone (hf : (boundaryFate (flushBoundary s) (fr.take (fr.length - 4))).1 = false) :
    exec (.boundaryFrameReceived fr ok) s = .next (flushBoundary s) := by
  simp only [exec, execBoundaryFrameReceived, hw, he, hg, Nat.not_lt.mpr hh, hf, Bool.and_self, onlyIf_true, Bool.not_true, Bool.not_false,
    Bool.false_eq_true, or_self, if_true, if_false]

theorem exec_boundaryFrameReceived_kept (hf : (boundaryFate (flushBoundary s) (fr.take (fr.length - 4))).1 = true) {u : State}
    (hu : flushBoundary s = u) {kept : List Byte}
    (hk : (fr.take (fr.length - 4)).take (boundaryFate u (fr.take (fr.length - 4))).2 = kept) :
    exec (.boundaryFrameReceived fr ok) s = .next (flushBoundary (presentPort { (stampWithin u 3).2 with ports := { (stampWithin u 3).2.ports with
      boundarySeq := (u.ports.boundarySeq + 1) % 2 ^ 32
      boundaryHeld := u.ports.boundaryHeld ++ [receiveEntry (stampWithin u 3).1 (fr.length - 4) (if kept.length < fr.length - 4 then 1 else 0)
        u.ports.boundarySeq kept] } } 0xFFFF0200 2048)) := by
  subst hu hk
  simp only [exec, execBoundaryFrameReceived, hw, he, hg, Nat.not_lt.mpr hh, hf, Bool.and_self, onlyIf_true, Bool.not_true,
    Bool.false_eq_true, or_self, if_false]

end

theorem exec_transmitRingPoll_of_working {s : State} (hw : portsWork s = true) (o : Nat) :
    exec (.transmitRingPoll o) s = .next (if jobWrites s o then s else readProducer s o) := by
  cases hj : jobWrites s o <;> simp [exec, execTransmitRingPoll, hw, hj]

/-! ### PERST_N (R348, R548) -/

theorem loseEntry_setBox (s : State) (m : MbxId) (x : Mailbox) :
    loseEntry (s.setBox m x) m = s.setBox m { x with lost := bump32 x.lost } := by
  simp [loseEntry]

theorem loseEntries_box (n : Nat) (s : State) (m : MbxId) (x : Mailbox) :
    ∃ y, (List.range n).foldl (fun s _ => loseEntry s m) (s.setBox m x) = s.setBox m y ∧ y.ctrl = x.ctrl := by
  induction n with
  | zero => exact ⟨x, rfl, rfl⟩
  | succ n ih =>
    obtain ⟨y, hy, hc⟩ := ih
    exact ⟨{ y with lost := bump32 y.lost }, by rw [List.range_succ, List.foldl_append, hy]; exact loseEntry_setBox s m y, hc⟩

/-- A disable changes one mailbox and leaves its control register. -/
theorem disableBox_box (s : State) (m : MbxId) : ∃ y, disableBox s m = s.setBox m y ∧ y.ctrl = (s.box m).ctrl :=
  loseEntries_box (s.box m).held.length s m { s.box m with held := [] }

/-- What `PERST_N` does with one mailbox. -/
def perstBox (s : State) (m : MbxId) : State :=
  if (s.box m).path1 || !(s.box m).enabled then s
  else disableBox (s.setBox m { s.box m with ctrl := (s.box m).ctrl &&& ~~~1#32 }) m

/-- The second state is the first but for mailboxes: those of path 1 and those disabled are as they were, each keeps its path, and
these ones of path 0 are disabled. -/
def PerstFrame (ms : List MbxId) (s u : State) : Prop :=
  (∃ b, u = { s with mbx := b }) ∧ (∀ m, (s.box m).path1 = true ∨ (s.box m).enabled = false → u.box m = s.box m) ∧
  (∀ m, (u.box m).path1 = (s.box m).path1) ∧ ∀ m ∈ ms, (s.box m).path1 = false → (u.box m).enabled = false

theorem PerstFrame.trans {ms ns : List MbxId} {s t u : State} (a : PerstFrame ms s t) (b : PerstFrame ns t u) : PerstFrame (ms ++ ns) s u := by
  obtain ⟨⟨_, rfl⟩, idle, path, off⟩ := a
  obtain ⟨⟨_, rfl⟩, idle', path', off'⟩ := b
  refine ⟨⟨_, rfl⟩, fun m hm => ?_, fun m => (path' m).trans (path m), fun m hm hp => ?_⟩
  · rw [idle' m (by rwa [idle m hm]), idle m hm]
  · rcases List.mem_append.mp hm with hm | hm
    · rw [idle' m (.inr (off m hm hp))]
      exact off m hm hp
    · exact off' m hm ((path m).trans hp)

theorem perstBox_frame (s : State) (m : MbxId) : PerstFrame [m] s (perstBox s m) := by
  unfold perstBox
  split
  case isTrue h =>
    simp only [Bool.or_eq_true, Bool.not_eq_true'] at h
    refine ⟨⟨_, rfl⟩, fun _ _ => rfl, fun _ => rfl, fun n hn hp => ?_⟩
    rw [List.mem_singleton.mp hn] at hp ⊢
    exact h.resolve_left (by simp [hp])
  case isFalse h =>
    simp only [Bool.or_eq_true, Bool.not_eq_true'] at h
    obtain ⟨y, hy, hc⟩ := disableBox_box (s.setBox m { s.box m with ctrl := (s.box m).ctrl &&& ~~~1#32 }) m
    rw [State.setBox_setBox] at hy
    rw [State.box_setBox] at hc
    rw [hy]
    have hpath : y.path1 = (s.box m).path1 := by simp [Mailbox.path1, hc]
    have hoff : y.enabled = false := by simp [Mailbox.enabled, hc]
    refine ⟨⟨_, rfl⟩, fun n hn => ?_, fun n => ?_, fun n hn _ => ?_⟩
    · exact State.box_setBox_ne _ _ (fun e => h (e ▸ hn))
    · by_cases e : n = m
      · rw [e, State.box_setBox, hpath]
      · rw [State.box_setBox_ne _ _ e]
    · rw [List.mem_singleton.mp hn, State.box_setBox, hoff]

theorem perstBoxes_frame (ms : List MbxId) (s : State) : PerstFrame ms s (forEach ms s perstBox) := by
  induction ms generalizing s with
  | nil => exact ⟨⟨_, rfl⟩, fun _ _ => rfl, fun _ => rfl, by simp⟩
  | cons m ms ih => exact (perstBox_frame s m).trans (ih _)

/-- Every mailbox is one of the 16. -/
theorem mem_allBoxes (m : MbxId) : m ∈ (List.range 16).map (BitVec.ofNat 4) :=
  List.mem_map.mpr ⟨m.toNat, List.mem_range.mpr m.isLt, by rw [BitVec.ofNat_toNat, BitVec.setWidth_eq]⟩

theorem exec_perstNAssert_of_endpoint {s : State} (hr : s.boot.rootPort = false) (hm : s.boot.mailboxReady = true) (hs : supplied s = true)
    {u : State} (hu : forEach ((List.range 16).map (BitVec.ofNat 4)) s perstBox = u) :
    exec .perstNAssert s = .next { u with evt := { u.evt with ringCtrl := u.evt.ringCtrl &&& ~~~1#32 } } := by
  subst hu
  simp only [exec, execPerstNAssert, hr, hm, hs, Bool.not_false, Bool.and_self, onlyIf_true]
  rfl

/-! ### Inbound accesses of a root port (R549) -/

/-- An inbound access that reaches no T2 of a working partition. -/
def InboundRefused (s : State) (a n : Nat) : Prop :=
  2 ^ 37 < a + n ∨ n = 0 ∨ 0x400000000 < a % 0x400000000 + n ∨ t2Works s (a / 0x400000000) = false

section
variable {s : State} (hr : s.boot.rootPort = true) (ht : timeRuns s = true) (hs : supplied s = true) {a : Nat}
include hr ht hs

theorem exec_inboundRead_refused {n : Nat} (h : InboundRefused s a n) :
    exec (.downstreamInboundAccess a false n []) s = .next (s.emit .unsupportedRequest) := by
  unfold InboundRefused at h
  simp only [exec, execDownstreamInboundAccess, hr, ht, hs, Bool.and_self, onlyIf_true, Bool.false_eq_true, if_false, if_pos h]

theorem exec_inboundRead_taken {n : Nat} (h : ¬InboundRefused s a n) :
    exec (.downstreamInboundAccess a false n []) s = .next ((bar2Fetch s a n).1.emit (.inboundData (bar2Fetch s a n).2)) := by
  unfold InboundRefused at h
  simp only [exec, execDownstreamInboundAccess, hr, ht, hs, Bool.and_self, onlyIf_true, Bool.false_eq_true, if_false, if_neg h]

theorem exec_inboundWrite_refused {bs : List Byte} (h : InboundRefused s a bs.length) (n : Nat) :
    exec (.downstreamInboundAccess a true n bs) s = .next (s.emit .unsupportedRequest) := by
  unfold InboundRefused at h
  simp only [exec, execDownstreamInboundAccess, hr, ht, hs, Bool.and_self, onlyIf_true, if_true, if_pos h]

theorem exec_inboundWrite_taken {bs : List Byte} (h : ¬InboundRefused s a bs.length) (n : Nat) :
    exec (.downstreamInboundAccess a true n bs) s = .next (if (bar2Access s a bs.length true).failed then (bar2Access s a bs.length true).s
      else { (bar2Access s a bs.length true).s with mem := (bar2Access s a bs.length true).s.mem.write a bs }) := by
  unfold InboundRefused at h
  simp only [exec, execDownstreamInboundAccess, hr, ht, hs, Bool.and_self, onlyIf_true, if_true, if_neg h]

end

/-- Settles O52: each clause is the meaning of its command where the ports, or the link, work. -/
theorem servicePorts : Obligations.ServicePorts := by
  unfold Obligations.ServicePorts
  refine ⟨fun s p fr ok ptp hw he => ⟨fun hg => exec_serviceFrameReceived_bad hw he hg ptp,
      fun hg hm => exec_serviceFrameReceived_macControl hw he hg hm ptp, fun hg hm hp hc => ?_, fun hg hm hp => ?_,
      fun o off e hh => exec_serviceFrameTransmit_head hw he hh, fun hh => exec_serviceFrameTransmit_empty hw he hh⟩,
    fun s fr ok hw he => ⟨fun hd => exec_boundaryFrameReceived_dropped hw he hd, fun hg hh => ⟨fun hf =>
      exec_boundaryFrameReceived_gone hw he hg hh hf, fun hf => exec_boundaryFrameReceived_kept hw he hg hh hf rfl rfl⟩⟩,
    fun s o hw => exec_transmitRingPoll_of_working hw o, fun s hr hm hs => ?_,
    fun s a n hr ht hs => ⟨fun h => exec_inboundRead_refused hr ht hs h, fun h => exec_inboundRead_taken hr ht hs h,
      fun bs => ⟨fun h => exec_inboundWrite_refused hr ht hs h n, fun h => exec_inboundWrite_taken hr ht hs h n⟩⟩⟩
  · subst hp
    exact exec_serviceFrameReceived_ptp hw he hg hm hc
  · exact exec_serviceFrameReceived_kept hw he hg hm hp
  · obtain ⟨⟨b, hb⟩, idle, _, off⟩ := perstBoxes_frame ((List.range 16).map (BitVec.ofNat 4)) s
    refine ⟨_, exec_perstNAssert_of_endpoint hr hm hs rfl, ?_, fun m hm => idle m hm, fun m hm => off m (mem_allBoxes m) hm, ?_, ?_⟩
    · rw [hb]
    · rw [hb]
    · rw [hb]

end Sys2Proof.Machine
end

section
/-! SUPPORT. The object commands where their checks pass: create, place, write, read, free, delta (R121, R122, R277, R356 to R358, R399, R483). -/

namespace Sys2Proof.Machine

open Sys2Proof

section
variable {s : State} {m : MbxId} {h : CmdHdr} {oid : Nat} {o : Obj} (ho : s.obj? oid = some o) (hu : mayUse m o.owner = true)

/-! ### OBJ_CREATE (R121, R356) -/

theorem exec_objCreate_of_room (hc : Commanded s m h 0x20 0x0A) {len : Nat} {flags : BitVec 16} (ha : len % 256 = 0) (h256 : 256 ≤ len)
    (hmax : len ≤ 2 ^ 34) (hf : flags.toNat ≤ 1) (hn : s.objects.length < 16384) : exec (.objCreate m h len flags) s = .next
      (complete (s.fresh.2.setObj (newObjectId s) (Obj.fresh len m.toNat (flags.getLsbD 0))) m h 0x20 0 (leBytes 4 (newObjectId s))) := by
  have hgood : ¬(len % 256 ≠ 0 ∨ len < 256 ∨ 2 ^ 34 < len ∨ 1 < flags.toNat) := by omega
  simp only [exec, execObjCreate, command_of_commanded hc, hgood, Nat.not_le.mpr hn, if_false, stOk]

/-! ### OBJ_PLACE (R121, R122, R358, R483) -/

theorem isPort_of_lt (hid : oid < 0xFFFF0000) : isPort oid = false := decide_eq_false (Nat.not_le.mpr hid)

/-- A multiple of 256 is not the offset that leaves the choice to the firmware. -/
theorem ne_choose_of_aligned {n : Nat} (h : n % 256 = 0) : n ≠ 2 ^ 64 - 1 := by omega

/-- A placement at a fixed offset of a partition in service takes that offset where it is free (R121, R358). -/
theorem placeLocal_eq {tier p off : Nat} (ha : off % 256 = 0) (hfit : off + o.length ≤ tierSize s tier p) (hp : (s.part p).state = 0) :
    placeLocal s m h oid o tier p off =
      if rangeFreeFor s oid tier p off o.length = true then
        match movePlace s.fresh.2 oid o { tier := tier, partition := p, node := 0, offset := off, rid := 0, base := 0 } with
        | (u, true) => complete u m h 0x21 0 (leBytes 8
            ({ tier := tier, partition := p, node := 0, offset := off, rid := 0, base := 0 } : Placement).addr)
        | (u, false) => complete u m h 0x21 0x07 []
      else complete s m h 0x21 0x04 [] := by
  have hsize : ¬ tierSize s tier p < o.length := by omega
  have hrange : ¬(off % 256 ≠ 0 ∨ tierSize s tier p < off + o.length) := by omega
  simp only [placeLocal, hsize, ne_choose_of_aligned ha, hrange, hp, decide_false, Bool.not_false, and_false, ne_eq, not_true_eq_false, if_false]
  cases rangeFreeFor s oid tier p off o.length
  · rfl
  · rfl

section
variable (hc : Commanded s m h 0x21 0x10) (hid : oid < 0xFFFF0000) (hs : o.sealed = false) (hi : inUse s oid = false)
include ho hu hc hid hs hi

theorem exec_objPlace_local {tier p : Nat} (ht : tier = 1 ∨ tier = 2) (hp : p ≤ 7) (off : Word64) :
    exec (.objPlace m h oid tier p 0 off) s = .next (placeLocal s m h oid o tier p off.toNat) := by
  have hport := isPort_of_lt hid
  have htier : ¬(tier = 0 ∨ 3 < tier) := by omega
  have h3 : tier ≠ 3 := by omega
  have hnode : ¬(tier ≠ 3 ∧ (0 ≠ 0 ∨ 7 < p)) := by omega
  simp only [exec, execObjPlace, command_of_commanded hc, withObj_of_mayUse ho hu, hport, htier, hnode, h3, hs, hi, Bool.or_self, Bool.false_eq_true,
    false_and, if_false]

theorem exec_objPlace_peer {pb node : Nat} (hpb : pb < 8 ∨ (128 ≤ pb ∧ pb < 136)) (hn : node ≤ 1023) {off : Word64} (ha : off.toNat % 256 = 0) :
    exec (.objPlace m h oid 3 pb node off) s = .next (placePeer s m h oid o pb node off.toNat) := by
  have hport := isPort_of_lt hid
  have hbits : ¬(bits pb 3 4 ≠ 0 ∨ 1023 < node) := by unfold bits; omega
  simp only [exec, execObjPlace, command_of_commanded hc, withObj_of_mayUse ho hu, hport, hbits, ha, hs, hi, Bool.or_self, Bool.false_eq_true,
    ne_eq, not_true_eq_false, and_false, false_and, Nat.lt_irrefl, or_self, if_true, if_false, Nat.reduceEqDiff]

end

theorem placePeer_remote {pb node off : Nat} (hr : s.fab.heldRes.length < 256) (hn : node ≠ s.fab.node) :
    placePeer s m h oid o pb node off = await (sendMgmt { s with fab := { s.fab with
        nextSeq := (s.fab.nextSeq + 1) % 2 ^ 32
        mgmt := s.fab.mgmt ++ [{ seq := s.fab.nextSeq, kind := 0x20, node := node, mbx := m, object := oid }] } } 0x20 0 node 0 s.fab.nextSeq
      (leBytes 8 o.length ++ leBytes 1 pb ++ leBytes 3 0 ++ leBytes 4 s.boot.bootCount ++ leBytes 8 off)) m h 0x21 (.place oid s.fab.nextSeq) := by
  simp only [placePeer, Nat.not_le.mpr hr, hn, if_false]

section
variable {pb node off : Nat} (hr : s.fab.heldRes.length < 256) (hn : node = s.fab.node)
include hr hn

theorem placePeer_refused (hg : grantAt s o.length (if 128 ≤ pb then 1 else 2) (pb % 8) off = none) :
    placePeer s m h oid o pb node off = complete s m h 0x21 0x04 [] := by
  simp only [placePeer, Nat.not_le.mpr hr, hn, decide_eq_true_eq, hg, if_true, if_false, stNoResource]

theorem placePeer_granted {at_ : Nat} (hg : grantAt s o.length (if 128 ≤ pb then 1 else 2) (pb % 8) off = some at_) {g : State × Reservation}
    (hgr : grantRange s.fresh.2 node o.length s.boot.bootCount (if 128 ≤ pb then 1 else 2) (pb % 8) at_ = g) :
    placePeer s m h oid o pb node off = placeGranted g.1 m h oid node g.2.id g.2.base := by
  subst hgr hn
  simp only [placePeer, Nat.not_le.mpr hr, decide_eq_true_eq, hg, if_true, if_false]

end

/-! ### OBJ_WRITE and OBJ_READ (R356, R399) -/

section
include ho hu

/-- A write whose buffer can be read and whose bytes the rules for bound objects accept is stored. -/
theorem exec_objWrite_of_accepted (hc : Commanded s m h 0x22 0x20) {off : Nat} {b : Bref} {bs : List Byte} {r : State}
    (hp : o.place.isSome = true) (hfit : off + b.len ≤ o.length) (hs : o.sealed = false) (hr : bufRead s m b b.len = (r, some bs))
    (hb : isBound r oid = true → boundCheck r oid (patched r o off bs) = .accept) :
    exec (.objWrite m h oid off b) s = .next (match storeObj r oid o off bs with
      | (u, false) => complete u m h 0x22 0x07 []
      | (u, true) => complete (arrive u oid) m h 0x22 0 []) := by
  have hbad : ¬(o.place.isNone = true ∨ o.length < off + b.len) := by simp [← Option.not_isSome, hp, hfit]
  have hcheck : (if isBound r oid = true then boundCheck r oid (patched r o off bs) else .accept) = .accept := by
    split
    · exact hb ‹_›
    · rfl
  simp only [exec, execObjWrite, command_of_commanded hc, withObj_of_mayUse ho hu, hbad, hs, withBuf_of_read (Nat.le_refl b.len) hr, hcheck,
    Bool.false_eq_true, if_false]
  rfl

theorem exec_objRead_of_placed (hc : Commanded s m h 0x23 0x20) {off : Nat} {b : Bref} {p : Placement} (hp : o.place = some p)
    (hfit : off + b.len ≤ o.length) (hl : o.lost = false) : exec (.objRead m h oid off b) s = .next (match firmwareRead s p off b.len with
      | (u, none) => complete u m h 0x23 0x07 []
      | (u, some bs) => replyBuf u m h 0x23 b bs (fun t => complete t m h 0x23 0 [])) := by
  simp only [exec, execObjRead, command_of_commanded hc, withObj_of_mayUse ho hu, hp, Nat.not_lt.mpr hfit, hl, Bool.false_eq_true, if_false]
  rfl

/-! ### OBJ_FREE and OBJ_DELTA (R277, R358, R483) -/

theorem exec_objFree_of_unused (hc : Commanded s m h 0x24 4) (hid : oid < 0xFFFF0000) (hb : isBound s oid = false) (hs : o.sealed = false)
    (hd : holdsData s oid = false) {u : State}
    (hu' : { s with objects := s.objects.erase oid, kv := { s.kv with cleared := s.kv.cleared.filter (fun k => k != oid) } } = u) :
    exec (.objFree m h oid) s = .next (complete (match o.place with
      | some p => releaseRes u p
      | none => u) m h 0x24 0 []) := by
  subst hu'
  cases hp : o.place with
  | none =>
    simp only [exec, execObjFree, command_of_commanded hc, withObj_of_mayUse ho hu, isPort_of_lt hid, hb, hs, hd, hp, Bool.or_self,
      Bool.false_eq_true, if_false, stOk]
  | some p =>
    simp only [exec, execObjFree, command_of_commanded hc, withObj_of_mayUse ho hu, isPort_of_lt hid, hb, hs, hd, hp, Bool.or_self,
      Bool.false_eq_true, if_false, stOk]

/-- A delta list that breaks no rule is applied, or waits while its bank is in use. -/
theorem exec_objDelta_of_accepted (hc : Commanded s m h 0x25 0x20) {b : Bref} {head bs : List Byte} {r u : State} (hp : o.place.isSome = true)
    (hm : objBytes s o 0 4 = [0x53, 0x51, 0x50, 0x53]) (h16 : 16 ≤ b.len) (hr : bufRead s m b 16 = (r, some head)) {n : Nat}
    (hn : fld head 8 4 = n) (h1 : 0 < n) (hmax : n ≤ 32768) (hz : fld head 0xC 4 = 0) (hfit : 16 + 8 * n ≤ b.len)
    (hr' : bufRead r m b (16 + 8 * n) = (u, some bs)) (hd : deltaStatus u oid (fld bs 0 8) (deltaEntries bs n) = 0) :
    exec (.objDelta m h oid b) s = .next (if inUse u oid then await u m h 0x25 (.delta oid (fld bs 0 8) (deltaEntries bs n))
      else complete (applyDelta u oid (deltaEntries bs n)) m h 0x25 0 (leBytes 4 n)) := by
  have hbad : ¬(o.place.isNone = true ∨ objBytes s o 0 4 ≠ [0x53, 0x51, 0x50, 0x53]) := by simp [← Option.not_isSome, hp, hm]
  have hhead : ¬(n = 0 ∨ 32768 < n ∨ fld head 0xC 4 ≠ 0) := by omega
  simp only [exec, execObjDelta, command_of_commanded hc, withObj_of_mayUse ho hu, hbad, withBuf_of_read h16 hr, hn, hhead,
    withBuf_of_read hfit hr', hd, stOk, ne_eq, not_true_eq_false, if_false]

end

end

/-- Settles O41: each clause is the meaning of its command where the checks before it pass. -/
theorem objectCommands : Obligations.ObjectCommands := by
  unfold Obligations.ObjectCommands
  intro s m h oid o ho hu hid
  refine ⟨fun len flags hc ha h256 hmax hf hn => exec_objCreate_of_room hc ha h256 hmax hf hn,
    fun tier p off hc ht hp hs hi ha hfit hst => ?_, fun pb node off hc hpb hn hs hi ha hr => ?_,
    fun off b bs r u hc hp hfit hs hr hb => ?_, fun off b p bs u t hc hp hfit hl => ?_,
    fun hc hb hs hd => exec_objFree_of_unused ho hu hc hid hb hs hd rfl,
    fun b head bs r u hc hp hm h16 hr => ?_⟩
  · rw [exec_objPlace_local ho hu hc hid hs hi ht hp, placeLocal_eq ha hfit hst]
    refine ⟨fun hfree => by rw [hfree]; rfl, fun hfree u => ⟨fun hmv => ?_, fun hmv => ?_⟩⟩
    · rw [if_pos hfree, hmv]
    · rw [if_pos hfree, hmv]
  · rw [exec_objPlace_peer ho hu hc hid hs hi hpb hn ha]
    refine ⟨fun hne => by rw [placePeer_remote hr hne], fun he => ⟨fun hg => by rw [placePeer_refused hr he hg], fun at_ hg => ?_⟩⟩
    intro g
    rw [placePeer_granted hr he hg rfl]
  · rw [exec_objWrite_of_accepted ho hu hc hp hfit hs hr hb]
    exact ⟨fun hst => by rw [hst], fun hst => by rw [hst]⟩
  · rw [exec_objRead_of_placed ho hu hc hp hfit hl]
    refine ⟨fun hrd hw => ?_, fun hrd => by rw [hrd]⟩
    rw [hrd]
    exact congrArg Host.Outcome.next (replyBuf_of_writable hw h 0x23 _)
  · intro n h1 hmax hz hfit hr' hd
    exact exec_objDelta_of_accepted ho hu hc hp hm h16 hr rfl h1 hmax hz hfit hr' hd

end Sys2Proof.Machine
end

section
/-! SUPPORT. What happens at an arbiter beside grants: a breach of its protocol, a written transfer, a late run (R126, R131, R132, R139, R169). -/

namespace Sys2Proof.Machine

open Sys2Proof

/-! ### A breach of the protocol (R169, R430) -/

/-- A partition that has not just returned from a reset takes the path that its cause names. -/
theorem escalation_none {s : State} {p : Nat} (hf : (s.part p).backFast = none) (hu : (s.part p).backFull = none) :
    escalation s p = .none := by
  simp [escalation, hf, hu]

theorem detect_breach {s : State} {p : Nat} (h0 : (s.part p).state = 0) (hf : (s.part p).backFast = none) (hu : (s.part p).backFull = none)
    (job cause unit value : Nat) : detect s 0 (mkEvent 0x22 p job cause unit value) =
      beginReset (raiseAs s 2 0 (mkEvent 0x22 p job cause unit value)) p 0 0x22 cause unit := by
  have he : escalation s p = .none := escalation_none hf hu
  have hd : detect s 0 (mkEvent 0x22 p job cause unit value) = resetCause s p 0 0 (mkEvent 0x22 p job cause unit value) := rfl
  rw [hd, resetCause]
  simp only [h0, he, if_true]
  rfl

/-! ### A written transfer (R126, R131, R132) -/

section
variable {s : State} {p : PartId} {e : BitVec 3} {g : Grant} (hg : (s.part p.toNat).arb.grantOf e.toNat = some g)
  (hp : peerOpen s p.toNat e.toNat = false)
include hg hp

theorem exec_transferWritten_of_closed :
    exec (.transferWritten p e) s = .next (finishTransfer s p.toNat e.toNat g) := by
  simp only [exec, execTransferWritten, hg, hp, Bool.false_eq_true, if_false]

/-- A transfer that stands for no run and no prefetched line frees its engine and does nothing more. -/
theorem exec_transferWritten_plain (hm : g.req.move = none) (hl : g.req.lines = []) :
    exec (.transferWritten p e) s = .next (updArb s p.toNat (fun a => a.setEngine e.toNat none)) := by
  simp only [exec_transferWritten_of_closed hg hp, finishTransfer, hm, hl, List.isEmpty_nil, if_true]

/-- A transfer of a run that still stands is copied, its tile is written, and the runs that are complete signal. -/
theorem exec_transferWritten_run (hi : s.flt.pending = none) {c : ClusterId} {id i : Nat} {r : Run} (hm : g.req.move = some (c, id, i))
    (hr : (s.cluster c.toNat).runs.find? (fun x => x.id == id) = some r) {u : State}
    (hu : updRun (copyTransfer (updArb s p.toNat (fun a => a.setEngine e.toNat none)) r i g.got) c.toNat id (fun r => { r with
      xfers := r.xfers.zipIdx.map (fun x => if x.2 = i then { state := .written, revocations := 0 } else x.1) }) = u) :
    exec (.transferWritten p e) s = .next (progressCluster (signalRuns (u.cluster c.toNat).runs.length u r.tile) c.toNat) := by
  have hid : r.id = id := by simpa using List.find?_some hr
  have hi' : (updArb s p.toNat (fun a => a.setEngine e.toNat none)).flt.pending = none := hi
  have hr' : ((updArb s p.toNat (fun a => a.setEngine e.toNat none)).cluster c.toNat).runs.find? (fun x => x.id == id) = some r := hr
  simp only [exec_transferWritten_of_closed hg hp, finishTransfer, hm, hr', writeTransfer, withReads_none hi', hid, hu]

end

/-! ### A late run (R139) -/

theorem exec_lateThresholdExpiry_of_late {s : State} {c : ClusterId} {id : Nat} {r : Run}
    (hr : (s.cluster c.toNat).runs.find? (fun x => x.id == id) = some r) (hw : r.written = false) (hl : r.lateRaised = false)
    (ht : r.threshold ≠ 0) (hlate : r.lateTick < s.time.ticks) {u : State}
    (hu : updStall (updRun s c.toNat id (fun x => { x with lateRaised := true })) r
      (fun k => { k with lateRuns := min 65535 (k.lateRuns + 1) }) = u) :
    exec (.lateThresholdExpiry c id) s = .next (raiseAs u 0 (if r.injected then 1 else 0) (lateEvent u r)) := by
  have hgo : (r.written || r.lateRaised || r.threshold == 0 || decide (s.time.ticks ≤ r.lateTick)) = false := by
    simp [hw, hl, ht, hlate]
  simp only [exec, execLateThresholdExpiry, hr, hgo, hu, Bool.false_eq_true, if_false]

/-- Settles O26: a breach where no reset has just ended, a transfer whose peer requests are answered, a run past its threshold. -/
theorem arbiterEvents : Obligations.ArbiterEvents := by
  unfold Obligations.ArbiterEvents
  refine ⟨fun s p e r job h0 hf hu => congrArg Host.Outcome.next (detect_breach h0 hf hu job r.val (p.toNat * 8 + e.toNat) job),
    fun s p e g hg hp hi => ⟨fun hm hl => exec_transferWritten_plain hg hp hm hl, fun c id i r hm hr => ?_⟩,
    fun s c id r hr hw hl ht hlate => exec_lateThresholdExpiry_of_late hr hw hl ht hlate rfl⟩
  exact exec_transferWritten_run hg hp hi hm hr rfl

end Sys2Proof.Machine
end

section
/-! SUPPORT. The requests presented to an arbiter (R129, R161, R163). -/

namespace Sys2Proof.Machine

open Sys2Proof

/-! ### Arbiters with engines for all that wait (R164, R167) -/

theorem revokeHeld_of_served {s : State} {p : Nat} (h : (s.part p).arb.unserved = []) (n : Nat) : revokeHeld n s p = s := by
  cases n with
  | zero => rfl
  | succ n => simp [revokeHeld, h]

theorem giveEstimates_of_served {s : State} {p : Nat} (h : (s.part p).arb.unserved = []) :
    giveEstimates s p = { s with freeCount := s.freeCount + 8 } := by
  simp [giveEstimates, h, forEach]

/-- A request for which an engine is free joins the waiting ones, and nothing more happens. -/
theorem enqueue_of_served {s u : State} {p : Nat} {q : ArbReq}
    (hu : setXfer (updArb (takeLines s p q) p (fun a => { a with waiting := a.waiting ++ [q] })) q (fun x => { x with state := .waiting }) = u)
    (h : (u.part p).arb.unserved = []) : enqueue s p q = { u with freeCount := u.freeCount + 8 } := by
  subst hu
  simp only [enqueue, revokeHeld_of_served h, giveEstimates_of_served h]

/-! ### Presenting a request (R161, R163) -/

theorem masked_event {s t : State} (f : EventFrame s t) (p r : Nat) : masked t p r = masked s p r := by
  obtain ⟨_, _, _, _, _, rfl, _⟩ := f
  rfl

section
variable {s : State} {p : PartId} {r : Requester} {cls bytes job : Nat} (hr : remoteRun s p.toNat r cls bytes job = none)
include hr

/-- The event of a masked requester leaves it masked, and nothing is presented. -/
theorem present_of_masked (hm : masked s p.toNat r.val = true) : present s p.toNat r cls bytes job =
    raiseAs s 1 0 { mkEvent 0x22 p.toNat job r.val (0x8000 + p.toNat) job with mild := true } := by
  have hm' := (masked_event (raise_event s { mkEvent 0x22 p.toNat job r.val (0x8000 + p.toNat) job with mild := true }) p.toNat r.val).trans hm
  simp only [present, hr, hm, hm', Bool.true_or, if_true]
  rfl

variable (hm : masked s p.toNat r.val = false)
include hm

theorem present_of_waiting (hw : (s.part p.toNat).arb.waiting.any (fun w => w.requester == r) = true) :
    present s p.toNat r cls bytes job = s := by
  simp only [present, hr, hm, hw, Bool.false_or, Bool.false_eq_true, if_true, if_false]

theorem present_of_unmasked (hw : (s.part p.toNat).arb.waiting.any (fun w => w.requester == r) = false) :
    present s p.toNat r cls bytes job = enqueue s p.toNat (requestOf s p.toNat r cls bytes job) := by
  simp only [present, hr, hm, hw, Bool.or_self, Bool.false_eq_true, if_false]

end

/-- Settles O23: the three branches of a request that is presented. -/
theorem arbiterRequests : Obligations.ArbiterRequests := by
  unfold Obligations.ArbiterRequests
  intro s p r cls bytes job hr q
  refine ⟨fun hm hw => ?_, fun hm hw => congrArg Host.Outcome.next (present_of_waiting hr hm hw),
    fun hm => congrArg Host.Outcome.next (present_of_masked hr hm)⟩
  intro u hs
  exact congrArg Host.Outcome.next ((present_of_unmasked hr hm hw).trans (enqueue_of_served rfl hs))

end Sys2Proof.Machine
end

section
/-! SUPPORT. Grants and turn estimates (R161, R162, R165, R167, R168). -/

namespace Sys2Proof.Machine

open Sys2Proof

/-! ### Engines and waiting requests -/

namespace Arbiter

variable {a : Arbiter} {e d : Nat} {g : Option Grant} {q : ArbReq}

theorem mem_free_lt (h : e ∈ a.free) : e < 8 := List.mem_range.mp (List.mem_of_mem_filter h)

@[simp] theorem grantOf_setEngine_self (h : e < 8) : (a.setEngine e g).grantOf e = g := by
  simp [grantOf, setEngine, h]

theorem grantOf_setEngine_ne (h : d ≠ e) : (a.setEngine e g).grantOf d = a.grantOf d := by
  by_cases hd : d < 8
  · simp [grantOf, setEngine, hd, h]
  · simp [grantOf, hd]

theorem setEngine_setEngine (k : Option Grant) : (a.setEngine e g).setEngine e k = a.setEngine e k := by
  simp only [setEngine, mk.injEq, true_and, and_true]
  ext i hi
  simp only [Vector.getElem_ofFn, Fin.getElem_fin]
  split <;> rfl

/-- The only waiting request leaves none when it is taken. -/
theorem take_waiting_of_single (hw : a.waiting = [q]) (hb : a.heldBack = []) : (a.take q).waiting = [] := by
  simp [take, putBack, hw, hb]

theorem unserved_of_waiting (h : a.waiting = []) : a.unserved = [] := by simp [unserved, h, sortBy]

theorem next_of_waiting (h : a.waiting = []) : a.next = none := by simp [next, h, sortBy]

end Arbiter

theorem updArb_arb (s : State) (p : Nat) (f : Arbiter → Arbiter) : ((updArb s p f).part p).arb = f (s.part p).arb := by
  rw [updArb, State.part_setPart]

theorem turnPrefetcher_arb (x : Part) (q : ArbReq) : (turnPrefetcher x q).arb = x.arb := by
  unfold turnPrefetcher; split <;> rfl

theorem forEach_tiles (g : State → TileId → State) (hg : ∀ s t, ∃ ts, g s t = { s with tiles := ts }) (xs : List TileId) (s : State) :
    ∃ ts, forEach xs s g = { s with tiles := ts } := by
  induction xs generalizing s with
  | nil => exact ⟨_, rfl⟩
  | cons x xs ih =>
    obtain ⟨_, he⟩ := hg s x
    obtain ⟨_, hes⟩ := ih (g s x)
    exact ⟨_, hes.trans (by rw [he])⟩

/-- Gating and ungating change tiles alone (R168). -/
theorem gateFor_tiles (s : State) (q : ArbReq) (on : Bool) : ∃ ts, gateFor s q on = { s with tiles := ts } := by
  unfold gateFor
  split
  · exact ⟨_, rfl⟩
  · split
    · split
      · exact ⟨_, rfl⟩
      · exact forEach_tiles _ (fun s t => ⟨_, rfl⟩) _ _
    · refine forEach_tiles _ (fun s t => ?_) _ _
      split <;> exact ⟨_, rfl⟩

theorem updStall_jobs (s : State) (r : Run) (f : StallRec → StallRec) : ∃ js, updStall s r f = { s with jobs := js } := by
  unfold updStall
  split
  · exact ⟨_, rfl⟩
  · split <;> exact ⟨_, rfl⟩

/-! ### The grant of one request (R161, R162, R165) -/

/-- The state in which a request has an engine and its transfer is about to start. -/
def granted (s : State) (p e : Nat) (q : ArbReq) : State :=
  let u := updArb s p (fun a => a.take q)
  let u := u.setPart p (turnPrefetcher (u.part p) q)
  let u := updArb u p (fun a => a.setEngine e (some { req := { q with revoked := false }, order := (u.part p).arb.grants, got := [] }))
  gateFor (setXfer u q (fun y => { y with state := .granted, revocations := q.revocations })) q false

/-- The grant writes the arbiter of its partition, clusters, tiles and partitions, and nothing else. -/
theorem granted_frame (s : State) (p e : Nat) (q : ArbReq) :
    ∃ ts cs ps, granted s p e q = { s with tiles := ts, clusters := cs, parts := ps } := by
  unfold granted
  dsimp only
  generalize hu : updArb _ p (fun a => a.setEngine e _) = u
  obtain ⟨_, hx⟩ := setXfer_clusters u q (fun y => { y with state := .granted, revocations := q.revocations })
  obtain ⟨_, hg⟩ := gateFor_tiles (setXfer u q (fun y => { y with state := .granted, revocations := q.revocations })) q false
  rw [hg, hx, ← hu]
  exact ⟨_, _, _, rfl⟩

theorem granted_arb (s : State) (p e : Nat) (q : ArbReq) : ((granted s p e q).part p).arb =
    ((s.part p).arb.take q).setEngine e (some { req := { q with revoked := false }, order := (s.part p).arb.grants + 1, got := [] }) := by
  unfold granted
  dsimp only
  generalize hu : updArb _ p (fun a => a.setEngine e _) = u
  obtain ⟨_, hx⟩ := setXfer_clusters u q (fun y => { y with state := .granted, revocations := q.revocations })
  obtain ⟨_, hg⟩ := gateFor_tiles (setXfer u q (fun y => { y with state := .granted, revocations := q.revocations })) q false
  have hp : (gateFor (setXfer u q (fun y => { y with state := .granted, revocations := q.revocations })) q false).part p = u.part p := by
    rw [hg, hx]; rfl
  rw [hp, ← hu, updArb_arb, State.part_setPart, turnPrefetcher_arb, updArb_arb]
  rfl

/-- A request that stands for no run touches neither tiles nor clusters as it is granted. -/
theorem granted_plain (s : State) (p e : Nat) {q : ArbReq} (hm : q.move = none) : ∃ ps, granted s p e q = { s with parts := ps } := by
  simp only [granted, setXfer, gateFor, hm]
  exact ⟨_, rfl⟩

theorem injectStorm_none {s : State} (h : s.flt.pending = none) (p e : Nat) (q : ArbReq) : injectStorm s p e q = (s, q) := by
  simp [injectStorm, takeInjection_none h]

theorem exec_arbiterGrant_of_next {s : State} {p : PartId} {e : Nat} {es : List Nat} {q : ArbReq} (h0 : (s.part p.toNat).state = 0)
    (hp : s.flt.pending = none) (hf : (s.part p.toNat).arb.free = e :: es) (hn : (s.part p.toNat).arb.next = some q) (errs : List SymErr) :
    exec (.arbiterGrant p errs) s = .next (giveEstimates (revokeHeld 8
      (startTransfer (granted s p.toNat e q) p.toNat e { q with revoked := false } errs) p.toNat) p.toNat) := by
  have hi : ∀ x : Part, ((updArb s p.toNat (fun a => a.take q)).setPart p.toNat x).flt.pending = none := fun _ => hp
  simp only [exec, execArbiterGrant, h0, beq_self_eq_true, onlyIf_true, grantNext, hf, hn, injectStorm_none (hi _)]
  rfl

/-- Without a free engine or a waiting request a grant changes nothing. -/
theorem exec_arbiterGrant_of_none {s : State} {p : PartId} (h : (s.part p.toNat).arb.free = [] ∨ (s.part p.toNat).arb.waiting = [])
    (errs : List SymErr) : exec (.arbiterGrant p errs) s = .next s := by
  have hg : grantNext s p.toNat errs = s := by
    rcases h with h | h
    · simp only [grantNext, h]
    · simp only [grantNext, Arbiter.next_of_waiting h]
      cases (s.part p.toNat).arb.free <;> rfl
  rw [exec, execArbiterGrant, hg]
  cases (s.part p.toNat).state == 0 <;> rfl

/-- Where one request waits that stands for no run, its grant is all that happens. -/
theorem exec_arbiterGrant_plain {s : State} {p : PartId} {e : Nat} {es : List Nat} {q : ArbReq} (h0 : (s.part p.toNat).state = 0)
    (hp : s.flt.pending = none) (hf : (s.part p.toNat).arb.free = e :: es) (hn : (s.part p.toNat).arb.next = some q)
    (hw : (s.part p.toNat).arb.waiting = [q]) (hb : (s.part p.toNat).arb.heldBack = []) (hm : q.move = none) (errs : List SymErr) :
    ∃ t, exec (.arbiterGrant p errs) s = .next t ∧ (t.part p.toNat).arb.waiting = [] ∧
      (t.part p.toNat).arb.grantOf e = some { req := { q with revoked := false }, order := (s.part p.toNat).arb.grants + 1, got := [] } ∧
      (∀ d, d ≠ e → (t.part p.toNat).arb.grantOf d = (s.part p.toNat).arb.grantOf d) ∧ t.mem = s.mem ∧ t.tiles = s.tiles ∧
      t.clusters = s.clusters ∧ t.jobs = s.jobs ∧ t.evt = s.evt := by
  have hexec := exec_arbiterGrant_of_next h0 hp hf hn errs
  have he : e < 8 := Arbiter.mem_free_lt (hf ▸ List.mem_cons_self)
  have harb := granted_arb s p.toNat e q
  obtain ⟨_, hg⟩ := granted_plain s p.toNat e hm
  rw [hg] at hexec harb
  have hwait := (congrArg Arbiter.waiting harb).trans (Arbiter.take_waiting_of_single hw hb)
  have hun := Arbiter.unserved_of_waiting hwait
  simp only [startTransfer, hm, revokeHeld_of_served hun, giveEstimates_of_served hun] at hexec
  refine ⟨_, hexec, hwait, ?_, fun d hd => ?_, rfl, rfl, rfl, rfl, rfl⟩
  · exact (congrArg (fun b => Arbiter.grantOf b e) harb).trans (Arbiter.grantOf_setEngine_self he)
  · exact (congrArg (fun b => Arbiter.grantOf b d) harb).trans (Arbiter.grantOf_setEngine_ne hd)

/-! ### The accesses of a granted transfer (R17, R133, R138) -/

theorem accessPinned_cons (acc : RangeOut) (p : Nat) (b : Nat × Bool) (bs : List (Nat × Bool)) (job : Nat) (write : Bool) :
    ∃ acc', SliceFrame p acc.s acc'.s ∧ accessPinned acc p (b :: bs) job write = accessPinned acc' p bs job write := by
  by_cases h : (acc.failed || write) = true
  · exact ⟨acc, .refl p acc.s, by simp only [accessPinned, List.foldl_cons, h, if_true]⟩
  · exact ⟨_, readT1_slice acc.s p _ _ _ _ _ _, by simp only [accessPinned, List.foldl_cons, h, Bool.false_eq_true, if_false]; rfl⟩

theorem accessPinned_slice (acc : RangeOut) (p : Nat) (bs : List (Nat × Bool)) (job : Nat) (write : Bool) :
    SliceFrame p acc.s (accessPinned acc p bs job write).s := by
  induction bs generalizing acc with
  | nil => exact .refl p acc.s
  | cons b bs ih =>
    obtain ⟨acc', hf, he⟩ := accessPinned_cons acc p b bs job write
    rw [he]
    exact hf.trans (ih acc')

/-- The accesses of a transfer within this node that does not fail go through one slice. -/
theorem accessRun_slice {s : State} {p e : Nat} {r : Run} {i cls : Nat} {errs : List SymErr}
    (hl : ∀ o pl, runObj s r = some (o, pl) → (transferRanges s pl (r.desc.pieces r.offset r.scaleOff i)).isSome = true)
    (hf : (accessRun s p e r i cls errs).failed = false) : ∃ o, SliceFrame o s (accessRun s p e r i cls errs).s := by
  unfold accessRun at hf ⊢
  split
  case h_1 hn => simp [hn] at hf
  case h_2 o pl ho =>
    have hs := hl o pl ho
    dsimp only
    split
    case h_1 hn => simp [hn] at hs
    case h_2 x bs _ => exact ⟨x, accessPinned_slice (startRange s errs) x bs r.job r.desc.outward⟩
    case h_3 x bs _ => exact ⟨x, accessBursts_slice (startRange s errs) x bs r.job r.desc.outward r.desc.noAlloc⟩

theorem SliceFrame.arb {o : Nat} {s t : State} (f : SliceFrame o s t) (p : Nat) : (t.part p).arb = (s.part p).arb := by
  obtain ⟨_, _, _, _, hother, hown⟩ := f.tables
  by_cases h : p = o
  · rw [h, hown]
  · rw [hother p h]

/-- A transfer of a run whose accesses do not fail: the run notes a miss, the grant what was delivered, the invocation its stalls. -/
theorem startTransfer_of_delivered {s : State} {p e : Nat} {q : ArbReq} {c : ClusterId} {id i : Nat} {r : Run} {errs : List SymErr} {a : RangeOut}
    (hi : s.flt.pending = none) (hm : q.move = some (c, id, i)) (hr : (s.cluster c.toNat).runs.find? (fun y => y.id == id) = some r)
    (ha : accessRun s p e r i q.cls errs = a) (hf : a.failed = false) : ∃ js, startTransfer s p e q errs =
      { updArb (updRun a.s c.toNat id (fun x => { x with missed := x.missed || a.missed })) p (fun b => match b.grantOf e with
          | some g => b.setEngine e (some { g with got := a.got })
          | none => b) with jobs := js } := by
  subst ha
  simp only [startTransfer, hm, hr, takeInjection_none hi, Option.isSome_none, Bool.false_eq_true, if_false, hf]
  exact updStall_jobs _ _ _

theorem updRun_find? {s : State} {c id : Nat} {r : Run} {f : Run → Run} (hid : ∀ x, (f x).id = x.id)
    (hr : (s.cluster c).runs.find? (fun y => y.id == id) = some r) :
    ((updRun s c id f).cluster c).runs.find? (fun y => y.id == id) = some (f r) := by
  have hri : r.id = id := by simpa using List.find?_some hr
  have hsame : ((fun y : Run => y.id == id) ∘ fun x => if x.id = id then f x else x) = fun y => y.id == id := by
    funext x
    by_cases hx : x.id = id <;> simp [hx, hid]
  rw [updRun, State.cluster_setCluster]
  simp only [List.find?_map, hsame, hr, Option.map_some, hri, if_true]

/-- Where one request waits that stands for a run, and its accesses do not fail, its grant and its run are all that change in the arbiter
and among the runs of its ID. -/
theorem exec_arbiterGrant_run {s : State} {p : PartId} {e : Nat} {es : List Nat} {q : ArbReq} (h0 : (s.part p.toNat).state = 0)
    (hp : s.flt.pending = none) (hf : (s.part p.toNat).arb.free = e :: es) (hn : (s.part p.toNat).arb.next = some q)
    (hw : (s.part p.toNat).arb.waiting = [q]) (hb : (s.part p.toNat).arb.heldBack = []) {c : ClusterId} {id i : Nat} {r : Run}
    {errs : List SymErr} (hm : q.move = some (c, id, i))
    (hr : ((granted s p.toNat e q).cluster c.toNat).runs.find? (fun y => y.id == id) = some r)
    (hl : ∀ o pl, runObj (granted s p.toNat e q) r = some (o, pl) →
      (transferRanges (granted s p.toNat e q) pl (r.desc.pieces r.offset r.scaleOff i)).isSome = true) {a : RangeOut}
    (ha : accessRun (granted s p.toNat e q) p.toNat e r i q.cls errs = a) (hok : a.failed = false) :
    ∃ t, exec (.arbiterGrant p errs) s = .next t ∧ (t.part p.toNat).arb.waiting = [] ∧
      (t.part p.toNat).arb.grantOf e =
        some { req := { q with revoked := false }, order := (s.part p.toNat).arb.grants + 1, got := a.got } ∧
      (t.cluster c.toNat).runs.find? (fun y => y.id == id) = some { r with missed := r.missed || a.missed } := by
  have hi : (granted s p.toNat e q).flt.pending = none := by
    obtain ⟨_, _, _, hg⟩ := granted_frame s p.toNat e q
    rw [hg]; exact hp
  have he : e < 8 := Arbiter.mem_free_lt (hf ▸ List.mem_cons_self)
  obtain ⟨o, hslice⟩ := accessRun_slice hl (ha ▸ hok)
  rw [ha] at hslice
  have harb := (hslice.arb p.toNat).trans (granted_arb s p.toNat e q)
  obtain ⟨_, hclusters, _⟩ := hslice.tables
  have hr' : (a.s.cluster c.toNat).runs.find? (fun y => y.id == id) = some r := by rw [State.cluster, hclusters]; exact hr
  obtain ⟨js, hst⟩ := startTransfer_of_delivered (q := { q with revoked := false }) hi hm hr ha hok
  generalize hu : updArb (updRun a.s c.toNat id (fun x => { x with missed := x.missed || a.missed })) p.toNat _ = u at hst
  have huarb : (u.part p.toNat).arb = ((s.part p.toNat).arb.take q).setEngine e
      (some { req := { q with revoked := false }, order := (s.part p.toNat).arb.grants + 1, got := a.got }) := by
    have hpart : (updRun a.s c.toNat id (fun x => { x with missed := x.missed || a.missed })).part p.toNat = a.s.part p.toNat := rfl
    rw [← hu, updArb_arb, hpart, harb, Arbiter.grantOf_setEngine_self he]
    exact Arbiter.setEngine_setEngine _
  have hwait : (u.part p.toNat).arb.waiting = [] := by
    rw [huarb]
    exact Arbiter.take_waiting_of_single hw hb
  have hun : (({ u with jobs := js } : State).part p.toNat).arb.unserved = [] := Arbiter.unserved_of_waiting hwait
  refine ⟨_, exec_arbiterGrant_of_next h0 hp hf hn errs, ?_⟩
  rw [hst, revokeHeld_of_served hun, giveEstimates_of_served hun]
  refine ⟨hwait, ?_, ?_⟩
  · exact (congrArg (fun b => Arbiter.grantOf b e) huarb).trans (Arbiter.grantOf_setEngine_self he)
  · rw [← hu]
    exact updRun_find? (f := fun x => { x with missed := x.missed || a.missed }) (fun _ => rfl) hr'

/-! ### Turn estimates (R167, R168) -/

/-- The second state is the first but for tiles and for the partition, whose engines are as they were. -/
def EstimateFrame (p : Nat) (s t : State) : Prop :=
  (∃ ts ps, t = { s with tiles := ts, parts := ps }) ∧ (∀ r, r ≠ p → t.part r = s.part r) ∧
    (t.part p).arb.engines = (s.part p).arb.engines

theorem EstimateFrame.refl (p : Nat) (s : State) : EstimateFrame p s s := ⟨⟨s.tiles, s.parts, rfl⟩, fun _ _ => rfl, rfl⟩

theorem EstimateFrame.trans {p : Nat} {s t u : State} (a : EstimateFrame p s t) (b : EstimateFrame p t u) : EstimateFrame p s u := by
  obtain ⟨⟨_, _, rfl⟩, other, engines⟩ := a
  obtain ⟨⟨_, _, rfl⟩, other', engines'⟩ := b
  exact ⟨⟨_, _, rfl⟩, fun r h => (other' r h).trans (other r h), engines'.trans engines⟩

theorem setPart_estimate {p : Nat} {s : State} {x : Part} (h : x.arb.engines = (s.part p).arb.engines) : EstimateFrame p s (s.setPart p x) :=
  ⟨⟨_, _, rfl⟩, fun _ hr => State.part_setPart_ne s x hr, by rw [State.part_setPart, h]⟩

theorem updArb_estimate (s : State) (p : Nat) {f : Arbiter → Arbiter} (h : (f (s.part p).arb).engines = (s.part p).arb.engines) :
    EstimateFrame p s (updArb s p f) := setPart_estimate h

theorem takeLines_estimate (s : State) (p : Nat) (q : ArbReq) : EstimateFrame p s (takeLines s p q) := by
  unfold takeLines
  split
  · exact .refl p s
  · exact setPart_estimate rfl

theorem gateFor_estimate (s : State) (p : Nat) (q : ArbReq) (on : Bool) : EstimateFrame p s (gateFor s q on) := by
  obtain ⟨_, h⟩ := gateFor_tiles s q on
  rw [h]
  exact ⟨⟨_, _, rfl⟩, fun _ _ => rfl, rfl⟩

theorem withdrawPrefetch_estimate (s : State) (p : Nat) (q : ArbReq) : EstimateFrame p s (withdrawPrefetch s p q) := by
  unfold withdrawPrefetch
  dsimp only
  have hback : ∀ x : Part, x.arb.engines = (s.part p).arb.engines → EstimateFrame p s (s.setPart p (turnPrefetcher x q)) := fun x hx =>
    setPart_estimate (by rw [turnPrefetcher_arb, hx])
  split
  case h_1 n _ => exact (hback _ (by rfl)).trans ((takeLines_estimate _ p n).trans (updArb_estimate _ p (by rfl)))
  case h_2 => exact hback _ (by rfl)

theorem giveEstimate_estimate (s : State) (p : Nat) (q : ArbReq) : EstimateFrame p s (giveEstimate s p q) := by
  have hmap := updArb_estimate s p (f := fun a => { a with
    waiting := a.waiting.map (fun w => if w = q then { q with estimate := estimateOf s p q } else w) }) rfl
  unfold giveEstimate
  dsimp only
  split
  · split
    · exact hmap.trans (withdrawPrefetch_estimate _ p _)
    · exact hmap
  · split
    · exact hmap.trans (gateFor_estimate _ p _ true)
    · exact hmap

theorem giveEstimates_estimate (qs : List ArbReq) (p : Nat) (s : State) : EstimateFrame p s (forEach qs s (fun s q => giveEstimate s p q)) := by
  induction qs generalizing s with
  | nil => exact .refl p s
  | cons q qs ih => exact (giveEstimate_estimate s p q).trans (ih _)

/-- A request with the estimate that its arbiter gives it. -/
def estimated (s : State) (p : Nat) (q : ArbReq) : ArbReq := { q with estimate := estimateOf s p q }

/-- One request of an arbiter replaced by its estimated form, wherever it waits. -/
def estimateOne (s : State) (p : Nat) (w q : ArbReq) : ArbReq := if w = q then estimated s p q else w

/-- A request that no prefetcher presents receives its estimate, and tiles may be gated. -/
theorem giveEstimate_tiles (s : State) (p : Nat) {q : ArbReq} (h8 : q.requester.val ≠ 8) : ∃ ts, giveEstimate s p q =
    { updArb s p (fun a => { a with waiting := a.waiting.map (fun w => estimateOne s p w q) }) with tiles := ts } := by
  unfold giveEstimate
  simp only [h8, if_false]
  split
  · exact gateFor_tiles _ _ _
  · exact ⟨_, rfl⟩

theorem giveEstimate_arb (s : State) (p : Nat) {q : ArbReq} (h8 : q.requester.val ≠ 8) :
    ((giveEstimate s p q).part p).arb = { (s.part p).arb with waiting := (s.part p).arb.waiting.map (fun w => estimateOne s p w q) } := by
  obtain ⟨_, he⟩ := giveEstimate_tiles s p h8
  rw [he]
  exact updArb_arb s p (fun a => { a with waiting := a.waiting.map (fun w => estimateOne s p w q) })

/-- The estimate of a request depends on the engines and on what waits before it, and on no estimate. -/
theorem estimateOf_congr {s t : State} {p : Nat} {f : ArbReq → ArbReq} (hf : ∀ w, ∃ n, f w = { w with estimate := n })
    (hc : t.freeCount = s.freeCount) (ha : (t.part p).arb = { (s.part p).arb with waiting := (s.part p).arb.waiting.map f }) (q : ArbReq) :
    estimateOf t p q = estimateOf s p q := by
  have hkey : ∀ w, (s.part p).arb.key (f w) = (s.part p).arb.key w := fun w => by
    obtain ⟨n, h⟩ := hf w
    rw [h]; rfl
  have hbytes : ∀ w, (f w).bytes = w.bytes := fun w => by
    obtain ⟨n, h⟩ := hf w
    rw [h]
  have hk : ∀ w, (t.part p).arb.key w = (s.part p).arb.key w := fun w => by rw [ha]; rfl
  have hr : remaining t p = remaining s p := by simp only [remaining, ha, hc]; rfl
  simp only [estimateOf, hr, hk]
  rw [ha]
  simp only [List.filter_map, List.map_map, Function.comp_def, hkey, hbytes]

theorem estimateOne_estimate (s : State) (p : Nat) (q w : ArbReq) : ∃ n, estimateOne s p w q = { w with estimate := n } := by
  unfold estimateOne
  split
  · next h => exact ⟨_, by rw [h]; rfl⟩
  · exact ⟨_, rfl⟩

/-- Requests that no prefetcher presents, estimated in turn: each waiting request is replaced by one after the other. -/
theorem giveEstimates_arb (s : State) (p : Nat) (qs : List ArbReq) (h8 : ∀ q ∈ qs, q.requester.val ≠ 8) (t : State)
    (hs : ∀ q, estimateOf t p q = estimateOf s p q) : ((forEach qs t (fun s q => giveEstimate s p q)).part p).arb =
      { (t.part p).arb with waiting := (t.part p).arb.waiting.map (fun w => qs.foldl (estimateOne s p) w) } := by
  induction qs generalizing t with
  | nil => simp [forEach]
  | cons q qs ih =>
    have harb := giveEstimate_arb t p (h8 q List.mem_cons_self)
    obtain ⟨⟨_, _, hframe⟩, _⟩ := giveEstimate_estimate t p q
    have hone : (fun w => estimateOne t p w q) = fun w => estimateOne s p w q := by
      funext w
      simp only [estimateOne, estimated, hs]
    have hs' : ∀ w, estimateOf (giveEstimate t p q) p w = estimateOf s p w := fun w =>
      (estimateOf_congr (estimateOne_estimate t p q) (by rw [hframe]) harb w).trans (hs w)
    have hrest := ih (fun w hw => h8 w (List.mem_cons_of_mem q hw)) (giveEstimate t p q) hs'
    rw [harb, hone] at hrest
    refine Eq.trans hrest ?_
    simp only [List.map_map, List.foldl_cons, Function.comp_def]

/-- Estimating a request again gives the same estimate. -/
theorem estimated_estimated (s : State) (p : Nat) (w : ArbReq) : estimated s p (estimated s p w) = estimated s p w := rfl

theorem foldl_estimateOne (s : State) (p : Nat) (qs : List ArbReq) (w : ArbReq) :
    qs.foldl (estimateOne s p) w = if w ∈ qs then estimated s p w else w := by
  induction qs generalizing w with
  | nil => simp
  | cons q qs ih =>
    rw [List.foldl_cons, ih]
    by_cases h : w = q
    · subst h
      simp only [estimateOne, if_true, List.mem_cons_self, estimated_estimated, ite_self]
    · simp only [estimateOne, h, if_false, List.mem_cons, false_or]

/-- TURN_ESTIMATE_UPDATE where no prefetcher's request waits: every waiting request has its estimate (R167). -/
theorem estimates_arb (s : State) (p : Nat) (h8 : ∀ w ∈ (s.part p).arb.waiting, w.requester.val ≠ 8) :
    ((forEach (s.part p).arb.waiting s (fun s q => giveEstimate s p q)).part p).arb =
      { (s.part p).arb with waiting := (s.part p).arb.waiting.map (fun w => { w with estimate := estimateOf s p w }) } := by
  rw [giveEstimates_arb s p _ h8 s (fun _ => rfl)]
  have hall : (s.part p).arb.waiting.map (fun w => (s.part p).arb.waiting.foldl (estimateOne s p) w) =
      (s.part p).arb.waiting.map (estimated s p) :=
    List.map_congr_left fun w hw => by rw [foldl_estimateOne, if_pos hw]
  rw [hall]
  rfl

/-- Settles O25: the grant as the model makes it, where one request waits, where nothing can be granted; the estimates. -/
theorem arbiterGrants : Obligations.ArbiterGrants := by
  unfold Obligations.ArbiterGrants
  refine ⟨fun s p errs e es q => ?_, fun s p errs h => exec_arbiterGrant_of_none h errs, fun s p => ?_⟩
  · intro x h0 hp hf hn g u₁ u₂ u₃ u
    refine ⟨exec_arbiterGrant_of_next h0 hp hf hn errs, fun hw hb hm => ?_, fun c id i r hw hb hm hr hl => ?_⟩
    · exact exec_arbiterGrant_plain h0 hp hf hn hw hb hm errs
    · intro a ha
      exact exec_arbiterGrant_run h0 hp hf hn hw hb hm hr hl rfl ha
  · have hframe := giveEstimates_estimate (s.part p.toNat).arb.waiting p.toNat s
    obtain ⟨⟨_, _, hu⟩, hother, hengines⟩ := hframe
    exact ⟨_, rfl, by rw [hu], by rw [hu], by rw [hu], by rw [hu], by rw [hu], by rw [hu], hother, hengines, estimates_arb s p.toNat⟩

end Sys2Proof.Machine
end

section
/-! SUPPORT. The start, the passes and the end of an invocation, and the epochs of a fusion job (R208, R289, R313, R314, R323, R375, R376, R391, R394, R395). -/

namespace Sys2Proof.Machine

open Sys2Proof

/-! ### Tiles that begin together (R75, R76, R208) -/

theorem TileState.begin_of_program {x : TileState} (h : x.progLen ≠ 0) :
    x.begin = { x with phase := .running, stall := .free, pc := 0, loops := [], counters := Vector.replicate 8 0 } := if_neg h

/-- A tile that is set at least once by a change which establishes `Q` ends in `Q`, however often the list names it; `P` is what the change needs and keeps. -/
theorem forEach_setTile_post {α : Type} (key : α → TileId) (f : α → TileState → TileState) {P Q : TileState → Prop}
    (hP : ∀ a x, P x → P (f a x)) (hQ : ∀ a x, P x → Q (f a x)) (t : TileId) (xs : List α) (s : State) (hp : P (s.tile t))
    (ht : t ∈ xs.map key ∨ Q (s.tile t)) : Q ((forEach xs s (fun s a => s.setTile (key a) (f a (s.tile (key a))))).tile t) := by
  induction xs generalizing s with
  | nil => exact ht.resolve_left (by simp)
  | cons a xs ih =>
    refine ih (s.setTile (key a) (f a (s.tile (key a)))) ?_ ?_
    all_goals by_cases h : t = key a
    · subst h; rw [State.tile_setTile]; exact hP a _ hp
    · rw [State.tile_setTile_ne _ _ h]; exact hp
    · subst h; rw [State.tile_setTile]; exact .inr (hQ a _ hp)
    · rw [State.tile_setTile_ne _ _ h]
      exact ht.imp_left fun hm => (List.mem_cons.mp hm).resolve_left h

/-- A tile that runs from word 0. -/
def TileState.AtStart (x : TileState) : Prop := x.phase = .running ∧ x.pc = 0 ∧ x.stall = .free

theorem TileState.begin_atStart {x : TileState} (h : x.progLen ≠ 0) : x.begin.AtStart := by
  rw [begin_of_program h]; exact ⟨rfl, rfl, rfl⟩

theorem TileState.begin_progLen (x : TileState) : x.begin.progLen = x.progLen := by
  unfold TileState.begin; split <;> rfl

section
variable {s : State} {cs : List Nat} {e : Nat × TileId} (he : e ∈ leaseTiles cs) (hp : (s.tile e.2).progLen ≠ 0)
include he hp

/-- A pass starts every tile that has a program. -/
theorem startPass_tile : ((startPass s cs).tile e.2).AtStart :=
  forEach_setTile_post Prod.snd (fun _ x => x.begin) (P := fun x => x.progLen ≠ 0) (Q := TileState.AtStart)
    (fun _ x hx => by rwa [TileState.begin_progLen]) (fun _ _ hx => TileState.begin_atStart hx) e.2 (leaseTiles cs) s hp
    (.inl (List.mem_map_of_mem he))

/-- A run starts every tile that has a program, with its counts cleared. -/
theorem startClusters_tile (number : Nat) :
    let x := (startClusters s cs number).tile e.2
    x.AtStart ∧ x.satCount = 0 ∧ x.anomCount = 0 :=
  forEach_setTile_post Prod.snd (fun a x => { x.begin with
      gens := genSeeds a.1 number, satCount := 0, anomCount := 0, groups := [], issued := 0 }) (P := fun x => x.progLen ≠ 0)
    (Q := fun x => x.AtStart ∧ x.satCount = 0 ∧ x.anomCount = 0)
    (fun _ x hx => by rwa [← TileState.begin_progLen] at hx) (fun _ _ hx => ⟨TileState.begin_atStart hx, rfl, rfl⟩) e.2 (leaseTiles cs) s hp
    (.inl (List.mem_map_of_mem he))

end

/-! ### A job in its table -/

theorem updJob_of_job? {s : State} {jid : Nat} {j : Job} (hj : s.job? jid = some j) (f : Job → Job) : updJob s jid f = s.setJob jid (f j) := by
  simp only [updJob, hj]

theorem EventFrame.job?_eq {s t : State} (h : EventFrame s t) (jid : Nat) : t.job? jid = s.job? jid := by
  obtain ⟨_, _, _, _, _, rfl, _⟩ := h
  rfl

theorem raise_job? (s : State) (e : DetEvent) (jid : Nat) : (raise s e).job? jid = s.job? jid := (raise_event s e).job?_eq jid

/-! ### INVOCATION_START (R375) -/

theorem startShadow_of_none {s : State} {jid : Nat} {j : Job} (hj : s.job? jid = some j) (hs : j.shadow = none) : startShadow s jid = s := by
  simp only [startShadow, hj, Option.bind_some, hs]

section
variable {s : State} {job : Nat} {j : Job} {im : Image} (hj : s.job? job = some j) (hi : s.image? j.image = some im)
include hj hi

theorem tryStart_of_taken (hc : leaseInService s j.clusters = true) (hn : j.invocation = none) (hl : j.lease = 2) (ho : j.owed = [])
    (hm : mayStart s job j im = true) : tryStart s job = queueShadow (startRun (takeInvocation s job) job) job := by
  simp only [tryStart, hj, hi, hn, hl, hc, ho, hm, ne_eq, not_true_eq_false, Bool.true_eq_false, or_self, if_false, if_true]

theorem tryStart_of_idle (hn : j.invocation = none) (ho : j.owed = []) (hm : mayStart s job j im = false) : tryStart s job = s := by
  simp only [tryStart, hj, hi, hn, ho, hm, Bool.false_eq_true, if_false, ite_self]

theorem tryStart_of_started {i : Invocation} (hn : j.invocation = some i) (hs : i.started = true) : tryStart s job = s := by
  simp only [tryStart, hj, hi, hn, hs, Bool.true_or, if_true]

theorem tryStart_of_waiting (hc : leaseInService s j.clusters = true) {i : Invocation} (hn : j.invocation = some i) (hs : i.started = false)
    (hf : i.isFallback = false) (hr : j.rerun = false) (hl : j.lease = 2) : tryStart s job = startRun s job := by
  have hl' : [2, 3, 8].contains j.lease = true := by rw [hl]; rfl
  simp only [tryStart, hj, hi, hn, hs, hf, hr, hl', hc, Bool.not_true, Bool.or_self, Bool.false_eq_true, if_false, if_true]

/-- A run whose preparation succeeds starts its tiles, from the state in which its prefetchers are assigned. -/
theorem startRun_tile {cs : List Nat} (hcs : j.roleClusters .primary = cs) {v : State}
    (hp : (Prep.andThen (prepareFuse (clearCounts s (j.roleClusters .fallback)) job cs) (fun s => Prep.andThen (preparePlan s job cs im)
      (fun s => Prep.andThen (prepareWriter s job cs j.image) (fun s => prepareCall s job cs im)))).1 = some v) {w : State}
    (hw : assignFor (prepareRest v job cs im) job cs = w) {k : Job} (hk : w.job? job = some k) {i : Invocation} (hki : k.invocation = some i)
    {e : Nat × TileId} (he : e ∈ leaseTiles cs) (hpl : (w.tile e.2).progLen ≠ 0) :
    let x := (startRun s job).tile e.2
    x.AtStart ∧ x.satCount = 0 ∧ x.anomCount = 0 := by
  simp only [startRun, hj, hi, hcs, hp, hw, updJob_of_job? hk, State.job?_setJob, Option.bind_some, hki, Option.map_some]
  exact startClusters_tile he (by exact hpl) _

end

/-! ### PERIODIC_START_INSTANT (R375, R376) -/

theorem skipStart_job? (s : State) (jid k : Nat) : (skipStart s jid).job? k = s.job? k := raise_job? s.fresh.2 _ k

section
variable {s : State} {job : Nat} {j : Job} (hj : s.job? job = some j) (hp : j.period ≠ 0) (hr : j.readyAt.isSome = true) (hf : j.fuse = none)
include hj

theorem exec_periodicStartInstant_of_before (hn : s.now < j.nextStart) : exec (.periodicStartInstant job) s = .next s := by
  simp only [exec, execPeriodicStartInstant, hj, hn, true_or, or_true, if_true]

include hp hr hf

/-- An instant that has fallen due: an earlier one that still waits is skipped first. -/
theorem exec_periodicStartInstant_of_due (hn : j.nextStart ≤ s.now) :
    exec (.periodicStartInstant job) s = .next
      ((if j.startWaiting then skipStart s job else s).setJob job { j with nextStart := j.nextStart + j.period, startWaiting := true }) := by
  have hr' : j.readyAt.isNone = false := by simpa using hr
  have hj' : (if j.startWaiting then skipStart s job else s).job? job = some j := by
    split
    · rw [skipStart_job?, hj]
    · exact hj
  simp only [exec, execPeriodicStartInstant, hj, hp, hr', Nat.not_lt.mpr hn, hf, Option.isSome_none, Bool.false_eq_true, or_self, if_false,
    updJob_of_job? hj']

end

/-! ### Passes (R208, R284, R289) -/

theorem exec_attnPassStart_of_next {s : State} {job : Nat} {j : Job} {i : Invocation} {im : Image} {p : Pass} (hj : s.job? job = some j)
    (he : passEnded s j = some i) (hi : s.image? (runImage j i) = some im) (hp : nextPass s im i (runRows s job j i) = some p) :
    exec (.attnPassStart job) s = .next (startPass (preparePassOf (updInv s job (fun i => { i with pass := p })) job (runClusters j i)
      (runImage j i) im { i with pass := p } (runRows s job j i) p) (runClusters j i)) := by
  simp only [exec, execAttnPassStart, hj, he, hi, hp]

theorem exec_gatePassPrepare_of_planned {s : State} {job : Nat} {j : Job} {i : Invocation} {g : InstEntry} (hj : s.job? job = some j)
    (he : passEnded s j = some i) (hp : i.pass = .plan) (hf : i.isFallback = false) (hg : (s.image? j.image).bind Image.gate? = some g) :
    exec (.gatePassPrepare job) s = .next (gatePass s job j g) := by
  simp only [exec, execGatePassPrepare, tryGate, hj, Option.bind_some, he, hp, hf, and_self, if_true, hg]

/-! ### The end of an invocation (R391, R394, R395) -/

theorem exec_invocationCommit_of_ready {s : State} {job : Nat} {j : Job} {i : Invocation} {im : Image} (hj : s.job? job = some j)
    (hm : mayCommit s job j = some (i, im)) (hd : dueNow s job j false = none) :
    exec (.invocationCommit job) s = .next
      (let p := publish s job j i im
       let u := if i.isFallback && decide (j.last < i.number) then raise p.1 (mkEvent 0x31 0xFF job 0 job i.number) else p.1
       pruneCommits (afterwards (afterEnd (endInvocation u job p.2 (some 2)) job)) job) := by
  simp only [exec, execInvocationCommit, commitJob, hj, hm, hd]

theorem exec_milestoneDue_of_due {s : State} {job : Nat} {j : Job} {i : Invocation} {m : Nat} (hj : s.job? job = some j)
    (hn : s.flt.pending = none) (hd : dueNow s job j false = some (i, m)) :
    exec (.milestoneDue job) s = .next (abandon s job j i m 0) := by
  simp only [exec, execMilestoneDue, hj, takeInjection_none hn, ite_self, Option.isSome_none, hd, injFlags, Bool.false_eq_true, if_false]

section
variable {s u : State} {job : Nat} {j k : Job} {i : Invocation} {m flags : Nat}
  (hu : updInv (raiseAs (dropWork s j i) 1 flags (mkEvent 0x30 0xFF job 0 job (m * 2 ^ 56 + i.number % 2 ^ 56))) job (Invocation.missing m) = u)
  (hk : u.job? job = some k)
include hu hk

theorem abandon_of_fallback {v : State} (hv : fallbackAfter u job k i = some v) : abandon s job j i m flags = serveWaiting v := by
  simp only [abandon, hu, hk, hv]

theorem abandon_of_late (hv : fallbackAfter u job k i = none) :
    abandon s job j i m flags = afterwards (afterEnd (endInvocation (abandonRows u job i.rows) job stLate (some 3)) job) := by
  simp only [abandon, hu, hk, hv]

end

/-! ### INGRESS_WRITE (R313, R314) -/

theorem ingress_of_ring {s : State} {o : Nat} {ob : Obj} {n : Nat} (hl : o < 0xFFFF0000) (ho : s.obj? o = some ob)
    (hn : obsEntry s o = some n) (hr : ringCap s ob ≠ 0) (bs : List Byte) : ingress s o bs = arrive (ringPut s ob n bs) o := by
  simp only [ingress, Nat.not_le.mpr hl, ho, hn, hr, if_false]

theorem ingress_of_no_ring {s : State} {o : Nat} (hl : o < 0xFFFF0000) (hn : s.obj? o = none ∨ obsEntry s o = none) (bs : List Byte) :
    ingress s o bs = s := by
  simp only [ingress, Nat.not_le.mpr hl, if_false]
  rcases hn with h | h
  · simp only [h]
  · cases s.obj? o <;> simp only [h]

/-! ### The cutoff of an epoch (R323, R325, R330) -/

section
variable {s : State} {job : Nat} {j : Job} {env : FuseEnv} {f : FuseState} (hj : s.job? job = some j) (he : fuseEnv s j = some env)
  (hf : j.fuse = some f)
include hj he hf

theorem exec_epochCutoff_before (hc : s.now < epochCutoff f env f.nextEpoch) : exec (.epochCutoff job) s = .next s := by
  simp only [exec, execEpochCutoff, hj, he, hf, hc, if_true]

theorem exec_epochCutoff_at (hc : s.now = epochCutoff f env f.nextEpoch) :
    exec (.epochCutoff job) s = .next (s.setJob job { j with fuse := some { f with cutting := true } }) := by
  simp only [exec, execEpochCutoff, hj, he, hf, ← hc, lt_irrefl, if_false, if_true]

theorem exec_epochCutoff_after (hc : epochCutoff f env f.nextEpoch < s.now) :
    exec (.epochCutoff job) s = .next
      (startJob (freezeEpoch (if f.frozen.isSome then skipStart s job else s) job env f) job) := by
  simp only [exec, execEpochCutoff, cutEpoch, hj, he, hf, Nat.lt_asymm hc, hc.ne', if_false]

end

/-- Looking for a sensor's rows raises at most an event, and takes no row. -/
theorem dropSensor_frame (jid : Nat) (rows : List ObsRow) (acc : State × FuseState × Nat) (x : Sensor × Nat) :
    EventFrame acc.1 (dropSensor jid rows acc x).1 ∧ (dropSensor jid rows acc x).2.1.rows = acc.2.1.rows := by
  unfold dropSensor
  dsimp only
  split
  · exact ⟨.refl _, rfl⟩
  · split
    · exact ⟨.refl _, rfl⟩
    · split
      · exact ⟨raise_event _ _, rfl⟩
      · exact ⟨.refl _, rfl⟩

theorem dropSensors_frame (jid : Nat) (rows : List ObsRow) (xs : List (Sensor × Nat)) (acc : State × FuseState × Nat) :
    EventFrame acc.1 (xs.foldl (dropSensor jid rows) acc).1 ∧ (xs.foldl (dropSensor jid rows) acc).2.1.rows = acc.2.1.rows := by
  induction xs generalizing acc with
  | nil => exact ⟨.refl _, rfl⟩
  | cons x xs ih =>
    obtain ⟨hs, hr⟩ := dropSensor_frame jid rows acc x
    obtain ⟨hs', hr'⟩ := ih (dropSensor jid rows acc x)
    exact ⟨hs.trans hs', hr'.trans hr⟩

/-- Freezing takes the kept rows of the next epoch, leaves those of later ones, and goes on to the epoch after it. -/
theorem freezeEpoch_fuse {s : State} {job : Nat} {j : Job} (hj : s.job? job = some j) (env : FuseEnv) (f : FuseState) :
    ∃ g e, (freezeEpoch s job env f).job? job = some { j with fuse := some g } ∧ g.frozen = some e ∧ e.epoch = f.nextEpoch ∧
      e.rows = keptRows env (f.rows.filter (fun r => r.epoch == f.nextEpoch)) ∧ g.nextEpoch = f.nextEpoch + 1 ∧
      g.rows = f.rows.filter (fun r => decide (f.nextEpoch < r.epoch)) ∧ g.cutting = false := by
  obtain ⟨hs, hr⟩ := dropSensors_frame job (f.rows.filter (fun r => r.epoch == f.nextEpoch)) env.sensors.zipIdx (s, f, 0)
  have hj' := (hs.job?_eq job).trans hj
  simp only [freezeEpoch, hj', State.job?_setJob]
  exact ⟨_, _, rfl, rfl, rfl, rfl, rfl, congrArg (List.filter _) hr, rfl⟩

/-- Settles O31: a start by what the job holds, a tile by the fold that starts it, an end by what the monitor finds, a cutoff by its tick. -/
theorem runLifecycle : Obligations.RunLifecycle := by
  unfold Obligations.RunLifecycle
  refine ⟨⟨fun s job j im hj hi hc => ⟨?taken, ?idle, ?started, ?waiting, ?prepared⟩, fun s job j hj hp hr hf => ⟨?before, ?due⟩,
      fun s job j i im p hj he hi hp => ?pass, fun s job j i g hj he hp hf hg => exec_gatePassPrepare_of_planned hj he hp hf hg,
      fun s job j i im hj hm hd => exec_invocationCommit_of_ready hj hm hd, fun s job j i m hj hn hd => ?late⟩,
    fun s o bs hl => ⟨fun ob n ho hn hr => ?ring, fun hn => ?noRing⟩, fun s job j env f hj he hf => ?cutoff⟩
  case taken =>
    intro hn hl ho hm
    rw [exec, execInvocationStart, startJob, tryStart_of_taken hj hi hc hn hl ho hm]
  case idle =>
    intro hn _ ho hm hs
    rw [exec, execInvocationStart, startJob, tryStart_of_idle hj hi hn ho hm, startShadow_of_none hj hs]
  case started =>
    intro i hn hst hs
    rw [exec, execInvocationStart, startJob, tryStart_of_started hj hi hn hst, startShadow_of_none hj hs]
  case waiting =>
    intro i hn hst hf hr hl
    rw [exec, execInvocationStart, startJob, tryStart_of_waiting hj hi hc hn hst hf hr hl]
  case prepared =>
    intro cs v hv w k i hk hki e he hpl
    obtain ⟨⟨hphase, hpc, hstall⟩, hsat, hanom⟩ := startRun_tile hj hi rfl hv rfl hk hki he hpl
    exact ⟨hphase, hpc, hstall, hsat, hanom⟩
  case before => exact exec_periodicStartInstant_of_before hj
  case due =>
    intro hn k
    have hx := exec_periodicStartInstant_of_due hj hp hr hf hn
    refine ⟨fun hw => ?_, fun hw => ⟨Config.freeNat s.fresh.1 % 2 ^ 64, Nat.mod_lt _ (by decide), ?_⟩⟩
    · rw [hx, hw]; rfl
    · rw [hx, hw]; rfl
  case pass => exact ⟨_, exec_attnPassStart_of_next hj he hi hp, rfl, fun e hm hpl => startPass_tile hm hpl⟩
  case late =>
    intro u₁ u k hk
    rw [exec_milestoneDue_of_due hj hn hd]
    exact ⟨fun v hv => congrArg _ (abandon_of_fallback rfl hk hv), fun hv => congrArg _ (abandon_of_late rfl hk hv)⟩
  case ring => rw [exec, execIngressWrite, ingress_of_ring hl ho hn hr]
  case noRing => rw [exec, execIngressWrite, ingress_of_no_ring hl hn]
  case cutoff =>
    exact ⟨exec_epochCutoff_before hj he hf, exec_epochCutoff_at hj he hf, exec_epochCutoff_after hj he hf, freezeEpoch_fuse hj env f⟩

end Sys2Proof.Machine
end

section
/-! SUPPORT. A page or a stream state that has been written lies in its new place (R224, R226, R236, R242). -/

namespace Sys2Proof.Machine

open Sys2Proof

/-! ### Pages (R224, R226) -/

section
variable {s : State} {n : Nat} {e : PageEntry} (he : s.kv.dir.get? n = some e)
include he

theorem exec_spillWritten_of_spilling (hm : e.moving = 1) : exec (.spillWritten n) s = .next (resumeRecalls (setEntry
    (copyFrame s e.poolObject e.spillObject e.location e.target e.frame) n { e with state := 2, location := e.target, moving := 0 })) := by
  simp only [exec, execSpillWritten, he, hm, if_true]

theorem exec_spillWritten_of_still (hm : e.moving ≠ 1) : exec (.spillWritten n) s = .next s := by
  simp only [exec, execSpillWritten, he, hm, if_false]

theorem exec_pageRecallWritten_of_recalling (hm : e.moving = 2) (hp : ((s.obj? e.spillObject).bind Obj.place).any (placeServes s) = true) :
    exec (.pageRecallWritten n) s = .next (forEach (pageJobs s n) (setEntry
      (copyFrame s e.spillObject e.poolObject e.location e.target e.frame) n { e with state := 1, location := e.target, moving := 0 })
      (fun s jid => countKv s jid (fun k => { k with recalls := k.recalls + 1 }))) := by
  simp only [exec, execPageRecallWritten, he, hm, hp, ne_eq, not_true_eq_false, if_false, if_true]

theorem exec_pageRecallWritten_of_still (hm : e.moving ≠ 2) : exec (.pageRecallWritten n) s = .next s := by
  simp only [exec, execPageRecallWritten, he, ne_eq, hm, not_false_eq_true, if_true]

end

/-! ### Stream states (R236, R242) -/

section
variable {s : State} {p : PartId} {id : Nat} {x : Stream}

theorem exec_swapOutWritten_of_parking (hx : (s.part p.toNat).streams.find? (fun y => y.id == id && y.state == 1) = some x) :
    exec (.swapOutWritten p id) s = .next
      (servePart (updStream (writePark s x) p.toNat x.id (fun y => { y with state := 2 })) p.toNat) := by
  simp only [exec, execSwapOutWritten, hx, endPark]

theorem exec_swapOutWritten_of_still (hx : (s.part p.toNat).streams.find? (fun y => y.id == id && y.state == 1) = none) :
    exec (.swapOutWritten p id) s = .next s := by
  simp only [exec, execSwapOutWritten, hx]

theorem exec_swapInWritten_of_loading (hx : (s.part p.toNat).streams.find? (fun y => y.id == id && y.state == 3) = some x)
    (hi : s.flt.pending = none) :
    exec (.swapInWritten p id) s = .next
      (servePart (refreshCtl (updStream (readPark s x) p.toNat id (fun y => { y with state := 0, half := 0 })) p.toNat id) p.toNat) := by
  simp only [exec, execSwapInWritten, hx, takeInjection_none hi, Option.isSome_none, Bool.false_eq_true, if_false]

theorem exec_swapInWritten_of_still (hx : (s.part p.toNat).streams.find? (fun y => y.id == id && y.state == 3) = none) :
    exec (.swapInWritten p id) s = .next s := by
  simp only [exec, execSwapInWritten, hx]

end

/-- Settles O33: a page by the move that its entry names, a stream by its state. -/
theorem kvAndStreamMoves : Obligations.KvAndStreamMoves := by
  unfold Obligations.KvAndStreamMoves
  refine ⟨fun s n e he => ?_, fun s p id => ?_⟩
  · exact ⟨exec_spillWritten_of_spilling he, exec_spillWritten_of_still he, exec_pageRecallWritten_of_recalling he,
      exec_pageRecallWritten_of_still he⟩
  · exact ⟨fun x hx => exec_swapOutWritten_of_parking hx, exec_swapOutWritten_of_still, fun x hx => exec_swapInWritten_of_loading hx,
      exec_swapInWritten_of_still⟩

end Sys2Proof.Machine
end

section
/-! SUPPORT. Lists of stream IDs, pinned prefixes and releases (R222, R223, R251 to R254). -/

namespace Sys2Proof.Machine

open Sys2Proof

/-! ### Commands over a list of stream IDs (R251 to R254, R356) -/

section
variable {s r : State} {m : MbxId} {h : CmdHdr} {jid n : Nat} {b : Bref} {j : Job} {bs : List Byte} (hj : s.job? jid = some j)
  (hu : mayUse m j.owner = true) (h1 : 1 ≤ n) (h64 : n ≤ 64) (hb : 4 * n ≤ b.len) (hr : bufRead s m b (4 * n) = (r, some bs))
include hj hu h1 h64 hb hr

/-- A stream command whose job, count and buffer pass their checks acts on the IDs of the buffer. -/
theorem streamCommand_of_read {op : Nat} (hc : Commanded s m h op 0x20) (f : State → Job → List Nat → State) :
    streamCommand m h op jid n b s f = .next (f r j ((List.range n).map (fun i => fld bs (4 * i) 4))) := by
  have hn : ¬(n = 0 ∨ 64 < n) := by omega
  simp only [streamCommand, command_of_commanded hc, hj, hu, Bool.not_true, Bool.false_eq_true, if_false, hn, withBuf_of_read hb hr]

theorem exec_streamOpen_of_read (hc : Commanded s m h 0x50 0x20) : exec (.streamOpen m h jid n b) s = .next
    (eachStream r m h 0x50 ((List.range n).map (fun i => fld bs (4 * i) 4)) (fun s id => openStream s jid id)) := by
  simp only [exec, execStreamOpen, streamCommand_of_read hj hu h1 h64 hb hr hc]

theorem exec_streamResetRows_of_read (hc : Commanded s m h 0x51 0x20) : exec (.streamResetRows m h jid n b) s = .next
    (eachStream r m h 0x51 ((List.range n).map (fun i => fld bs (4 * i) 4)) (fun s id => resetStream s m jid id)) := by
  simp only [exec, execStreamResetRows, streamCommand_of_read hj hu h1 h64 hb hr hc]

theorem exec_streamClose_of_read (hc : Commanded s m h 0x53 0x20) : exec (.streamClose m h jid n b) s = .next
    (eachStream r m h 0x53 ((List.range n).map (fun i => fld bs (4 * i) 4)) (fun s id => closeStream s m jid id)) := by
  simp only [exec, execStreamClose, streamCommand_of_read hj hu h1 h64 hb hr hc]

/-- The streams are asked to park first; whether the reply waits is read off the state after, whether a swap began off the state before. -/
theorem exec_streamPark_of_read (hc : Commanded s m h 0x52 0x20) {ids : List Nat}
    (hids : (List.range n).map (fun i => fld bs (4 * i) 4) = ids) :
    exec (.streamPark m h jid n b) s = .next
      (let u := forEach ids r (fun s id => parkStream s m jid id)
       if parkWaits u ids then
         serveStreams (await u m h 0x52 (.park jid ids (ids.any (fun id => match findStream r id with
           | some (_, x) => parkStatus r m jid id == 0 && x.state == 0 && !x.selected
           | none => false))))
       else serveStreams (complete u m h 0x52 0 (ids.map (fun id => BitVec.ofNat 8 (parkStatus r m jid id))))) := by
  simp only [exec, execStreamPark, streamCommand_of_read hj hu h1 h64 hb hr hc, hids, stOk] <;> rfl

end

/-! ### Pins and releases (R222, R223) -/

section
variable {s : State} {m : MbxId} {h : CmdHdr} {seq key : Nat}

theorem exec_kvPrefixPin_of_checked {q : Sequence} (hq : s.kv.sequences.get? seq = some q) (hu : mayUse m q.owner = true) {count : Nat}
    (hc : Commanded s m h 0x60 0x0C) (hp : pinCheck s seq count key = 0) :
    exec (.kvPrefixPin m h seq count key) s = .next
      (if appending s seq then await s m h 0x60 (.pin seq count key)
       else complete (pinApply s m.toNat seq count key) m h 0x60 0 []) := by
  simp only [exec, execKvPrefixPin, command_of_commanded hc, hq, hu, hp, Bool.not_true, Bool.false_eq_true, if_false, stOk]

theorem exec_kvRelease_sequence {q : Sequence} (hq : s.kv.sequences.get? seq = some q) (hu : mayUse m q.owner = true)
    (hc : Commanded s m h 0x61 8) :
    exec (.kvRelease m h 0 seq) s = .next
      (if appending s seq then await s m h 0x61 (.release 0 seq) else complete (releaseSequence s seq) m h 0x61 0 []) := by
  simp only [exec, execKvRelease, command_of_commanded hc, hq, hu, Bool.not_true, Bool.false_eq_true, if_false, if_true, stOk]

theorem exec_kvRelease_pinned {p : PinnedPfx} (hp : s.kv.pinned.get? key = some p) (hu : mayUse m p.owner = true)
    (hc : Commanded s m h 0x61 8) : exec (.kvRelease m h 1 key) s = .next (complete (releasePrefix s key) m h 0x61 0 []) := by
  simp only [exec, execKvRelease, command_of_commanded hc, hp, hu, Bool.not_true, Bool.false_eq_true, one_ne_zero, if_false, if_true, stOk]

end

/-- Settles O43: each clause is the meaning of its command where the checks before it pass. -/
theorem streamAndKvCommands : Obligations.StreamAndKvCommands := by
  unfold Obligations.StreamAndKvCommands
  refine ⟨fun s r m h jid n b j bs hj hu h1 h64 hb hr => ?_,
    fun s m h seq count key q hq hu => ⟨exec_kvPrefixPin_of_checked hq hu, exec_kvRelease_sequence hq hu⟩,
    fun s m h key p hp hu => exec_kvRelease_pinned hp hu⟩
  exact ⟨exec_streamOpen_of_read hj hu h1 h64 hb hr, exec_streamResetRows_of_read hj hu h1 h64 hb hr,
    exec_streamClose_of_read hj hu h1 h64 hb hr, fun hc => exec_streamPark_of_read hj hu h1 h64 hb hr hc rfl⟩

end Sys2Proof.Machine
end

section
/-! SUPPORT. Inertial samples, encoder counts, the halt request and the test port (R309, R310, R487, R556 to R561). -/

namespace Sys2Proof.Machine

open Sys2Proof

/-! ### Inertial units (R556, R557) -/

section
variable {s : State} {n : BitVec 2} (hw : spiWorks s n = true)
include hw

theorem exec_dataReadyEdge_of_idle (hb : (spiPort s n).busy = false) : exec (.dataReadyEdge n) s = .next
    ((setSpiPort (stampWithin s 8).2 n { spiPort s n with busy := true, stamp := (stampWithin s 8).1 }).emit (.spiStart n.toNat)) := by
  simp only [exec, execDataReadyEdge, hw, hb, onlyIf_true, Bool.false_eq_true, if_false]

theorem exec_dataReadyEdge_of_busy (hb : (spiPort s n).busy = true) : exec (.dataReadyEdge n) s = .next
    (setSpiPort s n { spiPort s n with overrun := true, overruns := min 0xFFFFFFFF ((spiPort s n).overruns + 1) }) := by
  simp only [exec, execDataReadyEdge, hw, hb, onlyIf_true, if_true]

theorem exec_spiTransactionComplete_of_busy (hb : (spiPort s n).busy = true) (resp : List Byte) :
    exec (.spiTransactionComplete n resp) s = .next (portEntry
      (setSpiPort s n { spiPort s n with busy := false, overrun := false, seq := ((spiPort s n).seq + 1) % 2 ^ 32 }) 0xFFFF0500
      (leBytes 8 (spiPort s n).stamp ++ leBytes 4 (spiPort s n).seq ++ leBytes 1 n.toNat ++ leBytes 1 (flag (spiPort s n).overrun 0) ++
        leBytes 2 0 ++ ((List.range 6).map (fun a => leBytes 4 (axisValue s n resp a))).flatten ++ List.replicate 8 0)) := by
  simp only [exec, execSpiTransactionComplete, hw, hb, Bool.and_self, onlyIf_true]

end

/-! ### Encoders (R558, R559) -/

/-- The edge that an encoder notes as its levels become `a` and `b` and its index input `i`. -/
def notedEdge (s : State) (n : BitVec 3) (x : Encoder) (a b i : Bool) : EncEdge :=
  { stamp := firstTick s.time, delta := quadStep (quadPhase x.a x.b) (quadPhase a b) (portField s 0x0270 (1 + n.toNat))
    illegal := x.a != a && x.b != b, index := i && !x.index }

/-- An encoder after an edge: the new levels, the edge where it counts for anything, the illegal ones counted. -/
def encoderAfter (s : State) (n : BitVec 3) (x : Encoder) (a b i : Bool) : Encoder :=
  { x with
    a := a, b := b, index := i
    recent := if quadPhase x.a x.b = quadPhase a b ∧ (notedEdge s n x a b i).index = false then x.recent
      else x.recent ++ [notedEdge s n x a b i]
    illegals := if x.a != a && x.b != b then min 0xFFFFFFFF (x.illegals + 1) else x.illegals }

/-- An edge on an enabled encoder changes that encoder alone. -/
theorem exec_encoderEdge_of_enabled {s : State} {n : BitVec 3} (hw : portsWork s = true) (he : enabledBit s (19 + n.toNat) = true)
    {old : Encoder} (hx : s.ports.encoders[n.toNat]? = some old) (a b i : Bool) :
    exec (.encoderEdge n a b i) s = .next { s with ports := { s.ports with
      encoders := s.ports.encoders.set n.toNat (encoderAfter s n old a b i) n.isLt } } := by
  obtain ⟨_, rfl⟩ := Vector.getElem?_eq_some_iff.mp hx
  simp only [exec, execEncoderEdge, hw, he, Bool.and_self, onlyIf_true]
  rfl

theorem exec_encoderSample_of_due {s : State} (hw : portsWork s = true) (he : ∃ e < 8, enabledBit s (19 + e) = true)
    (hlo : 250000 ≤ encoderPeriod s) (hhi : encoderPeriod s ≤ 10000000) (h8 : encoderPeriod s % 8 = 0) {ts : Nat}
    (hts : s.now / encoderPeriod s * encoderPeriod s = ts) (hlast : s.ports.encoderLast < ts)
    {r : Vector (Encoder × Bool × Bool) 8} (hr : s.ports.encoders.map (fun x => foldEdges x ts) = r)
    {bitsOf : (Encoder × Bool × Bool → Bool) → Nat} (hbits : (fun f => (r.toList.zipIdx.map (fun e => flag (f e.1) e.2)).sum) = bitsOf) :
    exec .encoderSample s = .next (portEntry { s with ports := { s.ports with
        encoders := r.map (fun x => x.1), encoderLast := ts, encoderSeq := (s.ports.encoderSeq + 1) % 2 ^ 32 } } 0xFFFF0600
      (leBytes 8 ts ++ leBytes 4 s.ports.encoderSeq ++ leBytes 1 (bitsOf (fun x => x.2.1)) ++ leBytes 1 (bitsOf (fun x => x.2.2)) ++
        leBytes 2 0 ++ (r.toList.map (fun x => leBytes 4 x.1.count.toNat)).flatten ++
        (r.toList.map (fun x => leBytes 8 x.1.edge.toNat)).flatten ++ List.replicate 16 0)) := by
  subst hts hr hbits
  have hany : (List.range 8).any (fun e => enabledBit s (19 + e)) = true := by
    obtain ⟨e, he8, hen⟩ := he
    exact List.any_eq_true.mpr ⟨e, List.mem_range.mpr he8, hen⟩
  simp only [exec, execEncoderSample, hw, hany, hlo, hhi, h8, hlast, decide_true, beq_self_eq_true, Bool.and_self, onlyIf_true]

/-! ### What the firmware's writes to an object change (R117, R133) -/

/-- The second state is the first but for what accesses through the slices of any partitions change. -/
def AccessFrame (s t : State) : Prop :=
  ∃ e f pa m h o ps, t = { s with evt := e, flt := f, pat := pa, mem := m, hostMem := h, out := o, parts := ps }

theorem AccessFrame.refl (s : State) : AccessFrame s s := ⟨_, _, _, _, _, _, _, rfl⟩

theorem AccessFrame.trans {s t u : State} (a : AccessFrame s t) (b : AccessFrame t u) : AccessFrame s u := by
  obtain ⟨_, _, _, _, _, _, _, rfl⟩ := a
  obtain ⟨_, _, _, _, _, _, _, rfl⟩ := b
  exact ⟨_, _, _, _, _, _, _, rfl⟩

theorem SliceFrame.access {p : Nat} {s t : State} (a : SliceFrame p s t) : AccessFrame s t := by
  obtain ⟨_, _, _, _, _, _, _, rfl, _⟩ := a
  exact ⟨_, _, _, _, _, _, _, rfl⟩

theorem EventFrame.access {s t : State} (a : EventFrame s t) : AccessFrame s t := (a.slice (p := 0)).access

theorem localBurst_access (acc : RangeOut) (b : Nat × Bool) (write : Bool) : AccessFrame acc.s (localBurst acc b write).s := by
  unfold localBurst
  split
  · exact .refl _
  · split
    · split
      · exact (accessBursts_slice _ _ _ _ _ _).access
      · exact .refl _
    · split
      · exact (accessPinned_slice _ _ _ _ _).access
      · exact .refl _
    · exact .refl _

theorem localBursts_access (bs : List (Nat × Bool)) (acc : RangeOut) (write : Bool) :
    AccessFrame acc.s (bs.foldl (fun acc b => localBurst acc b write) acc).s := by
  induction bs generalizing acc with
  | nil => exact .refl _
  | cons b bs ih => exact (localBurst_access acc b write).trans (ih _)

theorem localAccess_access (s : State) (a n : Nat) (write : Bool) : AccessFrame s (localAccess s a n write).s := by
  have hbursts := localBursts_access (burstsOf a n) (startRange s []) write
  unfold localAccess
  dsimp only
  split
  · exact hbursts.trans (raise_event _ _).access
  · exact hbursts

theorem localWrite_access (s : State) (a : Nat) (bs : List Byte) : AccessFrame s (localWrite s a bs).1 := by
  have haccess := localAccess_access s a bs.length true
  unfold localWrite
  dsimp only
  split
  · exact haccess
  · exact haccess.trans ⟨_, _, _, _, _, _, _, rfl⟩

theorem firmwareWrite_access (s : State) (p : Placement) (off : Nat) (bs : List Byte) : AccessFrame s (firmwareWrite s p off bs).1 := by
  unfold firmwareWrite
  split
  · exact .refl s
  · split
    · exact localWrite_access s _ bs
    · exact ⟨_, _, _, _, _, _, _, rfl⟩

theorem objWriteBytes_access (s : State) (o : Obj) (off : Nat) (bs : List Byte) : AccessFrame s (objWriteBytes s o off bs) := by
  unfold objWriteBytes
  split
  · exact firmwareWrite_access s _ off bs
  · exact .refl s

/-! ### `HALT_REQ` (R309, R310, R560) -/

/-- Writing the halt word is at most a write to the trajectory object. -/
theorem writeHaltWord_access (s : State) (v : Nat) : AccessFrame s (writeHaltWord s v) := by
  unfold writeHaltWord
  split
  · exact .refl s
  · split
    · exact .refl s
    · exact objWriteBytes_access s _ 4 _

theorem writeHaltWord_halt (s : State) (v : Nat) :
    (writeHaltWord s v).haltLatched = s.haltLatched ∧ (writeHaltWord s v).haltSeq = s.haltSeq := by
  obtain ⟨_, _, _, _, _, _, _, hu⟩ := writeHaltWord_access s v
  rw [hu]
  exact ⟨rfl, rfl⟩

theorem exec_haltReqAccept_of_working {s : State} (hw : portsWork s = true) {n : Nat} (hn : (s.haltSeq + 1) % 2 ^ 31 = n) :
    exec .haltReqAccept s = .next (latchHeaders
      { writeHaltWord { s with haltLatched := true, haltAt := s.time.ticks, haltSeq := n } (2 ^ 31 + n) with resting := true }) := by
  subst hn
  simp only [exec, execHaltReqAccept, hw, onlyIf_true]

/-! ### The test port (R487, R561) -/

section
variable {s : State} (hj : jtagAlive s = true)
include hj

theorem exec_jtagBypass_of_alive (tdi : Bool) : exec (.jtagBypass tdi) s = .next
    ({ s with ports := { s.ports with jtagBypass := tdi, extest := false } }.emit (.jtag [s.ports.jtagBypass])) := by
  simp only [exec, execJtagBypass, hj, onlyIf_true]

theorem exec_jtagIdcode_of_alive : exec .jtagIdcode s = .next ({ s with ports := { s.ports with extest := false } }.emit
    (.jtag ((List.range 32).map (fun i => Config.jtagIdcode.getLsbD i)))) := by
  simp only [exec, execJtagIdcode, hj, onlyIf_true]

theorem exec_jtagSamplePreload_of_alive (bs : List Bool) : exec (.jtagSamplePreload bs) s = .next (captureBoundary s bs false) := by
  simp only [exec, execJtagSamplePreload, hj, onlyIf_true]

theorem exec_jtagDebugAccess_aperture {a : Nat} {bs : List Byte} (hd : debugPermitted s = true) (hlo : 0x4000000000 ≤ a)
    (hhi : a + bs.length ≤ 0x4020000000) (w : Bool) : exec (.jtagDebugAccess 0 a w bs) s = .next
      (if w then { s with mem := s.mem.write a bs } else s.emit (.jtagData (s.mem.read a bs.length))) := by
  simp only [exec, execJtagDebugAccess, hj, hd, onlyIf_true, Bool.not_true, Bool.false_eq_true, Nat.not_lt.mpr hlo, Nat.not_lt.mpr hhi,
    or_self, if_false]

theorem exec_jtagDebugAccess_outside {a : Nat} {bs : List Byte}
    (h : debugPermitted s = false ∨ a < 0x4000000000 ∨ 0x4020000000 < a + bs.length) (w : Bool) :
    exec (.jtagDebugAccess 0 a w bs) s = .next s := by
  simp only [exec, execJtagDebugAccess, hj, onlyIf_true, Bool.not_eq_true', h, if_true]

theorem exec_jtagDebugAccess_state (a : Nat) (w : Bool) (bs : List Byte) : exec (.jtagDebugAccess 1 a w bs) s = .next
    (if w then s else s.emit (.jtagData (leBytes 4 (idState s)))) := by
  simp only [exec, execJtagDebugAccess, hj, onlyIf_true]

theorem exec_jtagDebugAccess_cast (hd : debugPermitted s = true) (a : Nat) (bs : List Byte) :
    exec (.jtagDebugAccess 2 a false bs) s = .next ((s.freeBytes bs.length).2.emit (.jtagData (s.freeBytes bs.length).1)) := by
  simp only [exec, execJtagDebugAccess, hj, hd, onlyIf_true, Bool.not_true, Bool.false_eq_true, or_self, if_false]

/-- The flash is programmed where debug is permitted or the module found no firmware. -/
theorem exec_jtagNorProgram_of_allowed (hd : debugPermitted s = true ∨ s.boot.stage = 0xE1) {off : Nat} {bs : List Byte}
    (hn : off + bs.length ≤ 0x4000000) (f : BitVec 1) : exec (.jtagNorProgram f off bs) s = .next (programFlash s f.toNat off bs) := by
  have hallow : (debugPermitted s || s.boot.stage == 0xE1) = true := by simpa using hd
  simp only [exec, execJtagNorProgram, hj, hallow, hn, decide_true, Bool.and_self, onlyIf_true]

end

theorem exec_jtagExtest_of_held {s : State} (hr : s.power.heldInReset = true) (bs : List Bool) :
    exec (.jtagExtest bs) s = .next (captureBoundary s bs true) := by
  simp only [exec, execJtagExtest, hr, onlyIf_true]

/-- Settles O54: each clause is the meaning of its command where its port works; the halt word's write leaves the latch and its sequence. -/
theorem sensorHaltAndTestPorts : Obligations.SensorHaltAndTestPorts := by
  unfold Obligations.SensorHaltAndTestPorts
  refine ⟨fun s n hw => ⟨exec_dataReadyEdge_of_idle hw, exec_dataReadyEdge_of_busy hw, fun resp hb =>
      exec_spiTransactionComplete_of_busy hw hb resp⟩, fun s n a b i hw he old hx => ?_,
    fun s hw he hlo hhi h8 hlast => ?_, fun s hw => ?_,
    fun s hj => ⟨exec_jtagBypass_of_alive hj, exec_jtagIdcode_of_alive hj, exec_jtagSamplePreload_of_alive hj,
      fun a bs hd hlo hhi => ⟨exec_jtagDebugAccess_aperture hj hd hlo hhi true, exec_jtagDebugAccess_aperture hj hd hlo hhi false⟩,
      fun a bs h w => exec_jtagDebugAccess_outside hj h w, fun a bs => ⟨exec_jtagDebugAccess_state hj a false bs,
        exec_jtagDebugAccess_state hj a true bs, fun hd => exec_jtagDebugAccess_cast hj hd a bs⟩,
      fun f off bs hd hn => exec_jtagNorProgram_of_allowed hj hd hn f⟩, fun s bs hr => exec_jtagExtest_of_held hr bs⟩
  · exact ⟨_, exec_encoderEdge_of_enabled hw he hx a b i, Vector.getElem?_set_self n.isLt, rfl,
      fun k hk => Vector.getElem?_set_ne n.isLt hk.symm⟩
  · intro ts r bitsOf
    exact exec_encoderSample_of_due hw he hlo hhi h8 (ts := ts) rfl hlast (r := r) rfl (bitsOf := bitsOf) rfl
  · obtain ⟨hlatched, hseq⟩ := writeHaltWord_halt { s with haltLatched := true, haltAt := s.time.ticks, haltSeq := (s.haltSeq + 1) % 2 ^ 31 }
      (2 ^ 31 + (s.haltSeq + 1) % 2 ^ 31)
    exact ⟨exec_haltReqAccept_of_working hw rfl, hlatched, hseq⟩

end Sys2Proof.Machine
end

section
/-! SUPPORT. The checks that every mailbox command passes, the posting of its completion, and the entries a disabled mailbox discards (R346 to R350, R352, R354, R366). -/

namespace Sys2Proof.Machine

open Sys2Proof

/-! ### The checks before a command's effect (R16, R351, R352, R354) -/

/-- A command in hand that breaks a rule of R354 completes with `BAD_PARAM`, whatever its effect would be. -/
theorem command_of_malformed {s : State} {m : MbxId} {h : CmdHdr} {op len : Nat} (hi : inHand s m = true)
    (hb : h.length ≠ len ∨ 60000000 < h.timeout ∨ reservedOk ((s.box m).current.getD []) op len = false) (f : State → State) :
    command s m h op len f = .next (complete s m h op 0x03 []) := by
  simp only [command, hi, onlyIf_true, if_pos hb, stBadParam]

/-- A privileged command is its checks and then an effect that is `DENIED` on another mailbox than 0. -/
theorem command0_denies (s : State) (m : MbxId) (h : CmdHdr) (op len : Nat) (f : State → State) (privileged : Bool) :
    ∃ g : State → State, command0 s m h op len f = command s m h op len g ∧
      (privileged = true → m ≠ 0 → g s = complete s m h op 0x05 []) :=
  ⟨fun s => if m ≠ 0 then complete s m h op stDenied [] else f s, rfl, fun _ hm => if_pos hm⟩

/-- A stream command is its checks and then an effect. -/
theorem streamCommand_checks (s : State) (m : MbxId) (h : CmdHdr) (op job n : Nat) (b : Bref) (f : State → Job → List Nat → State) :
    ∃ g : State → State, streamCommand m h op job n b s f = command s m h op 0x20 g ∧
      (false = true → m ≠ 0 → g s = complete s m h op 0x05 []) :=
  ⟨_, rfl, nofun⟩

/-- A command that the table lists is its checks and then some effect; the effect of a privileged one is `DENIED` on another mailbox than 0. -/
theorem exec_of_mailboxCommand {c : Instr} {m : MbxId} {h : CmdHdr} {op len : Nat} {privileged : Bool}
    (hc : mailboxCommand c = some (m, h, op, len, privileged)) (s : State) :
    ∃ f : State → State, exec c s = command s m h op len f ∧ (privileged = true → m ≠ 0 → f s = complete s m h op 0x05 []) := by
  cases c with
  | reliefApply | timeConfig | timeForce | fabricJoinPolicy | faultInjectArm | partitionReset | calendarSet | fwStage | fwCommit | powerMode =>
    cases hc
    rw [exec]
    exact command0_denies s _ _ _ _ _ true
  | identify | getLimits | plinthRead | reliefList | objCreate | objPlace | objWrite | objRead | objFree | objDelta | imageLoad | imageUnload
  | jobSubmit | jobCancel | jobQuery | jobFeed | jobSetFallback | kvPrefixPin | kvRelease | fabricStatus | faultStatus | castFetch
  | patinaRead | attest =>
    cases hc
    rw [exec]
    exact ⟨_, rfl, nofun⟩
  | streamOpen | streamResetRows | streamPark | streamClose =>
    cases hc
    rw [exec]
    exact streamCommand_checks s _ _ _ _ _ _ _
  | _ => cases hc

/-- The commands that only mailbox 0 may send (R352). -/
theorem privileged_iff (c : Instr) : (mailboxCommand c).any (fun x => x.2.2.2.2) = true ↔ ∃ m h, (∃ n, c = .reliefApply m h n) ∨
    (∃ a b d p q w, c = .timeConfig m h a b d p q w) ∨ (∃ v, c = .timeForce m h v) ∨ (∃ a n b, c = .fabricJoinPolicy m h a n b) ∨
    (∃ n, c = .faultInjectArm m h n) ∨ (∃ p q, c = .partitionReset m h p q) ∨ (∃ a b, c = .calendarSet m h a b) ∨
    (∃ n b, c = .fwStage m h n b) ∨ (∃ n, c = .fwCommit m h n) ∨ (∃ a b, c = .powerMode m h a b) := by
  constructor
  · intro hc
    cases c with
    | reliefApply m h n => exact ⟨m, h, .inl ⟨n, rfl⟩⟩
    | timeConfig m h a b d p q w => exact ⟨m, h, .inr (.inl ⟨a, b, d, p, q, w, rfl⟩)⟩
    | timeForce m h v => exact ⟨m, h, .inr (.inr (.inl ⟨v, rfl⟩))⟩
    | fabricJoinPolicy m h a n b => exact ⟨m, h, .inr (.inr (.inr (.inl ⟨a, n, b, rfl⟩)))⟩
    | faultInjectArm m h n => exact ⟨m, h, .inr (.inr (.inr (.inr (.inl ⟨n, rfl⟩))))⟩
    | partitionReset m h p q => exact ⟨m, h, .inr (.inr (.inr (.inr (.inr (.inl ⟨p, q, rfl⟩)))))⟩
    | calendarSet m h a b => exact ⟨m, h, .inr (.inr (.inr (.inr (.inr (.inr (.inl ⟨a, b, rfl⟩))))))⟩
    | fwStage m h n b => exact ⟨m, h, .inr (.inr (.inr (.inr (.inr (.inr (.inr (.inl ⟨n, b, rfl⟩)))))))⟩
    | fwCommit m h n => exact ⟨m, h, .inr (.inr (.inr (.inr (.inr (.inr (.inr (.inr (.inl ⟨n, rfl⟩))))))))⟩
    | powerMode m h a b => exact ⟨m, h, .inr (.inr (.inr (.inr (.inr (.inr (.inr (.inr (.inr ⟨a, b, rfl⟩))))))))⟩
    | _ => exact absurd hc Bool.false_ne_true
  · rintro ⟨m, h, ⟨n, rfl⟩ | ⟨a, b, d, p, q, w, rfl⟩ | ⟨v, rfl⟩ | ⟨a, n, b, rfl⟩ | ⟨n, rfl⟩ | ⟨p, q, rfl⟩ | ⟨a, b, rfl⟩ | ⟨n, b, rfl⟩ |
      ⟨n, rfl⟩ | ⟨a, b, rfl⟩⟩ <;> rfl

/-- `TIME_FORCE` is denied while the setting time_force_permitted is not 1 (R352). -/
theorem exec_timeForce_of_forbidden {s : State} {h : CmdHdr} (hc : Commanded s 0 h 0x71 8) (hs : setting s 0x0081 0 ≠ 1) (v : Word64) :
    exec (.timeForce 0 h v) s = .next (complete s 0 h 0x71 0x05 []) := by
  simp only [exec, execTimeForce, command0_of_commanded hc, if_pos (Or.inl hs), stDenied]

/-- Settles O37: the checks are those of `command`, which every mailbox command goes through first. -/
theorem mailboxChecks : Obligations.MailboxChecks := by
  unfold Obligations.MailboxChecks
  refine ⟨fun c s m h op len privileged hc hi => ?_, privileged_iff, fun s h v hc hs => exec_timeForce_of_forbidden hc hs v⟩
  obtain ⟨f, he, hf⟩ := exec_of_mailboxCommand hc s
  refine ⟨fun hb => by rw [he, command_of_malformed hi hb], fun hc hp hm => ?_⟩
  rw [he, command_of_commanded hc, hf hp hm]

/-! ### Completion entries (R346 to R350, R354, R366) -/

/-- A write to the PCIe host's memory inside the bus address space succeeds. -/
theorem busWrite_host {s : State} {a : Nat} {bs : List Byte} (ha : a + bs.length ≤ 2 ^ 64) :
    busWrite s false a bs = ({ s with hostMem := s.hostMem.write a bs }, true) := by
  simp only [busWrite, Nat.not_lt.mpr ha, if_false, Bool.false_eq_true]

/-- An entry for a ring in the host's memory is written at the producer's place, and the producer and the mailbox's bit of EVT_STATUS follow. -/
theorem writeEntry_host {s : State} {m : MbxId} {b : Mailbox} (hb : s.box m = b) (e : CplEntry) (hp : b.path1 = false)
    (ha : b.ringCpl.toNat + 128 * (b.cplProd.toNat % 64) + 128 ≤ 2 ^ 64) :
    ∃ o, writeEntry s m e = { s.setBox m { b with cplProd := b.cplProd + 1 } with
      hostMem := s.hostMem.write (b.ringCpl.toNat + 128 * (b.cplProd.toNat % 64)) (e.bytes s.now)
      evt := { s.evt with status := s.evt.status ||| (1#32 <<< m.toNat) }, out := o } := by
  subst hb
  have hw := busWrite_host (s := s) (bs := e.bytes s.now) (by rwa [CplEntry.bytes_length])
  simp only [writeEntry, hp, hw, if_true]
  exact setEvt_frame _ m.toNat

/-- A mailbox whose command in hand has completed (R349). -/
def Mailbox.freed (b : Mailbox) : Mailbox := { b with current := none, waiting := none, stale := false }

/-- An enabled mailbox that holds nothing back writes an entry at once where its ring has room. -/
theorem postEntry_of_room {s : State} {m : MbxId} {b : Mailbox} (hb : s.box m = b) (he : b.enabled = true) (hh : b.held = [])
    (hr : b.cplHeld < 64) (e : CplEntry) : postEntry s m e = writeEntry s m e := by
  simp [postEntry, hb, he, hh, hr]

/-- The completion of a command that is not stale frees its mailbox and posts its entry. -/
theorem complete_of_fresh {s : State} {m : MbxId} (hs : (s.box m).stale = false) (h : CmdHdr) (op st : Nat) (payload : List Byte) :
    complete s m h op st payload = postEntry (s.setBox m (s.box m).freed) m
      { opcode := op, tag := h.tag.toNat, status := st, kind := 0, payload := payload } := by
  simp only [complete, hs, Bool.false_eq_true, if_false, Mailbox.freed]

/-- Settles O38: the completion is one entry written and one bit set. -/
theorem commandCompletion : Obligations.CommandCompletion := by
  unfold Obligations.CommandCompletion
  intro s m h op st payload b a e he hp hs hh hr ha _ u
  have hbox : (s.setBox m b.freed).box m = b.freed := State.box_setBox s m _
  obtain ⟨o, hw⟩ := writeEntry_host hbox e hp ha
  have hu : u = _ :=
    calc u = postEntry (s.setBox m b.freed) m e := complete_of_fresh hs h op st payload
      _ = writeEntry (s.setBox m b.freed) m e := postEntry_of_room hbox he hh hr e
      _ = _ := hw
  have hl : (e.bytes s.now).length = 128 := CplEntry.bytes_length e s.now
  rw [hu]
  refine ⟨?_, fun x hx => Memory.byte_write_outside _ a _ x (by rwa [CplEntry.bytes_length]), rfl, State.box_setBox _ m _, fun n hn => ?_,
    rfl, rfl, rfl, rfl, rfl, rfl, rfl, rfl⟩
  · have hread := Memory.read_write s.hostMem a (e.bytes s.now)
    rwa [hl] at hread
  · exact (State.box_setBox_ne _ _ hn).trans (State.box_setBox_ne s _ hn)

/-! ### Entries that a disable discards (R343, R348) -/

theorem bump32_of_lt {x : Word} (h : x.toNat + 1 < 2 ^ 32) : bump32 x = x + 1 := by
  have hx : x ≠ BitVec.allOnes 32 := by
    rintro rfl
    exact absurd h (by decide)
  rw [bump32, if_neg hx]

/-- Each entry lost counts by 1 while MBX_LOST has room for all. -/
theorem loseEntries_lost (s : State) (m : MbxId) (x : Mailbox) (n : Nat) (h : x.lost.toNat + n < 2 ^ 32) :
    (List.range n).foldl (fun s _ => loseEntry s m) (s.setBox m x) = s.setBox m { x with lost := x.lost + BitVec.ofNat 32 n } := by
  induction n with
  | zero => simp
  | succ n ih =>
    have hroom : (x.lost + BitVec.ofNat 32 n).toNat + 1 < 2 ^ 32 := by
      simp only [BitVec.toNat_add, BitVec.toNat_ofNat]
      omega
    have hb : bump32 (x.lost + BitVec.ofNat 32 n) = x.lost + BitVec.ofNat 32 (n + 1) := by
      rw [bump32_of_lt hroom, BitVec.add_assoc, BitVec.ofNat_add]
      rfl
    rw [List.range_succ, List.foldl_append, ih (by omega)]
    simp only [List.foldl_cons, List.foldl_nil, loseEntry_setBox, hb]

/-- Settles O46: the disable empties the list of held entries and then counts each. -/
theorem disableDiscards : Obligations.DisableDiscards := by
  unfold Obligations.DisableDiscards
  intro s m hl u
  have hu : u = s.setBox m { s.box m with held := [], lost := (s.box m).lost + BitVec.ofNat 32 (s.box m).held.length } :=
    loseEntries_lost s m { s.box m with held := [] } _ hl
  rw [hu, State.box_setBox]
  exact ⟨rfl, rfl⟩

/-! ### Registers after reset (R343, R365, R411, R441) -/

/-- Settles O7: each field has its value in `State.reset`. -/
theorem resetRegisters : Obligations.ResetRegisters := by
  unfold Obligations.ResetRegisters
  exact ⟨rfl, rfl, fun _ => rfl, rfl, rfl, rfl, rfl, rfl, rfl, rfl, rfl, rfl, rfl, fun _ _ => rfl, rfl⟩

end Sys2Proof.Machine
end

section
/-! SUPPORT. Writes of the host window: doorbells, mailbox enable and disable, 64-bit registers by halves and whole (R341 to R350, R365, R441, R443, R444, R521). -/

namespace Sys2Proof.Machine

open Sys2Proof

/-! ### The owner's path and foreign paths (R341, R344, R546) -/

/-- An access on a path that finds no window has no effect. -/
theorem onWindow_of_not_onPath {s : State} {path : Path} (hp : onPath s path = false) (f : State → State) :
    onWindow s path f = .next s := by
  simp only [onWindow, hp, onlyIf_false]

theorem fromOwner_of_owner {s : State} {path : Path} {m : MbxId} (ho : (s.box m).owner = path) (f : State → State) :
    fromOwner s path m f = f s := if_pos ho

theorem fromOwner_of_foreign {s : State} {path : Path} {m : MbxId} (ho : (s.box m).owner ≠ path) (f : State → State) :
    fromOwner s path m f = raiseAs (haltBox s m 3) 1 0 (event90 false) := if_neg ho

/-- An access to a mailbox from its owner's path has its effect. -/
theorem onWindow_fromOwner {s : State} {path : Path} {m : MbxId} (hp : onPath s path = true) (ho : (s.box m).owner = path)
    (f : State → State) : onWindow s path (fun s => fromOwner s path m f) = .next (f s) := by
  rw [onWindow_of_onPath hp, fromOwner_of_owner ho]

/-- An access to a mailbox from another path halts the mailbox with halt_cause 3. -/
theorem onWindow_fromForeign {s : State} {path : Path} {m : MbxId} (hp : onPath s path = true) (ho : (s.box m).owner ≠ path)
    (f : State → State) :
    onWindow s path (fun s => fromOwner s path m f) = .next (raiseAs (haltBox s m 3) 1 0 (event90 false)) := by
  rw [onWindow_of_onPath hp, fromOwner_of_foreign ho]

/-! ### Doorbells (R346, R347, R350, R521) -/

section
variable {s : State} {m : MbxId} {v : Word} {b : Mailbox} (hb : s.box m = b) {new : BitVec 16} (hv : v.extractLsb' 0 16 = new)
include hb hv

theorem writeDblCmd_of_taken (h64 : (new - b.cmdCons).toNat ≤ 64) (hl : (b.dblCmd - b.cmdCons).toNat ≤ (new - b.cmdCons).toNat) :
    writeDblCmd s m v = if m = 0 ∧ s.power.state = 2 then
      { s.setBox m { b with dblCmd := new } with power := { s.power with waking := true } } else s.setBox m { b with dblCmd := new } := by
  have hin : ¬(64 < (new - b.cmdCons).toNat ∨ (new - b.cmdCons).toNat < (b.dblCmd - b.cmdCons).toNat) := by omega
  simp only [writeDblCmd, hb, hv, hin, if_false, State.setBox_power]

theorem writeDblCmd_of_outside (ho : 64 < (new - b.cmdCons).toNat ∨ (new - b.cmdCons).toNat < (b.dblCmd - b.cmdCons).toNat) :
    writeDblCmd s m v = raiseAs (haltBox s m 1) 1 0 (event90 false) := by
  simp only [writeDblCmd, hb, hv, ho, if_true]
  rfl

theorem writeDblCpl_of_taken (hl : (new - b.dblCpl).toNat ≤ (b.cplProd - b.dblCpl).toNat) :
    writeDblCpl s m v = flushHeld 320 (s.setBox m { b with dblCpl := new }) m := by
  simp only [writeDblCpl, hb, hv, Nat.not_lt.mpr hl, if_false]

theorem writeDblCpl_of_outside (ho : (b.cplProd - b.dblCpl).toNat < (new - b.dblCpl).toNat) :
    writeDblCpl s m v = raiseAs (haltBox s m 1) 1 0 (event90 false) := by
  simp only [writeDblCpl, hb, hv, ho, if_true]
  rfl

end

/-! ### Enabling and disabling (R343, R344, R348) -/

/-- The enable bit that a write of MBX_CTRL takes is the one written. -/
theorem ctrlTaken_enable (b : Mailbox) (m : MbxId) (v : Word) : (ctrlTaken b m v).getLsbD 0 = v.getLsbD 0 := by
  unfold ctrlTaken
  cases b.enabled || m == 0
  · simp
  · simp

theorem getLsbD_or_one (v : Word) : (v ||| 1#32).getLsbD 0 = true := by simp

theorem getLsbD_and_not_one (v : Word) : (v &&& ~~~1#32).getLsbD 0 = false := by simp

section
variable {s : State} {m : MbxId} {b new : Mailbox} (hb : s.box m = b) {v : Word} (hn : { b with ctrl := ctrlTaken b m v } = new)
include hb hn

/-- What a write of MBX_CTRL does turns on the enable bit before and after. -/
theorem writeCtrl_eq : writeCtrl s m v =
    if !b.enabled && v.getLsbD 0 then s.setBox m new.enable
    else if b.enabled && !v.getLsbD 0 then disableBox (s.setBox m new) m
    else s.setBox m new := by
  have he : new.enabled = v.getLsbD 0 := by subst hn; exact ctrlTaken_enable b m v
  simp only [writeCtrl, hb, hn, he]

theorem writeCtrl_of_disabled_set (he : b.enabled = false) (hv : v.getLsbD 0 = true) : writeCtrl s m v = s.setBox m new.enable := by
  rw [writeCtrl_eq hb hn, he, hv]
  rfl

theorem writeCtrl_of_enabled_clear (he : b.enabled = true) (hv : v.getLsbD 0 = false) :
    writeCtrl s m v = disableBox (s.setBox m new) m := by
  rw [writeCtrl_eq hb hn, he, hv]
  rfl

/-- A write that leaves the enable bit as it was only takes the control word. -/
theorem writeCtrl_of_unchanged (hv : v.getLsbD 0 = b.enabled) : writeCtrl s m v = s.setBox m new := by
  rw [writeCtrl_eq hb hn, hv]
  cases b.enabled
  · rfl
  · rfl

end

/-- Settles O45: each write from the owner's path by the range of its value or the enable bit, and the other paths. -/
theorem doorbellsAndEnable : Obligations.DoorbellsAndEnable := by
  unfold Obligations.DoorbellsAndEnable
  refine ⟨fun s path m v hp ho => ?_, fun s path m v hp ho => ?_, fun s path m v hp => ?_⟩
  · intro b new on off
    have access (f : State → State) {t : State} (ht : f s = t) : onWindow s path (fun s => fromOwner s path m f) = .next t :=
      (onWindow_fromOwner hp ho f).trans (congrArg _ ht)
    have hset := getLsbD_or_one v
    have hclear := getLsbD_and_not_one v
    have hon : on.ctrl.getLsbD 0 = true := (ctrlTaken_enable b m _).trans hset
    have hoff : off.ctrl.getLsbD 0 = false := (ctrlTaken_enable b m _).trans hclear
    exact ⟨fun h64 hl => access _ (writeDblCmd_of_taken rfl rfl h64 hl), fun hout => access _ (writeDblCmd_of_outside rfl rfl hout),
      fun hl => access _ (writeDblCpl_of_taken rfl rfl hl), fun hout => access _ (writeDblCpl_of_outside rfl rfl hout),
      fun he => ⟨access _ (writeCtrl_of_disabled_set rfl rfl he hset), hon, access _ (writeCtrl_of_unchanged rfl rfl (hclear.trans he.symm))⟩,
      fun he => ⟨access _ (writeCtrl_of_unchanged rfl rfl (hset.trans he.symm)), access _ (writeCtrl_of_enabled_clear rfl rfl he hclear), hoff⟩⟩
  · have access (f : State → State) := onWindow_fromForeign hp ho f
    exact ⟨access _, access _, access _, access _⟩
  · have access (f : State → State) : onWindow s path (fun s => fromOwner s path m f) = .next s := onWindow_of_not_onPath hp _
    exact ⟨access _, access _, access _, access _⟩

/-! ### 64-bit registers by halves (R341, R343) -/

/-- A path may write what an offset names: a mailbox's own registers, or a register outside the mailboxes (R344). -/
def Owns (s : State) (path : Path) (off : Nat) : Prop := ∀ m, boxAt off = some m → (s.box m).owner = path

theorem owns_of_none {off : Nat} (hb : boxAt off = none) (s : State) (path : Path) : Owns s path off := fun m hm => by
  rw [hb] at hm; cases hm

theorem owns_of_some {s : State} {path : Path} {off : Nat} {m : MbxId} (hb : boxAt off = some m) (ho : (s.box m).owner = path) :
    Owns s path off := fun n hn => by
  rw [hb] at hn; cases hn; exact ho

section
variable {s : State} {path : Path} {off : Nat} (hb : Owns s path off)
include hb

/-- A low word of a 64-bit register is held for its path. -/
theorem write32_low (hw : wide off = true) (v : Word) : write32 s path off v = holdLow s path off v := by
  cases hm : boxAt off with
  | none => simp only [write32, hm, hw, if_true]
  | some m => simp only [write32, hm, hw, if_true, fromOwner_of_owner (hb m hm)]

/-- The write of a high word goes to the register of 64 bits. -/
theorem write32_high (h4 : 4 ≤ off) (hw : wide off = false) (hl : wide (off - 4) = true) (v : Word) :
    write32 s path off v = writeHigh s path off v := by
  cases hm : boxAt off with
  | none => simp only [write32, hm, hw, h4, hl, Bool.false_eq_true, and_self, if_true, if_false]
  | some m => simp only [write32, hm, hw, h4, hl, Bool.false_eq_true, and_self, if_true, if_false, fromOwner_of_owner (hb m hm)]

end

/-- A high word is written with the low word that its path holds, which is then no longer held. -/
theorem writeHigh_holdLow (s : State) (path : Path) (off : Nat) (lo hi : Word) :
    writeHigh (holdLow s path off lo) path (off + 4) hi =
      writeWide { s with lows := s.lows.filter (fun x => !(x.path == path && x.offset == off)) } path off (hi ++ lo) := by
  simp [writeHigh, holdLow, List.filter_filter]

theorem exec_windowLowWordWrite {s : State} {path : Path} {off : Nat} (hp : onPath s path = true) (hb : Owns s path off)
    (hlt : off < 2 ^ 16) (hw : wide off = true) (v : Word) :
    exec (.windowLowWordWrite path (BitVec.ofNat 16 off) v) s = .next (holdLow s path off v) := by
  have hoff : (BitVec.ofNat 16 off).toNat = off := by simpa using hlt
  simp only [exec, execWindowLowWordWrite, onWindow_of_onPath hp, hoff, hw, onlyIf_true, write32_low hb hw]

/-- The high word after the low word writes the register whole. -/
theorem exec_windowHighWordWrite_of_held {s : State} {path : Path} {off : Nat} (hp : onPath s path = true) (hb : Owns s path (off + 4))
    (hlt : off + 4 < 2 ^ 16) (hw : wide off = true) (hn : wide (off + 4) = false) (lo hi : Word) :
    exec (.windowHighWordWrite path (BitVec.ofNat 16 (off + 4)) hi) (holdLow s path off lo) = .next
      (writeWide { s with lows := s.lows.filter (fun x => !(x.path == path && x.offset == off)) } path off (hi ++ lo)) := by
  have hoff : (BitVec.ofNat 16 (off + 4)).toNat = off + 4 := by simpa using hlt
  have hp' : onPath (holdLow s path off lo) path = true := hp
  have hb' : Owns (holdLow s path off lo) path (off + 4) := hb
  have hcond : (decide (4 ≤ off + 4) && wide (off + 4 - 4)) = true := by simp [hw]
  simp only [exec, execWindowHighWordWrite, onWindow_of_onPath hp', hoff, hcond, onlyIf_true,
    write32_high hb' (Nat.le_add_left 4 off) hn hw, writeHigh_holdLow]

/-! ### TIM_INCR and TIM_ADJ (R441, R444) -/

section
variable (s : State) {path : Path}

theorem writeWide_incr (v : Word64) : writeWide s path 0x4008 v = writeIncr s path v := rfl

theorem writeWide_adj (v : Word64) : writeWide s path 0x4010 v = writeAdj s path v := rfl

theorem writeWide_incr_of_disciplined (hm : path0 s = path ∧ s.time.hostDisciplined = true) {v : Word64}
    (hi : incrOk (v.toNat % 2 ^ 40) = true) :
    writeWide s path 0x4008 v = { s with time := { s.time with incrNext := some (v.setWidth 40) } } := by
  have hv : BitVec.ofNat 40 (v.toNat % 2 ^ 40) = v.setWidth 40 := by
    apply BitVec.eq_of_toNat_eq
    simp
  simp only [writeWide_incr, writeIncr, hm, hi, and_self, if_true, hv]

theorem writeWide_incr_of_not (hm : ¬(path0 s = path ∧ s.time.hostDisciplined = true)) (v : Word64) :
    writeWide s path 0x4008 v = s :=
  (writeWide_incr s v).trans (if_neg fun h => hm ⟨h.1, h.2.1⟩)

theorem writeWide_adj_of_disciplined (hm : path0 s = path ∧ s.time.hostDisciplined = true) (v : Word64) :
    writeWide s path 0x4010 v = (requestCorrection { s with time := { s.time with adj := v } } 1 v.toInt).1 :=
  (writeWide_adj s v).trans (if_pos hm)

theorem writeWide_adj_of_not (hm : ¬(path0 s = path ∧ s.time.hostDisciplined = true)) (v : Word64) : writeWide s path 0x4010 v = s :=
  (writeWide_adj s v).trans (if_neg hm)

end

/-! ### The registers of a mailbox (R343, R344) -/

section
variable {m : MbxId} {off r : Nat} (ho : off = 0x1000 + r + 0x40 * m.toNat)
include ho

theorem boxAt_mailbox (hr : r < 0x20) : boxAt off = some m := by
  have hm := m.isLt
  subst ho
  rw [boxAt, if_pos (by omega), if_pos (by omega), mbx_of_offset m (r := r) (by omega)]

theorem wide_mailbox (hr : r < 0x40) : wide off = (r == 0x08 || r == 0x10) := by
  have hm := m.isLt
  have hmod : off % 0x40 = r := by omega
  have hlo : 0x1000 ≤ off := by omega
  have hhi : off < 0x1400 := by omega
  have h1 : (off == 0x3008) = false := beq_eq_false_iff_ne.mpr (by omega)
  have h2 : (off == 0x4008) = false := beq_eq_false_iff_ne.mpr (by omega)
  have h3 : (off == 0x4010) = false := beq_eq_false_iff_ne.mpr (by omega)
  simp [wide, hmod, hlo, hhi, h1, h2, h3]

/-- A ring base of a disabled mailbox takes what is written, down to 8 KiB. -/
theorem writeWide_mailbox (hr : r < 0x40) {s : State} (he : (s.box m).enabled = false) (path : Path) (v : Word64) :
    writeWide s path off v = s.setBox m
      (if r == 0x10 then { s.box m with cplBase := v &&& ~~~0x1FFF#64 } else { s.box m with cmdBase := v &&& ~~~0x1FFF#64 }) := by
  have hm := m.isLt
  have hmod : off % 0x40 = r := by omega
  have hoff : off < 0x1400 := by omega
  rw [writeWide, if_pos hoff, hmod, ho, mbx_of_offset m hr]
  simp only [writeBase, he, Bool.false_eq_true, if_false]

end

/-! ### Reads that latch (R341, R443, R457) -/

theorem refresh_highs (s : State) (off : Nat) : (refresh s off).highs = s.highs := by
  unfold refresh
  split
  · unfold runCalendar
    split
    · rfl
    · rfl
  · rfl

/-- The low words of the 64-bit registers of the time block lie on 4-byte boundaries. -/
theorem aligned_of_timLow {off : Nat} (ht : timLow off = true) : aligned off 4 = true := by
  simp only [timLow, List.contains_iff_mem, List.mem_cons, List.not_mem_nil, or_false] at ht
  rcases ht with rfl | rfl | rfl | rfl | rfl <;> rfl

/-- The read of a low word latches the high word that stands then. -/
theorem exec_timLowWordRead_of_unlatched {s : State} {path : Path} (hp : onPath s path = true) {off : BitVec 16}
    (ht : timLow off.toNat = true) (hh : s.highs = []) {u : State} (hu : refresh s off.toNat = u) :
    exec (.timLowWordRead path off) s = .next ({ u with
      highs := [{ path := path, offset := off.toNat + 4, value := peek u (off.toNat + 4) }] }.emit
        (.readValue off.toNat ((peek u off.toNat).setWidth 64))) := by
  have hhu : u.highs = [] := by rw [← hu, refresh_highs, hh]
  have hr : windowReadOf s path off.toNat 4 = ({ u with
      highs := [{ path := path, offset := off.toNat + 4, value := peek u (off.toNat + 4) }] }, (peek u off.toNat).toNat) := by
    simp [windowReadOf, aligned_of_timLow ht, read32, hh, hu, ht, hhu]
  simp only [exec, execTimLowWordRead, onWindow_of_onPath hp, ht, onlyIf_true, hr, showRead, BitVec.ofNat_toNat]

/-! ### Whole writes (R341, R343, R365) -/

section
variable {s : State} {path : Path} (hp : onPath s path = true)
include hp

/-- A 64-bit register outside the mailboxes is written whole by an access of its size, and no low word stays held for it. -/
theorem onWindow_write64 {off : Nat} (hb : boxAt off = none) (hw : wide off = true) (ha : aligned off 8 = true) (v : Word64) :
    onWindow s path (fun s => windowWriteOf s path off 8 v) = .next (writeWide (dropLow s off) path off v) := by
  simp [onWindow_of_onPath hp, windowWriteOf, ha, hw, hb]

/-- A 32-bit register outside the mailboxes is written by an access of its size. -/
theorem onWindow_writeOf32 {off : Nat} (hb : boxAt off = none) (hw : wide off = false) (hh : wide (off - 4) = false)
    (ha : aligned off 4 = true) (v : Word64) :
    onWindow s path (fun s => windowWriteOf s path off 4 v) = .next (writeWord s path off (v.setWidth 32)) := by
  rw [onWindow_of_onPath hp]
  simp [windowWriteOf, ha, write32_of_word hb hw hh, BitVec.setWidth_eq_extractLsb' (by decide : 32 ≤ 64)]

theorem exec_badSizeAccess {off : BitVec 16} {size : Nat} (ha : aligned off.toNat size = false) :
    exec (.badSizeAccess path off size true) s = .next (raiseAs s 0 0 (event90 true)) ∧
    exec (.badSizeAccess path off size false) s = .next ((raiseAs s 0 0 (event90 true)).emit (.readValue off.toNat 0)) := by
  simp only [exec, execBadSizeAccess, onWindow_of_onPath hp, ha, Bool.not_false, onlyIf_true]
  exact ⟨rfl, rfl⟩

end

/-- Settles O48: each access is a half or the whole of a register, or a read that latches. -/
theorem windowWords : Obligations.WindowWords := by
  unfold Obligations.WindowWords
  intro s path hp
  refine ⟨fun v => ?_, fun lo hi => ?_, fun off ht hh => exec_timLowWordRead_of_unlatched hp ht hh rfl, fun v => ?_, fun v => ?_,
    fun off size ha => exec_badSizeAccess hp ha⟩
  · have low (off : Nat) (hb : boxAt off = none) (hlt : off < 2 ^ 16) (hw : wide off = true) :=
      exec_windowLowWordWrite hp (owns_of_none hb s path) hlt hw v
    simp only [List.forall_mem_cons]
    exact ⟨low 0x3008 rfl (by decide) rfl, low 0x4008 rfl (by decide) rfl, low 0x4010 rfl (by decide) rfl, nofun⟩
  · intro u
    have high (off : Nat) (hb : boxAt (off + 4) = none) (hlt : off + 4 < 2 ^ 16) (hw : wide off = true) (hn : wide (off + 4) = false) :=
      exec_windowHighWordWrite_of_held hp (owns_of_none hb s path) hlt hw hn lo hi
    refine ⟨high 0x3008 rfl (by decide) rfl rfl, fun h0 hd => ⟨fun hok => ?_, ?_⟩, fun m ho => ?_⟩
    · exact (high 0x4008 rfl (by decide) rfl rfl).trans (congrArg _ (writeWide_incr_of_disciplined { s with lows := u 0x4008 } ⟨h0, hd⟩ hok))
    · exact (high 0x4010 rfl (by decide) rfl rfl).trans (congrArg _ (writeWide_adj_of_disciplined { s with lows := u 0x4010 } ⟨h0, hd⟩ _))
    · intro at_
      have owns (r : Nat) (hr : r < 0x20) (off : Nat) (ho' : off = 0x1000 + r + 0x40 * m.toNat) : Owns s path off :=
        owns_of_some (boxAt_mailbox ho' hr) ho
      have hlt : at_ + 12 < 2 ^ 16 := by have := m.isLt; omega
      have hw8 : wide at_ = true := wide_mailbox (r := 0x08) rfl (by decide)
      have hw16 : wide (at_ + 8) = true := wide_mailbox (m := m) (r := 0x10) (by omega) (by decide)
      have hnC : wide (at_ + 4) = false := wide_mailbox (m := m) (r := 0x0C) (by omega) (by decide)
      have hn14 : wide (at_ + 8 + 4) = false := wide_mailbox (m := m) (r := 0x14) (by omega) (by decide)
      refine ⟨exec_windowLowWordWrite hp (owns 0x08 (by decide) _ rfl) (by omega) hw8 lo, fun he => ⟨?_, ?_⟩⟩
      · exact (exec_windowHighWordWrite_of_held hp (owns 0x0C (by decide) _ (by omega)) (by omega) hw8 hnC lo hi).trans
          (congrArg _ (writeWide_mailbox (r := 0x08) rfl (by decide) (s := { s with lows := u at_ }) he path _))
      · exact (exec_windowHighWordWrite_of_held hp (owns 0x14 (by decide) _ (by omega)) (by omega) hw16 hn14 lo hi).trans
          (congrArg _ (writeWide_mailbox (r := 0x10) (by omega) (by decide) (s := { s with lows := u (at_ + 8) }) he path _))
  · intro mine
    refine ⟨fun hm hi => ?_, fun hm => ?_, fun hm => ⟨?_, ?_⟩⟩
    · exact (onWindow_write64 hp rfl rfl rfl v).trans (congrArg _ (writeWide_incr_of_disciplined (dropLow s 0x4008) hm hi))
    · exact (onWindow_write64 hp rfl rfl rfl v).trans (congrArg _ (writeWide_adj_of_disciplined (dropLow s 0x4010) hm v))
    · exact (onWindow_write64 hp rfl rfl rfl v).trans (congrArg _ (writeWide_incr_of_not (dropLow s 0x4008) hm v))
    · exact (onWindow_write64 hp rfl rfl rfl v).trans (congrArg _ (writeWide_adj_of_not (dropLow s 0x4010) hm v))
  · intro w
    have word (off : Nat) (hb : boxAt off = none) (hw : wide off = false) (hh : wide (off - 4) = false) (ha : aligned off 4 = true) :=
      onWindow_writeOf32 hp hb hw hh ha v
    have hcons : w.extractLsb' 0 16 = v.setWidth 16 := by
      rw [← BitVec.setWidth_eq_extractLsb' (by decide : 16 ≤ 32), BitVec.setWidth_setWidth_of_le v (by decide)]
    refine ⟨word 0x3004 rfl rfl rfl rfl, word 0x3010 rfl rfl rfl rfl, ?_, onWindow_write64 hp rfl rfl rfl v, word 0x1400 rfl rfl rfl rfl⟩
    rw [← hcons]
    exact word 0x3018 rfl rfl rfl rfl

end Sys2Proof.Machine
end

section
/-! SUPPORT. The queries (R356, R364, R368, R414, R423, R482, R509 to R511, R538). -/

namespace Sys2Proof.Machine

open Sys2Proof

/-! ### What the write of a reply buffer changes (R17, R133, R356) -/

theorem globalWrite_access (s : State) (a : Nat) (bs : List Byte) : AccessFrame s (globalWrite s a bs).1 := by
  unfold globalWrite
  split
  · exact localWrite_access s _ bs
  · split
    · exact ⟨_, _, _, _, _, _, _, rfl⟩
    · exact .refl s

theorem busWrite_access (s : State) (path1 : Bool) (a : Nat) (bs : List Byte) : AccessFrame s (busWrite s path1 a bs).1 := by
  unfold busWrite
  split
  · exact .refl s
  · split
    · exact globalWrite_access s a bs
    · exact ⟨_, _, _, _, _, _, _, rfl⟩

/-- A buffer that can be written is written by one access on its mailbox's path. -/
theorem busWrite_of_writable {s t : State} {m : MbxId} {b : Bref} {bs : List Byte} (hw : Writable s m b bs t) :
    busWrite s (s.box m).path1 b.addr bs = (t, true) := by
  obtain ⟨-, hw⟩ := hw
  unfold bufWrite at hw
  dsimp only at hw
  split at hw
  · exact hw
  · exact absurd (congrArg Prod.snd hw) Bool.false_ne_true

theorem boot_of_writable {s t : State} {m : MbxId} {b : Bref} {bs : List Byte} (hw : Writable s m b bs t) : t.boot = s.boot := by
  obtain ⟨_, _, _, _, _, _, _, ht⟩ := busWrite_access s (s.box m).path1 b.addr bs
  rw [busWrite_of_writable hw] at ht
  rw [show t = _ from ht]

/-! ### What the module and its jobs reply (R356, R364, R368) -/

section
variable {s : State} {m : MbxId} {h : CmdHdr}

theorem exec_identify_of_commanded (hc : Commanded s m h 0x01 0) :
    exec (.identify m h) s = .next (complete s m h 0x01 0 (identifyReply s m)) := by
  simp only [exec, execIdentify, command_of_commanded hc, stOk]

theorem exec_getLimits_of_commanded (hc : Commanded s m h 0x02 0) :
    exec (.getLimits m h) s = .next (complete s m h 0x02 0 (limitsReply s)) := by
  simp only [exec, execGetLimits, command_of_commanded hc, stOk]

variable {b : Bref} {t : State}

theorem exec_plinthRead_of_writable (hc : Commanded s m h 0x10 0x20) {off : Nat} {all bs : List Byte} (ha : s.boot.plinth.bytes = all)
    (ho : off ≤ all.length) (hb : (all.drop off).take b.len = bs) (hw : Writable s m b bs t) :
    exec (.plinthRead m h off b) s = .next (complete t m h 0x10 0 (leBytes 4 all.length ++ leBytes 4 bs.length)) := by
  simp only [exec, execPlinthRead, command_of_commanded hc, ha, Nat.not_lt.mpr ho, if_false, hb, replyBuf_of_writable hw, stOk]

theorem exec_reliefList_of_writable (hc : Commanded s m h 0x11 0x10)
    (hw : Writable s m b (s.boot.plinth.reliefs.map Relief.entry).flatten t) : exec (.reliefList m h b) s = .next
      (complete t m h 0x11 0 (leBytes 1 s.boot.plinth.reliefs.length ++ leBytes 1 s.boot.activeRelief ++
        leBytes 1 s.boot.plinth.defaultRelief)) := by
  simp only [exec, execReliefList, command_of_commanded hc, replyBuf_of_writable hw, boot_of_writable hw, stOk]

theorem exec_jobQuery_of_writable (hc : Commanded s m h 0x42 0x20) {job : Nat} {j : Job} (hj : s.job? job = some j)
    (hu : mayUse m j.owner = true) (hw : Writable s m b (queryBytes job j) t) :
    exec (.jobQuery m h job b) s = .next (complete t m h 0x42 0 (leBytes 4 208)) := by
  simp only [exec, execJobQuery, command_of_commanded hc, withJob_of_mayUse hj hu, replyBuf_of_writable hw, stOk]

/-! ### Fabric, faults, Patina and attestation (R414, R423, R482, R509 to R511, R538) -/

theorem exec_fabricStatus_of_writable (hc : Commanded s m h 0x80 0x10) (hl : 20992 ≤ b.len) (hw : Writable s m b (fabricBytes s) t) :
    exec (.fabricStatus m h b) s = .next (complete t m h 0x80 0 (leBytes 2 (if t.fab.joined then t.fab.node else 0xFFFF) ++
      leBytes 2 t.fab.registrarNode ++ leBytes 2 t.fab.nodes ++
      leBytes 1 ((List.range 6).filter (fun p => (fport t p).state == 3)).length)) := by
  simp only [exec, execFabricStatus, command_of_commanded hc, Nat.not_lt.mpr hl, if_false, replyBuf_of_writable hw, stOk]

theorem exec_faultStatus_of_writable (hc : Commanded s m h 0x91 0x10) (hw : Writable s m b (faultBytes s) t) :
    exec (.faultStatus m h b) s = .next (complete t m h 0x91 0
      (((List.range 4).map (fun v => leBytes 4 (t.flt.severities.count v))).flatten ++ leBytes 8 t.flt.lastFatal)) := by
  simp only [exec, execFaultStatus, command_of_commanded hc, replyBuf_of_writable hw, stOk]

theorem exec_castFetch_of_kept (hc : Commanded s m h 0x92 0x20) {p w : Nat} {c : Cast} (hp : p ≤ 7) (hw1 : w ≤ 1)
    (hk : (s.part p).casts[w]? = some c) (hw : Writable s m b c.bytes t) :
    exec (.castFetch m h p w b) s = .next (complete t m h 0x92 0 (leBytes 4 c.bytes.length)) := by
  have hin : ¬(7 < p ∨ 1 < w) := by omega
  simp only [exec, execCastFetch, command_of_commanded hc, hin, if_false, hk, replyBuf_of_writable hw, stOk]

theorem exec_patinaRead_of_writable (hc : Commanded s m h 0xA0 0x20) {sec off : Nat} {all bs : List Byte}
    (ha : patinaSection s sec = some all) (hb : (all.drop off).take b.len = bs) (hw : Writable s m b bs t) :
    exec (.patinaRead m h sec off b) s = .next (complete t m h 0xA0 0 (leBytes 4 bs.length)) := by
  simp only [exec, execPatinaRead, command_of_commanded hc, ha, hb, replyBuf_of_writable hw, stOk]

/-- Where no injection is pending and the identity is available, a quote is written. -/
theorem exec_attest_of_writable (hc : Commanded s m h 0xB2 0x30) (hn : s.flt.pending = none) (hi : s.boot.identityOk = true)
    {n : Nat} (hlen : 288 + 36 * s.images.length = n) (hl : (n + 15) / 16 * 16 + 8192 ≤ b.len) {nonce : List Byte}
    (hw : Writable s m b (padUp 16 (quote s nonce) ++ Config.certChain.take 8192) t) :
    exec (.attest m h nonce b) s = .next (complete t m h 0xB2 0 (leBytes 4 n)) := by
  simp only [exec, execAttest, command_of_commanded hc, takeInjection_none hn, Option.isSome_none, Bool.false_eq_true, hlen,
    Nat.not_lt.mpr hl, hi, Bool.true_eq_false, or_self, if_false, replyBuf_of_writable hw, stOk]

end

/-- Settles O40: each query is its reply, where its buffer can be written. -/
theorem queryCommands : Obligations.QueryCommands := by
  unfold Obligations.QueryCommands
  intro s m h b
  exact ⟨exec_identify_of_commanded, exec_getLimits_of_commanded, fun off t hc ho => exec_plinthRead_of_writable hc rfl ho rfl,
    fun t hc hw => exec_reliefList_of_writable hc hw, fun job j t hc hj hu hw => exec_jobQuery_of_writable hc hj hu hw,
    fun t hc hl hw => exec_fabricStatus_of_writable hc hl hw, fun t hc hw => exec_faultStatus_of_writable hc hw,
    fun p w c t hc hp hw1 hk hw => exec_castFetch_of_kept hc hp hw1 hk hw,
    fun sec off all t hc ha hw => exec_patinaRead_of_writable hc ha rfl hw,
    fun nonce t hc hn hi hl hw => exec_attest_of_writable hc hn hi rfl hl hw⟩

end Sys2Proof.Machine
end

section
/-! SUPPORT. The commands of mailbox 0 where their checks pass: time, calendar, join policy, injection, resets, Reliefs, updates, power (R370, R382, R411, R432, R441, R448 to R450, R457, R477, R499, R500, R521, R525). -/

namespace Sys2Proof.Machine

open Sys2Proof

/-! ### Time and calendar (R441, R446, R448, R450, R457) -/

/-- The mask of `TIME_CONFIG` names a field (R450). -/
abbrev MaskNames (mask k : Nat) : Prop := mask / 2 ^ k % 2 = 1

/-- What `TIME_CONFIG` asks of its fields: those that its mask names lie in their ranges, and the ports with the configurations `c0` and
`c1` fit together (R441, R446, R449, R450). -/
structure TimeConfigOk (mask jump incr hold : Nat) (p0 p1 c0 c1 : PtpPortCfg) : Prop where
  mask_lt : mask < 32
  incr_ok : MaskNames mask 0 → incrOk incr = true
  jump_ok : MaskNames mask 1 → 1 ≤ jump ∧ jump ≤ 1000000
  port0_ok : MaskNames mask 2 → portCfgOk p0 = true
  port1_ok : MaskNames mask 3 → portCfgOk p1 = true
  hold_ok : MaskNames mask 4 → 1 ≤ hold
  codes0 : portCodesOk p0 = true
  codes1 : portCodesOk p1 = true
  agree : portsAgree c0 c1 = true

/-- None of the reasons for which `TIME_CONFIG` completes with `BAD_PARAM` holds. -/
theorem TimeConfigOk.not_refused {mask jump incr hold : Nat} {p0 p1 c0 c1 : PtpPortCfg} (ok : TimeConfigOk mask jump incr hold p0 p1 c0 c1) :
    ¬(32 ≤ mask ∨ portCodesOk p0 = false ∨ portCodesOk p1 = false ∨ (mask / 2 ^ 0 % 2 == 1 && !incrOk incr) = true ∨
      (mask / 2 ^ 1 % 2 == 1 && (jump == 0 || decide (1000000 < jump))) = true ∨ (mask / 2 ^ 2 % 2 == 1 && !portCfgOk p0) = true ∨
      (mask / 2 ^ 3 % 2 == 1 && !portCfgOk p1) = true ∨ portsAgree c0 c1 = false ∨ (mask / 2 ^ 4 % 2 == 1 && hold == 0) = true) := by
  simp only [ok.codes0, ok.codes1, ok.agree, Bool.and_eq_true, beq_iff_eq, Bool.not_eq_true', Bool.or_eq_true, decide_eq_true_eq,
    Bool.true_eq_false, false_or]
  rintro (hm | ⟨hb, hx⟩ | ⟨hb, hx⟩ | ⟨hb, hx⟩ | ⟨hb, hx⟩ | ⟨hb, hx⟩)
  · exact absurd ok.mask_lt (Nat.not_lt.mpr hm)
  · exact absurd (ok.incr_ok hb) (by simp [hx])
  · have := ok.jump_ok hb
    omega
  · exact absurd (ok.port0_ok hb) (by simp [hx])
  · exact absurd (ok.port1_ok hb) (by simp [hx])
  · have := ok.hold_ok hb
    omega

section
variable {s : State} {h : CmdHdr}

/-- `TIME_CONFIG` takes the fields that its mask names where they keep their rules. -/
theorem exec_timeConfig_of_accepted (hc : Commanded s 0 h 0x70 0x24) {mask jump incr hold : Nat} {p0 p1 c0 c1 : PtpPortCfg}
    (hc0 : (if MaskNames mask 2 then p0 else s.time.port0.cfg) = c0) (hc1 : (if MaskNames mask 3 then p1 else s.time.port1.cfg) = c1)
    (ok : TimeConfigOk mask jump incr hold p0 p1 c0 c1) :
    exec (.timeConfig 0 h mask jump incr p0 p1 hold) s = .next (complete { s with
      time := followPorts { s.time with incr := if MaskNames mask 0 then BitVec.ofNat 40 incr else s.time.incr
                                        jumpLimit := if MaskNames mask 1 then jump else s.time.jumpLimit
                                        holdoverLimit := if MaskNames mask 4 then hold else s.time.holdoverLimit
                                        port0 := s.time.port0.configure c0, port1 := s.time.port1.configure c1 }
      boot := if MaskNames mask 1 then { s.boot with runtime := s.boot.runtime.put 0x0060 jump } else s.boot } 0 h 0x70 0 []) := by
  simp only [exec, execTimeConfig, command0_of_commanded hc, beq_iff_eq, hc0, hc1, stOk]
  rw [if_neg ok.not_refused]

/-- `TIME_FORCE` waits for the next tick where the setting permits it and no job forbids it. -/
theorem exec_timeForce_of_permitted (hc : Commanded s 0 h 0x71 8) (hs : setting s 0x0081 0 = 1)
    (hj : s.jobs.all (fun e => !forbidsForce s e.2) = true) (t : Word64) :
    exec (.timeForce 0 h t) s = .next (await { s with time := { s.time with force := some (t.toNat, 0, h) } } 0 h 0x71 .force) := by
  have hany : s.jobs.any (fun e => forbidsForce s e.2) = false := by
    simpa [List.any_eq_false] using hj
  simp only [exec, execTimeForce, command0_of_commanded hc, hs, hany, ne_eq, not_true_eq_false, Bool.false_eq_true, or_self, if_false]

theorem exec_calendarSet_of_range (hc : Commanded s 0 h 0xA1 0x0C) {sec ns : Nat} (hn : ns < 1000000000) (hs : sec < 2 ^ 64) :
    exec (.calendarSet 0 h sec ns) s = .next
      (complete (logRecord { s with time := { s.time with calSec := sec, calNs := calStep ns, calLost := false } } 0x06 sec) 0 h 0xA1 0 []) := by
  have hin : ¬(1000000000 ≤ ns ∨ 2 ^ 64 ≤ sec) := by omega
  simp only [exec, execCalendarSet, command0_of_commanded hc, hin, if_false, stOk]

/-! ### The join policy and the injection window (R411, R412, R477) -/

theorem exec_fabricJoinPolicy_empty (hc : Commanded s 0 h 0x81 0x20) {policy : Nat} (hp : policy ≤ 2) (b : Bref) :
    exec (.fabricJoinPolicy 0 h policy 0 b) s = .next (complete (setPolicy s policy []) 0 h 0x81 0 []) := by
  have hin : ¬(2 < policy ∨ 64 < 0) := by omega
  simp only [exec, execFabricJoinPolicy, command0_of_commanded hc, hin, if_false, if_true, stOk]

theorem exec_fabricJoinPolicy_listed (hc : Commanded s 0 h 0x81 0x20) {policy n : Nat} {b : Bref} {r : State} {bs : List Byte} (hp : policy ≤ 2)
    (h1 : 1 ≤ n) (h64 : n ≤ 64) (hl : 16 * n ≤ b.len) (hr : bufRead s 0 b (16 * n) = (r, some bs)) :
    exec (.fabricJoinPolicy 0 h policy n b) s = .next
      (complete (setPolicy r policy ((List.range n).map (fun i => fld bs (16 * i) 16))) 0 h 0x81 0 []) := by
  have hin : ¬(2 < policy ∨ 64 < n) := by omega
  have hn : ¬ n = 0 := by omega
  simp only [exec, execFabricJoinPolicy, command0_of_commanded hc, hin, hn, if_false, withBuf_of_read hl hr, stOk]

theorem exec_faultInjectArm_of_permitted (hc : Commanded s 0 h 0x90 4) {ms : Nat} (h1 : 1 ≤ ms) (hmax : ms ≤ 3600000)
    (hs : setting s 0x0080 0 = 1) {til : Word64} (ht : BitVec.ofNat 64 (s.now + 1000000 * ms) = til) :
    exec (.faultInjectArm 0 h ms) s = .next (complete { s with flt := { s.flt with armed := true, armedUntil := til } } 0 h 0x90 0
      (leBytes 8 til.toNat)) := by
  have hin : ¬(ms = 0 ∨ 3600000 < ms) := by omega
  simp only [exec, execFaultInjectArm, command0_of_commanded hc, hin, hs, ht, ne_eq, not_true_eq_false, if_false, stOk]

/-! ### PARTITION_RESET (R430 to R432) -/

/-- A reset that may be commanded begins by the path that the partition's last resets leave it, and waits unless the partition is then down. -/
theorem exec_partitionReset_of_allowed (hc : Commanded s 0 h 0x93 2) {p path : Nat} (hp : p ≤ 7) (hpath : path ≤ 1)
    (hs : (s.part p).state = 0 ∨ ((s.part p).state = 3 ∧ path = 1)) {u v : State}
    (hu : s.setPart p { s.part p with resetMbx := some (0, h), railOn := true } = u) (hv : resetCommanded u p path = v) :
    exec (.partitionReset 0 h p path) s = .next (if (v.part p).state = 3 then v else await v 0 h 0x93 (.reset p)) := by
  have hin : ¬(7 < p ∨ 1 < path) := by omega
  have hfree : ¬((s.part p).state = 1 ∨ (s.part p).state = 2 ∨ ((s.part p).state = 3 ∧ path = 0)) := by omega
  simp only [exec, execPartitionReset, command0_of_commanded hc, hin, hfree, if_false, hu, hv]

/-- What a commanded reset does turns on its escalation (R430, R432). -/
theorem resetCommanded_eq {u : State} {p : Nat} {into : Escalation}
    (hi : (if (u.part p).state = 0 then escalation u p else .none) = into) (path : Nat) :
    (into = .none → resetCommanded u p path = beginReset u p path 0 0 0) ∧
    (into = .toFull → resetCommanded u p path = beginReset u p 1 0 0 0) ∧
    (into = .down → resetCommanded u p path = takeDown u p) := by
  unfold resetCommanded
  rw [hi]
  refine ⟨?_, ?_, ?_⟩
  · rintro rfl; rfl
  · rintro rfl; rfl
  · rintro rfl; rfl

/-! ### RELIEF_APPLY (R145, R370) -/

theorem exec_reliefApply_of_unchecked (hc : Commanded s 0 h 0x12 2) {id : Nat} {u : State} (hr : checkRelief s id = (u, none)) :
    exec (.reliefApply 0 h id) s = .next (complete u 0 h 0x12 0x05 []) := by
  simp only [exec, execReliefApply, command0_of_commanded hc, hr, stDenied]

section
variable (hc : Commanded s 0 h 0x12 2) {id : Nat} {u : State} {r : Relief} (hr : checkRelief s id = (u, some r))
include hc hr

theorem exec_reliefApply_of_busy (hb : reliefBusy u id = true) :
    exec (.reliefApply 0 h id) s = .next (complete u 0 h 0x12 0x01 []) := by
  simp only [exec, execReliefApply, command0_of_commanded hc, hr, hb, if_true, stBusy]

/-- A Relief that checks and is not held back takes its ways partition by partition, and then applies. -/
theorem exec_reliefApply_of_free (hb : reliefBusy u id = false) {t : State × Bool}
    (ht : (List.range 8).foldl (fun (acc : State × Bool) p =>
      if acc.2 then takeWays acc.1 p (newByte u id 0x0020 p) else acc) (u, true) = t) :
    exec (.reliefApply 0 h id) s = .next (if t.2 then complete (policyToPorts (switchRelief t.1 r)) 0 h 0x12 0
      (leBytes 2 u.boot.activeRelief) else complete t.1 0 h 0x12 0x07 []) := by
  simp only [exec, execReliefApply, command0_of_commanded hc, hr, hb, Bool.false_eq_true, if_false, ht, stOk, stFaulted]

end

/-! ### Updates (R493, R499, R500) -/

theorem signatureFail_event (s : State) (kind key flags : Nat) : EventFrame s (signatureFail s kind key flags) := raiseAs_event s _ _ _

theorem EventFrame.pending {s t : State} (a : EventFrame s t) : t.flt.pending = s.flt.pending := by
  obtain ⟨_, _, _, _, _, rfl, hp, _⟩ := a
  exact hp

/-- Without a pending injection a signature check changes no more than the event of a failure. -/
theorem checkSigned_event {s : State} (hn : s.flt.pending = none) (ok : Bool) (kind key : Nat) :
    EventFrame s (checkSigned s ok kind key).1 := by
  simp only [checkSigned, takeInjection_none hn]
  split
  · exact .refl s
  · exact signatureFail_event s _ _ _

/-- Each Relief whose signature fails raises its own event. -/
theorem failReliefs_event (rs : List Relief) (acc : State × Bool) :
    EventFrame acc.1 (rs.foldl (fun acc x => if x.verified then acc else (signatureFail acc.1 2 x.keyId 0, false)) acc).1 := by
  induction rs generalizing acc with
  | nil => exact .refl _
  | cons r rs ih =>
    refine EventFrame.trans ?_ (ih _)
    dsimp only
    split
    · exact .refl _
    · exact signatureFail_event acc.1 2 r.keyId 0

theorem stageSigned_event {s : State} (hn : s.flt.pending = none) (target : Nat) (bs : List Byte) :
    EventFrame s (stageSigned s target bs).1 := by
  have hown := checkSigned_event hn (imageSigned target bs) target (blockKeyId bs)
  unfold stageSigned
  dsimp only
  split
  · exact hown
  · split
    · exact hown
    · exact hown.trans (failReliefs_event _ _)

theorem exec_fwStage_of_layout (hc : Commanded s 0 h 0xB0 0x20) {target : Nat} {b : Bref} {all bs : List Byte} {w : State} (ht : target ≤ 1)
    (hr : bufRead s 0 b b.len = (w, some all)) (hn : w.flt.pending = none) (hbs : all.take (fld all 0xC 4) = bs)
    (hl : imageLayout target bs = true) {r : State × Bool} (hsig : stageSigned w target bs = r) :
    exec (.fwStage 0 h target b) s = .next (
      if r.2 = false then complete r.1 0 h 0xB0 0x05 []
      else if imageVersion bs < floorOf r.1.boot target then complete (raiseAs r.1 1 0 (mkEvent 0x71 0xFF 0 0 0 0)) 0 h 0xB0 0x05 []
      else complete (stageImage r.1 target bs) 0 h 0xB0 0 []) := by
  have hpend : r.1.flt.pending = none := hsig ▸ (stageSigned_event hn target bs).pending.trans hn
  simp only [exec, execFwStage, command0_of_commanded hc, Nat.not_lt.mpr ht, if_false, withBuf_of_read (Nat.le_refl b.len) hr, hbs, hl,
    Bool.true_eq_false, hsig, takeInjection_none hpend, Option.isSome_none, Bool.false_eq_true, false_or, injFlags, stDenied, stOk,
    Bool.not_eq_true']

theorem exec_fwCommit_of_staged (hc : Commanded s 0 h 0xB1 1) {target : Nat} {u : State} (ht : target ≤ 1) {k : Nat} {x : Slot}
    (hk : 1 - inUseSlot s.boot target = k) (hx : slotOf s.boot target k = x) (hst : x.state = 1)
    (hsig : checkSigned s (x.verified && reliefsHold target (slotImage s.boot target k)) target
      (blockKeyId (slotImage s.boot target k)) = (u, true)) :
    exec (.fwCommit 0 h target) s = .next (complete (logRecord (writeRecord u target k
      { x with state := 2, sequence := ((slotOf u.boot target (1 - k)).sequence + 1) % 2 ^ 32 }) 0x07
      (slotFigures target k x.version)) 0 h 0xB1 0 []) := by
  have hin : ¬(1 < target ∨ x.state ≠ 1) := by omega
  simp only [exec, execFwCommit, command0_of_commanded hc, hk, hx, hin, if_false, hsig, Bool.not_true, Bool.false_eq_true, stOk]

/-! ### POWER_MODE (R382, R521, R525) -/

section
variable (hc : Commanded s 0 h 0xC0 4) {st cap : Nat} (hst : st ≤ 3) (hcap : [0, 60, 120, 180, 250].contains cap = true)
include hc hst hcap

/-- A mode that is the present state only sets the cap. -/
theorem exec_powerMode_of_same (he : st = s.power.state) : exec (.powerMode 0 h st cap) s = .next
    (setCap s 0 h cap (fun u => complete u 0 h 0xC0 0 (leBytes 2 (capInForce u)))) := by
  have hin : ¬(3 < st ∨ [0, 60, 120, 180, 250].contains cap = false) := by rw [hcap]; simp [hst]
  simp only [exec, execPowerMode, command0_of_commanded hc, hin, if_false, if_pos he, stOk]

/-- A state that may be entered is entered after the cap is set and the reply posted. -/
theorem exec_powerMode_of_other (hne : st ≠ s.power.state) (hm : mayEnter s st = true) : exec (.powerMode 0 h st cap) s = .next
    (setCap s 0 h cap (fun u => enterState (complete u 0 h 0xC0 0 (leBytes 2 (capInForce u))) st)) := by
  have hin : ¬(3 < st ∨ [0, 60, 120, 180, 250].contains cap = false) := by rw [hcap]; simp [hst]
  simp only [exec, execPowerMode, command0_of_commanded hc, hin, hne, hm, Bool.true_eq_false, if_false, stOk]

end

/-- A cap of some watts is refused where the Held and Prompt leases exceed its budget, is set where all leases keep it, and else waits
for pre-emptions (R382, R525). -/
theorem setCap_of_watts {cap : Nat} (h0 : cap ≠ 0) (f : State → State) : setCap s 0 h cap f =
    if budgetOf cap < firmLeased s then complete s 0 h 0xC0 0x01 []
    else if leasedCount s ≤ budgetOf cap then
      f (grantQueue 64 (noteCap { s with boot := { s.boot with runtime := s.boot.runtime.put 0x0050 cap } }))
    else await (enforceCap s cap) 0 h 0xC0
      (.cap cap ((savingJobs (enforceCap s cap)).any (fun k => !(savingJobs s).contains k))) := by
  rw [setCap, if_neg h0, stBusy]

end

/-- The caps of `POWER_MODE` but 0 are caps of some watts. -/
theorem cap_of_watts {cap : Nat} (hc : [60, 120, 180, 250].contains cap = true) : cap ≠ 0 ∧ [0, 60, 120, 180, 250].contains cap = true := by
  refine ⟨?_, ?_⟩
  · rintro rfl
    exact absurd hc (by decide)
  · rw [List.contains_cons, hc, Bool.or_true]

/-- Settles O44: each clause is the meaning of its command where the checks before it pass. -/
theorem administrationCommands : Obligations.AdministrationCommands := by
  unfold Obligations.AdministrationCommands
  intro s h
  refine ⟨fun mask jump incr hold p0 p1 hc hm => ?_, fun t hc hs hj => exec_timeForce_of_permitted hc hs hj t,
    fun sec ns hc hn hs => exec_calendarSet_of_range hc hn hs,
    fun policy b hc hp => ⟨exec_fabricJoinPolicy_empty hc hp b, fun n r bs h1 h64 hl hr => exec_fabricJoinPolicy_listed hc hp h1 h64 hl hr⟩,
    fun ms hc h1 hmax hs => exec_faultInjectArm_of_permitted hc h1 hmax hs rfl, fun p path hc hp hpath hs => ?_,
    fun id u => ?_, fun target b all w hc ht hr hn => ?_, fun target u hc ht => ?_, fun st hc he hst => ?_,
    fun st cap hc hst hne hcap hm => exec_powerMode_of_other hc hst hcap hne hm, fun cap hc hst hcap => ?_⟩
  · intro has c0 c1 hincr hjump hp0 hp1 hhold hk0 hk1 ha
    exact exec_timeConfig_of_accepted hc rfl rfl ⟨hm, hincr, hjump, hp0, hp1, hhold, hk0, hk1, ha⟩
  · intro u into
    obtain ⟨hnone, hfull, hdown⟩ := resetCommanded_eq (u := u) (p := p) (into := into) rfl path
    refine ⟨fun hi hst => ?_, fun hi hst => ?_, fun hi hst => ?_⟩
    · rw [exec_partitionReset_of_allowed hc hp hpath hs rfl (hnone hi), if_neg hst]
    · rw [exec_partitionReset_of_allowed hc hp hpath hs rfl (hfull hi), if_neg hst]
    · rw [exec_partitionReset_of_allowed hc hp hpath hs rfl (hdown hi), if_pos hst]
  · intro hc
    exact ⟨exec_reliefApply_of_unchecked hc, fun r hr => ⟨exec_reliefApply_of_busy hc hr, fun hb => exec_reliefApply_of_free hc hr hb rfl⟩⟩
  · intro bs hl
    exact exec_fwStage_of_layout hc ht hr hn rfl hl rfl
  · intro k x hst hsig
    exact exec_fwCommit_of_staged hc ht rfl rfl hst hsig
  · rw [exec_powerMode_of_same hc hst rfl he]
    rfl
  · obtain ⟨h0, hcap⟩ := cap_of_watts hcap
    rw [exec_powerMode_of_same hc hst hcap rfl, setCap_of_watts h0]

end Sys2Proof.Machine
end

section
/-! SUPPORT. The hang detector, and detector events with their responses (R408, R410, R415, R417, R418, R424, R434, R437). -/

namespace Sys2Proof.Machine

open Sys2Proof

/-! ### Hang checks (R417, R418) -/

/-- Settles O30: a check is one fold over the cycles that two checks found, and these are left out of what it keeps. -/
theorem hangChecks : Obligations.HangChecks := by
  unfold Obligations.HangChecks
  intro s ns stalled sets found u
  have he : exec .hangCheck s = .next (found.foldl (fun s c => raiseHang s stalled c) u) := rfl
  refine ⟨fun hnone => ?_, he, fun c hc hkept => ?_⟩
  · rw [he, hnone, List.foldl_nil]
  · have hn : (!found.contains c) = true := (List.mem_filter.mp hkept).2
    rw [List.contains_iff_mem.mpr hc] at hn
    exact absurd hn (by decide)

/-! ### The response of each detector (R410) -/

/-- The detectors of which an event is only reported, whatever its cause and severity, and to which no link belongs (R410). -/
def reportDetectors : List Nat :=
  [0x01, 0x03, 0x05, 0x07, 0x12, 0x13, 0x20, 0x23, 0x30, 0x31, 0x40, 0x41, 0x42, 0x43, 0x50, 0x51, 0x53, 0x54, 0x62, 0x63, 0x66,
    0x70, 0x71, 0x72, 0x73, 0x80, 0x81, 0x82, 0x83, 0x84, 0x85, 0x86, 0x90, 0xA0, 0xA1, 0xA2, 0xB0]

/-- A detector of the table that is no link's raises its event with its response. -/
theorem exec_detectorEvent_of_known {e : DetEvent} (hk : detectorKnown e.detector = true ∧ e.detector ≠ 0x52 ∧ e.detector ≠ 0x55)
    (s : State) : exec (.detectorEvent e) s = .next (detect s 0 e) := by
  obtain ⟨hk, h52, h55⟩ := hk
  simp only [exec, execDetectorEvent, hk, h52, h55, Bool.not_true, Bool.false_eq_true, false_and, if_false]

section
variable {e : DetEvent} (s : State)

theorem detect_report (h : e.detector ∈ reportDetectors) : detect s 0 e = raiseAs s (severityOf e) 0 e := by
  unfold detect
  split
  case h_18 => rfl
  all_goals exact absurd h (by simp [*, reportDetectors])

theorem detect_tile (h : e.detector ∈ [0x02, 0x11, 0x32]) :
    detect s 0 e = faultTile (raiseAs s 2 0 e) (BitVec.ofNat 9 e.unit) e.detector := by
  simp only [List.mem_cons, List.not_mem_nil, or_false] at h
  rcases h with h | h | h
  all_goals simp only [detect, severityOf, h]

theorem detect_destination (h : e.detector = 0x10) :
    detect s 0 e = faultTile (raiseAs s 2 0 e) (BitVec.ofNat 9 e.value) 0x10 := by
  simp only [detect, severityOf, h]

/-- An event that faults the invocation of its job. -/
def FaultsJob (s : State) (e : DetEvent) : Prop :=
  e.detector = 0x21 ∨ (e.detector = 0x06 ∧ e.cause = 0) ∨
    (e.detector = 0x04 ∧ e.mild = false ∧ (s.part e.partition).step ≠ .restoring)

theorem detect_job {s : State} (h : FaultsJob s e) :
    detect s 0 e = faultRole (raiseAs s 2 0 e) e.job .primary e.detector e.partition := by
  rcases h with h | ⟨h, hc⟩ | ⟨h, hm, hr⟩
  · simp [detect, severityOf, h]
  · simp [detect, severityOf, h, hc]
  · simp [detect, severityOf, h, hm, hr]

end

/-! ### Resets of a partition in service (R424, R430) -/

section
variable {s : State} {e : DetEvent} (h0 : (s.part e.partition).state = 0) (hf : (s.part e.partition).backFast = none)
  (hu : (s.part e.partition).backFull = none)
include h0 hf hu

/-- A reset cause takes its own path in a partition in service that has not just returned from a reset. -/
theorem resetCause_of_serving (path flags : Nat) : resetCause s e.partition path flags e =
    beginReset (raiseAs s (severityOf e) flags e) e.partition path e.detector e.cause e.unit := by
  simp only [resetCause, h0, escalation_none hf hu, if_true]

theorem detect_fast (h : e.detector = 0x14 ∨ (e.detector = 0x22 ∧ e.mild = false) ∨ (e.detector = 0x60 ∧ e.cause = 1)) :
    detect s 0 e = beginReset (raiseAs s 2 0 e) e.partition 0 e.detector e.cause e.unit := by
  have hr := resetCause_of_serving h0 hf hu 0 0
  rcases h with h | ⟨h, hm⟩ | ⟨h, hc⟩
  · simp only [detect, hr, h, severityOf]
  · simp only [detect, hr, h, hm, severityOf, Bool.false_eq_true, if_false]
  · simp only [detect, hr, h, hc, severityOf, if_true]

theorem detect_full (h : e.detector = 0x06) (hc : e.cause = 1) :
    detect s 0 e = beginReset (raiseAs s 2 0 e) e.partition 1 0x06 1 e.unit := by
  have hr := resetCause_of_serving h0 hf hu 1 0
  simp only [detect, hr, h, hc, severityOf, Nat.one_ne_zero, if_false]

end

/-! ### Power-fail sequences and the Atelier's own faults (R434, R437) -/

theorem detect_critical {e : DetEvent} (h : e.detector = 0x64) (s : State) : detect s 0 e = powerFail (raiseAs s 3 0 e) 1 := by
  simp only [detect, severityOf, h]

theorem detect_powerFail {e : DetEvent} (h : e.detector = 0x67) (s : State) : detect s 0 e = powerFail (raiseAs s 3 0 e) 0 := by
  simp only [detect, severityOf, h]

section
variable {s : State} (hr : atelierRuns s = true) (hn : s.flt.pending = none)
include hr hn

theorem exec_atelierWatchdogExpiry_of_running : exec .atelierWatchdogExpiry s =
    .next (restartFirmware (atelierRestart (raiseAs (setEvt s 18) 3 0 (mkEvent 0x91 0xFF 0 0 0 0)) true)) := by
  simp only [exec, execAtelierWatchdogExpiry, hr, takeInjection_none hn, onlyIf_true]
  rfl

theorem exec_atelierMemoryUncorrected_of_running : exec .atelierMemoryUncorrected s =
    .next (restartFirmware (atelierRestart (raiseAs s 3 0 (mkEvent 0x92 0xFF 0 0 0 0)) false)) := by
  simp only [exec, execAtelierMemoryUncorrected, hr, takeInjection_none hn, onlyIf_true]
  rfl

end

/-- What an event leaves of the module: memory, tiles, clusters, partitions, objects, jobs, mailboxes and ports. -/
theorem EventFrame.module {s t : State} (h : EventFrame s t) : t.mem = s.mem ∧ t.tiles = s.tiles ∧ t.clusters = s.clusters ∧
    t.parts = s.parts ∧ t.objects = s.objects ∧ t.jobs = s.jobs ∧ t.mbx = s.mbx ∧ t.ports = s.ports := by
  obtain ⟨_, _, _, _, _, rfl, _, _⟩ := h
  exact ⟨rfl, rfl, rfl, rfl, rfl, rfl, rfl, rfl⟩

/-- Settles O34: a detector of the table raises its event and has its response, and each clause is one response. -/
theorem detectorEvents : Obligations.DetectorEvents := by
  unfold Obligations.DetectorEvents
  have known {s : State} {e : DetEvent} {t : State}
      (hk : detectorKnown e.detector = true ∧ e.detector ≠ 0x52 ∧ e.detector ≠ 0x55) (hd : detect s 0 e = t) :
      exec (.detectorEvent e) s = .next t := hd ▸ exec_detectorEvent_of_known hk s
  refine ⟨fun s e h => ?_, fun s e h => ?_, fun s e h => ?_, fun s e h => ?_, fun s e h => ?_, fun s e h0 hf hu => ⟨fun h => ?_, fun h hc => ?_⟩,
    fun s e => ⟨fun h => ?_, fun h => ?_⟩, fun s hr hn => ?_⟩
  · have hk : ∀ d ∈ reportDetectors, detectorKnown d = true ∧ d ≠ 0x52 ∧ d ≠ 0x55 := by decide
    exact ⟨_, known (hk _ h) (detect_report s h), rfl, (raiseAs_event s _ _ _).module⟩
  · simp only [exec, execDetectorEvent, h, Bool.not_false, if_true]
  · have hk : ∀ d ∈ [0x02, 0x11, 0x32], detectorKnown d = true ∧ d ≠ 0x52 ∧ d ≠ 0x55 := by decide
    exact known (hk _ h) (detect_tile s h)
  · exact known (by rw [h]; decide) (detect_destination s h)
  · refine known ?_ (detect_job h)
    rcases h with h | ⟨h, -⟩ | ⟨h, -⟩
    all_goals rw [h]; decide
  · refine known ?_ (detect_fast h0 hf hu h)
    rcases h with h | ⟨h, -⟩ | ⟨h, -⟩
    all_goals rw [h]; decide
  · exact known (by rw [h]; decide) (detect_full h0 hf hu h hc)
  · exact known (by rw [h]; decide) (detect_critical h s)
  · exact known (by rw [h]; decide) (detect_powerFail h s)
  · exact ⟨exec_atelierWatchdogExpiry_of_running hr hn, exec_atelierMemoryUncorrected_of_running hr hn⟩

end Sys2Proof.Machine
end

section
/-! SUPPORT. Injection requests and the end of their window (R411 to R413). -/

namespace Sys2Proof.Machine

open Sys2Proof

/-! ### FLT_INJ_CTRL (R411 to R413) -/

/-- From the path of mailbox 0, which finds the window, the request is the write of its register. -/
theorem exec_injectionRequest_of_path0 {s : State} {path : Path} (hp : onPath s path = true) (h0 : path0 s = path) (v : Word) :
    exec (.injectionRequest path v) s = .next (writeInjCtrl s v) := by
  have hw : exec (.injectionRequest path v) s = .next (from0 s path (fun s => writeInjCtrl s v)) :=
    onWindow_write32 hp (off := 0x6020) rfl rfl rfl v
  rw [hw, from0, if_pos h0]

theorem exec_injectionRequest_of_foreign {s : State} {path : Path} (h0 : path0 s ≠ path) (v : Word) :
    exec (.injectionRequest path v) s = .next s := by
  cases hp : onPath s path
  · have hw : exec (.injectionRequest path v) s = onWindow s path (fun s => write32 s path 0x6020 v) := rfl
    rw [hw, onWindow_of_not_onPath hp]
  · have hw : exec (.injectionRequest path v) s = .next (from0 s path (fun s => writeInjCtrl s v)) :=
      onWindow_write32 hp (off := 0x6020) rfl rfl rfl v
    rw [hw, from0, if_neg h0]

theorem writeInjCtrl_of_unarmed {s : State} (ha : s.flt.armed = false) (v : Word) : writeInjCtrl s v = s := by
  simp only [writeInjCtrl, ha, Bool.not_false, if_true]

section
variable {s : State} (ha : s.flt.armed = true) {v : Word} {n : BitVec 8} (hn : v.extractLsb' 8 8 = n)
include ha hn

theorem writeInjCtrl_of_zero (h0 : n = 0) : writeInjCtrl s v = { s with flt := { s.flt with injCount := 0 } } := by
  rw [writeInjCtrl, if_neg (by simp [ha])]
  simp only [hn, h0, if_true]

variable (h0 : n ≠ 0)
include h0

theorem writeInjCtrl_of_ok (hok : injectionOk { s with flt := { s.flt with injCount := n } } s.flt.injTarget s.flt.injParam = true) :
    writeInjCtrl s v = injectAll 256 { s with flt := { s.flt with
      injCount := n, injRefused := false
      pending := some { detector := (s.flt.injTarget.extractLsb' 24 8).toNat, target := s.flt.injTarget, param := s.flt.injParam
                        remaining := n.toNat } } } := by
  rw [writeInjCtrl, if_neg (by simp [ha])]
  simp only [hn, h0, hok, if_true, if_false]

theorem writeInjCtrl_of_refused (hok : injectionOk { s with flt := { s.flt with injCount := n } } s.flt.injTarget s.flt.injParam = false) :
    writeInjCtrl s v = { s with flt := { s.flt with injCount := n, injRefused := true, pending := none } } := by
  rw [writeInjCtrl, if_neg (by simp [ha])]
  simp only [hn, h0, hok, Bool.false_eq_true, if_false]

end

/-- The detectors of which an occurrence may be had at the request itself (R410, R413). -/
def promptDetectors : List Nat := [0x06, 0x14, 0x22, 0x33, 0x67, 0x90]

/-- An injection of any other detector waits for its occurrence. -/
theorem injectNow_of_waiting {t : Word} (h : (t.extractLsb' 24 8).toNat ∉ promptDetectors) (s : State) (p : Word) :
    injectNow s t p = none := by
  unfold injectNow
  dsimp only
  split
  case h_7 => rfl
  all_goals exact absurd (by simp [*, promptDetectors]) h

theorem injectAll_of_waiting {s : State} {i : Injection} (hi : s.flt.pending = some i) (h : injectNow s i.target i.param = none) (n : Nat) :
    injectAll n s = s := by
  cases n with
  | zero => rfl
  | succ n => simp only [injectAll, hi, h]

/-- Settles O49: the request by the path, the window and the check of its target; the end of the window takes what is pending. -/
theorem injectionRequests : Obligations.InjectionRequests := by
  unfold Obligations.InjectionRequests
  refine ⟨fun s path v hp h0 => ?_, fun s path v h0 => exec_injectionRequest_of_foreign h0 v, fun s ha hu => ?_⟩
  · intro n d
    rw [exec_injectionRequest_of_path0 hp h0]
    refine ⟨fun ha => ?_, fun ha hn hok => ?_, fun ha hn => ?_, fun ha hn hok => ?_⟩
    · rw [writeInjCtrl_of_unarmed ha]
    · intro u
      have hi : u.flt.pending = some { detector := d, target := s.flt.injTarget, param := s.flt.injParam, remaining := n.toNat } := rfl
      rw [writeInjCtrl_of_ok ha rfl hn hok]
      exact ⟨rfl, fun hd => injectAll_of_waiting hi (injectNow_of_waiting hd u _) 256⟩
    · rw [writeInjCtrl_of_zero ha rfl hn]
    · rw [writeInjCtrl_of_refused ha rfl hn hok]
  · simp only [exec, execInjectionDisarm, ha, hu, decide_true, Bool.and_self, onlyIf_true]

end Sys2Proof.Machine
end

section
/-! SUPPORT. The steps of a partition's reset: its Cast, the write-back, the release, the training and the return to service (R420, R423, R425 to R427, R430, R433, R489). -/

namespace Sys2Proof.Machine

open Sys2Proof

/-! ### Casts (R420, R423, R425, R430) -/

theorem exec_castReadTimeout_of_casting {s : State} {p : PartId} {c : Cast} (hc : (s.part p.toNat).casting = some c) (kind unit : Nat) :
    exec (.castReadTimeout p kind unit) s = .next (s.fresh.2.setPart p.toNat { s.part p.toNat with casting := some { c with
      records := c.records.map (fun r => if r.kind = kind ∧ r.unit = unit then
        { r with status := 0x0D, data := r.data.take (Config.castDelivered s.freeCount) } else r) } }) := by
  simp only [exec, execCastReadTimeout, hc]
  rfl

theorem part_keepCast (s : State) (p : Nat) (c : Cast) :
    (keepCast s p c).part p = { s.part p with casts := (c :: (s.part p).casts).take 2 } :=
  State.part_setPart s p _

section
variable {s : State} {p : Nat} {c : Cast} (hc : (s.part p).casting = some c)
include hc

/-- What a complete Cast keeps: the bytes captured until now, on the path that the reset takes. -/
theorem closeCast_of_casting : closeCast s p false =
    (let u := keepCast (s.setPart p { s.part p with casting := none }) p { c with captureEnd := s.now, path := (s.part p).state - 1 }
     if (s.part p).state = 1 then u.setPart p { u.part p with step := .writeBack }
     else (let v := resetUnits u p
       v.setPart p { v.part p with step := .training, trainFails := 0 })) := by
  simp only [closeCast, hc, part_keepCast, State.part_setPart, Bool.false_eq_true, false_and, if_false]

/-- A Cast that is complete on the full path, or whose slice and memory controller answered, does not escalate. -/
theorem castDone_of_answered (ha : (s.part p).state = 1 → castEscalates c = false) : castDone s p = closeCast s p false := by
  have hup : ((s.part p).state == 1 && ((s.part p).casting.map castEscalates).getD false) = false := by
    rw [hc, Bool.and_eq_false_iff, beq_eq_false_iff_ne]
    exact (em _).symm.imp id ha
  simp only [castDone, hup, Bool.false_eq_true, if_false]

end

/-! ### The write-back and the release (R163, R425, R427) -/

section
variable {s : State} {p : PartId}

theorem exec_castComplete_of_casting (hs : (s.part p.toNat).step = .casting) : exec (.castComplete p) s = .next (castDone s p.toNat) := by
  simp only [exec, execCastComplete, hs, beq_self_eq_true, onlyIf_true]

theorem exec_sliceWriteBackComplete_of_fast (hs : (s.part p.toNat).step = .writeBack) {u : State}
    (hu : resetUnits (forEach (s.part p.toNat).lines s (fun s l => (writeBackLine s p.toNat l).1)) p.toNat = u) (h1 : (u.part p.toNat).state = 1) :
    exec (.sliceWriteBackComplete p) s = .next (u.setPart p.toNat { u.part p.toNat with step := .asserted, selfRefresh := true }) := by
  simp only [exec, execSliceWriteBackComplete, hs, beq_self_eq_true, onlyIf_true, hu, h1, if_true]

theorem exec_partitionResetRelease_of_fast (hs : (s.part p.toNat).step = .asserted) (h1 : (s.part p.toNat).state = 1) :
    exec (.partitionResetRelease p) s = .next (s.setPart p.toNat { s.part p.toNat with
      arb := { (s.part p.toNat).arb with masked := [] }
      step := .restoring, selfRefresh := false, scrubLevel := 0, quietWindows := 0, corrected := 0 }) := by
  simp only [exec, execPartitionResetRelease, hs, beq_self_eq_true, onlyIf_true, h1, if_true, unmask]

end

/-! ### Training (R427, R489) -/

theorem memoryStage_frame (s : State) : ∃ b, memoryStage s = { s with boot := b } := by
  unfold memoryStage
  split
  · exact ⟨_, rfl⟩
  · exact ⟨s.boot, rfl⟩

/-- A partition that has trained is clear of lines and poison and unmasked, and the success is counted. -/
theorem part_trained (s : State) (p : Nat) : (trained s p).part p = { s.part p with
    poisoned := [], lines := [], plru := [], scrubLevel := 0, scrubBurst := 0, quietWindows := 0, corrected := 0
    arb := { (s.part p).arb with masked := [] }, step := .restoring, trainFails := 0, trainings := (s.part p).trainings + 1 } := by
  have hclear : (patCount (storeTraining (clearPartition s p) p) (0x1A30 + 128 * p) 1).part p = { s.part p with
      poisoned := [], lines := [], plru := [], scrubLevel := 0, scrubBurst := 0, quietWindows := 0, corrected := 0 } :=
    State.part_setPart _ p _
  simp only [trained, State.part_setPart, hclear, unmask]

section
variable {s : State} {p : PartId} (hs : (s.part p.toNat).step = .training)
include hs

theorem exec_dramTrainingComplete_of_success : exec (.dramTrainingComplete p true) s = .next (memoryStage (trained s p.toNat)) := by
  simp only [exec, execDramTrainingComplete, hs, beq_self_eq_true, onlyIf_true, if_true]

theorem exec_dramTrainingComplete_of_failure (hf : (s.part p.toNat).trainFails < 2) : exec (.dramTrainingComplete p false) s =
    .next (s.setPart p.toNat { s.part p.toNat with trainFails := (s.part p.toNat).trainFails + 1 }) := by
  have hn : (s.part p.toNat).trainFails + 1 < 3 := by omega
  simp only [exec, execDramTrainingComplete, hs, beq_self_eq_true, onlyIf_true, Bool.false_eq_true, if_false, hn, if_true]

end

/-! ### The return to service (R427, R433) -/

theorem exec_partitionInService_of_restored {s : State} {p : PartId} (hs : (s.part p.toNat).step = .restoring) (hm : s.boot.mailboxReady = true) :
    exec (.partitionInService p) s = .next (inService s p.toNat) := by
  simp only [exec, execPartitionInService, hs, hm, beq_self_eq_true, Bool.true_or, Bool.and_self, onlyIf_true]

/-- A partition in none of a reset's steps takes none of them. -/
theorem exec_reset_of_none {s : State} {p : PartId} (hs : (s.part p.toNat).step = .none) :
    exec (.castComplete p) s = .next s ∧ exec (.sliceWriteBackComplete p) s = .next s ∧ exec (.partitionResetRelease p) s = .next s ∧
    exec (.dramTrainingComplete p true) s = .next s ∧ exec (.partitionInService p) s = .next s := by
  have step_ne {k : ResetStep} (hk : ResetStep.none ≠ k) : ((s.part p.toNat).step == k) = false := by rw [hs]; exact beq_false_of_ne hk
  refine ⟨?_, ?_, ?_, ?_, ?_⟩
  · simp only [exec, execCastComplete, step_ne (k := .casting) nofun, onlyIf_false]
  · simp only [exec, execSliceWriteBackComplete, step_ne (k := .writeBack) nofun, onlyIf_false]
  · simp only [exec, execPartitionResetRelease, step_ne (k := .asserted) nofun, onlyIf_false]
  · simp only [exec, execDramTrainingComplete, step_ne (k := .training) nofun, onlyIf_false]
  · simp only [exec, execPartitionInService, step_ne (k := .restoring) nofun, Bool.false_and, onlyIf_false]

/-- Settles O35: each clause is one step of a reset, taken in the state that the step before it leaves. -/
theorem resetSequence : Obligations.ResetSequence := by
  unfold Obligations.ResetSequence
  refine ⟨fun s p kind unit c hc => exec_castReadTimeout_of_casting hc kind unit, fun s p c hs hc => ?_,
    fun s p hs => exec_sliceWriteBackComplete_of_fast hs rfl, fun s p hs h1 => exec_partitionResetRelease_of_fast hs h1,
    fun s p hs => ⟨?_, exec_dramTrainingComplete_of_failure hs⟩, fun s p hs hm => ?_, fun s p hs => exec_reset_of_none hs⟩
  · intro k u
    refine ⟨fun h1 ha => ?_, fun h2 => ?_⟩
    · have hu : u.part p.toNat = { s.part p.toNat with casting := none, casts := (k :: (s.part p.toNat).casts).take 2 } := by
        rw [part_keepCast, State.part_setPart]
      refine ⟨_, ?_, rfl, ?_, rfl, rfl, rfl⟩
      · rw [exec_castComplete_of_casting hs, castDone_of_answered hc (fun _ => ha), closeCast_of_casting hc, if_pos h1]
      · rw [State.part_setPart, hu]
    · have hn : (s.part p.toNat).state ≠ 1 := by omega
      rw [exec_castComplete_of_casting hs, castDone_of_answered hc (fun h1 => absurd h1 hn), closeCast_of_casting hc, if_neg hn]
  · obtain ⟨b, hb⟩ := memoryStage_frame (trained s p.toNat)
    have hpart : (memoryStage (trained s p.toNat)).part p.toNat = (trained s p.toNat).part p.toNat := by rw [hb]; rfl
    refine ⟨_, exec_dramTrainingComplete_of_success hs, rfl, ?_⟩
    rw [hpart, part_trained, hb]
    exact ⟨rfl, rfl, rfl, rfl, rfl, rfl, rfl⟩
  · intro x u v
    rw [exec_partitionInService_of_restored hs hm, inService]
    simp only [beq_iff_eq]
    rfl

end Sys2Proof.Machine
end

section
/-! SUPPORT. The monitors of rails, temperatures and clocks, the loops of clusters and partition rails, the power average, and the Patina's periodic work (R430, R437, R515 to R517, R525 to R531, R534 to R539). -/

namespace Sys2Proof.Machine

open Sys2Proof

/-! ### Responses that stop the module or take a partition down (R410, R430, R437) -/

section
variable {e : DetEvent} (s : State)

theorem detect_overvoltage (h : e.detector = 0x61) (hc : e.cause ≠ 1) : detect s 0 e = powerFail (raiseAs s 3 0 e) 1 := by
  simp only [detect, severityOf, h, hc, if_false]

theorem detect_railOvervoltage (h : e.detector = 0x61) (hc : e.cause = 1) : detect s 0 e =
    (let u := takeDown (raiseAs s 3 0 e) e.partition
     u.setPart e.partition { u.part e.partition with railOn := false }) := by
  simp only [detect, severityOf, h, hc, if_true]

theorem detect_railUndervoltage (h : e.detector = 0x60) (hc : e.cause = 1) : detect s 0 e = resetCause s e.partition 0 0 e := by
  simp only [detect, h, hc, if_true]

theorem detect_lostClock (h : e.detector = 0x65) : detect s 0 e =
    if e.cause = 1 ∨ e.cause = 2 then raiseAs s 3 0 e else powerFail (raiseAs s 3 0 e) 1 := by
  simp only [detect, severityOf, h]

end

/-! ### Monitors (R430, R516, R525, R531) -/

/-- Without a pending injection a monitor reads what its row says. -/
theorem monitor_none {s : State} (h : s.flt.pending = none) (d : Nat) (hit : Injection → Bool) (reading : Nat) :
    monitor s d hit reading = (false, reading, s) := by
  simp only [monitor, takeInjection_none h, Option.isSome_none, Bool.false_eq_true, if_false]

section
variable {s : State} (hs : supplied s = true) (hn : s.flt.pending = none)
include hs

theorem exec_inputRecovered_of_lowered {w : Nat} (hw : s.power.capBefore = some w) : exec .inputRecovered s = .next
    (followCap { s with power := { s.power with capBefore := none, inputMv := max 37000 s.power.inputMv } } w) := by
  simp only [exec, execInputRecovered, hw, hs, onlyIf_true]

include hn

theorem exec_inputUndervoltage_of_low {mV : Nat} (hm : mV < 36000) {u v : State}
    (hu : raiseAs { s with power := { s.power with inputMv := mV } } 2 0 (mkEvent 0x60 0xFF 0 0 0xFFFF mV) = u)
    (hv : { u with power := { u.power with capBefore := some (u.power.capBefore.getD (capSetting u)) } } = v) :
    exec (.inputUndervoltage mV) s = .next (if v.boot.mailboxReady then followCap v (min 120 (capSetting u))
      else { v with boot := { v.boot with runtime := v.boot.runtime.put 0x0050 (min 120 (capSetting u)) } }) := by
  simp only [exec, execInputUndervoltage, monitor_none hn, hs, hm, decide_true, Bool.or_true, Bool.and_self, onlyIf_true, Bool.false_eq_true,
    if_false, hu, ← hv]

/-- An overvoltage of the module is a protective stop. -/
theorem exec_overvoltage_of_high {cause mV : Nat} (h : (cause = 0 ∧ 62000 < mV) ∨ cause = 2) :
    exec (.overvoltage cause mV) s = .next (powerFail (raiseAs s 3 0 (mkEvent 0x61 0xFF 0 cause 0xFFFF mV)) 1) := by
  rcases h with ⟨rfl, h⟩ | rfl
  · simp only [exec, execOvervoltage, monitor_none hn, hs, h, beq_self_eq_true, decide_true, Bool.and_self, Bool.or_true, Bool.true_or, onlyIf_true]
    exact congrArg _ (detect_overvoltage s rfl (by decide : (0 : Nat) ≠ 1))
  · simp only [exec, execOvervoltage, monitor_none hn, hs, beq_self_eq_true, Bool.and_self, Bool.or_true, onlyIf_true]
    exact congrArg _ (detect_overvoltage s rfl (by decide : (2 : Nat) ≠ 1))

section
variable {p : PartId} {mV : Nat} (hon : (s.part p.toNat).railOn = true)
include hon

theorem exec_partitionRailOvervoltage_of_high (h : (s.part p.toNat).railMv + 50 < mV) :
    exec (.partitionRailOvervoltage p mV) s = .next
      (let u := takeDown (raiseAs s 3 0 (mkEvent 0x61 p.toNat 0 1 p.toNat mV)) p.toNat
       u.setPart p.toNat { u.part p.toNat with railOn := false }) := by
  simp only [exec, execPartitionRailOvervoltage, monitor_none hn, hs, hon, h, decide_true, Bool.or_true, Bool.and_self, onlyIf_true]
  exact congrArg _ (detect_railOvervoltage s rfl rfl)

theorem exec_partitionRailUndervoltage_of_low (h : mV + 30 < (s.part p.toNat).railMv) :
    exec (.partitionRailUndervoltage p mV) s = .next (resetCause s p.toNat 0 0 (mkEvent 0x60 p.toNat 0 1 p.toNat mV)) := by
  simp only [exec, execPartitionRailUndervoltage, monitor_none hn, hs, hon, h, decide_true, Bool.or_true, Bool.and_self, onlyIf_true]
  exact congrArg _ (detect_railUndervoltage s rfl rfl)

end

section
variable {k : Nat} {t : Int} (hk : k ≤ 1)
include hk

theorem exec_temperatureWarning_of_warm (h : (loopHalf s (if k = 0 then 0x0120 else 0x0121) 0 : Int) ≤ t) {u : State}
    (hu : raiseAs s 1 0 (mkEvent 0x63 0xFF 0 k (sensorUnit s k) (unsigned 32 t)) = u) :
    exec (.temperatureWarning k t) s = .next { u with power := { u.power with
      caseWarn := u.power.caseWarn || k == 0, junctionWarn := u.power.junctionWarn || k == 1 } } := by
  simp only [exec, execTemperatureWarning, monitor_none hn, hs, hk, h, hu, decide_true, Bool.false_or, Bool.and_self, onlyIf_true,
    Bool.false_eq_true, if_false]

theorem exec_temperatureCritical_of_hot (h : (loopHalf s (if k = 0 then 0x0120 else 0x0121) 1 : Int) ≤ t) :
    exec (.temperatureCritical k t) s =
      .next (powerFail (raiseAs s 3 0 (mkEvent 0x64 0xFF 0 k (sensorUnit s k) (unsigned 32 t))) 1) := by
  simp only [exec, execTemperatureCritical, monitor_none hn, hs, hk, h, decide_true, Bool.or_true, Bool.and_self, onlyIf_true]
  exact congrArg _ (detect_critical rfl s)

end

/-- A lost clock is detected, and the oscillators are marked. -/
theorem exec_clockLoss_of_supplied {k : Nat} (hk : k ≤ 3) (ppm : Int) {u : State}
    (hu : detect s 0 (mkEvent 0x65 0xFF 0 k 0xFFFF (unsigned 64 ppm)) = u) : exec (.clockLoss k ppm) s = .next (
      if k = 1 then { u with power := { u.power with tcxoOk := false } }
      else if k = 2 then { u with power := { u.power with crystalOk := false }, time := { u.time with calStopped := true } }
      else u) := by
  simp only [exec, execClockLoss, takeInjection_none hn, hs, hk, decide_true, Bool.and_self, onlyIf_true, injFlags, Option.isSome_none,
    Bool.false_eq_true, if_false, hu]
  split
  · rfl
  · rfl
  · next h1 h2 => rw [if_neg h1, if_neg h2]

/-! ### Cluster loops (R515, R517, R527, R528) -/

theorem exec_voltageLoopPeriod_of_powered {r : LoopReading} {c : Nat} {x : Cluster} (hc : r.cluster.toNat = c) (hx : s.cluster c = x)
    (hp : x.powered = true) {limit : Bool} (hl : (x.stretching && decide (r.margin < x.marginLow) && x.voltage == loopSetting s 0x0101) = limit)
    {v : Nat} (hv : (if r.margin < x.marginLow then min (loopSetting s 0x0101) (x.voltage + 5)
      else if (loopSetting s 0x0103 : Int) < r.margin then max (loopSetting s 0x0100) (x.voltage - 5) else x.voltage) = v) {u : State}
    (hu : s.setCluster c { x with voltage := v, margin := r.margin, temp := r.temp, stretching := limit } = u) :
    exec (.voltageLoopPeriod r) s = .next (if limit then countStretches u c 156 else u) := by
  simp only [exec, execVoltageLoopPeriod, hc, hx, hp, hs, Bool.and_self, onlyIf_true, takeInjection_none hn, Option.isSome_none,
    Bool.false_eq_true, if_false, decide_eq_true_eq, hl, hv, ← hu]

theorem exec_droopStretch_of_powered {c : ClusterId} (hp : (s.cluster c.toNat).powered = true) :
    exec (.droopStretch c) s = .next (countStretches s c.toNat 1) := by
  simp only [exec, execDroopStretch, hs, hp, Bool.and_self, onlyIf_true, takeInjection_none hn, Option.isSome_none, Bool.false_eq_true, if_false]

end

section
variable {s : State} (hs : supplied s = true) {c : ClusterId} (hp : (s.cluster c.toNat).powered = true)
include hs hp

theorem exec_excessDroopStretch_of_excess (h : loopSetting s 0x0105 < (s.cluster c.toNat).stretches) :
    exec (.excessDroopStretch c) s = .next (excessStretch s c.toNat 0) := by
  simp only [exec, execExcessDroopStretch, hs, hp, h, decide_true, Bool.and_self, onlyIf_true]

theorem exec_voltageLoopLimit_of_limit (hv : (s.cluster c.toNat).voltage = loopSetting s 0x0101)
    (hm : (s.cluster c.toNat).margin < (s.cluster c.toNat).marginLow) (hst : (s.cluster c.toNat).stretching = false) :
    exec (.voltageLoopLimit c) s = .next (voltageLimit s c.toNat 0) := by
  simp only [exec, execVoltageLoopLimit, hs, hp, hv, hm, hst, beq_self_eq_true, decide_true, Bool.not_false, Bool.and_self, onlyIf_true]

end

/-! ### Steps of duty (R526) -/

/-- A step of a cluster's duty. -/
def stepDuty (next : Nat → Nat) (s : State) (c : Nat) : State := s.setCluster c { s.cluster c with duty := next (s.cluster c).duty }

/-- Steps of duty change the table of clusters alone. -/
theorem stepDuties_clusters (next : Nat → Nat) (cs : List Nat) (s : State) :
    ∃ t, forEach cs s (stepDuty next) = { s with clusters := t } := by
  induction cs generalizing s with
  | nil => exact ⟨s.clusters, rfl⟩
  | cons c cs ih => exact ih (stepDuty next s c)

theorem stepDuties_cluster_of_notMem (next : Nat → Nat) {cs : List Nat} (s : State) {c : Nat} (hc : c ∉ cs) :
    (forEach cs s (stepDuty next)).cluster c = s.cluster c := by
  induction cs generalizing s with
  | nil => rfl
  | cons d cs ih =>
    obtain ⟨hne, hc⟩ := not_or.mp (List.mem_cons.not.mp hc)
    exact (ih (stepDuty next s d) hc).trans (State.cluster_setCluster_ne _ _ hne)

/-- Each cluster of a list without repetition is stepped once. -/
theorem stepDuties_duty (next : Nat → Nat) {cs : List Nat} (hd : cs.Nodup) (s : State) {c : Nat} (hc : c ∈ cs) :
    ((forEach cs s (stepDuty next)).cluster c).duty = next (s.cluster c).duty := by
  induction cs generalizing s with
  | nil => exact absurd hc List.not_mem_nil
  | cons d cs ih =>
    obtain ⟨hd, hds⟩ := List.nodup_cons.mp hd
    have hcons : forEach (d :: cs) s (stepDuty next) = forEach cs (stepDuty next s d) (stepDuty next) := rfl
    rw [hcons]
    by_cases h : c = d
    · subst h
      rw [stepDuties_cluster_of_notMem next _ hd, stepDuty, State.cluster_setCluster]
    · rw [ih hds _ ((List.mem_cons.mp hc).resolve_left h), stepDuty, State.cluster_setCluster_ne _ _ h]

/-- The step of an Ambient cluster's duty in a window of an average, in tenths of a watt, against a cap. -/
def dutyNext (avg cap d : Nat) : Nat :=
  if 10 * cap < avg then max 4 (d - 10) else if 1000 * avg < 9500 * cap then min 16 (d + 10) else d

theorem dutyNext_of_above {avg cap : Nat} (h : 10 * cap < avg) (d : Nat) : dutyNext avg cap d = max 4 (d - 10) := if_pos h

theorem dutyNext_of_below {avg cap : Nat} (h : avg * 1000 < 9500 * cap) (d : Nat) : dutyNext avg cap d = min 16 (d + 10) := by
  rw [dutyNext, if_neg (by omega), if_pos (by omega)]

/-- The monitors' readings that come with a window. -/
def readWindow (s : State) (avg mv : Nat) (c0 c1 : Int) : State :=
  { s with power := { s.power with inputTenthW := avg, inputMv := mv, case0 := c0, case1 := c1 } }

/-! ### The rails and the average in service (R526, R529) -/

section
variable {s : State} (hs : supplied s = true) (hr : timeRuns s = true)
include hs hr

theorem exec_partitionRailLoop_of_on {p : PartId} {t : Int} (hon : (s.part p.toNat).railOn = true) {u : State}
    (hu : s.setPart p.toNat { s.part p.toNat with sliceTemp := t } = u) :
    exec (.partitionRailLoop p true t) s =
      .next (u.setPart p.toNat { u.part p.toNat with railMv := railTarget u p.toNat, railFails := 0 }) ∧
    exec (.partitionRailLoop p false t) s = .next
      (let n := (s.part p.toNat).railFails + 1
       if n < 3 then u.setPart p.toNat { u.part p.toNat with railFails := n }
       else detect (u.setPart p.toNat { u.part p.toNat with railFails := 0 }) 0
        (mkEvent 0x60 p.toNat 0 1 p.toNat (s.part p.toNat).railMv)) := by
  subst hu
  constructor
  all_goals simp only [exec, execPartitionRailLoop, hs, hr, State.part_setPart, hon, Bool.and_self, onlyIf_true, Bool.not_true,
    Bool.false_eq_true, if_false, if_true]

/-- A window takes the readings, steps the duty of the Ambient clusters, and may count in the Patina. -/
theorem exec_powerAverageWindow_of_running (avg mv : Nat) (c0 c1 : Int) : ∃ pat, exec (.powerAverageWindow avg mv c0 c1) s =
    .next { forEach (allClusters.filter (ambientCluster s)) (readWindow s avg mv c0 c1) (stepDuty (dutyNext avg (capInForce s))) with
      pat := pat } := by
  obtain ⟨t, ht⟩ := stepDuties_clusters (dutyNext avg (capInForce s)) (allClusters.filter (ambientCluster s)) (readWindow s avg mv c0 c1)
  have he : exec (.powerAverageWindow avg mv c0 c1) s = .next (onlyIf (timeRuns s && supplied s) s
      (let u := forEach (allClusters.filter (ambientCluster s)) (readWindow s avg mv c0 c1) (stepDuty (dutyNext avg (capInForce s)))
      if (allClusters.filter (ambientCluster s)).any (fun c => decide ((u.cluster c).duty < 16)) then patCount u 0xA4 100 else u)) := rfl
  rw [he, hs, hr, Bool.and_self, onlyIf_true, ht]
  dsimp only
  split
  · exact ⟨_, rfl⟩
  · exact ⟨s.pat, rfl⟩

/-- A window changes readings, duties and the Patina, and steps the duty of every Ambient cluster by the average. -/
theorem exec_powerAverageWindow_steps (avg mv : Nat) (c0 c1 : Int) : ∃ u, exec (.powerAverageWindow avg mv c0 c1) s = .next u ∧
    u.power = { s.power with inputTenthW := avg, inputMv := mv, case0 := c0, case1 := c1 } ∧ u.mem = s.mem ∧ u.jobs = s.jobs ∧
    u.parts = s.parts ∧ u.tiles = s.tiles ∧
    (10 * capInForce s < avg → ∀ c ∈ allClusters, ambientCluster s c = true → (u.cluster c).duty = max 4 ((s.cluster c).duty - 10)) ∧
    (avg * 1000 < 9500 * capInForce s → ∀ c ∈ allClusters, ambientCluster s c = true →
      (u.cluster c).duty = min 16 ((s.cluster c).duty + 10)) := by
  obtain ⟨pat, hu⟩ := exec_powerAverageWindow_of_running hs hr avg mv c0 c1
  obtain ⟨t, ht⟩ := stepDuties_clusters (dutyNext avg (capInForce s)) (allClusters.filter (ambientCluster s)) (readWindow s avg mv c0 c1)
  have hduty {c : Nat} (hc : c ∈ allClusters) (ha : ambientCluster s c = true) := stepDuties_duty (dutyNext avg (capInForce s))
    (List.nodup_range.filter (ambientCluster s)) (readWindow s avg mv c0 c1) (List.mem_filter.mpr ⟨hc, ha⟩)
  refine ⟨_, hu, ?_, ?_, ?_, ?_, ?_, fun h c hc ha => ?_, fun h c hc ha => ?_⟩
  case refine_6 => exact (hduty hc ha).trans (dutyNext_of_above h _)
  case refine_7 => exact (hduty hc ha).trans (dutyNext_of_below h _)
  all_goals rw [ht]; rfl

/-! ### The Patina (R534, R536) -/

theorem exec_patinaFold_of_running : exec .patinaFold s = .next (fold s) := by
  simp only [exec, execPatinaFold, hs, hr, Bool.and_self, onlyIf_true]

theorem exec_patinaCommit_of_running {k : Nat} (hk : k ≤ 4) : exec (.patinaCommit k) s = .next (commitPatina s k) := by
  simp only [exec, execPatinaCommit, hs, hr, hk, decide_true, Bool.and_self, onlyIf_true]

end

section
variable {s : State} (hs : supplied s = true)
include hs

theorem power_on_of_supplied : (s.power.state != 4) = true := (Bool.and_eq_true_iff.mp hs).1

theorem exec_eventLogDrain_of_supplied : exec .eventLogDrain s = .next (drainLog s) := by
  simp only [exec, execEventLogDrain, power_on_of_supplied hs, onlyIf_true]

theorem exec_backupCellLow_of_supplied : exec .backupCellLow s = .next { s with pat := { s.pat with cellLow := true } } := by
  simp only [exec, execBackupCellLow, power_on_of_supplied hs, onlyIf_true]

end

theorem exec_temperatureWarningClear_of_warm {s : State} (h : s.power.caseWarn = true ∨ s.power.junctionWarn = true) :
    exec .temperatureWarningClear s =
      .next (grantQueue 64 { s with power := { s.power with caseWarn := false, junctionWarn := false } }) := by
  simp only [exec, execTemperatureWarningClear, Bool.or_eq_true_iff.mpr h, onlyIf_true]

/-- Settles O60: each clause is one monitor, loop or periodic task where its condition holds. -/
theorem monitorsAndPatina : Obligations.MonitorsAndPatina := by
  unfold Obligations.MonitorsAndPatina
  intro s hs hn
  have hclock {k : Nat} (hk : k ≤ 3) (ppm : Int) := exec_clockLoss_of_supplied hs hn hk ppm (detect_lostClock s rfl)
  refine ⟨fun mV hm => exec_inputUndervoltage_of_low hs hn hm rfl rfl, fun w hw => exec_inputRecovered_of_lowered hs hw,
    fun mV => ⟨fun h => exec_overvoltage_of_high hs hn (.inl ⟨rfl, h⟩), exec_overvoltage_of_high hs hn (.inr rfl)⟩,
    fun p mV hon h => exec_partitionRailOvervoltage_of_high hs hn hon h, fun p mV hon h => exec_partitionRailUndervoltage_of_low hs hn hon h,
    fun k t hk h => exec_temperatureWarning_of_warm hs hn hk h rfl, fun k t hk h => exec_temperatureCritical_of_hot hs hn hk h,
    exec_temperatureWarningClear_of_warm, fun ppm => ?_,
    fun r => fun hp => exec_voltageLoopPeriod_of_powered hs hn rfl rfl hp rfl rfl rfl,
    fun c => fun hp => ⟨exec_droopStretch_of_powered hs hn hp, exec_excessDroopStretch_of_excess hs hp, exec_voltageLoopLimit_of_limit hs hp⟩,
    fun hr => ⟨fun p t hon => exec_partitionRailLoop_of_on hs hr hon rfl, exec_powerAverageWindow_steps hs hr, exec_patinaFold_of_running hs hr,
      fun k hk => exec_patinaCommit_of_running hs hr hk⟩,
    exec_eventLogDrain_of_supplied hs, exec_backupCellLow_of_supplied hs⟩
  exact ⟨hclock (by decide) ppm, hclock (by decide) ppm, hclock (by decide) ppm, hclock (by decide) ppm⟩

end Sys2Proof.Machine
end

section
/-! SUPPORT. What a node does that stands alone on the Frieze: it changes its Frieze state and its outputs and makes no route invalid (R460 to R463, R473, R479, R480). -/

namespace Sys2Proof.Machine

open Sys2Proof

/-! ### Frames that leave (R460 to R463) -/

/-- The second state is the first but for the Frieze and the record of outputs. -/
def FriezeFrame (s t : State) : Prop := ∃ f o, t = { s with fab := f, out := o }

theorem FriezeFrame.refl (s : State) : FriezeFrame s s := ⟨s.fab, s.out, rfl⟩

theorem FriezeFrame.trans {s t u : State} (a : FriezeFrame s t) (b : FriezeFrame t u) : FriezeFrame s u := by
  obtain ⟨_, _, rfl⟩ := a
  obtain ⟨f, o, rfl⟩ := b
  exact ⟨f, o, rfl⟩

theorem setFab_frieze (s : State) (f : Fabric) : FriezeFrame s { s with fab := f } := ⟨f, s.out, rfl⟩

theorem forEach_frieze {α : Type} {f : State → α → State} (hf : ∀ s x, FriezeFrame s (f s x)) (xs : List α) (s : State) :
    FriezeFrame s (forEach xs s f) := by
  induction xs generalizing s with
  | nil => exact .refl s
  | cons x xs ih => exact .trans (hf s x) (ih _)

theorem setFport_frieze (s : State) (p : Nat) (x : FPort) : FriezeFrame s (setFport s p x) := setFab_frieze s _

theorem transmit_frieze (s : State) (p : Nat) (f : TxFrame) : FriezeFrame s (transmit s p f) := ⟨_, _, rfl⟩

theorem pump_frieze (n : Nat) (s : State) (p : Nat) : FriezeFrame s (pump n s p) := by
  induction n generalizing s with
  | zero => exact .refl s
  | succ n ih =>
    unfold pump
    dsimp only
    split
    · exact .refl s
    · split
      · exact (transmit_frieze s p _).trans (ih _)
      · exact .refl s

theorem pumpPort_frieze (s : State) (p : Nat) : FriezeFrame s (pumpPort s p) := pump_frieze _ s p

theorem forward_frieze (s : State) (f : TxFrame) : FriezeFrame s (forward s f).1 := by
  unfold forward
  split
  · exact .refl s
  · split
    · exact .refl s
    · split
      · exact setFport_frieze s _ _
      · exact (setFport_frieze s _ _).trans (pumpPort_frieze _ _)

theorem ask_frieze (s : State) (kind flags node : Nat) (body : List Byte) : FriezeFrame s (ask s kind flags node body) :=
  .trans ⟨_, _, rfl⟩ (forward_frieze ((mgmtSeq s).2.emit (.mgmt kind flags node 0 (mgmtSeq s).1 body)) _)

/-! ### Updates that make no entry invalid (R480) -/

theorem rerouteWaiting_frieze (s : State) (dests : List Nat) : FriezeFrame s (rerouteWaiting s dests) :=
  (setFab_frieze s _).trans (forEach_frieze forward_frieze _ _)

theorem install_frieze (s : State) : FriezeFrame s (install s) :=
  (setFab_frieze s _).trans ((rerouteWaiting_frieze _ _).trans (forEach_frieze pumpPort_frieze _ _))

theorem releaseAll_frieze (s : State) : FriezeFrame s (releaseAll s) :=
  (forEach_frieze (fun s n => ask_frieze s _ _ n _) _ s).trans ((setFab_frieze _ _).trans (install_frieze _))

theorem phaseDoneBy_frieze (s : State) (node : Nat) : FriezeFrame s (phaseDoneBy s node) := by
  unfold phaseDoneBy
  dsimp only
  split
  · exact (setFab_frieze s _).trans (releaseAll_frieze _)
  · exact setFab_frieze s _

theorem reportPhaseDone_frieze (s : State) : FriezeFrame s (reportPhaseDone s) := by
  unfold reportPhaseDone
  dsimp only
  split
  · exact (setFab_frieze s _).trans (phaseDoneBy_frieze _ _)
  · exact (setFab_frieze s _).trans (ask_frieze _ _ _ _ _)

theorem checkPhase_frieze (s : State) : FriezeFrame s (checkPhase s) := by
  unfold checkPhase
  split
  · exact reportPhaseDone_frieze s
  · exact .refl s

/-- Phase 1 of an update whose entries are all valid invalidates no route, so no move and no reservation fails. -/
theorem phaseOne_frieze (s : State) (gen : Nat) {es : List RouteEntry} (hv : ∀ e ∈ es, e.valid = true) (final : Bool) :
    FriezeFrame s (phaseOne s gen es final) := by
  have hbad : es.filter (fun e => !e.valid) = [] := List.filter_eq_nil_iff.mpr fun e he => by rw [hv e he]; decide
  unfold phaseOne
  simp only [hbad, forEach, List.foldl_nil]
  split
  · exact .trans ⟨_, _, rfl⟩ (checkPhase_frieze _)
  · exact ⟨_, _, rfl⟩

theorem sendRoutes_frieze (s : State) (gen node : Nat) (es : List RouteEntry) : FriezeFrame s (sendRoutes s gen node es) :=
  forEach_frieze (fun s _ => ask_frieze s _ _ node _) _ s

/-! ### A registrar that has installed nothing (R473, R479) -/

theorem tableOf_valid (ls : List (Nat × Nat × Nat)) (lv : List (Nat × Nat)) (x : Nat) : ∀ e ∈ tableOf ls lv x, e.valid = true := by
  intro e he
  obtain ⟨l, -, hl⟩ := List.mem_filterMap.mp he
  split at hl
  · cases hl; rfl
  · obtain ⟨y, -, rfl⟩ := Option.map_eq_some_iff.mp hl
    rfl

/-- The changes from a table without entries are entries of the new table. -/
theorem mem_of_mem_changed_nil {new : List RouteEntry} {e : RouteEntry} (he : e ∈ changed [] new) : e ∈ new := by
  simp only [changed, List.filter_nil, List.map_nil, List.append_nil] at he
  exact List.mem_of_mem_filter he

section
variable {s : State} (ht : s.fab.topo = []) (hi : s.fab.installed = [])
include ht hi

/-- Where no tree was installed, the entries that differ for this node are entries of its new table. -/
theorem mem_of_mem_ownChanges {new : List RouteEntry} {e : RouteEntry} (he : e ∈ ownChanges s new) : e ∈ new := by
  have hnone (x : Nat) : tableFrom s [] x = [] := rfl
  simp only [ownChanges, changed, ht, hi, hnone, List.append_nil, List.any_nil, Bool.or_false, List.mem_append, List.mem_map,
    List.mem_filter] at he
  rcases he with (he | ⟨x, ⟨⟨-, hx⟩, hn⟩, -⟩) | he
  · exact he.1
  · rw [hx] at hn
    exact absurd hn (by decide)
  · exact he.1

/-- Nor is another node told of anything but entries of its new table. -/
theorem mem_of_mem_peerChanges {x : Nat} {new : List RouteEntry} {e : RouteEntry} (he : e ∈ peerChanges s x new) : e ∈ new := by
  have hnone : tableFrom s [] x = [] := rfl
  simp only [peerChanges, ht, hi, hnone, List.mem_eraseDups, List.mem_append, or_self] at he
  exact mem_of_mem_changed_nil he

theorem recompute_frieze : FriezeFrame s (recompute s) := by
  unfold recompute
  split
  · exact .refl s
  · extract_lets rs new reached diff diffs _ u gen _ v w
    have hu : FriezeFrame s u := setFab_frieze s _
    split
    · exact hu
    · have hv : FriezeFrame u v := ⟨v.fab, v.out, rfl⟩
      have hsend (t : State) (d : Nat × List RouteEntry) : FriezeFrame t (sendRoutes t gen d.1 d.2) := sendRoutes_frieze t gen d.1 d.2
      have hw : FriezeFrame v w := forEach_frieze hsend _ v
      have hvalid : ∀ d ∈ diffs, ∀ e ∈ d.2, e.valid = true := by
        intro d hd e he
        obtain ⟨r, -, rfl⟩ := List.mem_map.mp (List.mem_of_mem_filter hd)
        refine tableOf_valid new.1 new.2 r.nodeId e ?_
        change e ∈ (if r.nodeId = s.fab.node then ownChanges s _ else peerChanges s r.nodeId _) at he
        split at he
        · exact mem_of_mem_ownChanges ht hi he
        · exact mem_of_mem_peerChanges ht hi he
      split
      · next d hd => exact hu.trans (hv.trans (hw.trans (phaseOne_frieze w gen (hvalid d (List.mem_of_find?_eq_some hd)) true)))
      · exact hu.trans (hv.trans hw)

end

/-- A node that has not joined takes its first ID without a renumbering. -/
theorem takeId_of_not_joined {s : State} (hj : ¬s.fab.joined = true) (new assigned : Nat) :
    takeId s new assigned = { s with fab := { s.fab with node := new, assigned := assigned, joined := true } } := by
  rw [takeId, if_neg (fun h => hj h.1)]

theorem standAlone_frieze (s : State) : FriezeFrame s (standAlone s) := by
  unfold standAlone
  extract_lets _ u v
  have hu : FriezeFrame s u := setFab_frieze s _
  obtain ⟨hv, ht, hi⟩ : FriezeFrame u v ∧ v.fab.topo = [] ∧ v.fab.installed = [] := by
    unfold v
    split
    · exact ⟨.refl u, rfl, rfl⟩
    · next hj =>
      split
      · rw [takeId_of_not_joined hj]
        exact ⟨setFab_frieze u _, rfl, rfl⟩
      · exact ⟨.refl u, rfl, rfl⟩
  have hr : FriezeFrame { v with fab := { v.fab with registrarNode := v.fab.node } } (recompute _) := recompute_frieze ht hi
  exact hu.trans (hv.trans ((setFab_frieze v _).trans hr))

theorem powerPorts_frieze (s : State) : FriezeFrame s (powerPorts s) := by
  refine .trans (forEach_frieze (fun s p => ?_) _ s) (standAlone_frieze _)
  split
  · exact setFport_frieze s _ _
  · exact .refl s

end Sys2Proof.Machine
end

section
/-! SUPPORT. The stages of a start and the states of power: cold starts, the firmware's stages, mailbox ready, power failure, and the wakes of DROWSE, STANDBY and KEEPER (R437, R456, R487, R488, R498, R521, R523, R532). -/

namespace Sys2Proof.Machine

open Sys2Proof

/-! ### Starts (R487, R488, R498, R532) -/

section
variable (s : State) (root cell puf : Bool)

theorem exec_powerOn_of_off (h : s.power.state = 4) : exec (.powerOn root cell puf) s = .next
    (let u := coldStart s root cell puf false
     { u with power := { u.power with inputMv := max 36000 u.power.inputMv } }) := by
  simp only [exec, execPowerOn, h, beq_self_eq_true, onlyIf_true]

theorem exec_powerOn_of_on (h : s.power.state ≠ 4) : exec (.powerOn root cell puf) s = .next s := by
  simp only [exec, execPowerOn, beq_false_of_ne h, onlyIf_false]

theorem exec_protectiveStopEnd_of_held (h : s.power.heldInReset = true) (hc : s.power.stopCause = 1) :
    exec (.protectiveStopEnd root cell puf) s = .next (coldStart s root cell puf true) := by
  simp only [exec, execProtectiveStopEnd, h, hc, beq_self_eq_true, Bool.and_self, onlyIf_true]

theorem exec_protectiveStopEnd_of_not (h : s.power.heldInReset = false ∨ s.power.stopCause ≠ 1) :
    exec (.protectiveStopEnd root cell puf) s = .next s := by
  have hoff : (s.power.heldInReset && s.power.stopCause == 1) = false := by
    rw [Bool.and_eq_false_iff, beq_eq_false_iff_ne]
    exact h
  simp only [exec, execProtectiveStopEnd, hoff, onlyIf_false]

end

/-- FIRMWARE_START performs the stage that the start is in. -/
theorem exec_firmwareStart_of_stage (s : State) (t : Int) :
    (s.boot.stage = 3 → exec (.firmwareStart t) s = .next (startFirmware s)) ∧
    (s.boot.stage = 4 → exec (.firmwareStart t) s = .next (startPlinth s)) ∧
    (s.boot.stage = 5 → startTraining s = false → exec (.firmwareStart t) s = .next (startDram s t)) := by
  refine ⟨fun h => ?_, fun h => ?_, fun h ht => ?_⟩
  · simp only [exec, execFirmwareStart, h]
  · simp only [exec, execFirmwareStart, h]
  · simp only [exec, execFirmwareStart, h, ht, Bool.false_eq_true, if_false]

theorem exec_firmwareStart_of_other {s : State} (h : s.boot.stage ∉ [3, 4, 5]) (t : Int) : exec (.firmwareStart t) s = .next s := by
  simp only [exec, execFirmwareStart]
  split
  case h_4 => rfl
  all_goals exact absurd (by simp [*]) h

theorem exec_mailboxReady_of_serving {s : State} (h6 : s.boot.stage = 6) (ht : startTraining s = false)
    (hp : ∃ p < 8, (s.part p).state ≠ 3) {u v : State}
    (hu : forEach (List.range 8) s (fun s p => if (s.part p).state = 0 then s.setPart p { s.part p with step := .none } else s) = u)
    (hv : confirmSlot (confirmSlot u 0) 1 = v) :
    exec .mailboxReady s = .next (fullService (createPorts (placeMailbox0
      { v with boot := { v.boot with stage := 7, mailboxReady := true, cold := false } }))) := by
  have hany : (List.range 8).any (fun p => (s.part p).state != 3) = true := by
    obtain ⟨p, h8, h3⟩ := hp
    exact List.any_eq_true.mpr ⟨p, List.mem_range.mpr h8, bne_iff_ne.mpr h3⟩
  simp only [exec, execMailboxReady, h6, ht, hany, hu, hv, beq_self_eq_true, Bool.not_false, Bool.and_self, onlyIf_true]

/-! ### Power failure (R437) -/

theorem powerFail_of_running {s : State} (h : s.power.failRunning = false) (cause : Nat) : powerFail s cause =
    { stopAll s with
      resting := true, boot := { (stopAll s).boot with fetchStopped := true }
      power := { (stopAll s).power with failRunning := true, failAt := (stopAll s).now, stopCause := cause } } := by
  simp only [powerFail, h, Bool.false_eq_true, if_false]

theorem EventFrame.power {s t : State} (h : EventFrame s t) : t.power = s.power := by
  obtain ⟨_, _, _, _, _, rfl, _, _⟩ := h
  rfl

theorem failRunning_of_supplied {s : State} (h : supplied s = true) : s.power.failRunning = false := by
  have := (Bool.and_eq_true_iff.mp h).2
  simpa using this

theorem exec_powerFailDetect_of_supplied {s : State} (h : supplied s = true) : exec .powerFailDetect s =
    .next (powerFail (raiseAs s 3 0 (mkEvent 0x67 0xFF 0 0 0xFFFF 0)) 0) := by
  simp only [exec, execPowerFailDetect, h, onlyIf_true]
  exact congrArg _ (detect_powerFail rfl s)

/-- The commit and the drain at the end of the sequence leave the supply as it is, and then all that is volatile is lost. -/
theorem exec_powerFailSequenceEnd_of_running {s : State} (h : s.power.failRunning = true) :
    ∃ u, exec .powerFailSequenceEnd s = .next u ∧ u.power.state = 4 ∧ u.power.heldInReset = true ∧ u.power.stopCause = s.power.stopCause := by
  simp only [exec, execPowerFailSequenceEnd, h, onlyIf_true]
  exact ⟨_, rfl, rfl, rfl, rfl⟩

/-! ### Wakes (R456, R521, R523) -/

section
variable {s : State} (root cell puf : Bool)

theorem exec_wakeN_of_active (h : s.power.state = 0) : exec (.wakeN root cell puf) s = .next s := by
  simp only [exec, execWakeN, h]
  cases supplied s <;> rfl

/-- WAKE_N by the state that the module sleeps in. -/
theorem exec_wakeN_of_asleep (hs : supplied s = true) :
    (s.power.state = 1 → exec (.wakeN root cell puf) s = .next (grantQueue 64 (changePower s 0))) ∧
    (s.power.state = 2 → exec (.wakeN root cell puf) s = .next { s with power := { s.power with waking := true } }) ∧
    (s.power.state = 3 → exec (.wakeN root cell puf) s = .next
      (let u := coldStart (changePower { s with time := { s.time with t := s.time.keeper } } 0) root cell puf true
       { u with power := { u.power with waking := true } })) := by
  refine ⟨fun h => ?_, fun h => ?_, fun h => ?_⟩
  all_goals simp only [exec, execWakeN, hs, onlyIf_true, h]

end

/-- A partition's memory as STANDBY ends: its slice is clear, and its DRAM has left self-refresh (R523). -/
def wakePart (s : State) (p : Nat) : State :=
  let s := { s with mem := s.mem.clear (t1Base p) 0x2000000 }
  s.setPart p { s.part p with selfRefresh := false, scrubLevel := 0, quietWindows := 0, corrected := 0 }

theorem wakeParts_power (ps : List Nat) (s : State) : (forEach ps s wakePart).power = s.power := by
  induction ps generalizing s with
  | nil => rfl
  | cons p ps ih => exact ih (wakePart s p)

/-- Every partition of the list has left self-refresh, and one that had before stays so. -/
theorem wakeParts_selfRefresh {ps : List Nat} {s : State} {p : Nat} (h : p ∈ ps ∨ (s.part p).selfRefresh = false) :
    ((forEach ps s wakePart).part p).selfRefresh = false := by
  induction ps generalizing s with
  | nil => exact h.resolve_left List.not_mem_nil
  | cons q ps ih =>
    refine ih (s := wakePart s q) ?_
    by_cases hq : p = q
    · subst hq
      exact .inr (congrArg Part.selfRefresh (State.part_setPart _ _ _))
    · have hkept : (wakePart s q).part p = s.part p := State.part_setPart_ne _ _ hq
      rw [hkept]
      exact h.imp_left fun hm => (List.mem_cons.mp hm).resolve_left hq

/-- The module as STANDBY ends, before its Frieze ports are powered. -/
def woken (s : State) : State := forEach (List.range 8) (changePower (loadKeeper s) 0) wakePart

theorem changePower_power (s : State) (n : Nat) : (changePower s n).power.state = n ∧ (changePower s n).power.waking = false := ⟨rfl, rfl⟩

theorem woken_power (s : State) : (woken s).power.state = 0 ∧ (woken s).power.waking = false := by
  rw [woken, wakeParts_power]
  exact changePower_power _ 0

theorem woken_selfRefresh (s : State) : ∀ p < 8, ((woken s).part p).selfRefresh = false :=
  fun _ hp => wakeParts_selfRefresh (.inl (List.mem_range.mpr hp))

theorem FriezeFrame.power_part {s t : State} (h : FriezeFrame s t) : t.power = s.power ∧ ∀ p, t.part p = s.part p := by
  obtain ⟨_, _, rfl⟩ := h
  exact ⟨rfl, fun _ => rfl⟩

theorem exec_wakeComplete_of_waking {s : State} (h2 : s.power.state = 2) (hw : s.power.waking = true) (hf : s.power.failRunning = false) :
    exec .wakeComplete s = .next (let u := powerPorts (woken s)
      { u with boot := { u.boot with mailboxReady := true }, power := { u.power with i2cHeld := [] } }) := by
  have hwake : (s.power.state == 2 && s.power.waking && supplied s) = true := by
    simp only [supplied, h2, hw, hf]
    rfl
  have hstep : wakePart = fun s p => wakePart s p := rfl
  simp only [exec, execWakeComplete, hwake, onlyIf_true, woken, hstep, wakePart]

theorem exec_wakeComplete_wakes {s : State} (h2 : s.power.state = 2) (hw : s.power.waking = true) (hf : s.power.failRunning = false) :
    ∃ u, exec .wakeComplete s = .next u ∧ u.power.state = 0 ∧ u.power.waking = false ∧ u.boot.mailboxReady = true ∧
      ∀ p < 8, (u.part p).selfRefresh = false := by
  have he := exec_wakeComplete_of_waking h2 hw hf
  obtain ⟨h0, hw⟩ := woken_power s
  have hself := woken_selfRefresh s
  obtain ⟨hpower, hpart⟩ := (powerPorts_frieze (woken s)).power_part
  rw [← hpower] at h0 hw
  simp only [← hpart] at hself
  generalize powerPorts (woken s) = u at he h0 hw hself
  exact ⟨_, he, h0, hw, rfl, hself⟩

/-- Settles O59: each clause is one event in the stage or the state of power that it acts in. -/
theorem powerStates : Obligations.PowerStates := by
  unfold Obligations.PowerStates
  refine ⟨exec_powerOn_of_off, fun s root cell puf t => ⟨exec_powerOn_of_on s root cell puf, fun h => exec_firmwareStart_of_other h t,
      exec_protectiveStopEnd_of_not s root cell puf, exec_wakeN_of_active root cell puf⟩,
    exec_firmwareStart_of_stage, fun s h6 ht hp => exec_mailboxReady_of_serving h6 ht hp rfl rfl, fun s hs => ?_,
    fun s h => exec_powerFailSequenceEnd_of_running h, exec_protectiveStopEnd_of_held, fun s root cell puf => exec_wakeN_of_asleep root cell puf,
    fun s => exec_wakeComplete_wakes⟩
  have hpower := (raiseAs_event s 3 0 (mkEvent 0x67 0xFF 0 0 0xFFFF 0)).power
  refine ⟨_, exec_powerFailDetect_of_supplied hs, ?_⟩
  rw [powerFail_of_running (hpower ▸ failRunning_of_supplied hs)]
  exact ⟨rfl, rfl, rfl, rfl, rfl⟩

end Sys2Proof.Machine
end

section
/-! SUPPORT. The tick of the time base, the estimate of a holdover and the calendar (R138, R440, R442, R443, R448, R452, R457). -/

namespace Sys2Proof.Machine

open Sys2Proof

/-! ### The end of a tick and the charge of stalled tiles (R138, R323) -/

/-- The state with every stalled tile charged for the tick (R138). -/
def chargeStalls (s : State) : State := forEach s.tiles.keys s (fun s t => chargeStall s (BitVec.ofNat 9 t))

/-- The second state is the first but for the stall counts of its jobs and the runs of its clusters. -/
def ChargeFrame (s t : State) : Prop := ∃ js cs, t = { s with jobs := js, clusters := cs }

theorem ChargeFrame.refl (s : State) : ChargeFrame s s := ⟨s.jobs, s.clusters, rfl⟩

theorem ChargeFrame.trans {s t u : State} (a : ChargeFrame s t) (b : ChargeFrame t u) : ChargeFrame s u := by
  obtain ⟨_, _, rfl⟩ := a
  obtain ⟨js, cs, rfl⟩ := b
  exact ⟨js, cs, rfl⟩

theorem updStall_charge (s : State) (r : Run) (f : StallRec → StallRec) : ChargeFrame s (updStall s r f) := by
  obtain ⟨js, h⟩ := updStall_jobs s r f
  exact ⟨js, s.clusters, h⟩

theorem updRun_charge (s : State) (c id : Nat) (f : Run → Run) : ChargeFrame s (updRun s c id f) := ⟨s.jobs, _, rfl⟩

/-- A tile is charged only while it waits on a semaphore, and then to stream state or to a run. -/
theorem chargeStall_charge (s : State) (t : TileId) : ChargeFrame s (chargeStall s t) := by
  unfold chargeStall
  split
  · split
    · exact .refl s
    · split
      · exact updStall_charge s _ _
      · exact updRun_charge s _ _ _
  · exact .refl s

theorem chargeStalls_charge (s : State) : ChargeFrame s (chargeStalls s) := by
  unfold chargeStalls
  generalize s.tiles.keys = ts
  induction ts generalizing s with
  | nil => exact .refl s
  | cons t ts ih => exact .trans (chargeStall_charge s _) (ih _)

/-- With no epoch cut off on its tick, nothing waits for the end of the tick (R323). -/
theorem endTick_of_none_cutting {s : State} (h : s.jobs.all (fun e => !(e.2.fuse.any (fun f => f.cutting))) = true) : endTick s = s := by
  have hnil : s.jobs.filterMap (fun e => if e.2.fuse.any (fun f => f.cutting) then some e.1 else none) = [] := by
    refine List.filterMap_eq_nil_iff.mpr fun e he => if_neg ?_
    simpa using List.all_eq_true.mp h e he
  simp only [endTick, hnil, forEach, List.foldl_nil]

/-! ### The time base (R440, R442, R443, R448, R452) -/

/-- What a time base has after a step, but for its estimate of a holdover: the increment taken, one tick counted, and T and its fraction as the sum gives them (R440, R441). -/
structure Stepped (b c : TimeBase) : Prop where
  ticks : c.ticks = b.ticks + 1
  incr : c.incr = b.incrNext.getD b.incr
  incrNext : c.incrNext = none
  t : c.t = (tickSum b).1 / 2 ^ 32 % 2 ^ 64
  f : c.f = (tickSum b).1 % 2 ^ 32

theorem growHoldover_frame (b : TimeBase) (ns : Nat) : ∃ e r, growHoldover b ns = { b with holdoverEst := e, holdoverRem := r } := by
  unfold growHoldover
  split <;> exact ⟨_, _, rfl⟩

theorem tickBase_stepped (b : TimeBase) : Stepped b (tickBase b) := by
  unfold tickBase
  dsimp only
  obtain ⟨_, _, h⟩ := growHoldover_frame { b with
    t := (tickSum b).1 / 2 ^ 32 % 2 ^ 64, f := (tickSum b).1 % 2 ^ 32, slew := (tickSum b).2, incr := b.incrNext.getD b.incr, incrNext := none
    ticks := b.ticks + 1 } ((tickSum b).1 / 2 ^ 32 - b.t)
  rw [h]
  exact ⟨rfl, rfl, rfl, rfl, rfl⟩

section
variable {s : State}

theorem exec_timeBaseTick_of_stopped (hr : timeRuns s = false) : exec .timeBaseTick s = .next s := by
  simp only [exec, execTimeBaseTick, hr, onlyIf_false]

theorem exec_timeBaseTick_of_running (hr : timeRuns s = true) (hf : (chargeStalls (endTick s)).time.force = none) :
    exec .timeBaseTick s = .next { chargeStalls (endTick s) with time := tickBase (chargeStalls (endTick s)).time } := by
  unfold chargeStalls at hf
  simp only [exec, execTimeBaseTick, hr, onlyIf_true, hf, chargeStalls]

theorem exec_timeBaseTick_of_force (hr : timeRuns s = true) {new : Nat} {m : MbxId} {h : CmdHdr}
    (hf : (chargeStalls (endTick s)).time.force = some (new, m, h)) :
    exec .timeBaseTick s = .next (forceTime (chargeStalls (endTick s)) new m h) := by
  unfold chargeStalls at hf
  simp only [exec, execTimeBaseTick, hr, onlyIf_true, hf, chargeStalls]

/-- A tick on which no epoch is frozen and no force taken changes the time base, the stall counts and nothing else. -/
theorem exec_timeBaseTick_charge (hr : timeRuns s = true) (hc : s.jobs.all (fun e => !(e.2.fuse.any (fun f => f.cutting))) = true)
    (hf : s.time.force = none) : ∃ u, exec .timeBaseTick s = .next { u with time := tickBase s.time } ∧ ChargeFrame s u := by
  have he := exec_timeBaseTick_of_running hr
  rw [endTick_of_none_cutting hc] at he
  obtain ⟨js, cs, hu⟩ := chargeStalls_charge s
  rw [hu] at he
  exact ⟨_, he hf, js, cs, rfl⟩

end

/-! ### The estimate of a holdover, and the calendar (R452, R457) -/

theorem exec_holdoverExceeded_of_past {s : State} (hh : s.time.holdover = true) (he : s.time.exceededRaised = false) (hn : s.flt.pending = none)
    (hl : s.time.holdoverLimit < s.time.holdoverEst) : exec .holdoverExceeded s = .next
      (raiseAs { s with time := { s.time with holdoverExceeded := true, exceededRaised := true } } 1 0 (mkEvent 0x43 0xFF 0 0 0 0)) := by
  simp only [exec, execHoldoverExceeded, hh, he, takeInjection_none hn, Nat.not_le.mpr hl, Bool.not_true, Bool.or_self, Bool.false_eq_true,
    Option.isNone_none, Option.isSome_none, true_and, if_false, injFlags]

theorem exec_calendarUpdate_of_locked {s : State} (h : s.time.locked = true) : exec .calendarUpdate s = .next { s with time := { s.time with
    calSec := s.time.t / 1000000000 - s.time.utcOffset, calNs := calStep (s.time.t % 1000000000), calLost := false } } := by
  simp only [exec, execCalendarUpdate, h, onlyIf_true]

/-- Settles O50: the tick freezes and charges, then steps or forces the time base; with nothing to freeze or force only the charge is left beside the step. -/
theorem timeBaseSteps : Obligations.TimeBaseSteps := by
  unfold Obligations.TimeBaseSteps
  refine fun s => ⟨exec_timeBaseTick_of_stopped, fun hr => ⟨exec_timeBaseTick_of_running hr,
    fun new m h hf => exec_timeBaseTick_of_force hr hf, fun hc hf => ?_⟩⟩
  obtain ⟨_, he, _, _, rfl⟩ := exec_timeBaseTick_charge hr hc hf
  obtain ⟨hticks, hincr, hnext, ht, hfrac⟩ := tickBase_stepped s.time
  exact ⟨_, he, rfl, hticks, hincr, hnext, ht, hfrac, rfl, rfl, rfl, rfl, rfl, rfl, rfl, rfl, rfl⟩

end Sys2Proof.Machine
end

section
/-! SUPPORT. PTP messages heard and sent by a service port, the best master, and the waits of a port (R443, R446, R449, R451 to R453, R458). -/

namespace Sys2Proof.Machine

open Sys2Proof

/-! ### Messages of the port's master (R449, R451) -/

theorem peerDelay_of_peer {s : State} {p : BitVec 1} (h : (pport s p).cfg.delay = 1) : peerDelay s p = true := by
  simp only [peerDelay, h, beq_self_eq_true]

theorem peerDelay_of_not {s : State} {p : BitVec 1} (h : (pport s p).cfg.delay ≠ 1) : peerDelay s p = false := beq_false_of_ne h

section
variable {s : State} {p : BitVec 1} {sender dom : Nat} (hm : fromMaster s p sender dom = true)
include hm

theorem exec_sync_of_oneStep (rx org corr : Int) : exec (.sync p sender dom rx org corr false) s = .next (takeSync s p rx org corr) := by
  simp only [exec, execSync, hm, onlyIf_true, Bool.false_eq_true, if_false]

theorem exec_sync_of_twoStep (rx org corr : Int) :
    exec (.sync p sender dom rx org corr true) s = .next (setPport s p { pport s p with pendingSync := some (rx, corr) }) := by
  simp only [exec, execSync, hm, onlyIf_true, if_true]

theorem exec_followUp_of_pending {x : Int × Int} (hx : (pport s p).pendingSync = some x) (org corr : Int) :
    exec (.followUp p sender dom org corr) s = .next (takeSync s p x.1 org (x.2 + corr)) := by
  simp only [exec, execFollowUp, hm, onlyIf_true, hx]

theorem exec_followUp_of_none (hx : (pport s p).pendingSync = none) (org corr : Int) :
    exec (.followUp p sender dom org corr) s = .next s := by
  simp only [exec, execFollowUp, hm, onlyIf_true, hx]

theorem exec_delayResp_of_pending (hd : (pport s p).cfg.delay ≠ 1) {t3 : Int} (ht : (pport s p).pendingDelay = some t3) (rx corr : Int) :
    exec (.delayResp p sender dom rx corr) s = .next
      (setPport s p { pport s p with delay := ((pport s p).gap + (rx - t3 - corr)) / 2, pendingDelay := none }) := by
  simp only [exec, execDelayResp, hm, peerDelay_of_not hd, ht, Bool.not_false, Bool.and_self, onlyIf_true]

end

/-! ### Requests for a delay, and the peer's answers (R449, R453) -/

section
variable {s : State} {p : BitVec 1} {dom : Nat} (hh : hears s p dom = true)
include hh

theorem exec_delayReq_of_master (hd : (pport s p).cfg.delay ≠ 1) (h6 : (pport s p).state = 6) (sender : Nat) (rx : Int) :
    exec (.delayReq p sender dom rx) s = .next (s.emit (.ptp p.toNat 9 rx 0)) := by
  simp only [exec, execDelayReq, hh, h6, peerDelay_of_not hd, beq_self_eq_true, Bool.not_false, Bool.and_self, onlyIf_true]

section
variable (hd : (pport s p).cfg.delay = 1) (sender : Nat)
include hd

theorem exec_pdelayReq_of_peer (rx : Int) : exec (.pdelayReq p sender dom rx) s = .next
    (if (pport s p).cfg.step = 0 then (txStamp s).2.emit (.ptp p.toNat 3 rx (txStamp s).1)
      else ((txStamp s).2.emit (.ptp p.toNat 3 rx 0)).emit (.ptp p.toNat 0xA (txStamp s).1 0)) := by
  simp only [exec, execPdelayReq, hh, peerDelay_of_peer hd, Bool.and_self, onlyIf_true]

theorem exec_pdelayResp_of_oneStep {t1 : Int} (ht : (pport s p).pendingPdelay = some (t1, none)) (rx y corr : Int) :
    exec (.pdelayResp p sender dom rx y corr false) s = .next
      (setPport s p { pport s p with delay := (rx - t1 - corr) / 2, pendingPdelay := none }) := by
  simp only [exec, execPdelayResp, hh, peerDelay_of_peer hd, ht, Bool.and_self, onlyIf_true, Bool.false_eq_true, if_false]

theorem exec_pdelayResp_of_twoStep {t1 : Int} (ht : (pport s p).pendingPdelay = some (t1, none)) (rx y corr : Int) :
    exec (.pdelayResp p sender dom rx y corr true) s = .next
      (setPport s p { pport s p with pendingPdelay := some (t1, some (rx, y - corr)) }) := by
  simp only [exec, execPdelayResp, hh, peerDelay_of_peer hd, ht, Bool.and_self, onlyIf_true, if_true]

theorem exec_pdelayRespFollowUp_of_pending {t1 t4 t2 : Int} (ht : (pport s p).pendingPdelay = some (t1, some (t4, t2))) (y corr : Int) :
    exec (.pdelayRespFollowUp p sender dom y corr) s = .next
      (setPport s p { pport s p with delay := (t4 - t1 - (y - t2) - corr) / 2, pendingPdelay := none }) := by
  simp only [exec, execPdelayRespFollowUp, hh, peerDelay_of_peer hd, ht, Bool.and_self, onlyIf_true]

end

/-! ### Announce (R449, R451) -/

/-- An Announce of the port's master, or of a better clock than it, or where the port has none, is taken: both ports are decided. -/
theorem exec_announce_of_better {d : AnnounceData} (hs : d.sender ≠ Config.ptpIdentity) (hr : d.stepsRemoved < 255) (hn : s.flt.pending = none)
    (hb : ∀ a, (pport s p).master = some a → a.sender = d.sender ∨ betterClock d a = true) : exec (.announce p dom d) s = .next
      (takeUtc (decidePorts (setPport s p { pport s p with master := some d, announceAt := s.now })) p d) := by
  have hopen : announceBlocked s p = false := by rw [announceBlocked, hn]
  simp only [exec, execAnnounce, hh, hopen, hr, bne_iff_ne.mpr hs, decide_true, Bool.not_false, Bool.and_self, onlyIf_true]
  cases hm : (pport s p).master with
  | none => rfl
  | some a =>
    have hkeep : (a.sender != d.sender && !betterClock d a) = false := by
      simpa [or_iff_not_imp_left] using hb a hm
    simp only [hkeep, Bool.false_eq_true, if_false]

end

/-- A clock that is no better than the port's master is not taken. -/
theorem exec_announce_of_worse {s : State} {p : BitVec 1} {dom : Nat} {d a : AnnounceData}
    (ha : (pport s p).master = some a) (hs : a.sender ≠ d.sender) (hb : betterClock d a = false) : exec (.announce p dom d) s = .next s := by
  simp only [exec, execAnnounce, ha, hb, bne_iff_ne.mpr hs, Bool.not_false, Bool.and_self, if_true, onlyIf, ite_self]

/-! ### Sending (R449, R451, R453, R458) -/

section
variable {s : State} {p : BitVec 1} (hr : timeRuns s = true) (hc : (pport s p).cfg.mode ≠ 0)
include hr hc

theorem exec_ptpMessageSend_of_initializing (h1 : (pport s p).state = 1) (k : Nat) :
    exec (.ptpMessageSend p k) s = .next (setPport s p { pport s p with state := 4, announceAt := s.now }) := by
  simp only [exec, execPtpMessageSend, hr, bne_iff_ne.mpr hc, Bool.and_self, onlyIf_true, h1, if_true]

section
variable (h6 : (pport s p).state = 6)
include h6

theorem exec_ptpMessageSend_sync : exec (.ptpMessageSend p 0) s = .next (sendSync s p) := by
  simp only [exec, execPtpMessageSend, hr, bne_iff_ne.mpr hc, Bool.and_self, onlyIf_true, h6, Nat.reduceEqDiff, if_true, if_false]

theorem exec_ptpMessageSend_followUp {w : Nat × Int} (hw : (pport s p).awaitingStamp = some w) : exec (.ptpMessageSend p 8) s = .next
    ((setPport s p { pport s p with awaitingStamp := none }).emit (.ptp p.toNat 8 w.2 0)) := by
  simp only [exec, execPtpMessageSend, hr, bne_iff_ne.mpr hc, Bool.and_self, onlyIf_true, h6, hw, Nat.reduceEqDiff, if_true, if_false]

theorem exec_ptpMessageSend_announce : exec (.ptpMessageSend p 0xB) s = .next
    (s.emit (.ptp p.toNat 0xB (if s.time.utcFromMaster then s.time.utcOffset else 0) 0)) := by
  simp only [exec, execPtpMessageSend, hr, bne_iff_ne.mpr hc, Bool.and_self, onlyIf_true, h6, Nat.reduceEqDiff, if_true, if_false]

end

theorem exec_ptpMessageSend_delayReq (h9 : (pport s p).state = 9) (hd : (pport s p).cfg.delay = 0) :
    exec (.ptpMessageSend p 1) s = .next (sendDelayReq s p 1) := by
  simp only [exec, execPtpMessageSend, hr, bne_iff_ne.mpr hc, Bool.and_self, onlyIf_true, h9, hd, Nat.reduceEqDiff, and_self, if_true, if_false]

theorem exec_ptpMessageSend_pdelayReq (h1 : (pport s p).state ≠ 1) (hd : (pport s p).cfg.delay = 1) :
    exec (.ptpMessageSend p 2) s = .next (sendDelayReq s p 2) := by
  simp only [exec, execPtpMessageSend, hr, bne_iff_ne.mpr hc, Bool.and_self, onlyIf_true, h1, hd, if_true, if_false]

/-! ### The announce timeout (R452, R458) -/

section
variable (ht : (pport s p).announceAt + 6000000000 < s.now)
include ht

theorem exec_announceReceiptTimeout_of_listening (h4 : (pport s p).state = 4) : exec (.announceReceiptTimeout p) s = .next
    (decidePorts (setPport s p { pport s p with master := none, state := 6, syncGood := 0 })) := by
  simp only [exec, execAnnounceReceiptTimeout, hr, bne_iff_ne.mpr hc, ht, decide_true, Bool.and_self, onlyIf_true, h4, Nat.reduceEqDiff,
    false_or, if_true, if_false]

/-- The loss of its master raises detector 0x42 for a port in SLAVE; holdover begins where it was the last one. -/
theorem exec_announceReceiptTimeout_of_slave (h9 : (pport s p).state = 9) (hn : s.flt.pending = none) {u : State}
    (hu : raiseAs (decidePorts (setPport s p { pport s p with master := none, state := 6, syncGood := 0 })) 1 0
      (mkEvent 0x42 0xFF 0 0 0 0) = u) :
    exec (.announceReceiptTimeout p) s = .next (if noSlave u.time then { u with time := enterHoldover u.time } else u) := by
  simp only [exec, execAnnounceReceiptTimeout, hr, bne_iff_ne.mpr hc, ht, decide_true, Bool.and_self, onlyIf_true, h9, takeInjection_none hn,
    injFlags, Option.isSome_none, Bool.false_eq_true, true_or, if_true, if_false, hu]

end

end

theorem exec_announceReceiptTimeout_of_within {s : State} {p : BitVec 1} (ht : s.now ≤ (pport s p).announceAt + 6000000000) :
    exec (.announceReceiptTimeout p) s = .next s := by
  simp only [exec, execAnnounceReceiptTimeout, Nat.not_lt.mpr ht, decide_false, Bool.and_false, onlyIf_false]

theorem exec_followUpAbandon_of_past {s : State} {p : BitVec 1} {w : Nat × Int} (hw : (pport s p).awaitingStamp = some w)
    (ht : w.1 + 1000000 < s.now) : exec (.followUpAbandon p) s = .next (setPport s p { pport s p with awaitingStamp := none }) := by
  simp only [exec, execFollowUpAbandon, hw, ht, decide_true, onlyIf_true]

/-- Settles O51: each clause is one message or one wait, under the conditions that its port takes it. -/
theorem ptpMessages : Obligations.PtpMessages := by
  unfold Obligations.PtpMessages
  refine ⟨fun s p sender dom rx org corr hm => ?_, fun s p sender dom rx y corr hh => ?_, fun s p hr hc => ?_, fun s p => ?_,
    fun s => exec_holdoverExceeded_of_past, fun s => exec_calendarUpdate_of_locked⟩
  case refine_1 =>
    exact ⟨exec_sync_of_oneStep hm rx org corr, exec_sync_of_twoStep hm rx org corr,
      fun x hx => exec_followUp_of_pending hm hx org corr, fun t3 hd ht => exec_delayResp_of_pending hm hd ht rx corr,
      fun hx => exec_followUp_of_none hm hx org corr⟩
  case refine_2 =>
    exact ⟨fun hd h6 => exec_delayReq_of_master hh hd h6 sender rx,
      fun hd => ⟨exec_pdelayReq_of_peer hh hd sender rx,
        fun t1 ht => ⟨exec_pdelayResp_of_oneStep hh hd sender ht rx y corr, exec_pdelayResp_of_twoStep hh hd sender ht rx y corr⟩,
        fun t1 t4 t2 ht => exec_pdelayRespFollowUp_of_pending hh hd sender ht y corr⟩,
      fun d => exec_announce_of_better hh, fun d a => exec_announce_of_worse⟩
  case refine_3 =>
    exact ⟨exec_ptpMessageSend_of_initializing hr hc,
      fun h6 => ⟨exec_ptpMessageSend_sync hr hc h6, fun w hw => exec_ptpMessageSend_followUp hr hc h6 hw,
        exec_ptpMessageSend_announce hr hc h6⟩,
      exec_ptpMessageSend_delayReq hr hc, exec_ptpMessageSend_pdelayReq hr hc, exec_announceReceiptTimeout_of_within,
      fun ht => ⟨exec_announceReceiptTimeout_of_listening hr hc ht, fun h9 hn => exec_announceReceiptTimeout_of_slave hr hc ht h9 hn rfl⟩⟩
  case refine_4 =>
    exact ⟨rfl, fun w => exec_followUpAbandon_of_past⟩

end Sys2Proof.Machine
end

section
/-! SUPPORT. Data frames on a Frieze port: which frames are accepted, how they are served or relayed, and which change nothing more (R132, R141, R460 to R465, R484). -/

namespace Sys2Proof.Machine

open Sys2Proof

/-! ### Frames that a port accepts (R460, R463, R465) -/

/-- A frame without error is the next in order on a port that is UP, and no injection is pending (R413, R460, R465). -/
structure NextInOrder (s : State) (p : FriezePort) (h : FrameHdr) : Prop where
  noInjection : s.flt.pending = none
  up : (fport s p.val).state = 3
  crc : h.crcOk = true
  fec : h.fecOk = true
  seq : h.linkSeq = (fport (takeLink s p.val h) p.val).rxSeq

/-- The state in which a data frame's link field is taken and the frame is acknowledged (R463, R465). -/
def acceptedFrame (s : State) (p : FriezePort) (h : FrameHdr) (dataBytes : Nat) : State :=
  acceptFrame (takeLink s p.val h) p.val h.vc.toNat (1 + (dataBytes + 63) / 64)

@[simp] theorem acceptedFrame_node (s : State) (p : FriezePort) (h : FrameHdr) (n : Nat) :
    (acceptedFrame s p h n).fab.node = (takeLink s p.val h).fab.node := rfl

section
variable {s : State} {p : FriezePort} {h : FrameHdr}

theorem receive_of_nextInOrder (hi : NextInOrder s p h) (n : Nat) (f : State → State) :
    receive s p h n f = .next (f (acceptedFrame s p h n)) := by
  obtain ⟨hn, h3, hc, hf, hs⟩ := hi
  simp only [receive, takeInjection_none hn, h3, hc, hf, hs, Option.isSome_none, Bool.true_eq_false, Bool.false_eq_true, ne_eq,
    not_true_eq_false, false_and, or_self, if_false, acceptedFrame]

theorem receive_of_crc (hn : s.flt.pending = none) (h3 : (fport s p.val).state = 3) (hc : h.crcOk = false) (hf : h.fecOk = true)
    (n : Nat) (f : State → State) : receive s p h n f = .next (crcError s p.val 0) := by
  simp only [receive, takeInjection_none hn, h3, hc, hf, ne_eq, not_true_eq_false, and_self, or_true, if_true, if_false, injFlags,
    Option.isSome_none, Bool.false_eq_true]

theorem receive_of_not_up (h3 : (fport s p.val).state ≠ 3) (n : Nat) (f : State → State) : receive s p h n f = .next s := by
  rw [receive, if_pos h3]

theorem atDest_of_own (hi : NextInOrder s p h) (hd : h.dest.toNat = (takeLink s p.val h).fab.node) (ty ask : Nat) (data : List Byte)
    (f : State → State) : atDest s p h ty ask data f = .next (f (acceptedFrame s p h data.length)) := by
  rw [atDest, receive_of_nextInOrder hi, acceptedFrame_node, if_pos hd]

theorem atDest_of_other (hi : NextInOrder s p h) (hd : h.dest.toNat ≠ (takeLink s p.val h).fab.node) (ty ask : Nat) (data : List Byte)
    (f : State → State) : atDest s p h ty ask data f = .next (relay (acceptedFrame s p h data.length) h ty ask data) := by
  rw [atDest, receive_of_nextInOrder hi, acceptedFrame_node, if_neg hd]

/-! ### Frames for another node (R461, R479) -/

section
variable (hi : NextInOrder s p h) (hd : h.dest.toNat ≠ (takeLink s p.val h).fab.node)
include hi hd

theorem exec_writeRequest_of_other (data : List Byte) :
    exec (.writeRequest p h data) s = .next (relay (acceptedFrame s p h data.length) h 0 0 data) := by
  simp only [exec, execWriteRequest, atDest_of_other hi hd]

theorem exec_readData_of_other (data : List Byte) :
    exec (.readData p h data) s = .next (relay (acceptedFrame s p h data.length) h 2 0 data) := by
  simp only [exec, execReadData, atDest_of_other hi hd]

theorem exec_readRequest_of_other (k : BitVec 6) :
    exec (.readRequest p h k) s = .next (relay (acceptedFrame s p h 0) h 1 (64 * (k.toNat + 1)) []) := by
  simp only [exec, execReadRequest, atDest_of_other hi hd, List.length_nil]

theorem exec_writeAcknowledgement_of_other :
    exec (.writeAcknowledgement p h) s = .next (relay (acceptedFrame s p h 0) h 3 0 []) := by
  simp only [exec, execWriteAcknowledgement, atDest_of_other hi hd, List.length_nil]

theorem exec_failureResponse_of_other (st : Nat) :
    exec (.failureResponse p h st) s = .next (relay (acceptedFrame s p h 64) h 6 0 (padTo 64 (leBytes 1 st))) := by
  simp only [exec, execFailureResponse, atDest_of_other hi hd, padTo_length]

end

/-! ### Requests of a peer (R141, R461, R484) -/

section
variable (hi : NextInOrder s p h) (hd : h.dest.toNat = (takeLink s p.val h).fab.node)
include hi hd

theorem exec_writeRequest_of_problem {data : List Byte} {st : Nat}
    (hp : peerProblem (acceptedFrame s p h data.length) (localOf h.address) data.length = some st) :
    exec (.writeRequest p h data) s = .next (failPeer (acceptedFrame s p h data.length) h st) := by
  simp only [exec, execWriteRequest, atDest_of_own hi hd, hp]

/-- A write within T2 and the pinned T1 is presented and made through the slice. -/
theorem exec_writeRequest_of_served {data : List Byte} {r : State × Bool}
    (hp : peerProblem (acceptedFrame s p h data.length) (localOf h.address) data.length = none)
    (hr : localWrite (presentPeer (acceptedFrame s p h data.length) h data.length) (localOf h.address) data = r) :
    exec (.writeRequest p h data) s = .next (if r.2 then answerPeer r.1 h 3 [] else failPeer r.1 h 0x07) := by
  simp only [exec, execWriteRequest, atDest_of_own hi hd, hp, hr, stFaulted]

theorem exec_readRequest_of_problem {k : BitVec 6} {st : Nat}
    (hp : peerProblem (acceptedFrame s p h 0) (localOf h.address) (64 * (k.toNat + 1)) = some st) :
    exec (.readRequest p h k) s = .next (failPeer (acceptedFrame s p h 0) h st) := by
  simp only [exec, execReadRequest, atDest_of_own hi hd, List.length_nil, hp]

/-- A read within T2 and the pinned T1 is presented and answered with what the slice delivers. -/
theorem exec_readRequest_of_served {k : BitVec 6} {r : State × Option (List Byte)}
    (hp : peerProblem (acceptedFrame s p h 0) (localOf h.address) (64 * (k.toNat + 1)) = none)
    (hr : localRead (presentPeer (acceptedFrame s p h 0) h (64 * (k.toNat + 1))) (localOf h.address) (64 * (k.toNat + 1)) = r) :
    (∀ bs, r.2 = some bs → exec (.readRequest p h k) s = .next (answerPeer r.1 h 2 bs)) ∧
    (r.2 = none → exec (.readRequest p h k) s = .next (failPeer r.1 h 0x07)) := by
  simp only [exec, execReadRequest, atDest_of_own hi hd, List.length_nil, hp, hr]
  exact ⟨fun bs hb => by rw [hb], fun hb => by rw [hb]; rfl⟩

/-! ### Answers to this node's requests (R131, R132, R140, R461) -/

theorem exec_readData_of_open {data : List Byte} {r : T3Req} (ho : openT3 (acceptedFrame s p h data.length) h = some r) {u : State}
    (hu : acceptedFrame s p h data.length = u) :
    exec (.readData p h data) s = .next (if r.isRead then
      checkPhase { u with hostMem := u.hostMem.write (peerKey r.address) (padTo r.bytes data)
                          fab := { u.fab with t3 := u.fab.t3.erase r } } else u) := by
  subst hu
  simp only [exec, execReadData, atDest_of_own hi hd, ho]

theorem exec_readData_of_none {data : List Byte} (ho : openT3 (acceptedFrame s p h data.length) h = none) :
    exec (.readData p h data) s = .next (acceptedFrame s p h data.length) := by
  simp only [exec, execReadData, atDest_of_own hi hd, ho]

theorem exec_writeAcknowledgement_of_open {r : T3Req} (ho : openT3 (acceptedFrame s p h 0) h = some r) {u : State} (hu : acceptedFrame s p h 0 = u) :
    exec (.writeAcknowledgement p h) s = .next (if r.isRead then u else
      checkPhase { u with fab := { u.fab with t3 := u.fab.t3.erase r } }) := by
  subst hu
  simp only [exec, execWriteAcknowledgement, atDest_of_own hi hd, List.length_nil, ho]

theorem exec_writeAcknowledgement_of_none (ho : openT3 (acceptedFrame s p h 0) h = none) :
    exec (.writeAcknowledgement p h) s = .next (acceptedFrame s p h 0) := by
  simp only [exec, execWriteAcknowledgement, atDest_of_own hi hd, List.length_nil, ho]

theorem exec_failureResponse_of_open {r : T3Req} (ho : openT3 (acceptedFrame s p h 64) h = some r) (st : Nat) :
    exec (.failureResponse p h st) s = .next (checkPhase (failT3 (acceptedFrame s p h 64) r)) := by
  simp only [exec, execFailureResponse, atDest_of_own hi hd, padTo_length, ho]

theorem exec_failureResponse_of_none (ho : openT3 (acceptedFrame s p h 64) h = none) (st : Nat) :
    exec (.failureResponse p h st) s = .next (acceptedFrame s p h 64) := by
  simp only [exec, execFailureResponse, atDest_of_own hi hd, padTo_length, ho]

end

/-! ### Link control, errors, and ports that take no frame (R460, R465, R466) -/

/-- A link control frame that acknowledges every frame sent only takes its link field, on a port that hears one. -/
theorem exec_linkControl_of_acknowledged (hn : s.flt.pending = none)
    (hs : (fport s p.val).state = 2 ∨ (fport s p.val).state = 3 ∨ (fport s p.val).state = 4) (hc : h.crcOk = true) (hf : h.fecOk = true)
    {u : State} (hu : takeLink (setFport s p.val { fport s p.val with partnerNode := h.src.toNat }) p.val h = u)
    (ha : (fport u p.val).unacked = []) : exec (.linkControl p h) s = .next u := by
  have hears : ¬((fport s p.val).state ≠ 2 ∧ (fport s p.val).state ≠ 3 ∧ (fport s p.val).state ≠ 4) := by omega
  simp only [exec, execLinkControl, if_neg hears, takeInjection_none hn, hc, hf, hu, ha, Option.isSome_none, Bool.true_eq_false,
    Bool.false_eq_true, false_and, or_self, if_false, List.any_nil, List.isEmpty_nil, if_true]

theorem exec_linkControl_of_deaf (hs : (fport s p.val).state ∉ [2, 3, 4]) : exec (.linkControl p h) s = .next s := by
  have deaf : (fport s p.val).state ≠ 2 ∧ (fport s p.val).state ≠ 3 ∧ (fport s p.val).state ≠ 4 := by
    simpa only [List.mem_cons, List.not_mem_nil, or_false, not_or] using hs
  simp only [exec, execLinkControl, if_pos deaf]

section
variable (h3 : (fport s p.val).state ≠ 3) (data : List Byte)
include h3

theorem exec_writeRequest_of_not_up : exec (.writeRequest p h data) s = .next s := by
  simp only [exec, execWriteRequest, atDest, receive_of_not_up h3]

theorem exec_readData_of_not_up : exec (.readData p h data) s = .next s := by
  simp only [exec, execReadData, atDest, receive_of_not_up h3]

end

section
variable (hn : s.flt.pending = none) (h3 : (fport s p.val).state = 3) (hc : h.crcOk = false) (hf : h.fecOk = true) (data : List Byte)
include hn h3 hc hf

theorem exec_writeRequest_of_crc : exec (.writeRequest p h data) s = .next (crcError s p.val 0) := by
  simp only [exec, execWriteRequest, atDest, receive_of_crc hn h3 hc hf]

theorem exec_readData_of_crc : exec (.readData p h data) s = .next (crcError s p.val 0) := by
  simp only [exec, execReadData, atDest, receive_of_crc hn h3 hc hf]

end

theorem exec_reservedFrameType_of_up {ty : BitVec 4} (h3 : (fport s p.val).state = 3) (ht : 7 ≤ ty.toNat) :
    exec (.reservedFrameType p ty) s = .next (crcError s p.val 0) := by
  simp only [exec, execReservedFrameType, h3, ht, beq_self_eq_true, decide_true, Bool.and_self, onlyIf_true]

end

/-- Settles O55: the frames that are accepted, by their destination; the link control frames; the frames in error or on a port that takes none. -/
theorem friezeDataFrames : Obligations.FriezeDataFrames := by
  unfold Obligations.FriezeDataFrames
  refine ⟨fun s p h hn h3 hc hf hs => ?_, fun s p h hn hst hc hf => exec_linkControl_of_acknowledged hn hst hc hf rfl,
    fun s p h data => ⟨exec_linkControl_of_deaf, fun h3 => ⟨exec_writeRequest_of_not_up h3 data, exec_readData_of_not_up h3 data⟩,
      fun h3 hn hc hf => ⟨exec_writeRequest_of_crc hn h3 hc hf data, exec_readData_of_crc hn h3 hc hf data⟩⟩,
    fun s p ty => exec_reservedFrameType_of_up⟩
  have hi : NextInOrder s p h := ⟨hn, h3, hc, hf, hs⟩
  refine ⟨fun hd => ?_, fun hd => ?_⟩
  case refine_1 =>
    exact ⟨fun data => ⟨exec_writeRequest_of_other hi hd data, exec_readData_of_other hi hd data⟩, exec_readRequest_of_other hi hd,
      exec_writeAcknowledgement_of_other hi hd, exec_failureResponse_of_other hi hd⟩
  case refine_2 =>
    exact ⟨fun data => ⟨fun st => exec_writeRequest_of_problem hi hd, fun hp => exec_writeRequest_of_served hi hd hp rfl⟩,
      fun k => ⟨fun st => exec_readRequest_of_problem hi hd, fun hp => exec_readRequest_of_served hi hd hp rfl⟩,
      fun data => ⟨fun r ho => exec_readData_of_open hi hd ho rfl, exec_readData_of_none hi hd⟩,
      fun r ho => exec_writeAcknowledgement_of_open hi hd ho rfl, exec_writeAcknowledgement_of_none hi hd,
      fun st => ⟨fun r ho => exec_failureResponse_of_open hi hd ho st, fun ho => exec_failureResponse_of_none hi hd ho st⟩⟩

end Sys2Proof.Machine
end

section
/-! SUPPORT. Management messages of the fabric: window accesses, the registrar, IDs, the phases of a route update, and requests that are answered or time out (R461, R468, R473 to R476, R479, R480). -/

namespace Sys2Proof.Machine

open Sys2Proof

/-! ### Messages that a port accepts (R461, R463) -/

/-- The state in which a management message of some body length is acknowledged, and its blocks returned (R461, R463, R465). -/
def acceptedMessage (s : State) (p : FriezePort) (bodyLen : Nat) : State := acceptFrame s p.val 3 (1 + (16 + bodyLen + 63) / 64)

theorem managed_of_up {s : State} {p : FriezePort} (h3 : (fport s p.val).state = 3) (n : Nat) (f : State → State) :
    managed s p n f = .next (f (acceptedMessage s p n)) := by
  simp only [managed, h3, beq_self_eq_true, onlyIf_true, acceptedMessage]

section
variable {s : State} {p : FriezePort} (h3 : (fport s p.val).state = 3)
include h3

/-! ### Window accesses and undefined kinds (R341, R461) -/

section
variable (node : BitVec 10) (seq : Word) (off size : Nat) {n : Nat}

theorem exec_windowRead_of_whole (hn : 8 ≤ n) {r : State × Nat} (hr : windowReadOf (acceptedMessage s p n) (.frieze node) off size = r) :
    exec (.windowRead p node seq off size n) s = .next (answer r.1 1 node.toNat 0 seq.toNat (leBytes 8 r.2)) := by
  simp only [exec, execWindowRead, managed_of_up h3, if_neg (Nat.not_lt.mpr hn), hr, stOk]

theorem exec_windowRead_of_short (hn : n < 8) : exec (.windowRead p node seq off size n) s = .next
    (answer (acceptedMessage s p n) 1 node.toNat 0x03 seq.toNat []) := by
  simp only [exec, execWindowRead, managed_of_up h3, if_pos hn, stBadParam]

theorem exec_windowWrite_of_whole (hn : 16 ≤ n) (v : Word64) : exec (.windowWrite p node seq off size v n) s = .next
    (answer (windowWriteOf (acceptedMessage s p n) (.frieze node) off size v) 2 node.toNat 0 seq.toNat []) := by
  simp only [exec, execWindowWrite, managed_of_up h3, if_neg (Nat.not_lt.mpr hn), stOk]

theorem exec_windowWrite_of_short (hn : n < 16) (v : Word64) : exec (.windowWrite p node seq off size v n) s = .next
    (answer (acceptedMessage s p n) 2 node.toNat 0x03 seq.toNat []) := by
  simp only [exec, execWindowWrite, managed_of_up h3, if_pos hn, stBadParam]

end

theorem exec_undefinedKindRequest_of_unknown (node : BitVec 10) (seq : Word) {kind : Nat} (hk : knownKind kind = false) :
    exec (.undefinedKindRequest p node seq kind) s = .next (answer (acceptedMessage s p 0) kind node.toNat 0x02 seq.toNat []) := by
  simp only [exec, execUndefinedKindRequest, managed_of_up h3, hk, Bool.false_eq_true, if_false, stBadOpcode]

/-! ### The lowest identity heard (R473, R474, R480) -/

section
variable {id boot : Nat} {u : State} (hu : acceptedMessage s p 20 = u)
include hu

theorem exec_lowestIdentity_of_lower (hl : id < u.fab.registrarIdentity) : exec (.lowestIdentity p id boot) s = .next (adopt u p.val id boot) := by
  simp only [exec, execLowestIdentity, managed_of_up h3, hu, if_pos hl]

/-- A higher identity on the port where the registrar was heard: this part elects afresh, and may then find the identity lower than its own. -/
theorem exec_lowestIdentity_of_gone (hg : u.fab.registrarIdentity < id) (hr : u.fab.registrar = false) (hp : u.fab.hearPort = some p.val) :
    exec (.lowestIdentity p id boot) s = .next
      (if id < (splitOff u).fab.registrarIdentity then adopt (splitOff u) p.val id boot else splitOff u) := by
  simp only [exec, execLowestIdentity, managed_of_up h3, hu, if_neg (Nat.lt_asymm hg), hg, hr, hp, and_self, if_true]

theorem exec_lowestIdentity_of_higher (hg : u.fab.registrarIdentity < id) (hr : u.fab.registrar = true ∨ u.fab.hearPort ≠ some p.val) :
    exec (.lowestIdentity p id boot) s = .next u := by
  have hstay : ¬(u.fab.registrarIdentity < id ∧ u.fab.registrar = false ∧ u.fab.hearPort = some p.val) := fun ⟨_, hf, hp⟩ =>
    hr.elim (fun ht => Bool.false_ne_true (hf.symm.trans ht)) (fun hn => hn hp)
  have hother : ¬(id = u.fab.registrarIdentity ∧ u.fab.registrar = false ∧ boot ≠ u.fab.registrarBoot) := fun h => Nat.ne_of_gt hg h.1
  simp only [exec, execLowestIdentity, managed_of_up h3, hu, if_neg (Nat.lt_asymm hg), if_neg hstay, if_neg hother]

/-- The registrar with a new boot count has lost what it held for this node. -/
theorem exec_lowestIdentity_of_reboot (hid : id = u.fab.registrarIdentity) (hr : u.fab.registrar = false) (hb : boot ≠ u.fab.registrarBoot) :
    exec (.lowestIdentity p id boot) s = .next
      (reportOwn (broadcast (loseNode { u with fab := { u.fab with registrarBoot := boot } } u.fab.registrarNode))) := by
  simp only [exec, execLowestIdentity, managed_of_up h3, hu, hid, hr, hb, Nat.lt_irrefl, false_and, if_false, ne_eq, not_false_eq_true,
    and_self, if_true]

end

/-! ### Reports and IDs (R474 to R476) -/

theorem exec_report_of_up (seq : Word) (r : Report) {u : State} (hu : acceptedMessage s p 80 = u) : exec (.report p seq r) s = .next
    (if u.fab.registrar then answer (takeReport u r) 0x11 r.nodeId 0 seq.toNat [] else u) := by
  simp only [exec, execReport, managed_of_up h3, hu, stOk]

section
variable (seq : Word) {id node : Nat} (k : Nat) {u : State} (hu : acceptedMessage s p 32 = u)
include hu

theorem exec_idAssignment_of_own (hn : node < 1024) : exec (.idAssignment p seq u.boot.identity node k) s = .next
    (reportOwn (answer (takeId u node k) 0x12 u.fab.registrarNode 0 seq.toNat [])) := by
  simp only [exec, execIdAssignment, managed_of_up h3, hu, if_neg (Nat.not_le.mpr hn), if_true, stOk]

theorem exec_idAssignment_of_past (hn : 1024 ≤ node) : exec (.idAssignment p seq id node k) s = .next
    (answer u 0x12 u.fab.registrarNode 0x03 seq.toNat []) := by
  simp only [exec, execIdAssignment, managed_of_up h3, hu, if_pos hn, stBadParam]

theorem exec_idAssignment_of_peer (hn : node < 1024) (hid : id ≠ u.boot.identity) :
    exec (.idAssignment p seq id node k) s = .next (peerRenumbered u id node) := by
  simp only [exec, execIdAssignment, managed_of_up h3, hu, if_neg (Nat.not_le.mpr hn), if_neg hid]

end

/-! ### Route updates (R480) -/

/-- Entries within their ranges, at most 500 and at least one, start phase 1. -/
theorem exec_routeEntries_of_inRange (seq : Word) (g : Nat) {es : List RouteEntry} (last : Bool) (hne : es ≠ []) (hlen : es.length ≤ 500)
    (hr : ∀ e ∈ es, e.dest < 1024 ∧ (e.valid = true → e.port ≤ 5)) {u : State} (hu : acceptedMessage s p (8 + 8 * es.length) = u) :
    exec (.routeEntries p seq g es last) s = .next (phaseOne (answer u 0x13 u.fab.registrarNode 0 seq.toNat []) g es last) := by
  have hin : es.any (fun e => decide (1024 ≤ e.dest) || (e.valid && decide (5 < e.port))) = false := by
    refine List.any_eq_false.mpr fun e he => ?_
    obtain ⟨hd, hp⟩ := hr e he
    cases hv : e.valid
    · simpa using hd
    · simpa using ⟨hd, hp hv⟩
  have hok : ¬(es.isEmpty = true ∨ 500 < es.length ∨ es.any (fun e => decide (1024 ≤ e.dest) || (e.valid && decide (5 < e.port))) = true) := by
    rw [hin, List.isEmpty_iff]
    exact fun h => h.elim hne (fun h => h.elim (Nat.not_lt.mpr hlen) Bool.false_ne_true)
  simp only [exec, execRouteEntries, managed_of_up h3, hu, if_neg hok, stOk]

theorem exec_phaseDone_of_up (seq : Word) (node g : Nat) {u : State} (hu : answer (acceptedMessage s p 4) 0x14 node 0 seq.toNat [] = u) :
    exec (.phaseDone p seq node g) s = .next (if u.fab.registrar ∧ g = u.fab.generation then phaseDoneBy u node else u) := by
  simp only [exec, execPhaseDone, managed_of_up h3, stOk, hu]

theorem exec_release_of_up (seq : Word) (g : Nat) {u : State}
    (hu : answer (acceptedMessage s p 4) 0x15 (acceptedMessage s p 4).fab.registrarNode 0 seq.toNat [] = u) :
    exec (.release p seq g) s = .next (if g = u.fab.generation then install u else u) := by
  simp only [exec, execRelease, managed_of_up h3, stOk, hu]

/-! ### Answers to window accesses (R461) -/

section
variable (seq : Word) (st : Nat) (v : Word64)

theorem exec_windowAccessResponse_of_open {q : MgmtReq} {u : State} (hu : acceptedMessage s p 8 = u)
    (hq : u.fab.mgmt.find? (fun q => q.seq == seq.toNat && (q.kind == 1 || q.kind == 2)) = some q) {t : State}
    (ht : { u with fab := { u.fab with mgmt := u.fab.mgmt.erase q } } = t) :
    exec (.windowAccessResponse p seq st v) s = .next (if st = 0 then t.emit (.readValue 0 v) else t) := by
  simp only [exec, execWindowAccessResponse, managed_of_up h3, hu, hq, ht, stOk]

theorem exec_windowAccessResponse_of_none
    (hq : (acceptedMessage s p 8).fab.mgmt.find? (fun q => q.seq == seq.toNat && (q.kind == 1 || q.kind == 2)) = none) :
    exec (.windowAccessResponse p seq st v) s = .next (acceptedMessage s p 8) := by
  simp only [exec, execWindowAccessResponse, managed_of_up h3, hq]

end

end

/-! ### Broadcasts, reissues and timeouts (R461, R473, R480) -/

theorem exec_identityBroadcast_of_runs {s : State} (hr : timeRuns s = true) :
    exec .identityBroadcast s = .next (broadcast (fullService s)) := by
  simp only [exec, execIdentityBroadcast, hr, onlyIf_true]

theorem exec_routePhaseReissue_of_updating {s : State} (hu : s.fab.updating ≠ 0) :
    exec .routePhaseReissue s = .next (reportPhaseDone (forEach (openToHeld s) s reissue)) := by
  simp only [exec, execRoutePhaseReissue, bne_iff_ne.mpr hu, onlyIf_true]

section
variable {s : State} {seq : Word} {q : MgmtReq} (hq : s.fab.mgmt.find? (fun q => q.seq == seq.toNat) = some q) {u : State}
  (hu : { s with fab := { s.fab with mgmt := s.fab.mgmt.erase q } } = u)
include hq hu

theorem exec_managementRequestTimeout_of_waiting {w : MbxId × CmdHdr × Nat} (hw : waitsFor u seq.toNat = some w) :
    exec (.managementRequestTimeout seq) s = .next (complete u w.1 w.2.1 0x21 0x07 []) := by
  simp only [exec, execManagementRequestTimeout, hq, hu, hw, stFaulted]

theorem exec_managementRequestTimeout_of_none (hw : waitsFor u seq.toNat = none) : exec (.managementRequestTimeout seq) s = .next u := by
  simp only [exec, execManagementRequestTimeout, hq, hu, hw]

end

/-- Settles O56: each clause is one message on a port that is UP, one wait or one broadcast. -/
theorem fabricManagement : Obligations.FabricManagement := by
  unfold Obligations.FabricManagement
  refine ⟨fun s p h3 => ?_, fun s => exec_identityBroadcast_of_runs, fun s => exec_routePhaseReissue_of_updating,
    fun s seq q hq => ⟨fun w => exec_managementRequestTimeout_of_waiting hq rfl, exec_managementRequestTimeout_of_none hq rfl⟩⟩
  exact ⟨fun node seq off size n hn => exec_windowRead_of_whole h3 node seq off size hn rfl,
    fun node seq off size n v hn => exec_windowWrite_of_whole h3 node seq off size hn v,
    fun node seq off size n v => ⟨exec_windowRead_of_short h3 node seq off size,
      fun hn => exec_windowWrite_of_short h3 node seq off size hn v⟩,
    fun node seq kind => exec_undefinedKindRequest_of_unknown h3 node seq,
    fun id boot => ⟨exec_lowestIdentity_of_lower h3 rfl, exec_lowestIdentity_of_gone h3 rfl, exec_lowestIdentity_of_higher h3 rfl,
      exec_lowestIdentity_of_reboot h3 rfl⟩,
    fun seq r => exec_report_of_up h3 seq r rfl,
    fun seq node k => exec_idAssignment_of_own h3 seq k rfl,
    fun seq id node k => ⟨exec_idAssignment_of_past h3 seq k rfl, exec_idAssignment_of_peer h3 seq k rfl⟩,
    fun seq g es last hne hlen hr => exec_routeEntries_of_inRange h3 seq g last hne hlen hr rfl,
    fun seq node g => exec_phaseDone_of_up h3 seq node g rfl,
    fun seq g => exec_release_of_up h3 seq g rfl,
    fun seq st v => ⟨fun q hq => exec_windowAccessResponse_of_open h3 seq st v rfl hq rfl, exec_windowAccessResponse_of_none h3 seq st v⟩⟩

end Sys2Proof.Machine
end

section
/-! SUPPORT. Reservations asked for, answered, released and lost, T3 requests without an answer, and the Hello of a port in training (R468, R470, R477, R478, R483, R485, R505 to R508). -/

namespace Sys2Proof.Machine

open Sys2Proof

section
variable {s : State} {p : FriezePort} (h3 : (fport s p.val).state = 3)
include h3

/-! ### Reservations at their grantor (R483, R485) -/

section
variable (node : BitVec 10) (seq : Word) {len boot : Nat} {part : Byte} {off : Word64} {u : State}
  (hu : reclaim (acceptedMessage s p 24) (fun r => r.node == node.toNat && r.boot != boot) = u)
include hu

theorem exec_reservationRequest_of_bad (hb : part.toNat / 8 % 16 ≠ 0 ∨ len % 256 ≠ 0 ∨ len = 0) :
    exec (.reservationRequest p node seq len part boot off) s = .next (answer u 0x20 node.toNat 0x03 seq.toNat []) := by
  simp only [exec, execReservationRequest, managed_of_up h3, hu, if_pos hb, stBadParam]

section
variable (hb : ¬(part.toNat / 8 % 16 ≠ 0 ∨ len % 256 ≠ 0 ∨ len = 0))
include hb

theorem exec_reservationRequest_of_full (hg : grantAt u len (resvTier part) (part.toNat % 8) off.toNat = none) :
    exec (.reservationRequest p node seq len part boot off) s = .next (answer u 0x20 node.toNat 0x04 seq.toNat []) := by
  simp only [exec, execReservationRequest, managed_of_up h3, hu, if_neg hb, hg, stNoResource]

theorem exec_reservationRequest_of_free {o : Nat} (hg : grantAt u len (resvTier part) (part.toNat % 8) off.toNat = some o)
    {g : State × Reservation} (hr : grantRange u.fresh.2 node.toNat len boot (resvTier part) (part.toNat % 8) o = g) :
    exec (.reservationRequest p node seq len part boot off) s = .next
      (answer g.1 0x20 node.toNat 0 seq.toNat (leBytes 4 g.2.id ++ leBytes 4 0 ++ leBytes 8 g.2.base)) := by
  simp only [exec, execReservationRequest, managed_of_up h3, hu, if_neg hb, hg, hr, stOk]

end

end

theorem exec_reservationRelease_of_up (node : BitVec 10) (seq : Word) (rid : Nat) {u : State} (hu : acceptedMessage s p 4 = u) :
    exec (.reservationRelease p node seq rid) s = .next (answer { u with fab := { u.fab with
      granted := u.fab.granted.filter (fun r => !(r.id == rid && r.node == node.toNat)) } } 0x21 node.toNat 0 seq.toNat []) := by
  simp only [exec, execReservationRelease, managed_of_up h3, hu, stOk]

/-! ### Reservations at their holder (R122, R483, R485) -/

section
variable (node : BitVec 10) (seq : Word) (rid base : Nat) {v u : State} (hv : acceptedMessage s p 16 = v)
  (hu : { v with fab := { v.fab with mgmt := v.fab.mgmt.filter (fun q => q.seq != seq.toNat) } } = u)
include hv hu

section
variable {q : MgmtReq} {w : MbxId × CmdHdr × Nat}
  (hq : v.fab.mgmt.find? (fun q => q.seq == seq.toNat && q.kind == 0x20 && q.node == node.toNat) = some q)
  (hw : waitsFor v seq.toNat = some w)
include hq hw

theorem exec_reservationResponse_of_granted : exec (.reservationResponse p node seq 0 rid base) s = .next
    (placeGranted u w.1 w.2.1 w.2.2 node.toNat rid base) := by
  simp only [exec, execReservationResponse, managed_of_up h3, hv, hu, hq, hw, stOk, if_true]

theorem exec_reservationResponse_of_refused {st : Nat} (hs : st ≠ 0) : exec (.reservationResponse p node seq st rid base) s = .next
    (complete u w.1 w.2.1 0x21 (if st = 0x04 then 0x04 else 0x07) []) := by
  simp only [exec, execReservationResponse, managed_of_up h3, hv, hu, hq, hw, stOk, if_neg hs]
  rfl

end

/-- A grant that no command waits for is given back. -/
theorem exec_reservationResponse_of_none (hw : waitsFor v seq.toNat = none) (st : Nat) :
    exec (.reservationResponse p node seq st rid base) s = .next (if st = 0 then ask u 0x21 0 node.toNat (leBytes 4 rid) else u) := by
  simp only [exec, execReservationResponse, managed_of_up h3, hv, hu, hw, stOk]
  cases v.fab.mgmt.find? (fun q => q.seq == seq.toNat && q.kind == 0x20 && q.node == node.toNat) <;> rfl

end

theorem exec_reservationFailureNotice_of_up (node : BitVec 10) (rid cause : Nat) {u : State} (hu : acceptedMessage s p 8 = u) :
    exec (.reservationFailureNotice p node rid cause) s = .next
      (forEach (u.fab.heldRes.filter (fun r => r.id == rid && r.node == node.toNat)) u failReservation) := by
  simp only [exec, execReservationFailureNotice, managed_of_up h3, hu]

end

/-! ### T3 requests without an answer (R468) -/

theorem exec_t3RequestTimeout_of_routed {s : State} {tag : BitVec 28} {r : T3Req} (hr : s.fab.t3.find? (fun r => r.tag == tag) = some r)
    (ht : (routeTo s r.node).isSome = true) : exec (.t3RequestTimeout tag) s = .next
      (checkPhase (failT3 (raiseAs s 2 0 (mkEvent 0x52 0xFF r.job 1 r.job (r.node % 1024))) r)) := by
  simp only [exec, execT3RequestTimeout, hr, ht, if_true]
  rfl

/-! ### The Hello of a trained port (R470, R505 to R508) -/

/-- A port has trained, and its Hello is not settled (R469, R470). -/
structure InHello (s : State) (p : FriezePort) : Prop where
  training : (fport s p.val).state = 2
  trained : (fport s p.val).width ≠ 0

/-- The test that the Hello commands make. -/
theorem InHello.test {s : State} {p : FriezePort} (h : InHello s p) :
    ((fport s p.val).state == 2 && (fport s p.val).width != 0) = true := by
  rw [h.training, bne_iff_ne.mpr h.trained]
  rfl

section
variable {s : State} {p : FriezePort} (hh : InHello s p) {u : State}
include hh

theorem exec_helloNonce_of_inHello (hid : s.boot.identityOk = true) (id : Nat) (nonce : List Byte) (hu : acceptFrame s p.val 3 2 = u)
    {sig : Nat × Nat} (hsig : ecdsaSign identityKey (sha256 nonce) = sig)
    {dev ca : Nat} (hdev : fld Config.certChain 4 4 = dev) (hca : fld Config.certChain (8 + dev) 4 = ca) :
    exec (.helloNonce p id nonce) s = .next (sendLocal (setFport u p.val { fport u p.val with partnerIdentity := id }) p.val 0x31
      (beBytes 32 sig.1 ++ beBytes 32 sig.2 ++ leBytes 2 dev ++ leBytes 2 ca ++ leBytes 4 0 ++
        slice Config.certChain 8 dev ++ slice Config.certChain (12 + dev) ca)) := by
  have hok : (setFport u p.val { fport u p.val with partnerIdentity := id }).boot.identityOk = true := by
    rw [← hu]
    exact hid
  simp only [exec, execHelloNonce, hh.test, onlyIf_true, hu, hok, Bool.not_true, Bool.false_eq_true, if_false, hsig, hdev, hca]

/-- A proof gives this node's verdict: 2 where it fails, which raises detector 0x70, else 0 or 1 by the join policy. -/
theorem exec_helloProof_of_inHello (hn : s.flt.pending = none) {r q : Nat} {dev ca : List Byte}
    (hu : acceptFrame s p.val 3 (1 + (16 + 72 + dev.length + ca.length + 63) / 64) = u)
    {holds : Bool} (hp : proofHolds (fport u p.val) r q dev ca = holds)
    {verdict : Nat} (hv : (if holds = false then 2 else if accepts u (fport u p.val).partnerIdentity then 0 else 1) = verdict)
    {v : State} (hw : sendLocal (setFport u p.val { fport u p.val with verdictSent := verdict }) p.val 0x32 (padTo 16 (leBytes 1 verdict)) = v) :
    exec (.helloProof p r q dev ca) s = .next (
      if holds = false then refuse (raiseAs v 1 0 (mkEvent 0x70 0xFF 0 4 0 (certifiedKeyId dev ca))) p.val
      else if verdict = 0 then settle v p.val else refuse v p.val) := by
  have hun : u.flt.pending = none := by
    rw [← hu]
    exact hn
  simp only [exec, execHelloProof, hh.test, onlyIf_true, hu, takeInjection_none hun, Option.isNone_none, Bool.true_and, hp,
    Bool.not_eq_true', hv, hw, injFlags, Option.isSome_none, Bool.false_eq_true, if_false]
  cases holds
  case false =>
    have h2 : verdict ≠ 0 := by
      rw [← hv, if_pos rfl]
      decide
    simp only [if_neg h2, Bool.false_eq_true, if_false, if_true]
  case true => simp only [if_true, Bool.true_eq_false, if_false]

theorem exec_helloVerdict_of_inHello (st n : Nat) (hu : acceptFrame s p.val 3 2 = u)
    {v : State} (hv : setFport u p.val { fport u p.val with verdictGot := min st 2, merged := n } = v) :
    exec (.helloVerdict p st n) s = .next (if st = 0 then settle v p.val else refuse v p.val) := by
  simp only [exec, execHelloVerdict, hh.training, bne_iff_ne.mpr hh.trained, beq_self_eq_true, Bool.and_self, Bool.true_or, onlyIf_true, hu, hv,
    Nat.reduceEqDiff, if_false, ne_eq, ite_not]

end

/-! ### Both verdicts (R410, R477, R478) -/

section
variable {s : State} {p : Nat}

theorem settle_of_open (h : (fport s p).verdictSent = 3 ∨ (fport s p).verdictGot = 3) : settle s p = s := by
  rw [settle, if_pos (Or.inr h)]

section
variable (h2 : (fport s p).state = 2) (hs : (fport s p).verdictSent = 0) (hg : (fport s p).verdictGot = 0)
include h2 hs hg

theorem settle_of_good (hn : s.flt.pending = none) (hm : (fport s p).merged ≤ 1024) : settle s p = portUp s p := by
  simp only [settle, h2, hs, hg, if_neg (Nat.not_lt.mpr hm), takeInjection_none hn, ne_eq, not_true_eq_false, OfNat.zero_ne_ofNat, or_self,
    Option.isSome_none, Bool.false_eq_true, if_false]

/-- A merge that would make an island of more than 1,024 nodes is refused, with detector 0x54 of cause 1. -/
theorem settle_of_tooLarge (hm : 1024 < (fport s p).merged) : settle s p = raise (refuse s p) (mkEvent 0x54 0xFF 0 1 0 p) := by
  simp only [settle, h2, hs, hg, if_pos hm, ne_eq, not_true_eq_false, OfNat.zero_ne_ofNat, or_self, if_false]

end

end

/-- Settles O57: the reservation messages on a port that is UP, the T3 timeout, the Hello of a trained port, and its two verdicts. -/
theorem reservationsAndHello : Obligations.ReservationsAndHello := by
  unfold Obligations.ReservationsAndHello
  refine ⟨fun s p h3 => ?_, fun s tag r => exec_t3RequestTimeout_of_routed, fun s p h2 hw hn hid => ?_, fun s p h2 hn => ?_⟩
  case refine_1 =>
    exact ⟨fun node seq len boot part off => ⟨exec_reservationRequest_of_bad h3 node seq rfl, exec_reservationRequest_of_full h3 node seq rfl,
        fun hb o hg => exec_reservationRequest_of_free h3 node seq rfl hb hg rfl⟩,
      fun node seq rid base q w hq hw => ⟨exec_reservationResponse_of_granted h3 node seq rid base rfl rfl hq hw,
        fun st => exec_reservationResponse_of_refused h3 node seq rid base rfl rfl hq hw⟩,
      fun node seq st rid base hw => exec_reservationResponse_of_none h3 node seq rid base rfl rfl hw st,
      fun node seq rid => exec_reservationRelease_of_up h3 node seq rid rfl,
      fun node rid cause => exec_reservationFailureNotice_of_up h3 node rid cause rfl⟩
  case refine_2 =>
    have hh : InHello s p := ⟨h2, hw⟩
    exact ⟨fun id nonce => exec_helloNonce_of_inHello hh hid id nonce rfl rfl rfl rfl,
      fun r q dev ca => exec_helloProof_of_inHello hh hn rfl rfl rfl rfl, fun st n => exec_helloVerdict_of_inHello hh st n rfl rfl⟩
  case refine_3 =>
    exact ⟨settle_of_open, fun hs hg => ⟨settle_of_good h2 hs hg hn, settle_of_tooLarge h2 hs hg⟩⟩

end Sys2Proof.Machine
end

section
/-! SUPPORT. The states of a link: training and its end, widths, replay, starved channels, and ports that go down (R429, R464 to R466, R469 to R472, R482, R486). -/

namespace Sys2Proof.Machine

open Sys2Proof

/-! ### A port in its table (R459) -/

@[simp] theorem fport_setFport (s : State) (q : FriezePort) (x : FPort) : fport (setFport s q.val x) q.val = x := by
  simp [fport, setFport, List.getD_eq_getElem?_getD]

theorem forEach_emit_fab {α : Type} (e : α → Emission) (xs : List α) (s : State) : (forEach xs s (fun s x => s.emit (e x))).fab = s.fab := by
  induction xs generalizing s with
  | nil => rfl
  | cons x xs ih => exact ih _

theorem fport_of_fab {s t : State} (h : t.fab = s.fab) (p : Nat) : fport t p = fport s p := by rw [fport, fport, h]

/-! ### Training (R469 to R471) -/

theorem widthOf_zero : (widthOf 0 4).1 = 0 := by decide

theorem widthOf_ne_zero : ∀ u : BitVec 4, u ≠ 0 → (widthOf u 4).1 ≠ 0 := by decide

section
variable {s : State} {q : FriezePort} {x : FPort} (hx : fport s q.val = x)
include hx

theorem exec_signalDetect_of_detect (h1 : x.state = 1) : exec (.signalDetect q) s = .next
    (setFport (patCount s (0x3000 + 64 * q.val) 1) q.val { FPort.off with
      state := 2, trainings := capH (x.trainings + 1), fullPath := x.fullPath, waiting := x.waiting, partnerPort := x.partnerPort
      partnerNode := x.partnerNode, upSince := x.upSince, crcErrors := x.crcErrors, fecCorrected := x.fecCorrected
      fecUncorrectable := x.fecUncorrectable, replayed := x.replayed, widthChanges := x.widthChanges
      creditTimeouts := x.creditTimeouts }) := by
  simp only [exec, execSignalDetect, hx, h1, beq_self_eq_true, onlyIf_true]

theorem exec_linkFullPathEnd_of_fullPath (hf : x.fullPath = true) : exec (.linkFullPathEnd q) s = .next
    (setFport s q.val { x with fullPath := false, state := if x.state = 2 then 1 else x.state }) := by
  simp only [exec, execLinkFullPathEnd, hx, hf, onlyIf_true]

section
variable (h2 : x.state = 2)
include h2

theorem exec_trainingBoundMiss_of_train : exec (.trainingBoundMiss q) s = .next (setFport s q.val { x with state := 1 }) := by
  simp only [exec, execTrainingBoundMiss, hx, h2, beq_self_eq_true, onlyIf_true]

theorem exec_trainingComplete_of_no_lane : exec (.trainingComplete q 0) s = .next (setFport s q.val { x with state := 1 }) := by
  simp only [exec, execTrainingComplete, hx, h2, beq_self_eq_true, onlyIf_true, widthOf_zero, if_true]

/-- A usable lane gives the link its width, and the Hello nonce leaves. -/
theorem exec_trainingComplete_of_lane {u : BitVec 4} (hu : u ≠ 0) {nonce : Nat} (hn : Config.helloNonce s.freeCount % 2 ^ 256 = nonce) :
    exec (.trainingComplete q u) s = .next (sendLocal (setFport s.fresh.2 q.val { x with
      width := (widthOf u 4).1, lanes := (widthOf u 4).2, nonceSent := nonce, merged := 0, credits := freshCredits
      txSeq := 0, rxSeq := 0, unacked := [] }) q.val 0x30 (leBytes 16 s.boot.identity ++ leBytes 32 nonce)) := by
  subst hn
  simp only [exec, execTrainingComplete, hx, beq_iff_eq.mpr h2, onlyIf_true, if_neg (widthOf_ne_zero u hu), fport_of_fab (State.fresh_fab s)]
  rfl

/-! ### Ports that lose their link (R464, R466, R472) -/

theorem exec_linkSignalLoss_of_train : exec (.linkSignalLoss q) s = .next (setFport s q.val { x with state := 1 }) := by
  simp only [exec, execLinkSignalLoss, loseLink, hx, carries, h2, Nat.reduceBEq, Bool.or_self, Bool.false_eq_true, if_false, if_true]

end

/-- A port in service goes down with its signal, as no injection marks the event. -/
theorem exec_linkSignalLoss_of_carries (hn : s.flt.pending = none) (hc : carries x = true) :
    exec (.linkSignalLoss q) s = .next (portDown s q.val 0) := by
  simp only [exec, execLinkSignalLoss, loseLink, hx, hc, if_true, takeInjection_none hn, injFlags, Option.isSome_none, Bool.false_eq_true,
    if_false]

theorem exec_linkIdleTimeout_of_heard (hn : s.flt.pending = none) (hs : x.state = 3 ∨ x.state = 4) :
    exec (.linkIdleTimeout q) s = .next (portDown s q.val 0) := by
  have ht : (x.state == 3 || x.state == 4) = true := by simpa only [Bool.or_eq_true, beq_iff_eq] using hs
  have hc : carries x = true := by rw [carries, ht, Bool.true_or]
  simp only [exec, execLinkIdleTimeout, hx, ht, onlyIf_true, loseLink, hc, if_true, takeInjection_none hn, injFlags, Option.isSome_none,
    Bool.false_eq_true, if_false]

theorem exec_linkIdleTimeout_of_other (h3 : x.state ≠ 3) (h4 : x.state ≠ 4) : exec (.linkIdleTimeout q) s = .next s := by
  simp only [exec, execLinkIdleTimeout, hx, beq_false_of_ne h3, beq_false_of_ne h4, Bool.or_self, onlyIf_false]

/-- A channel whose next frame lacks credits raises detector 0x55 and takes the link full path. -/
theorem exec_creditTimeout_of_starved (hn : s.flt.pending = none) {vc : BitVec 2} (h3 : x.state = 3)
    (hs : starved x (heldDest s) vc.toNat = true) : exec (.creditTimeout q vc) s = .next
      (linkFullPath (raiseAs (setFport s q.val { x with creditTimeouts := capH (x.creditTimeouts + 1) }) 2 0
        (mkEvent 0x55 0xFF 0 0 0 (q.val + vc.toNat * 256))) q.val) := by
  simp only [exec, execCreditTimeout, takeInjection_none hn, hx, h3, hs, beq_self_eq_true, Bool.or_true, Bool.and_self, onlyIf_true, injFlags,
    Option.isSome_none, Bool.false_eq_true, if_false]

/-! ### Widths (R472, R486) -/

section
variable {u : BitVec 4}

section
variable (hn : s.flt.pending = none) (h3 : x.state = 3) (hl : x.lanes &&& ~~~u ≠ 0)
include hn h3 hl

theorem exec_widthChange_of_left {new : Nat} (hw : (widthOf u x.width).1 = new) (h0 : new ≠ 0) {lanes : BitVec 4}
    (hv : (widthOf u x.width).2 = lanes) : exec (.widthChange q u) s = .next (raiseAs (patCount (setFport s q.val
      { x with state := 5, width := new, lanes := lanes, widthChanges := capH (x.widthChanges + 1) }) (0x3004 + 64 * q.val) 1) 1 0
      (mkEvent 0x53 0xFF 0 0 0 (q.val + x.width * 2 ^ 8 + new * 2 ^ 16 + lanes.toNat * 2 ^ 24))) := by
  simp only [exec, execWidthChange, takeInjection_none hn, hx, h3, bne_iff_ne.mpr hl, beq_self_eq_true, Bool.and_self, onlyIf_true, hw, hv,
    if_neg h0, injFlags, Option.isSome_none, Bool.false_eq_true, if_false]

theorem exec_widthChange_of_none (hw : (widthOf u x.width).1 = 0) : exec (.widthChange q u) s = .next (portDown s q.val 0) := by
  simp only [exec, execWidthChange, takeInjection_none hn, hx, h3, bne_iff_ne.mpr hl, beq_self_eq_true, Bool.and_self, onlyIf_true, hw,
    injFlags, Option.isSome_none, Bool.false_eq_true, if_false, if_true]

end

/-- A port that is not UP, or whose lanes in use stay usable, keeps its width. -/
theorem exec_widthChange_of_kept (hn : s.flt.pending = none) (hk : x.state ≠ 3 ∨ x.lanes &&& ~~~u = 0) :
    exec (.widthChange q u) s = .next s := by
  have ht : (x.state == 3 && x.lanes &&& ~~~u != 0) = false := by
    rcases hk with h | h
    · rw [beq_false_of_ne h, Bool.false_and]
    · rw [h, bne_self_eq_false, Bool.and_false]
  simp only [exec, execWidthChange, takeInjection_none hn, hx, ht, onlyIf_false]

end

/-! ### Replay and link control frames (R465, R466, R472, R482) -/

theorem exec_retrainComplete_of_retrain (h5 : x.state = 5) : exec (.retrainComplete q) s = .next
    (pumpPort (replayAll (setFport s q.val { x with state := 3 }) q.val) q.val) := by
  simp only [exec, execRetrainComplete, hx, h5, beq_self_eq_true, onlyIf_true]

/-- A replay counts every unacknowledged frame and keeps the rest of its port. -/
theorem fport_replayAll : fport (replayAll s q.val) q.val =
    { x with unacked := x.unacked.map (fun f => { f with replays := f.replays + 1 }), replayed := capW (x.replayed + x.unacked.length) } := by
  subst hx
  unfold replayAll
  dsimp only
  rw [fport_of_fab (forEach_emit_fab _ _ _), fport_setFport]

theorem exec_equalisationUpdate_of_up (h3 : x.state = 3) : exec (.equalisationUpdate q) s = .next (sendControl (setFport s.fresh.2 q.val
    { x with fecCorrected := capW (x.fecCorrected + Config.freeNat s.freeCount) }) q.val 0 0) := by
  simp only [exec, execEqualisationUpdate, hx, beq_iff_eq.mpr h3, onlyIf_true, fport_of_fab (State.fresh_fab s)]
  rfl

theorem exec_linkIdleFrameSend_of_idle (hs : x.state = 3 ∨ x.state = 4) (hw : x.waiting = []) :
    exec (.linkIdleFrameSend q) s = .next (sendControl s q.val 0 0) := by
  have ht : (x.state == 3 || x.state == 4) = true := by simpa only [Bool.or_eq_true, beq_iff_eq] using hs
  simp only [exec, execLinkIdleFrameSend, hx, ht, hw, List.isEmpty_nil, Bool.and_self, onlyIf_true]

end

/-- Settles O58: each clause is one event of a link in the state that takes it. -/
theorem linkStates : Obligations.LinkStates := by
  unfold Obligations.LinkStates
  intro s q hn
  have hup (h3 : (fport s q.val).state = 3) : carries (fport s q.val) = true := by rw [carries, h3]; rfl
  exact ⟨exec_signalDetect_of_detect rfl, exec_trainingBoundMiss_of_train rfl, exec_trainingComplete_of_no_lane rfl,
    fun u h2 hu => exec_trainingComplete_of_lane rfl h2 hu rfl, exec_linkFullPathEnd_of_fullPath rfl, exec_equalisationUpdate_of_up rfl,
    fun u h3 hl h0 => exec_widthChange_of_left rfl hn h3 hl rfl h0 rfl, fun u => exec_widthChange_of_none rfl hn,
    fun u => exec_widthChange_of_kept rfl hn, exec_retrainComplete_of_retrain rfl, fport_replayAll rfl, exec_linkIdleFrameSend_of_idle rfl,
    fun vc => exec_creditTimeout_of_starved rfl hn,
    fun h3 => ⟨exec_linkIdleTimeout_of_heard rfl hn (Or.inl h3), exec_linkSignalLoss_of_carries rfl hn (hup h3)⟩,
    exec_linkSignalLoss_of_train rfl,
    fun hc => ⟨exec_linkSignalLoss_of_carries rfl hn hc, fun h4 => exec_linkIdleTimeout_of_heard rfl hn (Or.inr h4)⟩,
    exec_linkIdleTimeout_of_other rfl⟩

end Sys2Proof.Machine
end

section
/-! SUPPORT. Camera ports, their frame-sync outputs and groups, and the CAN FD channels (R541, R550 to R555). -/

namespace Sys2Proof.Machine

open Sys2Proof

/-! ### Camera frames (R541, R550 to R552) -/

/-- A camera port as a frame starts: stamped and numbered, with no line and no flag yet. -/
def cameraStarted (s : State) (c : BitVec 3) (fn : Nat) : Camera :=
  { camera (stampWithin s 8).2 c with startStamp := (stampWithin s 8).1, frameNumber := fn, lines := 0, flags := 0 }

/-- The header of a frame that ends at `stamp`, where `height` lines are configured (R552). -/
def frameHeader (x : Camera) (height stamp : Nat) : List Byte :=
  layout 64 [(0x00, leBytes 8 stamp), (0x08, leBytes 8 x.startStamp), (0x10, leBytes 2 x.frameNumber),
    (0x12, leBytes 2 (x.flags ||| (flag (x.lines == height) 0 + flag (decide (x.lines < height)) 3))),
    (0x14, leBytes 2 x.lines), (0x18, leBytes 4 x.seq)]

section
variable {s : State} {c : BitVec 3} (hw : cameraWorks s c = true)
include hw

section
variable {vc dt : Nat} (h : vc ≠ (cameraSet s c.toNat).2.1 ∨ dt ≠ (cameraSet s c.toNat).1)
include h

theorem exec_frameStart_of_other (fn : Nat) : exec (.frameStart c vc dt fn) s = .next (discardPacket s c) := by
  simp only [exec, execFrameStart, hw, onlyIf_true, if_pos h]

theorem exec_cameraLine_of_other (samples : List Nat) (ecc crc : Bool) :
    exec (.cameraLine c vc dt samples ecc crc) s = .next (discardPacket s c) := by
  simp only [exec, execCameraLine, hw, onlyIf_true, if_pos h]

end

theorem exec_frameEnd_of_other {vc : Nat} (h : vc ≠ (cameraSet s c.toNat).2.1) : exec (.frameEnd c vc) s = .next (discardPacket s c) := by
  simp only [exec, execFrameEnd, hw, onlyIf_true, if_pos h]

section
variable {vc dt : Nat} (hv : vc = (cameraSet s c.toNat).2.1)
include hv

section
variable (hd : dt = (cameraSet s c.toNat).1)
include hd

/-- A frame whose camera has no ring is dropped. -/
theorem exec_frameStart_of_no_ring (hs : openSlot (stampWithin s 8).2 c = none) (fn : Nat) : exec (.frameStart c vc dt fn) s = .next
    (setCamera (stampWithin s 8).2 c { cameraStarted s c fn with slotOpen := false, dropping := true }) := by
  simp only [exec, execFrameStart, hw, onlyIf_true, hv, hd, ne_eq, not_true_eq_false, or_self, if_false, hs, cameraStarted]

section
variable {o : Obj} {off : Nat} (hs : openSlot (stampWithin s 8).2 c = some (o, off))
include hs

theorem exec_frameStart_of_full (hf : ringCap (stampWithin s 8).2 o ≤ ringHeld (stampWithin s 8).2 o) (fn : Nat) :
    exec (.frameStart c vc dt fn) s = .next (setCamera (ringDrop (stampWithin s 8).2 o) c { cameraStarted s c fn with
      slotOpen := false, dropping := true, seq := ((cameraStarted s c fn).seq + 1) % 2 ^ 32 }) := by
  simp only [exec, execFrameStart, hw, onlyIf_true, hv, hd, ne_eq, not_true_eq_false, or_self, if_false, hs, if_pos hf, cameraStarted]

theorem exec_frameStart_of_room (hf : ¬ringCap (stampWithin s 8).2 o ≤ ringHeld (stampWithin s 8).2 o) (fn : Nat) :
    exec (.frameStart c vc dt fn) s = .next (setCamera
      (objWriteBytes (stampWithin s 8).2 o off (List.replicate (ringEntry (stampWithin s 8).2 o) 0)) c
      { cameraStarted s c fn with slotOpen := true, dropping := false }) := by
  simp only [exec, execFrameStart, hw, onlyIf_true, hv, hd, ne_eq, not_true_eq_false, or_self, if_false, hs, if_neg hf, cameraStarted]

end

theorem exec_cameraLine_of_no_slot (hx : (camera s c).slotOpen = false) (samples : List Nat) (ecc crc : Bool) :
    exec (.cameraLine c vc dt samples ecc crc) s = .next s := by
  simp only [exec, execCameraLine, hw, onlyIf_true, hv, hd, ne_eq, not_true_eq_false, or_self, if_false, hx, Bool.not_false, if_true]

section
variable {x : Camera} (hx : camera s c = x) (ho : x.slotOpen = true) {o : Obj} {off : Nat} (hs : openSlot s c = some (o, off))
include hx ho hs

theorem exec_cameraLine_of_low (hl : x.lines < (cameraSet s c.toNat).2.2.2.1) (samples : List Nat) (ecc crc : Bool) :
    exec (.cameraLine c vc dt samples ecc crc) s = .next (setCamera (writeLine s c o off x.lines samples) c
      { x with lines := min 0xFFFF (x.lines + 1), flags := x.flags ||| (flag ecc 1 + flag crc 2) }) := by
  have hflag : flag false 4 = 0 := rfl
  simp only [exec, execCameraLine, hw, onlyIf_true, hv, hd, ne_eq, not_true_eq_false, or_self, if_false, hx, ho, Bool.not_true,
    Bool.false_eq_true, hs, Nat.not_le.mpr hl, decide_false, hflag, Nat.add_zero]

/-- A line past the configured height only marks its frame as too tall. -/
theorem exec_cameraLine_of_tall (hl : ¬x.lines < (cameraSet s c.toNat).2.2.2.1) (samples : List Nat) (ecc crc : Bool) :
    exec (.cameraLine c vc dt samples ecc crc) s = .next (setCamera s c
      { x with lines := min 0xFFFF (x.lines + 1), flags := x.flags ||| (flag ecc 1 + flag crc 2 + 16) }) := by
  have hflag : flag true 4 = 16 := rfl
  simp only [exec, execCameraLine, hw, onlyIf_true, hv, hd, ne_eq, not_true_eq_false, or_self, if_false, hx, ho, Bool.not_true,
    Bool.false_eq_true, hs, Nat.not_lt.mp hl, decide_true, if_true, hflag]

end

end

theorem exec_frameEnd_of_no_slot (hx : (camera s c).slotOpen = false) : exec (.frameEnd c vc) s = .next
    (setCamera s c { camera s c with dropping := false, slotOpen := false }) := by
  simp only [exec, execFrameEnd, hw, onlyIf_true, hv, ne_eq, not_true_eq_false, if_false, hx, Bool.false_eq_true]

/-- The end of a frame writes its header, presents the move of its entry and advances the producer index. -/
theorem exec_frameEnd_of_slot {x : Camera} (hx : camera s c = x) (ho : x.slotOpen = true) {o : Obj} {off : Nat}
    (hs : openSlot s c = some (o, off)) {u : State} (hu : presentPort (objWriteBytes (stampWithin s 8).2 o off
      (frameHeader x (cameraSet s c.toNat).2.2.2.1 (stampWithin s 8).1)) (cameraRing c) (ringEntry (stampWithin s 8).2 o) = u) :
    exec (.frameEnd c vc) s = .next (setCamera (objSetWord u o 0 ((objWord u o 0 + 1) % 2 ^ 32)) c
      { x with slotOpen := false, seq := (x.seq + 1) % 2 ^ 32 }) := by
  subst hu
  simp only [exec, execFrameEnd, hw, onlyIf_true, hv, ne_eq, not_true_eq_false, if_false, hx, ho, if_true, hs, frameHeader]

end

end

/-! ### Frame-sync outputs and camera groups (R553) -/

section
variable {s : State} (hw : portsWork s = true)
include hw

theorem exec_frameSyncPulse_of_unset {c : BitVec 3} (hs : syncSet s c.toNat = none) : exec (.frameSyncPulse c) s = .next s := by
  simp only [exec, execFrameSyncPulse, hw, onlyIf_true, hs]

/-- An output that is set pulses for the last of its instants, unless its phase lies ahead or it has pulsed for it already. -/
theorem exec_frameSyncPulse_of_set {c : BitVec 3} {p ph : Nat} (hs : syncSet s c.toNat = some (p, ph)) {instant : Nat}
    (hi : (s.now - ph) / p * p + ph = instant) : exec (.frameSyncPulse c) s = .next
      (if ph ≤ s.now ∧ s.ports.syncPulses.toList.getD c.toNat 0 < instant then
        { s with ports := { s.ports with syncPulses := s.ports.syncPulses.setIfInBounds c.toNat instant } }.emit (.syncPulse c.toNat)
      else s) := by
  subst hi
  have hset (v : Nat) : s.ports.syncPulses.set c.toNat v c.isLt = s.ports.syncPulses.setIfInBounds c.toNat v :=
    Vector.ext fun j hj => by rw [Vector.getElem_set, Vector.getElem_setIfInBounds]
  simp only [exec, execFrameSyncPulse, hw, hs, onlyIf, if_true, Bool.and_eq_true, decide_eq_true_eq, hset]

theorem exec_cameraGroupPowerOn_of_active (h0 : s.power.state = 0) (g : BitVec 1) : exec (.cameraGroupPowerOn g) s = .next
    ({ s with power := { s.power with cameraOn0 := s.power.cameraOn0 || g == 0, cameraOn1 := s.power.cameraOn1 || g == 1 } }.emit
      (.i2cScript g.toNat ((settingBytes s 0x0250).getD []))) := by
  simp only [exec, execCameraGroupPowerOn, hw, h0, beq_self_eq_true, Bool.and_self, onlyIf_true]
  rfl

end

/-! ### CAN FD (R541, R554, R555) -/

section
variable {s : State} {n : BitVec 2} (hw : canWorks s n = true)
include hw

section
variable (hb : (canPort s n).busOff = false)
include hb

theorem exec_canFrameReceived_of_on {data : List Byte} (hl : data.length ≤ 64) (id : Word) : exec (.canFrameReceived n id data) s = .next
    (if passesFilter s n id then portEntry (stampWithin s 8).2 (0xFFFF0400 + n.toNat)
      (layout 96 [(0x00, leBytes 8 (stampWithin s 8).1), (0x08, leBytes 4 id.toNat), (0x0C, leBytes 1 data.length), (0x10, data)]) else s) := by
  simp only [exec, execCanFrameReceived, hw, hb, hl, Bool.not_false, Bool.true_and, decide_true, Bool.and_true, onlyIf]

/-- The head entry leaves from its launch time to the tick of its expiry, when it wins the bus. -/
theorem exec_canFrameTransmit_of_won {o : Obj} {off due : Nat} {e : List Byte} (hh : canHead s n = some (o, off, e, due)) (hd : due ≤ s.now)
    (hx : s.now ≤ due + 10000000) {u : State} (hu : (presentPort s (0xFFFF0410 + n.toNat) 96).emit
      (.can n.toNat (BitVec.ofNat 32 (fld e 8 4)) (slice e 0x10 (fld e 0xC 1))) = u) :
    exec (.canFrameTransmit n true) s = .next (setCanPort (finishEntry u o (off + 0x0D) 1) n { canPort u n with headAt := u.now }) := by
  subst hu
  simp only [exec, execCanFrameTransmit, hw, hb, Bool.not_false, Bool.and_self, onlyIf_true, hh, hd, hx, decide_true]

theorem exec_canBusOff_of_on : exec (.canBusOff n) s = .next (setCanPort s n
    { canPort s n with busOff := true, busOffs := min 0xFFFFFFFF ((canPort s n).busOffs + 1) }) := by
  simp only [exec, execCanBusOff, hw, hb, Bool.not_false, Bool.and_self, onlyIf_true]

end

theorem exec_canFrameAbandon_of_expired {o : Obj} {off due : Nat} {e : List Byte} (hh : canHead s n = some (o, off, e, due))
    (hd : due + 10000000 < s.now) : exec (.canFrameAbandon n) s = .next (setCanPort (finishEntry s o (off + 0x0D) 2) n
      { canPort s n with headAt := s.now, abandoned := min 0xFFFFFFFF ((canPort s n).abandoned + 1) }) := by
  simp only [exec, execCanFrameAbandon, hw, onlyIf_true, hh, hd, decide_true]

theorem exec_canBusOffRecovery_of_working : exec (.canBusOffRecovery n) s = .next (setCanPort s n { canPort s n with busOff := false }) := by
  simp only [exec, execCanBusOffRecovery, hw, onlyIf_true]

end

/-- Settles O53: each clause is the meaning of its command where its port works, by the slot, the ring or the window that it finds. -/
theorem cameraAndCanPorts : Obligations.CameraAndCanPorts := by
  unfold Obligations.CameraAndCanPorts
  refine ⟨fun s c vc dt fn o off hw hv hd => ⟨fun hs => ?_, fun hs => exec_frameStart_of_no_ring hw hv hd hs fn⟩,
    fun s c vc dt o off samples ecc crc hw hv hd ho hs => ⟨?_, exec_frameEnd_of_slot hw hv rfl ho hs rfl⟩,
    fun s c vc dt fn samples ecc crc hw => ⟨fun h => ⟨exec_frameStart_of_other hw h fn, exec_cameraLine_of_other hw h samples ecc crc⟩,
      exec_frameEnd_of_other hw, fun hx => ⟨fun hv hd => exec_cameraLine_of_no_slot hw hv hd hx samples ecc crc,
        fun hv => exec_frameEnd_of_no_slot hw hv hx⟩⟩,
    fun s c hw => ?_, fun s g hw h0 => exec_cameraGroupPowerOn_of_active hw h0 g,
    fun s n hw => ⟨fun id data hb hl => exec_canFrameReceived_of_on hw hb hl id,
      fun o off e due hh => ⟨fun hb hd hx => exec_canFrameTransmit_of_won hw hb hh hd hx rfl, exec_canFrameAbandon_of_expired hw hh⟩,
      exec_canBusOff_of_on hw, exec_canBusOffRecovery_of_working hw⟩⟩
  · split
    · next hf => exact exec_frameStart_of_full hw hv hd hs hf fn
    · next hf => exact exec_frameStart_of_room hw hv hd hs hf fn
  · split
    · next hl => exact exec_cameraLine_of_low hw hv hd rfl ho hs hl samples ecc crc
    · next hl => exact exec_cameraLine_of_tall hw hv hd rfl ho hs hl samples ecc crc
  · rcases hs : syncSet s c.toNat with _ | ⟨p, ph⟩
    · exact exec_frameSyncPulse_of_unset hw hs
    · exact exec_frameSyncPulse_of_set hw hs rfl

end Sys2Proof.Machine
end
